-- ==== Sys2Proof/Word.lean ====
section
/-! DEFINITION. The word types of the Ecnan and the reading of a word as an integer (R21, R22, R111). -/

namespace Sys2Proof

/-- A 64-bit register word. -/
abbrev Word := BitVec 64
/-- A byte. -/
abbrev Byte := BitVec 8
/-- A 5-bit register field of a tail (R56, R58). -/
abbrev Field := BitVec 5

end Sys2Proof
end

