-- ==== Sys2Proof/Config.lean ====
section
/-! DEFINITION. What the spec leaves open and what an implementation fixes: the free values (constants without a body, so
that nothing can be proved of their values) and the digest and signature functions that the spec names and does not give.
notes/assumptions/5.md, 8.md and 9.md. -/

namespace Sys2Proof

/-- The faithful special functions of R46. -/
inductive FaithfulFn where
  | exp2 | log2 | rsq | sinpi | cospi
  deriving DecidableEq, Repr

/-- R46: where, between the two FP32 values that bracket them, the results of a function turn from the one of smaller magnitude
to the other: a threshold on the input's magnitude, one per function, per lower bracketing value and per branch on which the
function is monotonic. The same input gives the same value on every core and every execution, and each function is monotonic
wherever the true one is. Free (log 8). -/
opaque Config.faithfulCut : FaithfulFn → Nat → Nat → Int

/-- A free choice between two allowed behaviours, one per value of the state's counter (log 5). -/
opaque Config.freeChoice : Nat → Bool

/-- A free 64-bit value, one per value of the state's counter (log 5). -/
opaque Config.freeWord : Nat → BitVec 64

/-- R360: the bytes of an entry of a latch queue in a core record, by what the entry says and the byte's number (log 64). -/
opaque Config.latchEntry : List Nat → Nat → BitVec 8

/-- R375: SHA-384, named by the spec and not given there (log 9). -/
opaque Config.sha384Value : List (BitVec 8) → BitVec 384
/-- The bytes of a digest, the most significant first: 48. -/
def Config.sha384 (b : List (BitVec 8)) : List (BitVec 8) :=
  (List.range 48).map (fun i => (Config.sha384Value b >>> (8 * (47 - i))).truncate 8)

/-- R375: verification of an ECDSA signature on brainpoolP384r1 with the vendor key over a digest (log 9). -/
opaque Config.vendorVerify : List (BitVec 8) → List (BitVec 8) → Bool

/-- R334: verification with the partition key that Bobbin holds under a key id (log 9). -/
opaque Config.partitionVerify : BitVec 8 → List (BitVec 8) → List (BitVec 8) → Bool

/-- R377: the device key's signature over a digest (log 9). -/
opaque Config.deviceSignValue : List (BitVec 8) → BitVec 768
/-- R377: r, then s, 48 bytes each, the most significant byte first. -/
def Config.deviceSign (d : List (BitVec 8)) : List (BitVec 8) :=
  (List.range 96).map (fun i => (Config.deviceSignValue d >>> (8 * (95 - i))).truncate 8)

end Sys2Proof
end

