-- ==== Sys2Proof/Syntax.lean ====
section
/-! DEFINITION. The instructions of Shanak 2 and the hardware steps of the opcode table: one constructor per row of
spec/opcode_table.json. Register fields are the raw 5-bit fields of R56 and R58; the S and P marks of the head (R52)
stand beside the instruction (`Marks`), and a sync tail (R59) is one 12-bit operand. A constructor after `pendingBeat`
is a step of hardware or firmware that has no encoding; its operands name the object it acts on or carry what the
outside supplies. -/

namespace Sys2Proof

/-- The marks of a head (R52): S waits for earlier long-latency results, P pairs with the next instruction. -/
structure Marks where
  s : Bool
  p : Bool
  deriving DecidableEq, Repr

/-- One constructor per row of the opcode table. -/
inductive Instr where
  /-- R71: one turn, nothing but the PC. -/
  | nop
  /-- R112: scalar add. -/
  | add (d a b : BitVec 5)
  /-- R112: scalar sub. -/
  | sub (d a b : BitVec 5)
  /-- R112: scalar mul. -/
  | mul (d a b : BitVec 5)
  /-- R112: scalar mulh. -/
  | mulh (d a b : BitVec 5)
  /-- R112: scalar mulhu. -/
  | mulhu (d a b : BitVec 5)
  /-- R113: scalar div. -/
  | div (d a b : BitVec 5)
  /-- R113: scalar divu. -/
  | divu (d a b : BitVec 5)
  /-- R113: scalar rem. -/
  | rem (d a b : BitVec 5)
  /-- R113: scalar remu. -/
  | remu (d a b : BitVec 5)
  /-- R112: scalar and. -/
  | andR (d a b : BitVec 5)
  /-- R112: scalar or. -/
  | orR (d a b : BitVec 5)
  /-- R112: scalar xor. -/
  | xorR (d a b : BitVec 5)
  /-- R112: scalar sll. -/
  | sll (d a b : BitVec 5)
  /-- R112: scalar srl. -/
  | srl (d a b : BitVec 5)
  /-- R112: scalar sra. -/
  | sra (d a b : BitVec 5)
  /-- R112: scalar slt. -/
  | slt (d a b : BitVec 5)
  /-- R112: scalar sltu. -/
  | sltu (d a b : BitVec 5)
  /-- R112: scalar min. -/
  | minR (d a b : BitVec 5)
  /-- R112: scalar max. -/
  | maxR (d a b : BitVec 5)
  /-- R112: scalar minu. -/
  | minu (d a b : BitVec 5)
  /-- R112: scalar maxu. -/
  | maxu (d a b : BitVec 5)
  /-- R114: scalar clz. -/
  | clz (d a : BitVec 5)
  /-- R114: scalar ctz. -/
  | ctz (d a : BitVec 5)
  /-- R114: scalar popc. -/
  | popc (d a : BitVec 5)
  /-- R114: scalar mov. -/
  | mov (d a : BitVec 5)
  /-- R115: immediate addi. -/
  | addi (d a : BitVec 5) (imm : BitVec 22)
  /-- R115: immediate andi. -/
  | andi (d a : BitVec 5) (imm : BitVec 22)
  /-- R115: immediate ori. -/
  | ori (d a : BitVec 5) (imm : BitVec 22)
  /-- R115: immediate xori. -/
  | xori (d a : BitVec 5) (imm : BitVec 22)
  /-- R115: immediate slti. -/
  | slti (d a : BitVec 5) (imm : BitVec 22)
  /-- R115: immediate slli. -/
  | slli (d a : BitVec 5) (sh : BitVec 6)
  /-- R115: immediate srli. -/
  | srli (d a : BitVec 5) (sh : BitVec 6)
  /-- R115: immediate srai. -/
  | srai (d a : BitVec 5) (sh : BitVec 6)
  /-- R116: 22-bit constant. -/
  | li (d : BitVec 5) (imm : BitVec 22)
  /-- R116: 64-bit constant into g(X). -/
  | liL (d : BitVec 4) (imm : BitVec 64)
  /-- R117: select by a third register. -/
  | sel (d a b c : BitVec 5)
  /-- R118: extract; len1 is len - 1. -/
  | ext (d a : BitVec 5) (pos len1 : BitVec 6)
  /-- R118: insert; len1 is len - 1. -/
  | ins (d a b : BitVec 5) (pos len1 : BitVec 6)
  /-- R119: conditional branch. -/
  | beq (a b idx : BitVec 5) (off : BitVec 17)
  /-- R119: conditional branch. -/
  | bne (a b idx : BitVec 5) (off : BitVec 17)
  /-- R119: conditional branch. -/
  | blt (a b idx : BitVec 5) (off : BitVec 17)
  /-- R119: conditional branch. -/
  | bge (a b idx : BitVec 5) (off : BitVec 17)
  /-- R119: conditional branch. -/
  | bltu (a b idx : BitVec 5) (off : BitVec 17)
  /-- R119: conditional branch. -/
  | bgeu (a b idx : BitVec 5) (off : BitVec 17)
  /-- R120: jump. -/
  | j (idx : BitVec 5) (off : BitVec 17)
  /-- R120: jump and link. -/
  | jal (l idx : BitVec 5) (off : BitVec 17)
  /-- R121: jump to a register. -/
  | jr (a : BitVec 5)
  /-- R121: jump to a register and link. -/
  | jalr (d a : BitVec 5)
  /-- R124: scalar fadd. -/
  | fadd (f : BitVec 1) (d a b : BitVec 5)
  /-- R124: scalar fsub. -/
  | fsub (f : BitVec 1) (d a b : BitVec 5)
  /-- R124: scalar fmul. -/
  | fmul (f : BitVec 1) (d a b : BitVec 5)
  /-- R124: scalar fdiv. -/
  | fdiv (f : BitVec 1) (d a b : BitVec 5)
  /-- R124: scalar fsqrt. -/
  | fsqrt (f : BitVec 1) (d a : BitVec 5)
  /-- R124: scalar fmin. -/
  | fmin (f : BitVec 1) (d a b : BitVec 5)
  /-- R124: scalar fmax. -/
  | fmax (f : BitVec 1) (d a b : BitVec 5)
  /-- R125: compare, 0/1 and CF. -/
  | fcmp (pred : BitVec 3) (f : BitVec 1) (d a b : BitVec 5)
  /-- R126: one-hot class. -/
  | fclass (f : BitVec 1) (d a : BitVec 5)
  /-- R127: sign manipulation. -/
  | fsgn (op : BitVec 3) (f : BitVec 1) (d a b : BitVec 5)
  /-- R124: fused multiply-add. -/
  | ffma (f : BitVec 1) (d a b c : BitVec 5)
  /-- R128: conversion selected by X. -/
  | fcvt (x : BitVec 4) (d a : BitVec 5)
  /-- R151: scalar load. -/
  | ld (size : BitVec 4) (d a os : BitVec 5) (off : BitVec 17)
  /-- R152: scalar store. -/
  | st (size : BitVec 4) (os a b : BitVec 5) (off : BitVec 17)
  /-- R153: load and empty. -/
  | ldfe (size : BitVec 4) (d a os : BitVec 5) (off : BitVec 17)
  /-- R153: store and fill. -/
  | stfe (os a b : BitVec 5) (off : BitVec 17)
  /-- R153: load a full word. -/
  | ldff (size : BitVec 4) (d a os : BitVec 5) (off : BitVec 17)
  /-- R153: set the full/empty state. -/
  | feset (st : BitVec 1) (a : BitVec 5) (off : BitVec 17)
  /-- R154: atomic add. -/
  | amoAdd (size : BitVec 4) (d a b os : BitVec 5)
  /-- R154: atomic and. -/
  | amoAnd (size : BitVec 4) (d a b os : BitVec 5)
  /-- R154: atomic or. -/
  | amoOr (size : BitVec 4) (d a b os : BitVec 5)
  /-- R154: atomic xor. -/
  | amoXor (size : BitVec 4) (d a b os : BitVec 5)
  /-- R154: atomic min. -/
  | amoMin (size : BitVec 4) (d a b os : BitVec 5)
  /-- R154: atomic max. -/
  | amoMax (size : BitVec 4) (d a b os : BitVec 5)
  /-- R154: atomic minu. -/
  | amoMinu (size : BitVec 4) (d a b os : BitVec 5)
  /-- R154: atomic maxu. -/
  | amoMaxu (size : BitVec 4) (d a b os : BitVec 5)
  /-- R154: atomic swap. -/
  | amoSwap (size : BitVec 4) (d a b os : BitVec 5)
  /-- R156: compare and swap. -/
  | amoCas (size : BitVec 4) (d a b c os : BitVec 5) (sync : BitVec 12)
  /-- R157: atomic floating add. -/
  | amoFadd (size : BitVec 4) (d a b os : BitVec 5)
  /-- R174: fence; o = 1 is .rel. -/
  | fence (o : BitVec 1) (scope : BitVec 3)
  /-- R158: address arithmetic. -/
  | lea (x : BitVec 4) (d a b : BitVec 5) (off : BitVec 17)
  /-- R159: segment query. -/
  | segq (q : BitVec 1) (d a : BitVec 5)
  /-- R105: explicit migration. -/
  | mig (a : BitVec 5)
  /-- R104: set the travel mask. -/
  | tmask (x : BitVec 4) (d a : BitVec 5) (imm : BitVec 22)
  /-- R244: push a task. -/
  | fork (jn : BitVec 1) (a b idx : BitVec 5) (off : BitVec 17)
  /-- R245: wait for a join counter. -/
  | join (a : BitVec 5)
  /-- R106: offer the slot to an arrival. -/
  | yield
  /-- R107: end the thread. -/
  | halt
  /-- R248: collective resample. -/
  | resamp (d a : BitVec 5)
  /-- R247: set the weight. -/
  | wset (a : BitVec 5)
  /-- R258: barrier arrival. -/
  | barArrive (kind : BitVec 2) (d a b : BitVec 5)
  /-- R258: barrier wait. -/
  | barWait (kind : BitVec 2) (a b : BitVec 5)
  /-- R258: barrier arrival and wait. -/
  | barSync (kind : BitVec 2) (a b : BitVec 5)
  /-- R261: post a message. -/
  | msend (any : BitVec 1) (t c v : BitVec 5)
  /-- R262: wait for a matching entry. -/
  | mwait (own : BitVec 1)
  /-- R262: pop a matching entry. -/
  | mpop (own : BitVec 1) (d m : BitVec 5)
  /-- R280: take the head slot. -/
  | cbwait (n : BitVec 2) (d : BitVec 5)
  /-- R280: free the oldest held slot. -/
  | cbrel (n : BitVec 2)
  /-- R280: fill the tail slot. -/
  | cbput (n : BitVec 2) (d a : BitVec 5)
  /-- R95: wait for dependency slots. -/
  | dwait (wait : BitVec 8)
  /-- R277: put a node record. -/
  | nqput (d a b : BitVec 5)
  /-- R277: free the held record. -/
  | nqdone (a : BitVec 5)
  /-- R349: save a fibre frame. -/
  | cxsave (a : BitVec 5)
  /-- R349: load a fibre frame. -/
  | cxload (a : BitVec 5)
  /-- R264: close a step. -/
  | stepmark (d a : BitVec 5)
  /-- R195: claim strips. -/
  | vclaim (d a : BitVec 5)
  /-- R195: renegotiate. -/
  | vrenew (d : BitVec 5)
  /-- R195: give the claim up. -/
  | vfree
  /-- R195: read VL. -/
  | vlen (d : BitVec 5)
  /-- R210: switch matrix mode. -/
  | mmode (m : BitVec 1)
  /-- R196: vector memory vld. -/
  | vld (x : BitVec 4) (d a b : BitVec 5) (off : BitVec 17)
  /-- R196: vector memory vst. -/
  | vst (x : BitVec 4) (d a b : BitVec 5) (off : BitVec 17)
  /-- R196: vector memory vldx. -/
  | vldx (x : BitVec 4) (d a b : BitVec 5) (off : BitVec 17)
  /-- R196: vector memory vstx. -/
  | vstx (x : BitVec 4) (d a b : BitVec 5) (off : BitVec 17)
  /-- R199: vector vadd. -/
  | vadd (x : BitVec 4) (d a b : BitVec 5)
  /-- R199: vector vsub. -/
  | vsub (x : BitVec 4) (d a b : BitVec 5)
  /-- R199: vector vmul. -/
  | vmul (x : BitVec 4) (d a b : BitVec 5)
  /-- R199: vector vmin. -/
  | vmin (x : BitVec 4) (d a b : BitVec 5)
  /-- R199: vector vmax. -/
  | vmax (x : BitVec 4) (d a b : BitVec 5)
  /-- R199: vector vabs. -/
  | vabs (x : BitVec 4) (d a : BitVec 5)
  /-- R199: vector vneg. -/
  | vneg (x : BitVec 4) (d a : BitVec 5)
  /-- R199: vector vand. -/
  | vand (x : BitVec 4) (d a b : BitVec 5)
  /-- R199: vector vor. -/
  | vor (x : BitVec 4) (d a b : BitVec 5)
  /-- R199: vector vxor. -/
  | vxor (x : BitVec 4) (d a b : BitVec 5)
  /-- R199: vector vshl. -/
  | vshl (x : BitVec 4) (d a b : BitVec 5)
  /-- R199: vector vshr. -/
  | vshr (x : BitVec 4) (d a b : BitVec 5)
  /-- R199: vector vsra. -/
  | vsra (x : BitVec 4) (d a b : BitVec 5)
  /-- R200: vector vfadd. -/
  | vfadd (x : BitVec 4) (d a b : BitVec 5)
  /-- R200: vector vfsub. -/
  | vfsub (x : BitVec 4) (d a b : BitVec 5)
  /-- R200: vector vfmul. -/
  | vfmul (x : BitVec 4) (d a b : BitVec 5)
  /-- R201: vector fused multiply-add. -/
  | vffma (x : BitVec 4) (d a b c : BitVec 5)
  /-- R200: vector vfmin. -/
  | vfmin (x : BitVec 4) (d a b : BitVec 5)
  /-- R200: vector vfmax. -/
  | vfmax (x : BitVec 4) (d a b : BitVec 5)
  /-- R200: vector vfdiv. -/
  | vfdiv (x : BitVec 4) (d a b : BitVec 5)
  /-- R202: vector conversion. -/
  | vcvt (x : BitVec 4) (d a c : BitVec 5)
  /-- R203: vector compare. -/
  | vcmp (cond : BitVec 4) (p : BitVec 2) (a b : BitVec 5)
  /-- R204: vector select. -/
  | vsel (k : BitVec 2) (d a b : BitVec 5)
  /-- R204: predicate and. -/
  | vpand (d a b : BitVec 2)
  /-- R204: predicate or. -/
  | vpor (d a b : BitVec 2)
  /-- R204: predicate not. -/
  | vpnot (d a : BitVec 2)
  /-- R205: reduction. -/
  | vredadd (x : BitVec 4) (d a : BitVec 5)
  /-- R205: reduction. -/
  | vredmin (x : BitVec 4) (d a : BitVec 5)
  /-- R205: reduction. -/
  | vredmax (x : BitVec 4) (d a : BitVec 5)
  /-- R206: broadcast or ramp. -/
  | vbcast (x : BitVec 4) (d a : BitVec 5)
  /-- R206: slide. -/
  | vslide (x : BitVec 4) (d a b : BitVec 5) (k : BitVec 17)
  /-- R206: permute. -/
  | vperm (x : BitVec 4) (d a b : BitVec 5)
  /-- R207: special function; p holds PE and k. -/
  | vexp2 (p d a : BitVec 5)
  /-- R207: special function; p holds PE and k. -/
  | vlog2 (p d a : BitVec 5)
  /-- R207: special function; p holds PE and k. -/
  | vrcp (p d a : BitVec 5)
  /-- R207: special function; p holds PE and k. -/
  | vrsq (p d a : BitVec 5)
  /-- R207: special function; p holds PE and k. -/
  | vsqrt (p d a : BitVec 5)
  /-- R207: special function; p holds PE and k. -/
  | vsinpi (p d a : BitVec 5)
  /-- R207: special function; p holds PE and k. -/
  | vcospi (p d a : BitVec 5)
  /-- R331: triangle test. -/
  | vrtri (x : BitVec 4) (d o r t : BitVec 5)
  /-- R219: outer product. -/
  | mop (t : BitVec 1) (a : BitVec 5) (sync : BitVec 12)
  /-- R221: fill the latch. -/
  | bload (a b : BitVec 5) (sync : BitVec 12)
  /-- R222: pass the latch on. -/
  | bpass (sync : BitVec 12)
  /-- R222: drop the latch. -/
  | bpassDrop (sync : BitVec 12)
  /-- R223: clear a tile. -/
  | mzero (t : BitVec 1)
  /-- R224: set the code table. -/
  | tbset (a b : BitVec 5)
  /-- R224: set FA and FB. -/
  | fmtset (a : BitVec 5)
  /-- R224: set SA and SB. -/
  | sclset (a b : BitVec 5)
  /-- R328: declare a pool. -/
  | crpool (kind : BitVec 1) (a b l : BitVec 5) (sync : BitVec 12)
  /-- R329: subscribe. -/
  | crsub (x : BitVec 4) (d a b : BitVec 5) (sync : BitVec 12)
  /-- R330: unsubscribe. -/
  | crunsub (x : BitVec 4) (d a b : BitVec 5) (sync : BitVec 12)
  /-- R313: skip a segment. -/
  | crskip (a : BitVec 5) (sync : BitVec 12)
  /-- R314: promote a segment. -/
  | crpromote (a : BitVec 5) (sync : BitVec 12)
  /-- R315: read LAPN. -/
  | crlap (d a : BitVec 5) (sync : BitVec 12)
  /-- R315: wait for a lap. -/
  | crlapW (d a : BitVec 5) (sync : BitVec 12)
  /-- R285: copy command cpy. -/
  | cpy (a : BitVec 5) (sync : BitVec 12)
  /-- R285: copy command cpgx. -/
  | cpgx (a : BitVec 5) (sync : BitVec 12)
  /-- R285: copy command cpsx. -/
  | cpsx (a : BitVec 5) (sync : BitVec 12)
  /-- R288: copy command cpmc. -/
  | cpmc (a : BitVec 5) (sync : BitVec 12)
  /-- R291: close the open batch. -/
  | cpclose
  /-- R292: wait for batches. -/
  | cpwait (n : BitVec 5)
  /-- R293: drop a cached block. -/
  | cpinval (a : BitVec 5)
  /-- R293: drop every cached block. -/
  | cpinvalAll
  /-- R294: swap a publish pair. -/
  | publish (a : BitVec 5) (scope : BitVec 3) (sync : BitVec 12)
  /-- R365: call a service. -/
  | trap (d a : BitVec 5) (n : BitVec 16)
  /-- R366: return from a lent slot. -/
  | eret
  /-- R367: wait for work. -/
  | wfi
  /-- R350: drop cached non-leaf entries. -/
  | ptsync
  /-- R108: read a system register. -/
  | rdsys (d : BitVec 5) (num : BitVec 12)
  /-- R108: write a system register without a row of its own. -/
  | wrsys (num : BitVec 12) (a : BitVec 5)
  /-- R87: write STAT. -/
  | wrsysStat (a : BitVec 5)
  /-- R109: write TM. -/
  | wrsysTm (a : BitVec 5)
  /-- R134: write KBn or KDn. -/
  | wrsysSegment (n : BitVec 3) (kd : BitVec 1) (a : BitVec 5)
  /-- R142: write a window. -/
  | wrsysWin (m : BitVec 2) (a : BitVec 5)
  /-- R278: configure a circular buffer. -/
  | wrsysCb (n : BitVec 2) (a : BitVec 5)
  /-- R288: write MCBASE. -/
  | wrsysMcbase (a : BitVec 5)
  /-- R396: select a counter event. -/
  | wrsysPmsel (n : BitVec 2) (a : BitVec 5)
  /-- R396: write a counter. -/
  | wrsysPmc (n : BitVec 2) (a : BitVec 5)
  /-- R394: breakpoint. -/
  | brk (code : BitVec 4)
  /-- R394: append a mark. -/
  | tmark (a : BitVec 5) (code : BitVec 16)
  /-- R350: remove translations. -/
  | tlbinv (a : BitVec 5)
  /-- R72: flush a code line. -/
  | cflush (a : BitVec 5)
  /-- R189: a later beat of the current thread. -/
  | pendingBeat
  /-- R393: a write of STOP = 1 takes effect on a core. -/
  | dbgctlStop (core : Nat)
  /-- R393: a write of STOP = 0 takes effect on a core. -/
  | dbgctlResume (core : Nat)
  /-- R122: the line a thread waits for arrives. -/
  | lineFetch (core slot : Nat)
  /-- R92: the k-th outstanding result of a thread lands. -/
  | resultLanding (core slot k : Nat)
  /-- R140: an acknowledgement reaches its issuer. -/
  | acknowledgement (msg : Nat)
  /-- R143: a refusal reaches its issuer. -/
  | negativeAcknowledgement (msg : Nat)
  /-- R143: a remote write or atomic reaches its owner. -/
  | remoteRequest (msg : Nat)
  /-- R343: the walk a thread waits for completes. -/
  | pageWalk (core slot : Nat)
  /-- R345: frame and record of a faulter are written. -/
  | faultRecord (core slot : Nat)
  /-- R347: Bobbin stores page-table entries and wakes the faulter of a slot. -/
  | wake (core slot : Nat) (ptes : List (Nat × BitVec 64))
  /-- R347: the hold period of a LINK_DOWN fault passes. -/
  | faultHoldExpiry (core slot : Nat)
  /-- R96: a waiting migration packs its thread. -/
  | migrationPack (core slot : Nat)
  /-- R101: the k-th travelling packet is accepted. -/
  | arrival (k : Nat)
  /-- R103: Bobbin provides a chunk or cannot. -/
  | chunkAllocation (core : Nat) (deque ok : Bool)
  /-- R102: a free slot is offered work. -/
  | slotOffer (core : Nat)
  /-- R147: one re-check round on a word. -/
  | feRecheckRound (core word : Nat)
  /-- R148: an access at its retry limit traps. -/
  | feTimeout (core slot : Nat)
  /-- R20: a lost request is sent again. -/
  | requestResend (msg : Nat)
  /-- R260: a mailbox entry arrives. -/
  | mailboxArrival (msg : Nat)
  /-- R217: the head of a latch queue starts. -/
  | latchQueueStart (core : Nat)
  /-- R221: a fill of a latch ends. -/
  | fillComplete (core : Nat)
  /-- R218: the ready passes of a cluster move. -/
  | passRound (cluster : Nat)
  /-- R219: a mop finishes its steps. -/
  | mopComplete (core slot : Nat)
  /-- R251: every member has arrived: the comb is dealt. -/
  | resampleComplete (grp : Nat)
  /-- R286: the engine takes the command a thread waits with. -/
  | copyAccept (core slot : Nat)
  /-- R289: the writes of a command are done and its deliveries are made. -/
  | copyCompletion (die eng k : Nat)
  /-- R172: a publish takes effect. -/
  | publishSwap (core slot : Nat)
  /-- R267: a producer stores the write index. -/
  | writeIndex (q wi : Nat)
  /-- R270: a NOP packet starts and ends. -/
  | nopPacket (q : Nat)
  /-- R227: a LAUNCH packet starts. -/
  | launch (q : Nat)
  /-- R231: a ready launch is accepted or fails. -/
  | launchReady (k : Nat)
  /-- R234: a kernel with no live thread and no open copy completes. -/
  | kernelCompletion (k : Nat)
  /-- R270: a COPY packet starts. -/
  | copyPacket (q : Nat)
  /-- R270: a SIGNAL packet with OP 0. -/
  | signalWait (q : Nat)
  /-- R270: a SIGNAL packet with OP 1. -/
  | signalStore (q : Nat)
  /-- R270: a SIGNAL packet with OP 2. -/
  | signalDecrement (q : Nat)
  /-- R270: a BARRIER_AND packet. -/
  | barrierAnd (q : Nat)
  /-- R302: a START command. -/
  | carouselStart (q : Nat)
  /-- R302: a STOP command. -/
  | carouselStop (q : Nat)
  /-- R302: a REPLACE command. -/
  | carouselReplace (q : Nat)
  /-- R302: a PERIOD command. -/
  | carouselPeriod (q : Nat)
  /-- R307: the read of the next segment completes. -/
  | segmentRead (die car : Nat)
  /-- R303: a carousel opens its next slot. -/
  | slotOpen (die car : Nat)
  /-- R306: a delivery reaches a cluster. -/
  | delivery (die k cluster : Nat)
  /-- R320: the IX runs its next batch. -/
  | primitiveBatch (cluster : Nat)
  /-- R337: a WEIGHTLOAD packet starts. -/
  | weightload (q : Nat)
  /-- R337: a shard attempt times out. -/
  | shardTimeout (load shard : Nat)
  /-- R337: the load barrier times out. -/
  | loadBarrierTimeout (load : Nat)
  /-- R338: the load barrier completes with the arrivals of the other packages. -/
  | loadBarrier (load : Nat) (peers : List (Nat × Option Nat))
  /-- R339: a replacement swaps ADM or layers. -/
  | weightReplace (load : Nat)
  /-- R386: a TRACE packet opens a session. -/
  | traceOpen (q : Nat)
  /-- R386: a TRACE packet closes a session. -/
  | traceClose (q : Nat)
  /-- R236: a gang acknowledgement arrives. -/
  | gangAck (k pkg : Nat)
  /-- R237: a gang abort arrives. -/
  | gangAbort (k pkg : Nat)
  /-- R236: the gang timeout passes. -/
  | gangTimeout (k : Nat)
  /-- R236: a gang done message arrives. -/
  | gangDone (k pkg : Nat)
  /-- R256: a member reports a completed local phase. -/
  | gangPhase (k pkg phase : Nat)
  /-- R358: Bobbin pre-empts a context on one cluster. -/
  | preEmption (ctx cluster : Nat)
  /-- R358: a running thread is stopped at the grace limit. -/
  | graceExpiry (core slot : Nat)
  /-- R358: a pre-empted context is restored on one cluster. -/
  | resume (ctx cluster : Nat)
  /-- R361: the next remap step of a hot core. -/
  | thermalMigration (core : Nat)
  /-- R384: the GSC polls a CLC. -/
  | clcPoll (cluster : Nat) (ok : Bool)
  /-- R362: a containment cause ends a context. -/
  | containment (ctx cause : Nat)
  /-- R354: the scrubber or a read finds an ECC error. -/
  | scrub (local_ : Bool) (addr : Nat) (correctable : Bool)
  /-- R374: the 1588 client corrects TIME. -/
  | timeCorrection (offset rate : Int)
  /-- R391: a sampling pulse fires. -/
  | samplingPulse (ctx : Nat)
  /-- R395: a counter at its limit wraps. -/
  | pmcOverflow (core n : Nat)
  /-- R372: a flit is retried. -/
  | flitRetry (port : Nat)
  /-- R372: a port goes down. -/
  | portDown (port : Nat)
  /-- R372: an access with no path faults. -/
  | linkDown (k : Nat)
  /-- R375: the ROM boots. -/
  | reset (seed : BitVec 256) (image sig : List (BitVec 8))
  /-- R379: a partition is created. -/
  | createPartition (p : Nat) (slices heads encoders : List Nat) (image : List (BitVec 8))
  /-- R379: a partition is destroyed. -/
  | destroyPartition (p : Nat)
  /-- R379: a context is created. -/
  | createContext (p root : Nat)
  /-- R379: a queue is created. -/
  | createQueue (ctx ring size ri : Nat) (runtime : Bool)
  /-- R379: a stopped queue is resumed. -/
  | resumeQueue (q : Nat)
  /-- R273: a queue is reset. -/
  | resetQueue (q : Nat)
  /-- R379: a context is killed on request. -/
  | killContext (ctx : Nat)
  /-- R377: a quote is returned. -/
  | quote (p : Nat) (nonce : BitVec 256)
  /-- R382: Bobbin is replaced. -/
  | liveUpdate (image sig : List (BitVec 8)) (version : BitVec 32)
  /-- R380: service 0 answers. -/
  | version (core slot : Nat)
  /-- R380: service 1 answers. -/
  | gracePeriod (core slot : Nat)
  /-- R380: service 2 answers. -/
  | retiredClusters (core slot : Nat)
  /-- R161: the k-th access in flight is performed at its home. -/
  | memorySliceAccess (k : Nat)
  /-- R357: a context is destroyed. -/
  | destroyContext (ctx : Nat)
  /-- R268: a queue is destroyed. -/
  | destroyQueue (q : Nat)
  /-- R369: a port becomes trained. -/
  | portTrained (port : Nat)
  /-- R374: a slewed offset is absorbed. -/
  | offsetAbsorbed
  /-- R20: a slice or switch fails. -/
  | sliceOrSwitchFailure (leaf : Nat) (switch : Bool)
  /-- R337: a shard arrives and is checked. -/
  | shardArrival (load shard : Nat) (bytes : List (BitVec 8))
  deriving DecidableEq, Repr

end Sys2Proof
end

