-- ==== Sys2Proof/WellFormed.lean ====
section
/-! DEFINITION. What an instruction's own fields must satisfy for its encoding to be an instruction (R53, R55, R68 and
the entries): every check that the reserved bits of the encoding do not make already. A hardware step has no encoding and
nothing to check. -/

namespace Sys2Proof

/-- R60: SE = 0 with SET ≠ 0 is illegal. -/
def syncOk (sync : BitVec 12) : Bool := sync.getLsbD 11 || sync.extractLsb' 8 3 == 0

/-- R149: scope 0 to 5 with one of the orders given; scope 7 only with order 0, and only where plain accesses are accepted. -/
def osOk (plain : Bool) (orders : List Nat) (os : BitVec 5) : Bool :=
  let scope := (os.extractLsb' 0 3).toNat
  let order := (os.extractLsb' 3 2).toNat
  if scope ≤ 5 then orders.contains order else plain && scope == 7 && order == 0

/-- R153: `.w` or `.sw`. -/
def feSizeOk (size : BitVec 4) : Bool := size == 2 || size == 6

/-- R154: `.w` or `.l`. -/
def amoSizeOk (size : BitVec 4) : Bool := size == 2 || size == 3

/-- R118: pos + len ≤ 64. -/
def fieldOk (pos len1 : BitVec 6) : Bool := decide (pos.toNat + len1.toNat + 1 ≤ 64)

/-- R254: kind 3 is illegal. -/
def kindOk (kind : BitVec 2) : Bool := kind != 3

/-- R58: a vector destination has bit 4 clear. -/
def vdst (d : BitVec 5) : Bool := !d.getLsbD 4

/-- R192: PE = X[3], k = X[2:1], and k = 0 without PE. -/
def predOk (x : BitVec 4) : Bool := x.getLsbD 3 || x.extractLsb' 1 2 == 0

/-- R191: under `.e64` (W = X[0]) a vector register field is even. -/
def wideOk (x : BitVec 4) (fs : List (BitVec 5)) : Bool :=
  !x.getLsbD 0 || fs.all fun f => f.getLsbD 4 || !f.getLsbD 0

/-- R207: PE in bit 4, k in [1:0], [3:2] zero, and k = 0 without PE. -/
def specOk (p : BitVec 5) : Bool := p.extractLsb' 2 2 == 0 && (p.getLsbD 4 || p == 0)

/-- R331: a vector register whose number is a multiple of 4. -/
def quad (f : BitVec 5) : Bool := !f.getLsbD 4 && f.extractLsb' 0 2 == 0

/-- R327: a ray has X = 0; a weight subscription has X[0] = 1, a target of 0 to 4 and no dst and src1. -/
def subOk (x : BitVec 4) (d a : BitVec 5) : Bool :=
  x == 0 || (x.getLsbD 0 && decide ((x.extractLsb' 1 3).toNat ≤ 4) && d == 0 && a == 0)

/-- The system registers whose write has no row of its own (R108; the rows of R87, R109, R134, R142, R278, R288, R395). -/
def generalNum (num : BitVec 12) : Bool :=
  let n := num.toNat
  !(n ≤ 1 || (0x060 ≤ n && n ≤ 0x063) || (0x070 ≤ n && n ≤ 0x07F) || (0x0A0 ≤ n && n ≤ 0x0A3) || n == 0x0A9
    || (0x0E0 ≤ n && n ≤ 0x0E7))

/-- The checks of an instruction's own fields. -/
def Instr.wf : Instr → Bool
  | .nop => true
  | .add _ _ _ => true
  | .sub _ _ _ => true
  | .mul _ _ _ => true
  | .mulh _ _ _ => true
  | .mulhu _ _ _ => true
  | .div _ _ _ => true
  | .divu _ _ _ => true
  | .rem _ _ _ => true
  | .remu _ _ _ => true
  | .andR _ _ _ => true
  | .orR _ _ _ => true
  | .xorR _ _ _ => true
  | .sll _ _ _ => true
  | .srl _ _ _ => true
  | .sra _ _ _ => true
  | .slt _ _ _ => true
  | .sltu _ _ _ => true
  | .minR _ _ _ => true
  | .maxR _ _ _ => true
  | .minu _ _ _ => true
  | .maxu _ _ _ => true
  | .clz _ _ => true
  | .ctz _ _ => true
  | .popc _ _ => true
  | .mov _ _ => true
  | .addi _ _ _ => true
  | .andi _ _ _ => true
  | .ori _ _ _ => true
  | .xori _ _ _ => true
  | .slti _ _ _ => true
  | .slli _ _ _ => true
  | .srli _ _ _ => true
  | .srai _ _ _ => true
  | .li _ _ => true
  | .liL _ _ => true
  | .sel _ _ _ _ => true
  | .ext _ _ pos len1 => fieldOk pos len1
  | .ins _ _ _ pos len1 => fieldOk pos len1
  | .beq _ _ _ _ => true
  | .bne _ _ _ _ => true
  | .blt _ _ _ _ => true
  | .bge _ _ _ _ => true
  | .bltu _ _ _ _ => true
  | .bgeu _ _ _ _ => true
  | .j _ _ => true
  | .jal _ _ _ => true
  | .jr _ => true
  | .jalr _ _ => true
  | .fadd _ _ _ _ => true
  | .fsub _ _ _ _ => true
  | .fmul _ _ _ _ => true
  | .fdiv _ _ _ _ => true
  | .fsqrt _ _ _ => true
  | .fmin _ _ _ _ => true
  | .fmax _ _ _ _ => true
  | .fcmp pred _ _ _ _ => decide (pred.toNat ≤ 3)
  | .fclass _ _ _ => true
  | .fsgn op _ _ _ _ => decide (op.toNat ≤ 2)
  | .ffma _ _ _ _ _ => true
  | .fcvt _ _ _ => true
  | .ld size _ _ os _ => decide (size.toNat ≤ 6) && osOk true [0, 1] os
  | .st size os _ _ _ => decide (size.toNat ≤ 3) && osOk true [0, 2] os
  | .ldfe size _ _ os _ => feSizeOk size && osOk false [0] os
  | .stfe os _ _ _ => osOk false [0] os
  | .ldff size _ _ os _ => feSizeOk size && osOk false [0] os
  | .feset _ _ _ => true
  | .amoAdd size _ _ _ os => amoSizeOk size && osOk false [0, 1, 2, 3] os
  | .amoAnd size _ _ _ os => amoSizeOk size && osOk false [0, 1, 2, 3] os
  | .amoOr size _ _ _ os => amoSizeOk size && osOk false [0, 1, 2, 3] os
  | .amoXor size _ _ _ os => amoSizeOk size && osOk false [0, 1, 2, 3] os
  | .amoMin size _ _ _ os => amoSizeOk size && osOk false [0, 1, 2, 3] os
  | .amoMax size _ _ _ os => amoSizeOk size && osOk false [0, 1, 2, 3] os
  | .amoMinu size _ _ _ os => amoSizeOk size && osOk false [0, 1, 2, 3] os
  | .amoMaxu size _ _ _ os => amoSizeOk size && osOk false [0, 1, 2, 3] os
  | .amoSwap size _ _ _ os => amoSizeOk size && osOk false [0, 1, 2, 3] os
  | .amoCas size _ _ _ _ os sync => amoSizeOk size && osOk false [0, 1, 2, 3] os && syncOk sync
  | .amoFadd size _ _ _ os => amoSizeOk size && osOk false [0, 1, 2, 3] os
  | .fence _ scope => decide (scope.toNat ≤ 5)
  | .lea x _ _ b _ => (!x.getLsbD 3) && (x.getLsbD 2 || (x == 0 && b == 0))
  | .segq _ _ _ => true
  | .mig _ => true
  | .tmask x _ a imm => (x == 0 && a == 0 && decide (imm.toNat < 65536)) || (x == 1 && imm == 0)
  | .fork jn a b _ _ => (jn == 1 || a == 0) && decide (b.toNat ≤ 12)
  | .join _ => true
  | .yield => true
  | .halt => true
  | .resamp _ _ => true
  | .wset _ => true
  | .barArrive kind _ a b => kindOk kind && (kind == 1 || (a == 0 && b == 0))
  | .barWait kind _ b => kindOk kind && (kind == 1 || b == 0)
  | .barSync kind a b => kindOk kind && (kind == 1 || (a == 0 && b == 0))
  | .msend any t _ _ => any == 0 || t == 0
  | .mwait _ => true
  | .mpop _ _ _ => true
  | .cbwait _ _ => true
  | .cbrel _ => true
  | .cbput _ _ _ => true
  | .dwait _ => true
  | .nqput _ _ _ => true
  | .nqdone _ => true
  | .cxsave _ => true
  | .cxload _ => true
  | .stepmark _ _ => true
  | .vclaim _ _ => true
  | .vrenew _ => true
  | .vfree => true
  | .vlen _ => true
  | .mmode _ => true
  | .vld x d _ b _ => predOk x && vdst d && (x.getLsbD 0 || b == 0)
  | .vst x d _ b _ => predOk x && vdst d && (x.getLsbD 0 || b == 0)
  | .vldx x d _ _ _ => predOk x && vdst d && !x.getLsbD 0
  | .vstx x d _ _ _ => predOk x && vdst d && !x.getLsbD 0
  | .vadd x d a b => predOk x && vdst d && wideOk x [d, a, b]
  | .vsub x d a b => predOk x && vdst d && wideOk x [d, a, b]
  | .vmul x d a b => predOk x && vdst d && wideOk x [d, a, b]
  | .vmin x d a b => predOk x && vdst d && wideOk x [d, a, b]
  | .vmax x d a b => predOk x && vdst d && wideOk x [d, a, b]
  | .vabs x d a => predOk x && vdst d && wideOk x [d, a]
  | .vneg x d a => predOk x && vdst d && wideOk x [d, a]
  | .vand x d a b => predOk x && vdst d && wideOk x [d, a, b]
  | .vor x d a b => predOk x && vdst d && wideOk x [d, a, b]
  | .vxor x d a b => predOk x && vdst d && wideOk x [d, a, b]
  | .vshl x d a b => predOk x && vdst d && wideOk x [d, a, b]
  | .vshr x d a b => predOk x && vdst d && wideOk x [d, a, b]
  | .vsra x d a b => predOk x && vdst d && wideOk x [d, a, b]
  | .vfadd x d a b => predOk x && vdst d && wideOk x [d, a, b]
  | .vfsub x d a b => predOk x && vdst d && wideOk x [d, a, b]
  | .vfmul x d a b => predOk x && vdst d && wideOk x [d, a, b]
  | .vffma x d a b c => predOk x && vdst d && wideOk x [d, a, b, c]
  | .vfmin x d a b => predOk x && vdst d && wideOk x [d, a, b]
  | .vfmax x d a b => predOk x && vdst d && wideOk x [d, a, b]
  | .vfdiv x d a b => predOk x && vdst d && wideOk x [d, a, b]
  | .vcvt x d _ c => predOk x && !x.getLsbD 0 && vdst d && decide (c.toNat < 16)
  | .vcmp cond _ _ _ => decide (cond.toNat ≤ 9)
  | .vsel _ d _ _ => vdst d
  | .vpand _ _ _ => true
  | .vpor _ _ _ => true
  | .vpnot _ _ => true
  | .vredadd x _ _ => predOk x
  | .vredmin x _ _ => predOk x
  | .vredmax x _ _ => predOk x
  | .vbcast x d _ => predOk x && vdst d
  | .vslide x d _ _ _ => predOk x && vdst d && !x.getLsbD 0
  | .vperm x d _ _ => predOk x && vdst d && !x.getLsbD 0
  | .vexp2 p d _ => specOk p && vdst d
  | .vlog2 p d _ => specOk p && vdst d
  | .vrcp p d _ => specOk p && vdst d
  | .vrsq p d _ => specOk p && vdst d
  | .vsqrt p d _ => specOk p && vdst d
  | .vsinpi p d _ => specOk p && vdst d
  | .vcospi p d _ => specOk p && vdst d
  | .vrtri x d o r _ => predOk x && !x.getLsbD 0 && quad d && quad o && quad r
  | .mop _ _ sync => syncOk sync
  | .bload _ _ sync => syncOk sync
  | .bpass sync => syncOk sync
  | .bpassDrop sync => syncOk sync
  | .mzero _ => true
  | .tbset _ _ => true
  | .fmtset _ => true
  | .sclset _ _ => true
  | .crpool _ _ _ _ sync => syncOk sync
  | .crsub x d a _ sync => subOk x d a && syncOk sync
  | .crunsub x d a _ sync => subOk x d a && syncOk sync
  | .crskip _ sync => syncOk sync
  | .crpromote _ sync => syncOk sync
  | .crlap _ _ sync => syncOk sync
  | .crlapW _ _ sync => syncOk sync
  | .cpy _ sync => syncOk sync
  | .cpgx _ sync => syncOk sync
  | .cpsx _ sync => syncOk sync
  | .cpmc _ sync => syncOk sync
  | .cpclose => true
  | .cpwait n => decide (n.toNat ≤ 16)
  | .cpinval _ => true
  | .cpinvalAll => true
  | .publish _ scope sync => decide (scope.toNat ≤ 5) && sync.getLsbD 11 == false && syncOk sync
  | .trap _ _ _ => true
  | .eret => true
  | .wfi => true
  | .ptsync => true
  | .rdsys _ _ => true
  | .wrsys num _ => generalNum num
  | .wrsysStat _ => true
  | .wrsysTm _ => true
  | .wrsysSegment _ _ _ => true
  | .wrsysWin _ _ => true
  | .wrsysCb _ _ => true
  | .wrsysMcbase _ => true
  | .wrsysPmsel _ _ => true
  | .wrsysPmc _ _ => true
  | .brk _ => true
  | .tmark _ _ => true
  | .tlbinv _ => true
  | .cflush _ => true
  | .pendingBeat => true
  | .dbgctlStop _ => true
  | .dbgctlResume _ => true
  | .lineFetch _ _ => true
  | .resultLanding _ _ _ => true
  | .acknowledgement _ => true
  | .negativeAcknowledgement _ => true
  | .remoteRequest _ => true
  | .pageWalk _ _ => true
  | .faultRecord _ _ => true
  | .wake _ _ _ => true
  | .faultHoldExpiry _ _ => true
  | .migrationPack _ _ => true
  | .arrival _ => true
  | .chunkAllocation _ _ _ => true
  | .slotOffer _ => true
  | .feRecheckRound _ _ => true
  | .feTimeout _ _ => true
  | .requestResend _ => true
  | .mailboxArrival _ => true
  | .latchQueueStart _ => true
  | .fillComplete _ => true
  | .passRound _ => true
  | .mopComplete _ _ => true
  | .resampleComplete _ => true
  | .copyAccept _ _ => true
  | .copyCompletion _ _ _ => true
  | .publishSwap _ _ => true
  | .writeIndex _ _ => true
  | .nopPacket _ => true
  | .launch _ => true
  | .launchReady _ => true
  | .kernelCompletion _ => true
  | .copyPacket _ => true
  | .signalWait _ => true
  | .signalStore _ => true
  | .signalDecrement _ => true
  | .barrierAnd _ => true
  | .carouselStart _ => true
  | .carouselStop _ => true
  | .carouselReplace _ => true
  | .carouselPeriod _ => true
  | .segmentRead _ _ => true
  | .slotOpen _ _ => true
  | .delivery _ _ _ => true
  | .primitiveBatch _ => true
  | .weightload _ => true
  | .shardTimeout _ _ => true
  | .loadBarrierTimeout _ => true
  | .loadBarrier _ _ => true
  | .weightReplace _ => true
  | .traceOpen _ => true
  | .traceClose _ => true
  | .gangAck _ _ => true
  | .gangAbort _ _ => true
  | .gangTimeout _ => true
  | .gangDone _ _ => true
  | .gangPhase _ _ _ => true
  | .preEmption _ _ => true
  | .graceExpiry _ _ => true
  | .resume _ _ => true
  | .thermalMigration _ => true
  | .clcPoll _ _ => true
  | .containment _ _ => true
  | .scrub _ _ _ => true
  | .timeCorrection _ _ => true
  | .samplingPulse _ => true
  | .pmcOverflow _ _ => true
  | .flitRetry _ => true
  | .portDown _ => true
  | .linkDown _ => true
  | .reset _ _ _ => true
  | .createPartition _ _ _ _ _ => true
  | .destroyPartition _ => true
  | .createContext _ _ => true
  | .createQueue _ _ _ _ _ => true
  | .resumeQueue _ => true
  | .resetQueue _ => true
  | .killContext _ => true
  | .quote _ _ => true
  | .liveUpdate _ _ _ => true
  | .version _ _ => true
  | .gracePeriod _ _ => true
  | .retiredClusters _ _ => true
  | .memorySliceAccess _ => true
  | .destroyContext _ => true
  | .destroyQueue _ => true
  | .portTrained _ => true
  | .offsetAbsorbed => true
  | .sliceOrSwitchFailure _ _ => true
  | .shardArrival _ _ _ => true

end Sys2Proof
end

