-- ==== Sys2Proof/Decode.lean ====
section
/-! DEFINITION. Lines, heads, tails, the encoder and the decoder (R49 to R60, R70 and the entries). An encoding is an
instruction when the fields read from it make a well-formed instruction whose own encoding is that very word: so a
reserved bit that is not zero, in X or in the tail, refuses it (R53, R55). -/

namespace Sys2Proof

/-- One instruction's encoding: opcode, X, the length code L of its tail format (R50) and the tail, its bit 0 first. -/
structure Enc where
  op : BitVec 8
  x : BitVec 4
  len : BitVec 2
  tail : BitVec 64
  deriving DecidableEq, Repr

/-- R54, T2. -/
def packT2 (d a b : BitVec 5) : BitVec 64 := 0#48 ++ d ++ a ++ b ++ 0#1
/-- R54, T4.I. -/
def packTI (d a : BitVec 5) (imm : BitVec 22) : BitVec 64 := 0#32 ++ d ++ a ++ imm
/-- R54, T4.R. -/
def packTR (d a b : BitVec 5) (imm : BitVec 17) : BitVec 64 := 0#32 ++ d ++ a ++ b ++ imm
/-- R54, T4.Y. -/
def packTY (d a b aux : BitVec 5) (sync : BitVec 12) : BitVec 64 := 0#32 ++ d ++ a ++ b ++ aux ++ sync
/-- R54, T8.W with imm20 zero, which no entry uses. -/
def packTW (d a b c : BitVec 5) (aux sync : BitVec 12) : BitVec 64 := d ++ a ++ b ++ c ++ aux ++ 0#20 ++ sync

/-- The encoding of an instruction (R70 and the entries); a hardware step has none. -/
def encode : Instr → Option Enc
  | .nop => some ⟨0x00#8, 0, 0, 0⟩
  | .add d a b => some ⟨0x01#8, 0, 1, (packT2 d a b)⟩
  | .sub d a b => some ⟨0x02#8, 0, 1, (packT2 d a b)⟩
  | .mul d a b => some ⟨0x03#8, 0, 1, (packT2 d a b)⟩
  | .mulh d a b => some ⟨0x04#8, 0, 1, (packT2 d a b)⟩
  | .mulhu d a b => some ⟨0x05#8, 0, 1, (packT2 d a b)⟩
  | .div d a b => some ⟨0x06#8, 0, 1, (packT2 d a b)⟩
  | .divu d a b => some ⟨0x07#8, 0, 1, (packT2 d a b)⟩
  | .rem d a b => some ⟨0x08#8, 0, 1, (packT2 d a b)⟩
  | .remu d a b => some ⟨0x09#8, 0, 1, (packT2 d a b)⟩
  | .andR d a b => some ⟨0x0A#8, 0, 1, (packT2 d a b)⟩
  | .orR d a b => some ⟨0x0B#8, 0, 1, (packT2 d a b)⟩
  | .xorR d a b => some ⟨0x0C#8, 0, 1, (packT2 d a b)⟩
  | .sll d a b => some ⟨0x0D#8, 0, 1, (packT2 d a b)⟩
  | .srl d a b => some ⟨0x0E#8, 0, 1, (packT2 d a b)⟩
  | .sra d a b => some ⟨0x0F#8, 0, 1, (packT2 d a b)⟩
  | .slt d a b => some ⟨0x10#8, 0, 1, (packT2 d a b)⟩
  | .sltu d a b => some ⟨0x11#8, 0, 1, (packT2 d a b)⟩
  | .minR d a b => some ⟨0x12#8, 0, 1, (packT2 d a b)⟩
  | .maxR d a b => some ⟨0x13#8, 0, 1, (packT2 d a b)⟩
  | .minu d a b => some ⟨0x14#8, 0, 1, (packT2 d a b)⟩
  | .maxu d a b => some ⟨0x15#8, 0, 1, (packT2 d a b)⟩
  | .clz d a => some ⟨0x16#8, 0, 1, (packT2 d a 0)⟩
  | .ctz d a => some ⟨0x17#8, 0, 1, (packT2 d a 0)⟩
  | .popc d a => some ⟨0x18#8, 0, 1, (packT2 d a 0)⟩
  | .mov d a => some ⟨0x19#8, 0, 1, (packT2 d a 0)⟩
  | .addi d a imm => some ⟨0x20#8, 0, 2, (packTI d a imm)⟩
  | .andi d a imm => some ⟨0x21#8, 0, 2, (packTI d a imm)⟩
  | .ori d a imm => some ⟨0x22#8, 0, 2, (packTI d a imm)⟩
  | .xori d a imm => some ⟨0x23#8, 0, 2, (packTI d a imm)⟩
  | .slti d a imm => some ⟨0x24#8, 0, 2, (packTI d a imm)⟩
  | .slli d a sh => some ⟨0x25#8, 0, 2, (packTI d a (0#16 ++ sh))⟩
  | .srli d a sh => some ⟨0x26#8, 0, 2, (packTI d a (0#16 ++ sh))⟩
  | .srai d a sh => some ⟨0x27#8, 0, 2, (packTI d a (0#16 ++ sh))⟩
  | .li d imm => some ⟨0x28#8, 0, 2, (packTI d 0 imm)⟩
  | .liL d imm => some ⟨0x29#8, d, 3, imm⟩
  | .sel d a b c => some ⟨0x2A#8, 0, 2, (packTR d a b (0#12 ++ c))⟩
  | .ext d a pos len1 => some ⟨0x2B#8, 0, 2, (packTR d a 0 (0#5 ++ len1 ++ pos))⟩
  | .ins d a b pos len1 => some ⟨0x2C#8, 0, 2, (packTR d a b (0#5 ++ len1 ++ pos))⟩
  | .beq a b idx off => some ⟨0x40#8, 0, 2, (packTR idx a b off)⟩
  | .bne a b idx off => some ⟨0x41#8, 0, 2, (packTR idx a b off)⟩
  | .blt a b idx off => some ⟨0x42#8, 0, 2, (packTR idx a b off)⟩
  | .bge a b idx off => some ⟨0x43#8, 0, 2, (packTR idx a b off)⟩
  | .bltu a b idx off => some ⟨0x44#8, 0, 2, (packTR idx a b off)⟩
  | .bgeu a b idx off => some ⟨0x45#8, 0, 2, (packTR idx a b off)⟩
  | .j idx off => some ⟨0x46#8, 0, 2, (packTR idx 0 0 off)⟩
  | .jal l idx off => some ⟨0x47#8, 0, 2, (packTR idx l 0 off)⟩
  | .jr a => some ⟨0x48#8, 0, 1, (packT2 0 a 0)⟩
  | .jalr d a => some ⟨0x49#8, 0, 1, (packT2 d a 0)⟩
  | .fadd f d a b => some ⟨0x50#8, (0#3 ++ f), 1, (packT2 d a b)⟩
  | .fsub f d a b => some ⟨0x51#8, (0#3 ++ f), 1, (packT2 d a b)⟩
  | .fmul f d a b => some ⟨0x52#8, (0#3 ++ f), 1, (packT2 d a b)⟩
  | .fdiv f d a b => some ⟨0x53#8, (0#3 ++ f), 1, (packT2 d a b)⟩
  | .fsqrt f d a => some ⟨0x54#8, (0#3 ++ f), 1, (packT2 d a 0)⟩
  | .fmin f d a b => some ⟨0x55#8, (0#3 ++ f), 1, (packT2 d a b)⟩
  | .fmax f d a b => some ⟨0x56#8, (0#3 ++ f), 1, (packT2 d a b)⟩
  | .fcmp pred f d a b => some ⟨0x57#8, (pred ++ f), 1, (packT2 d a b)⟩
  | .fclass f d a => some ⟨0x58#8, (0#3 ++ f), 1, (packT2 d a 0)⟩
  | .fsgn op f d a b => some ⟨0x59#8, (op ++ f), 1, (packT2 d a b)⟩
  | .ffma f d a b c => some ⟨0x5A#8, (0#3 ++ f), 2, (packTR d a b (0#12 ++ c))⟩
  | .fcvt x d a => some ⟨0x5B#8, x, 1, (packT2 d a 0)⟩
  | .ld size d a os off => some ⟨0x70#8, size, 2, (packTR d a os off)⟩
  | .st size os a b off => some ⟨0x71#8, size, 2, (packTR os a b off)⟩
  | .ldfe size d a os off => some ⟨0x72#8, size, 2, (packTR d a os off)⟩
  | .stfe os a b off => some ⟨0x73#8, 2, 2, (packTR os a b off)⟩
  | .ldff size d a os off => some ⟨0x74#8, size, 2, (packTR d a os off)⟩
  | .feset st a off => some ⟨0x75#8, (0#3 ++ st), 2, (packTR 0 a 0 off)⟩
  | .amoAdd size d a b os => some ⟨0x76#8, size, 2, (packTR d a b (0#12 ++ os))⟩
  | .amoAnd size d a b os => some ⟨0x77#8, size, 2, (packTR d a b (0#12 ++ os))⟩
  | .amoOr size d a b os => some ⟨0x78#8, size, 2, (packTR d a b (0#12 ++ os))⟩
  | .amoXor size d a b os => some ⟨0x79#8, size, 2, (packTR d a b (0#12 ++ os))⟩
  | .amoMin size d a b os => some ⟨0x7A#8, size, 2, (packTR d a b (0#12 ++ os))⟩
  | .amoMax size d a b os => some ⟨0x7B#8, size, 2, (packTR d a b (0#12 ++ os))⟩
  | .amoMinu size d a b os => some ⟨0x7C#8, size, 2, (packTR d a b (0#12 ++ os))⟩
  | .amoMaxu size d a b os => some ⟨0x7D#8, size, 2, (packTR d a b (0#12 ++ os))⟩
  | .amoSwap size d a b os => some ⟨0x7E#8, size, 2, (packTR d a b (0#12 ++ os))⟩
  | .amoCas size d a b c os sync => some ⟨0x7F#8, size, 3, (packTW d a b c (0#7 ++ os) sync)⟩
  | .amoFadd size d a b os => some ⟨0x80#8, size, 2, (packTR d a b (0#12 ++ os))⟩
  | .fence o scope => some ⟨0x81#8, (o ++ scope), 0, 0⟩
  | .lea x d a b off => some ⟨0x82#8, x, 2, (packTR d a b off)⟩
  | .segq q d a => some ⟨0x83#8, (0#3 ++ q), 1, (packT2 d a 0)⟩
  | .mig a => some ⟨0x90#8, 0, 1, (packT2 0 a 0)⟩
  | .tmask x d a imm => some ⟨0x91#8, x, 2, (packTI d a imm)⟩
  | .fork jn a b idx off => some ⟨0x92#8, (0#3 ++ jn), 2, (packTR idx a b off)⟩
  | .join a => some ⟨0x93#8, 0, 1, (packT2 0 a 0)⟩
  | .yield => some ⟨0x94#8, 0, 0, 0⟩
  | .halt => some ⟨0x95#8, 0, 0, 0⟩
  | .resamp d a => some ⟨0x96#8, 0, 1, (packT2 d a 0)⟩
  | .wset a => some ⟨0x97#8, 0, 1, (packT2 0 a 0)⟩
  | .barArrive kind d a b => some ⟨0x98#8, (0#2 ++ kind), 1, (packT2 d a b)⟩
  | .barWait kind a b => some ⟨0x99#8, (0#2 ++ kind), 1, (packT2 0 a b)⟩
  | .barSync kind a b => some ⟨0x9A#8, (0#2 ++ kind), 1, (packT2 0 a b)⟩
  | .msend any t c v => some ⟨0x9B#8, (0#3 ++ any), 1, (packT2 t c v)⟩
  | .mwait own => some ⟨0x9C#8, (0#3 ++ own), 0, 0⟩
  | .mpop own d m => some ⟨0x9D#8, (0#3 ++ own), 1, (packT2 d m 0)⟩
  | .cbwait n d => some ⟨0x9E#8, (0#2 ++ n), 1, (packT2 d 0 0)⟩
  | .cbrel n => some ⟨0x9F#8, (0#2 ++ n), 1, (packT2 0 0 0)⟩
  | .cbput n d a => some ⟨0xA0#8, (0#2 ++ n), 1, (packT2 d a 0)⟩
  | .dwait wait => some ⟨0xA1#8, 0, 2, (packTY 0 0 0 0 (0#4 ++ wait))⟩
  | .nqput d a b => some ⟨0xA2#8, 0, 1, (packT2 d a b)⟩
  | .nqdone a => some ⟨0xA3#8, 0, 1, (packT2 0 a 0)⟩
  | .cxsave a => some ⟨0xA4#8, 0, 1, (packT2 0 a 0)⟩
  | .cxload a => some ⟨0xA5#8, 0, 1, (packT2 0 a 0)⟩
  | .stepmark d a => some ⟨0xA6#8, 0, 1, (packT2 d a 0)⟩
  | .vclaim d a => some ⟨0xB0#8, 0, 1, (packT2 d a 0)⟩
  | .vrenew d => some ⟨0xB1#8, 0, 1, (packT2 d 0 0)⟩
  | .vfree => some ⟨0xB2#8, 0, 0, 0⟩
  | .vlen d => some ⟨0xB3#8, 0, 1, (packT2 d 0 0)⟩
  | .mmode m => some ⟨0xB4#8, (0#3 ++ m), 0, 0⟩
  | .vld x d a b off => some ⟨0xB5#8, x, 2, (packTR d a b off)⟩
  | .vst x d a b off => some ⟨0xB6#8, x, 2, (packTR d a b off)⟩
  | .vldx x d a b off => some ⟨0xB7#8, x, 2, (packTR d a b off)⟩
  | .vstx x d a b off => some ⟨0xB8#8, x, 2, (packTR d a b off)⟩
  | .vadd x d a b => some ⟨0xB9#8, x, 1, (packT2 d a b)⟩
  | .vsub x d a b => some ⟨0xBA#8, x, 1, (packT2 d a b)⟩
  | .vmul x d a b => some ⟨0xBB#8, x, 1, (packT2 d a b)⟩
  | .vmin x d a b => some ⟨0xBC#8, x, 1, (packT2 d a b)⟩
  | .vmax x d a b => some ⟨0xBD#8, x, 1, (packT2 d a b)⟩
  | .vabs x d a => some ⟨0xBE#8, x, 1, (packT2 d a 0)⟩
  | .vneg x d a => some ⟨0xBF#8, x, 1, (packT2 d a 0)⟩
  | .vand x d a b => some ⟨0xC0#8, x, 1, (packT2 d a b)⟩
  | .vor x d a b => some ⟨0xC1#8, x, 1, (packT2 d a b)⟩
  | .vxor x d a b => some ⟨0xC2#8, x, 1, (packT2 d a b)⟩
  | .vshl x d a b => some ⟨0xC3#8, x, 1, (packT2 d a b)⟩
  | .vshr x d a b => some ⟨0xC4#8, x, 1, (packT2 d a b)⟩
  | .vsra x d a b => some ⟨0xC5#8, x, 1, (packT2 d a b)⟩
  | .vfadd x d a b => some ⟨0xC6#8, x, 1, (packT2 d a b)⟩
  | .vfsub x d a b => some ⟨0xC7#8, x, 1, (packT2 d a b)⟩
  | .vfmul x d a b => some ⟨0xC8#8, x, 1, (packT2 d a b)⟩
  | .vffma x d a b c => some ⟨0xC9#8, x, 2, (packTR d a b (0#12 ++ c))⟩
  | .vfmin x d a b => some ⟨0xCA#8, x, 1, (packT2 d a b)⟩
  | .vfmax x d a b => some ⟨0xCB#8, x, 1, (packT2 d a b)⟩
  | .vfdiv x d a b => some ⟨0xCC#8, x, 1, (packT2 d a b)⟩
  | .vcvt x d a c => some ⟨0xCD#8, x, 1, (packT2 d a c)⟩
  | .vcmp cond p a b => some ⟨0xCE#8, cond, 1, (packT2 (0#3 ++ p) a b)⟩
  | .vsel k d a b => some ⟨0xCF#8, (0#1 ++ k ++ 0#1), 1, (packT2 d a b)⟩
  | .vpand d a b => some ⟨0xD0#8, 0, 1, (packT2 (0#3 ++ d) (0#3 ++ a) (0#3 ++ b))⟩
  | .vpor d a b => some ⟨0xD1#8, 0, 1, (packT2 (0#3 ++ d) (0#3 ++ a) (0#3 ++ b))⟩
  | .vpnot d a => some ⟨0xD2#8, 0, 1, (packT2 (0#3 ++ d) (0#3 ++ a) 0)⟩
  | .vredadd x d a => some ⟨0xD3#8, x, 1, (packT2 d a 0)⟩
  | .vredmin x d a => some ⟨0xD4#8, x, 1, (packT2 d a 0)⟩
  | .vredmax x d a => some ⟨0xD5#8, x, 1, (packT2 d a 0)⟩
  | .vbcast x d a => some ⟨0xD6#8, x, 1, (packT2 d a 0)⟩
  | .vslide x d a b k => some ⟨0xD7#8, x, 2, (packTR d a b k)⟩
  | .vperm x d a b => some ⟨0xD8#8, x, 1, (packT2 d a b)⟩
  | .vexp2 p d a => some ⟨0xD9#8, 0, 1, (packT2 d a p)⟩
  | .vlog2 p d a => some ⟨0xD9#8, 1, 1, (packT2 d a p)⟩
  | .vrcp p d a => some ⟨0xD9#8, 2, 1, (packT2 d a p)⟩
  | .vrsq p d a => some ⟨0xD9#8, 3, 1, (packT2 d a p)⟩
  | .vsqrt p d a => some ⟨0xD9#8, 4, 1, (packT2 d a p)⟩
  | .vsinpi p d a => some ⟨0xD9#8, 5, 1, (packT2 d a p)⟩
  | .vcospi p d a => some ⟨0xD9#8, 6, 1, (packT2 d a p)⟩
  | .vrtri x d o r t => some ⟨0xDA#8, x, 3, (packTW d o r t 0 0)⟩
  | .mop t a sync => some ⟨0xE0#8, (0#3 ++ t), 2, (packTY 0 a 0 0 sync)⟩
  | .bload a b sync => some ⟨0xE1#8, 0, 2, (packTY 0 a b 0 sync)⟩
  | .bpass sync => some ⟨0xE2#8, 0, 2, (packTY 0 0 0 0 sync)⟩
  | .bpassDrop sync => some ⟨0xE2#8, 1, 2, (packTY 0 0 0 0 sync)⟩
  | .mzero t => some ⟨0xE3#8, (0#3 ++ t), 0, 0⟩
  | .tbset a b => some ⟨0xE4#8, 0, 1, (packT2 0 a b)⟩
  | .fmtset a => some ⟨0xE5#8, 0, 1, (packT2 0 a 0)⟩
  | .sclset a b => some ⟨0xE6#8, 0, 1, (packT2 0 a b)⟩
  | .crpool kind a b l sync => some ⟨0xE8#8, (0#3 ++ kind), 2, (packTY 0 a b l sync)⟩
  | .crsub x d a b sync => some ⟨0xE9#8, x, 2, (packTY d a b 0 sync)⟩
  | .crunsub x d a b sync => some ⟨0xEA#8, x, 2, (packTY d a b 0 sync)⟩
  | .crskip a sync => some ⟨0xEB#8, 0, 2, (packTY 0 a 0 0 sync)⟩
  | .crpromote a sync => some ⟨0xEC#8, 0, 2, (packTY 0 a 0 0 sync)⟩
  | .crlap d a sync => some ⟨0xED#8, 0, 2, (packTY d a 0 0 sync)⟩
  | .crlapW d a sync => some ⟨0xED#8, 1, 2, (packTY d a 0 0 sync)⟩
  | .cpy a sync => some ⟨0xF0#8, 0, 2, (packTY 0 a 0 0 sync)⟩
  | .cpgx a sync => some ⟨0xF1#8, 0, 2, (packTY 0 a 0 0 sync)⟩
  | .cpsx a sync => some ⟨0xF2#8, 0, 2, (packTY 0 a 0 0 sync)⟩
  | .cpmc a sync => some ⟨0xF3#8, 0, 2, (packTY 0 a 0 0 sync)⟩
  | .cpclose => some ⟨0xF4#8, 0, 0, 0⟩
  | .cpwait n => some ⟨0xF5#8, 0, 2, (packTI 0 0 (0#17 ++ n))⟩
  | .cpinval a => some ⟨0xF6#8, 0, 1, (packT2 0 a 0)⟩
  | .cpinvalAll => some ⟨0xF6#8, 1, 1, (packT2 0 0 0)⟩
  | .publish a scope sync => some ⟨0xF7#8, 0, 2, (packTY 0 a 0 (0#2 ++ scope) sync)⟩
  | .trap d a n => some ⟨0xF8#8, 0, 2, (packTI d a (0#6 ++ n))⟩
  | .eret => some ⟨0xF9#8, 0, 0, 0⟩
  | .wfi => some ⟨0xF9#8, 1, 0, 0⟩
  | .ptsync => some ⟨0xF9#8, 2, 0, 0⟩
  | .rdsys d num => some ⟨0xFA#8, 0, 2, (packTI d 0 (0#10 ++ num))⟩
  | .wrsys num a => some ⟨0xFB#8, 0, 2, (packTI 0 a (0#10 ++ num))⟩
  | .wrsysStat a => some ⟨0xFB#8, 0, 2, (packTI 0 a 0x000#22)⟩
  | .wrsysTm a => some ⟨0xFB#8, 0, 2, (packTI 0 a 0x001#22)⟩
  | .wrsysSegment n kd a => some ⟨0xFB#8, 0, 2, (packTI 0 a (0#15 ++ 7#3 ++ n ++ kd))⟩
  | .wrsysWin m a => some ⟨0xFB#8, 0, 2, (packTI 0 a (0#14 ++ 0x18#6 ++ m))⟩
  | .wrsysCb n a => some ⟨0xFB#8, 0, 2, (packTI 0 a (0#14 ++ 0x28#6 ++ n))⟩
  | .wrsysMcbase a => some ⟨0xFB#8, 0, 2, (packTI 0 a 0x0A9#22)⟩
  | .wrsysPmsel n a => some ⟨0xFB#8, 0, 2, (packTI 0 a (0#14 ++ 0x39#6 ++ n))⟩
  | .wrsysPmc n a => some ⟨0xFB#8, 0, 2, (packTI 0 a (0#14 ++ 0x38#6 ++ n))⟩
  | .brk code => some ⟨0xFC#8, code, 0, 0⟩
  | .tmark a code => some ⟨0xFD#8, 0, 2, (packTI 0 a (0#6 ++ code))⟩
  | .tlbinv a => some ⟨0xFE#8, 0, 1, (packT2 0 a 0)⟩
  | .cflush a => some ⟨0xFF#8, 0, 1, (packT2 0 a 0)⟩
  | .pendingBeat => none
  | .dbgctlStop _ => none
  | .dbgctlResume _ => none
  | .lineFetch _ _ => none
  | .resultLanding _ _ _ => none
  | .acknowledgement _ => none
  | .negativeAcknowledgement _ => none
  | .remoteRequest _ => none
  | .pageWalk _ _ => none
  | .faultRecord _ _ => none
  | .wake _ _ _ => none
  | .faultHoldExpiry _ _ => none
  | .migrationPack _ _ => none
  | .arrival _ => none
  | .chunkAllocation _ _ _ => none
  | .slotOffer _ => none
  | .feRecheckRound _ _ => none
  | .feTimeout _ _ => none
  | .requestResend _ => none
  | .mailboxArrival _ => none
  | .latchQueueStart _ => none
  | .fillComplete _ => none
  | .passRound _ => none
  | .mopComplete _ _ => none
  | .resampleComplete _ => none
  | .copyAccept _ _ => none
  | .copyCompletion _ _ _ => none
  | .publishSwap _ _ => none
  | .writeIndex _ _ => none
  | .nopPacket _ => none
  | .launch _ => none
  | .launchReady _ => none
  | .kernelCompletion _ => none
  | .copyPacket _ => none
  | .signalWait _ => none
  | .signalStore _ => none
  | .signalDecrement _ => none
  | .barrierAnd _ => none
  | .carouselStart _ => none
  | .carouselStop _ => none
  | .carouselReplace _ => none
  | .carouselPeriod _ => none
  | .segmentRead _ _ => none
  | .slotOpen _ _ => none
  | .delivery _ _ _ => none
  | .primitiveBatch _ => none
  | .weightload _ => none
  | .shardTimeout _ _ => none
  | .loadBarrierTimeout _ => none
  | .loadBarrier _ _ => none
  | .weightReplace _ => none
  | .traceOpen _ => none
  | .traceClose _ => none
  | .gangAck _ _ => none
  | .gangAbort _ _ => none
  | .gangTimeout _ => none
  | .gangDone _ _ => none
  | .gangPhase _ _ _ => none
  | .preEmption _ _ => none
  | .graceExpiry _ _ => none
  | .resume _ _ => none
  | .thermalMigration _ => none
  | .clcPoll _ _ => none
  | .containment _ _ => none
  | .scrub _ _ _ => none
  | .timeCorrection _ _ => none
  | .samplingPulse _ => none
  | .pmcOverflow _ _ => none
  | .flitRetry _ => none
  | .portDown _ => none
  | .linkDown _ => none
  | .reset _ _ _ => none
  | .createPartition _ _ _ _ _ => none
  | .destroyPartition _ => none
  | .createContext _ _ => none
  | .createQueue _ _ _ _ _ => none
  | .resumeQueue _ => none
  | .resetQueue _ => none
  | .killContext _ => none
  | .quote _ _ => none
  | .liveUpdate _ _ _ => none
  | .version _ _ => none
  | .gracePeriod _ _ => none
  | .retiredClusters _ _ => none
  | .memorySliceAccess _ => none
  | .destroyContext _ => none
  | .destroyQueue _ => none
  | .portTrained _ => none
  | .offsetAbsorbed => none
  | .sliceOrSwitchFailure _ _ => none
  | .shardArrival _ _ _ => none


/-- The instructions of opcodes 0x00 to 0x0F, from the low nibble, X and the tail. -/
def raw0 (lo : BitVec 4) (x : BitVec 4) (t : BitVec 64) : Option Instr :=
  if lo = 0x0#4 then some (.nop) else
  if lo = 0x1#4 then some (.add (t.extractLsb' 11 5) (t.extractLsb' 6 5) (t.extractLsb' 1 5)) else
  if lo = 0x2#4 then some (.sub (t.extractLsb' 11 5) (t.extractLsb' 6 5) (t.extractLsb' 1 5)) else
  if lo = 0x3#4 then some (.mul (t.extractLsb' 11 5) (t.extractLsb' 6 5) (t.extractLsb' 1 5)) else
  if lo = 0x4#4 then some (.mulh (t.extractLsb' 11 5) (t.extractLsb' 6 5) (t.extractLsb' 1 5)) else
  if lo = 0x5#4 then some (.mulhu (t.extractLsb' 11 5) (t.extractLsb' 6 5) (t.extractLsb' 1 5)) else
  if lo = 0x6#4 then some (.div (t.extractLsb' 11 5) (t.extractLsb' 6 5) (t.extractLsb' 1 5)) else
  if lo = 0x7#4 then some (.divu (t.extractLsb' 11 5) (t.extractLsb' 6 5) (t.extractLsb' 1 5)) else
  if lo = 0x8#4 then some (.rem (t.extractLsb' 11 5) (t.extractLsb' 6 5) (t.extractLsb' 1 5)) else
  if lo = 0x9#4 then some (.remu (t.extractLsb' 11 5) (t.extractLsb' 6 5) (t.extractLsb' 1 5)) else
  if lo = 0xa#4 then some (.andR (t.extractLsb' 11 5) (t.extractLsb' 6 5) (t.extractLsb' 1 5)) else
  if lo = 0xb#4 then some (.orR (t.extractLsb' 11 5) (t.extractLsb' 6 5) (t.extractLsb' 1 5)) else
  if lo = 0xc#4 then some (.xorR (t.extractLsb' 11 5) (t.extractLsb' 6 5) (t.extractLsb' 1 5)) else
  if lo = 0xd#4 then some (.sll (t.extractLsb' 11 5) (t.extractLsb' 6 5) (t.extractLsb' 1 5)) else
  if lo = 0xe#4 then some (.srl (t.extractLsb' 11 5) (t.extractLsb' 6 5) (t.extractLsb' 1 5)) else
  if lo = 0xf#4 then some (.sra (t.extractLsb' 11 5) (t.extractLsb' 6 5) (t.extractLsb' 1 5)) else
  none

/-- The instructions of opcodes 0x10 to 0x1F, from the low nibble, X and the tail. -/
def raw1 (lo : BitVec 4) (x : BitVec 4) (t : BitVec 64) : Option Instr :=
  if lo = 0x0#4 then some (.slt (t.extractLsb' 11 5) (t.extractLsb' 6 5) (t.extractLsb' 1 5)) else
  if lo = 0x1#4 then some (.sltu (t.extractLsb' 11 5) (t.extractLsb' 6 5) (t.extractLsb' 1 5)) else
  if lo = 0x2#4 then some (.minR (t.extractLsb' 11 5) (t.extractLsb' 6 5) (t.extractLsb' 1 5)) else
  if lo = 0x3#4 then some (.maxR (t.extractLsb' 11 5) (t.extractLsb' 6 5) (t.extractLsb' 1 5)) else
  if lo = 0x4#4 then some (.minu (t.extractLsb' 11 5) (t.extractLsb' 6 5) (t.extractLsb' 1 5)) else
  if lo = 0x5#4 then some (.maxu (t.extractLsb' 11 5) (t.extractLsb' 6 5) (t.extractLsb' 1 5)) else
  if lo = 0x6#4 then some (.clz (t.extractLsb' 11 5) (t.extractLsb' 6 5)) else
  if lo = 0x7#4 then some (.ctz (t.extractLsb' 11 5) (t.extractLsb' 6 5)) else
  if lo = 0x8#4 then some (.popc (t.extractLsb' 11 5) (t.extractLsb' 6 5)) else
  if lo = 0x9#4 then some (.mov (t.extractLsb' 11 5) (t.extractLsb' 6 5)) else
  none

/-- The instructions of opcodes 0x20 to 0x2F, from the low nibble, X and the tail. -/
def raw2 (lo : BitVec 4) (x : BitVec 4) (t : BitVec 64) : Option Instr :=
  if lo = 0x0#4 then some (.addi (t.extractLsb' 27 5) (t.extractLsb' 22 5) (t.extractLsb' 0 22)) else
  if lo = 0x1#4 then some (.andi (t.extractLsb' 27 5) (t.extractLsb' 22 5) (t.extractLsb' 0 22)) else
  if lo = 0x2#4 then some (.ori (t.extractLsb' 27 5) (t.extractLsb' 22 5) (t.extractLsb' 0 22)) else
  if lo = 0x3#4 then some (.xori (t.extractLsb' 27 5) (t.extractLsb' 22 5) (t.extractLsb' 0 22)) else
  if lo = 0x4#4 then some (.slti (t.extractLsb' 27 5) (t.extractLsb' 22 5) (t.extractLsb' 0 22)) else
  if lo = 0x5#4 then some (.slli (t.extractLsb' 27 5) (t.extractLsb' 22 5) (t.extractLsb' 0 6)) else
  if lo = 0x6#4 then some (.srli (t.extractLsb' 27 5) (t.extractLsb' 22 5) (t.extractLsb' 0 6)) else
  if lo = 0x7#4 then some (.srai (t.extractLsb' 27 5) (t.extractLsb' 22 5) (t.extractLsb' 0 6)) else
  if lo = 0x8#4 then some (.li (t.extractLsb' 27 5) (t.extractLsb' 0 22)) else
  if lo = 0x9#4 then some (.liL x (t.extractLsb' 0 64)) else
  if lo = 0xa#4 then some (.sel (t.extractLsb' 27 5) (t.extractLsb' 22 5) (t.extractLsb' 17 5) (t.extractLsb' 0 5)) else
  if lo = 0xb#4 then some (.ext (t.extractLsb' 27 5) (t.extractLsb' 22 5) (t.extractLsb' 0 6) (t.extractLsb' 6 6)) else
  if lo = 0xc#4 then some (.ins (t.extractLsb' 27 5) (t.extractLsb' 22 5) (t.extractLsb' 17 5) (t.extractLsb' 0 6) (t.extractLsb' 6 6)) else
  none

/-- The instructions of opcodes 0x40 to 0x4F, from the low nibble, X and the tail. -/
def raw4 (lo : BitVec 4) (x : BitVec 4) (t : BitVec 64) : Option Instr :=
  if lo = 0x0#4 then some (.beq (t.extractLsb' 22 5) (t.extractLsb' 17 5) (t.extractLsb' 27 5) (t.extractLsb' 0 17)) else
  if lo = 0x1#4 then some (.bne (t.extractLsb' 22 5) (t.extractLsb' 17 5) (t.extractLsb' 27 5) (t.extractLsb' 0 17)) else
  if lo = 0x2#4 then some (.blt (t.extractLsb' 22 5) (t.extractLsb' 17 5) (t.extractLsb' 27 5) (t.extractLsb' 0 17)) else
  if lo = 0x3#4 then some (.bge (t.extractLsb' 22 5) (t.extractLsb' 17 5) (t.extractLsb' 27 5) (t.extractLsb' 0 17)) else
  if lo = 0x4#4 then some (.bltu (t.extractLsb' 22 5) (t.extractLsb' 17 5) (t.extractLsb' 27 5) (t.extractLsb' 0 17)) else
  if lo = 0x5#4 then some (.bgeu (t.extractLsb' 22 5) (t.extractLsb' 17 5) (t.extractLsb' 27 5) (t.extractLsb' 0 17)) else
  if lo = 0x6#4 then some (.j (t.extractLsb' 27 5) (t.extractLsb' 0 17)) else
  if lo = 0x7#4 then some (.jal (t.extractLsb' 22 5) (t.extractLsb' 27 5) (t.extractLsb' 0 17)) else
  if lo = 0x8#4 then some (.jr (t.extractLsb' 6 5)) else
  if lo = 0x9#4 then some (.jalr (t.extractLsb' 11 5) (t.extractLsb' 6 5)) else
  none

/-- The instructions of opcodes 0x50 to 0x5F, from the low nibble, X and the tail. -/
def raw5 (lo : BitVec 4) (x : BitVec 4) (t : BitVec 64) : Option Instr :=
  if lo = 0x0#4 then some (.fadd (x.extractLsb' 0 1) (t.extractLsb' 11 5) (t.extractLsb' 6 5) (t.extractLsb' 1 5)) else
  if lo = 0x1#4 then some (.fsub (x.extractLsb' 0 1) (t.extractLsb' 11 5) (t.extractLsb' 6 5) (t.extractLsb' 1 5)) else
  if lo = 0x2#4 then some (.fmul (x.extractLsb' 0 1) (t.extractLsb' 11 5) (t.extractLsb' 6 5) (t.extractLsb' 1 5)) else
  if lo = 0x3#4 then some (.fdiv (x.extractLsb' 0 1) (t.extractLsb' 11 5) (t.extractLsb' 6 5) (t.extractLsb' 1 5)) else
  if lo = 0x4#4 then some (.fsqrt (x.extractLsb' 0 1) (t.extractLsb' 11 5) (t.extractLsb' 6 5)) else
  if lo = 0x5#4 then some (.fmin (x.extractLsb' 0 1) (t.extractLsb' 11 5) (t.extractLsb' 6 5) (t.extractLsb' 1 5)) else
  if lo = 0x6#4 then some (.fmax (x.extractLsb' 0 1) (t.extractLsb' 11 5) (t.extractLsb' 6 5) (t.extractLsb' 1 5)) else
  if lo = 0x7#4 then some (.fcmp (x.extractLsb' 1 3) (x.extractLsb' 0 1) (t.extractLsb' 11 5) (t.extractLsb' 6 5) (t.extractLsb' 1 5)) else
  if lo = 0x8#4 then some (.fclass (x.extractLsb' 0 1) (t.extractLsb' 11 5) (t.extractLsb' 6 5)) else
  if lo = 0x9#4 then some (.fsgn (x.extractLsb' 1 3) (x.extractLsb' 0 1) (t.extractLsb' 11 5) (t.extractLsb' 6 5) (t.extractLsb' 1 5)) else
  if lo = 0xa#4 then some (.ffma (x.extractLsb' 0 1) (t.extractLsb' 27 5) (t.extractLsb' 22 5) (t.extractLsb' 17 5) (t.extractLsb' 0 5)) else
  if lo = 0xb#4 then some (.fcvt x (t.extractLsb' 11 5) (t.extractLsb' 6 5)) else
  none

/-- The instructions of opcodes 0x70 to 0x7F, from the low nibble, X and the tail. -/
def raw7 (lo : BitVec 4) (x : BitVec 4) (t : BitVec 64) : Option Instr :=
  if lo = 0x0#4 then some (.ld x (t.extractLsb' 27 5) (t.extractLsb' 22 5) (t.extractLsb' 17 5) (t.extractLsb' 0 17)) else
  if lo = 0x1#4 then some (.st x (t.extractLsb' 27 5) (t.extractLsb' 22 5) (t.extractLsb' 17 5) (t.extractLsb' 0 17)) else
  if lo = 0x2#4 then some (.ldfe x (t.extractLsb' 27 5) (t.extractLsb' 22 5) (t.extractLsb' 17 5) (t.extractLsb' 0 17)) else
  if lo = 0x3#4 then some (.stfe (t.extractLsb' 27 5) (t.extractLsb' 22 5) (t.extractLsb' 17 5) (t.extractLsb' 0 17)) else
  if lo = 0x4#4 then some (.ldff x (t.extractLsb' 27 5) (t.extractLsb' 22 5) (t.extractLsb' 17 5) (t.extractLsb' 0 17)) else
  if lo = 0x5#4 then some (.feset (x.extractLsb' 0 1) (t.extractLsb' 22 5) (t.extractLsb' 0 17)) else
  if lo = 0x6#4 then some (.amoAdd x (t.extractLsb' 27 5) (t.extractLsb' 22 5) (t.extractLsb' 17 5) (t.extractLsb' 0 5)) else
  if lo = 0x7#4 then some (.amoAnd x (t.extractLsb' 27 5) (t.extractLsb' 22 5) (t.extractLsb' 17 5) (t.extractLsb' 0 5)) else
  if lo = 0x8#4 then some (.amoOr x (t.extractLsb' 27 5) (t.extractLsb' 22 5) (t.extractLsb' 17 5) (t.extractLsb' 0 5)) else
  if lo = 0x9#4 then some (.amoXor x (t.extractLsb' 27 5) (t.extractLsb' 22 5) (t.extractLsb' 17 5) (t.extractLsb' 0 5)) else
  if lo = 0xa#4 then some (.amoMin x (t.extractLsb' 27 5) (t.extractLsb' 22 5) (t.extractLsb' 17 5) (t.extractLsb' 0 5)) else
  if lo = 0xb#4 then some (.amoMax x (t.extractLsb' 27 5) (t.extractLsb' 22 5) (t.extractLsb' 17 5) (t.extractLsb' 0 5)) else
  if lo = 0xc#4 then some (.amoMinu x (t.extractLsb' 27 5) (t.extractLsb' 22 5) (t.extractLsb' 17 5) (t.extractLsb' 0 5)) else
  if lo = 0xd#4 then some (.amoMaxu x (t.extractLsb' 27 5) (t.extractLsb' 22 5) (t.extractLsb' 17 5) (t.extractLsb' 0 5)) else
  if lo = 0xe#4 then some (.amoSwap x (t.extractLsb' 27 5) (t.extractLsb' 22 5) (t.extractLsb' 17 5) (t.extractLsb' 0 5)) else
  if lo = 0xf#4 then some (.amoCas x (t.extractLsb' 59 5) (t.extractLsb' 54 5) (t.extractLsb' 49 5) (t.extractLsb' 44 5) (t.extractLsb' 32 5) (t.extractLsb' 0 12)) else
  none

/-- The instructions of opcodes 0x80 to 0x8F, from the low nibble, X and the tail. -/
def raw8 (lo : BitVec 4) (x : BitVec 4) (t : BitVec 64) : Option Instr :=
  if lo = 0x0#4 then some (.amoFadd x (t.extractLsb' 27 5) (t.extractLsb' 22 5) (t.extractLsb' 17 5) (t.extractLsb' 0 5)) else
  if lo = 0x1#4 then some (.fence (x.extractLsb' 3 1) (x.extractLsb' 0 3)) else
  if lo = 0x2#4 then some (.lea x (t.extractLsb' 27 5) (t.extractLsb' 22 5) (t.extractLsb' 17 5) (t.extractLsb' 0 17)) else
  if lo = 0x3#4 then some (.segq (x.extractLsb' 0 1) (t.extractLsb' 11 5) (t.extractLsb' 6 5)) else
  none

/-- The instructions of opcodes 0x90 to 0x9F, from the low nibble, X and the tail. -/
def raw9 (lo : BitVec 4) (x : BitVec 4) (t : BitVec 64) : Option Instr :=
  if lo = 0x0#4 then some (.mig (t.extractLsb' 6 5)) else
  if lo = 0x1#4 then some (.tmask x (t.extractLsb' 27 5) (t.extractLsb' 22 5) (t.extractLsb' 0 22)) else
  if lo = 0x2#4 then some (.fork (x.extractLsb' 0 1) (t.extractLsb' 22 5) (t.extractLsb' 17 5) (t.extractLsb' 27 5) (t.extractLsb' 0 17)) else
  if lo = 0x3#4 then some (.join (t.extractLsb' 6 5)) else
  if lo = 0x4#4 then some (.yield) else
  if lo = 0x5#4 then some (.halt) else
  if lo = 0x6#4 then some (.resamp (t.extractLsb' 11 5) (t.extractLsb' 6 5)) else
  if lo = 0x7#4 then some (.wset (t.extractLsb' 6 5)) else
  if lo = 0x8#4 then some (.barArrive (x.extractLsb' 0 2) (t.extractLsb' 11 5) (t.extractLsb' 6 5) (t.extractLsb' 1 5)) else
  if lo = 0x9#4 then some (.barWait (x.extractLsb' 0 2) (t.extractLsb' 6 5) (t.extractLsb' 1 5)) else
  if lo = 0xa#4 then some (.barSync (x.extractLsb' 0 2) (t.extractLsb' 6 5) (t.extractLsb' 1 5)) else
  if lo = 0xb#4 then some (.msend (x.extractLsb' 0 1) (t.extractLsb' 11 5) (t.extractLsb' 6 5) (t.extractLsb' 1 5)) else
  if lo = 0xc#4 then some (.mwait (x.extractLsb' 0 1)) else
  if lo = 0xd#4 then some (.mpop (x.extractLsb' 0 1) (t.extractLsb' 11 5) (t.extractLsb' 6 5)) else
  if lo = 0xe#4 then some (.cbwait (x.extractLsb' 0 2) (t.extractLsb' 11 5)) else
  if lo = 0xf#4 then some (.cbrel (x.extractLsb' 0 2)) else
  none

/-- The instructions of opcodes 0xA0 to 0xAF, from the low nibble, X and the tail. -/
def rawA (lo : BitVec 4) (x : BitVec 4) (t : BitVec 64) : Option Instr :=
  if lo = 0x0#4 then some (.cbput (x.extractLsb' 0 2) (t.extractLsb' 11 5) (t.extractLsb' 6 5)) else
  if lo = 0x1#4 then some (.dwait (t.extractLsb' 0 8)) else
  if lo = 0x2#4 then some (.nqput (t.extractLsb' 11 5) (t.extractLsb' 6 5) (t.extractLsb' 1 5)) else
  if lo = 0x3#4 then some (.nqdone (t.extractLsb' 6 5)) else
  if lo = 0x4#4 then some (.cxsave (t.extractLsb' 6 5)) else
  if lo = 0x5#4 then some (.cxload (t.extractLsb' 6 5)) else
  if lo = 0x6#4 then some (.stepmark (t.extractLsb' 11 5) (t.extractLsb' 6 5)) else
  none

/-- The instructions of opcodes 0xB0 to 0xBF, from the low nibble, X and the tail. -/
def rawB (lo : BitVec 4) (x : BitVec 4) (t : BitVec 64) : Option Instr :=
  if lo = 0x0#4 then some (.vclaim (t.extractLsb' 11 5) (t.extractLsb' 6 5)) else
  if lo = 0x1#4 then some (.vrenew (t.extractLsb' 11 5)) else
  if lo = 0x2#4 then some (.vfree) else
  if lo = 0x3#4 then some (.vlen (t.extractLsb' 11 5)) else
  if lo = 0x4#4 then some (.mmode (x.extractLsb' 0 1)) else
  if lo = 0x5#4 then some (.vld x (t.extractLsb' 27 5) (t.extractLsb' 22 5) (t.extractLsb' 17 5) (t.extractLsb' 0 17)) else
  if lo = 0x6#4 then some (.vst x (t.extractLsb' 27 5) (t.extractLsb' 22 5) (t.extractLsb' 17 5) (t.extractLsb' 0 17)) else
  if lo = 0x7#4 then some (.vldx x (t.extractLsb' 27 5) (t.extractLsb' 22 5) (t.extractLsb' 17 5) (t.extractLsb' 0 17)) else
  if lo = 0x8#4 then some (.vstx x (t.extractLsb' 27 5) (t.extractLsb' 22 5) (t.extractLsb' 17 5) (t.extractLsb' 0 17)) else
  if lo = 0x9#4 then some (.vadd x (t.extractLsb' 11 5) (t.extractLsb' 6 5) (t.extractLsb' 1 5)) else
  if lo = 0xa#4 then some (.vsub x (t.extractLsb' 11 5) (t.extractLsb' 6 5) (t.extractLsb' 1 5)) else
  if lo = 0xb#4 then some (.vmul x (t.extractLsb' 11 5) (t.extractLsb' 6 5) (t.extractLsb' 1 5)) else
  if lo = 0xc#4 then some (.vmin x (t.extractLsb' 11 5) (t.extractLsb' 6 5) (t.extractLsb' 1 5)) else
  if lo = 0xd#4 then some (.vmax x (t.extractLsb' 11 5) (t.extractLsb' 6 5) (t.extractLsb' 1 5)) else
  if lo = 0xe#4 then some (.vabs x (t.extractLsb' 11 5) (t.extractLsb' 6 5)) else
  if lo = 0xf#4 then some (.vneg x (t.extractLsb' 11 5) (t.extractLsb' 6 5)) else
  none

/-- The instructions of opcodes 0xC0 to 0xCF, from the low nibble, X and the tail. -/
def rawC (lo : BitVec 4) (x : BitVec 4) (t : BitVec 64) : Option Instr :=
  if lo = 0x0#4 then some (.vand x (t.extractLsb' 11 5) (t.extractLsb' 6 5) (t.extractLsb' 1 5)) else
  if lo = 0x1#4 then some (.vor x (t.extractLsb' 11 5) (t.extractLsb' 6 5) (t.extractLsb' 1 5)) else
  if lo = 0x2#4 then some (.vxor x (t.extractLsb' 11 5) (t.extractLsb' 6 5) (t.extractLsb' 1 5)) else
  if lo = 0x3#4 then some (.vshl x (t.extractLsb' 11 5) (t.extractLsb' 6 5) (t.extractLsb' 1 5)) else
  if lo = 0x4#4 then some (.vshr x (t.extractLsb' 11 5) (t.extractLsb' 6 5) (t.extractLsb' 1 5)) else
  if lo = 0x5#4 then some (.vsra x (t.extractLsb' 11 5) (t.extractLsb' 6 5) (t.extractLsb' 1 5)) else
  if lo = 0x6#4 then some (.vfadd x (t.extractLsb' 11 5) (t.extractLsb' 6 5) (t.extractLsb' 1 5)) else
  if lo = 0x7#4 then some (.vfsub x (t.extractLsb' 11 5) (t.extractLsb' 6 5) (t.extractLsb' 1 5)) else
  if lo = 0x8#4 then some (.vfmul x (t.extractLsb' 11 5) (t.extractLsb' 6 5) (t.extractLsb' 1 5)) else
  if lo = 0x9#4 then some (.vffma x (t.extractLsb' 27 5) (t.extractLsb' 22 5) (t.extractLsb' 17 5) (t.extractLsb' 0 5)) else
  if lo = 0xa#4 then some (.vfmin x (t.extractLsb' 11 5) (t.extractLsb' 6 5) (t.extractLsb' 1 5)) else
  if lo = 0xb#4 then some (.vfmax x (t.extractLsb' 11 5) (t.extractLsb' 6 5) (t.extractLsb' 1 5)) else
  if lo = 0xc#4 then some (.vfdiv x (t.extractLsb' 11 5) (t.extractLsb' 6 5) (t.extractLsb' 1 5)) else
  if lo = 0xd#4 then some (.vcvt x (t.extractLsb' 11 5) (t.extractLsb' 6 5) (t.extractLsb' 1 5)) else
  if lo = 0xe#4 then some (.vcmp x (t.extractLsb' 11 2) (t.extractLsb' 6 5) (t.extractLsb' 1 5)) else
  if lo = 0xf#4 then some (.vsel (x.extractLsb' 1 2) (t.extractLsb' 11 5) (t.extractLsb' 6 5) (t.extractLsb' 1 5)) else
  none

/-- The instructions of opcodes 0xD0 to 0xDF, from the low nibble, X and the tail. -/
def rawD (lo : BitVec 4) (x : BitVec 4) (t : BitVec 64) : Option Instr :=
  if lo = 0x0#4 then some (.vpand (t.extractLsb' 11 2) (t.extractLsb' 6 2) (t.extractLsb' 1 2)) else
  if lo = 0x1#4 then some (.vpor (t.extractLsb' 11 2) (t.extractLsb' 6 2) (t.extractLsb' 1 2)) else
  if lo = 0x2#4 then some (.vpnot (t.extractLsb' 11 2) (t.extractLsb' 6 2)) else
  if lo = 0x3#4 then some (.vredadd x (t.extractLsb' 11 5) (t.extractLsb' 6 5)) else
  if lo = 0x4#4 then some (.vredmin x (t.extractLsb' 11 5) (t.extractLsb' 6 5)) else
  if lo = 0x5#4 then some (.vredmax x (t.extractLsb' 11 5) (t.extractLsb' 6 5)) else
  if lo = 0x6#4 then some (.vbcast x (t.extractLsb' 11 5) (t.extractLsb' 6 5)) else
  if lo = 0x7#4 then some (.vslide x (t.extractLsb' 27 5) (t.extractLsb' 22 5) (t.extractLsb' 17 5) (t.extractLsb' 0 17)) else
  if lo = 0x8#4 then some (.vperm x (t.extractLsb' 11 5) (t.extractLsb' 6 5) (t.extractLsb' 1 5)) else
  if lo = 0x9#4 ∧ x = 0#4 then some (.vexp2 (t.extractLsb' 1 5) (t.extractLsb' 11 5) (t.extractLsb' 6 5)) else
  if lo = 0x9#4 ∧ x = 1#4 then some (.vlog2 (t.extractLsb' 1 5) (t.extractLsb' 11 5) (t.extractLsb' 6 5)) else
  if lo = 0x9#4 ∧ x = 2#4 then some (.vrcp (t.extractLsb' 1 5) (t.extractLsb' 11 5) (t.extractLsb' 6 5)) else
  if lo = 0x9#4 ∧ x = 3#4 then some (.vrsq (t.extractLsb' 1 5) (t.extractLsb' 11 5) (t.extractLsb' 6 5)) else
  if lo = 0x9#4 ∧ x = 4#4 then some (.vsqrt (t.extractLsb' 1 5) (t.extractLsb' 11 5) (t.extractLsb' 6 5)) else
  if lo = 0x9#4 ∧ x = 5#4 then some (.vsinpi (t.extractLsb' 1 5) (t.extractLsb' 11 5) (t.extractLsb' 6 5)) else
  if lo = 0x9#4 ∧ x = 6#4 then some (.vcospi (t.extractLsb' 1 5) (t.extractLsb' 11 5) (t.extractLsb' 6 5)) else
  if lo = 0xa#4 then some (.vrtri x (t.extractLsb' 59 5) (t.extractLsb' 54 5) (t.extractLsb' 49 5) (t.extractLsb' 44 5)) else
  none

/-- The instructions of opcodes 0xE0 to 0xEF, from the low nibble, X and the tail. -/
def rawE (lo : BitVec 4) (x : BitVec 4) (t : BitVec 64) : Option Instr :=
  if lo = 0x0#4 then some (.mop (x.extractLsb' 0 1) (t.extractLsb' 22 5) (t.extractLsb' 0 12)) else
  if lo = 0x1#4 then some (.bload (t.extractLsb' 22 5) (t.extractLsb' 17 5) (t.extractLsb' 0 12)) else
  if lo = 0x2#4 ∧ x = 0#4 then some (.bpass (t.extractLsb' 0 12)) else
  if lo = 0x2#4 ∧ x = 1#4 then some (.bpassDrop (t.extractLsb' 0 12)) else
  if lo = 0x3#4 then some (.mzero (x.extractLsb' 0 1)) else
  if lo = 0x4#4 then some (.tbset (t.extractLsb' 6 5) (t.extractLsb' 1 5)) else
  if lo = 0x5#4 then some (.fmtset (t.extractLsb' 6 5)) else
  if lo = 0x6#4 then some (.sclset (t.extractLsb' 6 5) (t.extractLsb' 1 5)) else
  if lo = 0x8#4 then some (.crpool (x.extractLsb' 0 1) (t.extractLsb' 22 5) (t.extractLsb' 17 5) (t.extractLsb' 12 5) (t.extractLsb' 0 12)) else
  if lo = 0x9#4 then some (.crsub x (t.extractLsb' 27 5) (t.extractLsb' 22 5) (t.extractLsb' 17 5) (t.extractLsb' 0 12)) else
  if lo = 0xa#4 then some (.crunsub x (t.extractLsb' 27 5) (t.extractLsb' 22 5) (t.extractLsb' 17 5) (t.extractLsb' 0 12)) else
  if lo = 0xb#4 then some (.crskip (t.extractLsb' 22 5) (t.extractLsb' 0 12)) else
  if lo = 0xc#4 then some (.crpromote (t.extractLsb' 22 5) (t.extractLsb' 0 12)) else
  if lo = 0xd#4 ∧ x = 0#4 then some (.crlap (t.extractLsb' 27 5) (t.extractLsb' 22 5) (t.extractLsb' 0 12)) else
  if lo = 0xd#4 ∧ x = 1#4 then some (.crlapW (t.extractLsb' 27 5) (t.extractLsb' 22 5) (t.extractLsb' 0 12)) else
  none

/-- `wrsys` by its register number: the rows with a meaning of their own, then the general one. -/
def rawWrsys (t : BitVec 64) : Instr :=
  let a : BitVec 5 := t.extractLsb' 22 5
  if t.extractLsb' 0 12 = 0x000#12 then .wrsysStat a else
  if t.extractLsb' 0 12 = 0x001#12 then .wrsysTm a else
  if t.extractLsb' 4 8 = 0x07#8 then .wrsysSegment (t.extractLsb' 1 3) (t.extractLsb' 0 1) a else
  if t.extractLsb' 2 10 = 0x018#10 then .wrsysWin (t.extractLsb' 0 2) a else
  if t.extractLsb' 2 10 = 0x028#10 then .wrsysCb (t.extractLsb' 0 2) a else
  if t.extractLsb' 0 12 = 0x0A9#12 then .wrsysMcbase a else
  if t.extractLsb' 2 10 = 0x039#10 then .wrsysPmsel (t.extractLsb' 0 2) a else
  if t.extractLsb' 2 10 = 0x038#10 then .wrsysPmc (t.extractLsb' 0 2) a else
  .wrsys (t.extractLsb' 0 12) a

/-- The instructions of opcodes 0xF0 to 0xFF, from the low nibble, X and the tail. -/
def rawF (lo : BitVec 4) (x : BitVec 4) (t : BitVec 64) : Option Instr :=
  if lo = 0x0#4 then some (.cpy (t.extractLsb' 22 5) (t.extractLsb' 0 12)) else
  if lo = 0x1#4 then some (.cpgx (t.extractLsb' 22 5) (t.extractLsb' 0 12)) else
  if lo = 0x2#4 then some (.cpsx (t.extractLsb' 22 5) (t.extractLsb' 0 12)) else
  if lo = 0x3#4 then some (.cpmc (t.extractLsb' 22 5) (t.extractLsb' 0 12)) else
  if lo = 0x4#4 then some (.cpclose) else
  if lo = 0x5#4 then some (.cpwait (t.extractLsb' 0 5)) else
  if lo = 0x6#4 ∧ x = 0#4 then some (.cpinval (t.extractLsb' 6 5)) else
  if lo = 0x6#4 ∧ x = 1#4 then some (.cpinvalAll) else
  if lo = 0x7#4 then some (.publish (t.extractLsb' 22 5) (t.extractLsb' 12 3) (t.extractLsb' 0 12)) else
  if lo = 0x8#4 then some (.trap (t.extractLsb' 27 5) (t.extractLsb' 22 5) (t.extractLsb' 0 16)) else
  if lo = 0x9#4 ∧ x = 0#4 then some (.eret) else
  if lo = 0x9#4 ∧ x = 1#4 then some (.wfi) else
  if lo = 0x9#4 ∧ x = 2#4 then some (.ptsync) else
  if lo = 0xa#4 then some (.rdsys (t.extractLsb' 27 5) (t.extractLsb' 0 12)) else
  if lo = 0xb#4 then some (rawWrsys t) else
  if lo = 0xc#4 then some (.brk x) else
  if lo = 0xd#4 then some (.tmark (t.extractLsb' 22 5) (t.extractLsb' 0 16)) else
  if lo = 0xe#4 then some (.tlbinv (t.extractLsb' 6 5)) else
  if lo = 0xf#4 then some (.cflush (t.extractLsb' 6 5)) else
  none

/-- The instruction that the fields of an encoding name, reserved bits not yet looked at. -/
def raw (op : BitVec 8) (x : BitVec 4) (t : BitVec 64) : Option Instr :=
  let hi : BitVec 4 := op.extractLsb' 4 4
  let lo : BitVec 4 := op.extractLsb' 0 4
  if hi = 0x0#4 then raw0 lo x t else
  if hi = 0x1#4 then raw1 lo x t else
  if hi = 0x2#4 then raw2 lo x t else
  if hi = 0x4#4 then raw4 lo x t else
  if hi = 0x5#4 then raw5 lo x t else
  if hi = 0x7#4 then raw7 lo x t else
  if hi = 0x8#4 then raw8 lo x t else
  if hi = 0x9#4 then raw9 lo x t else
  if hi = 0xa#4 then rawA lo x t else
  if hi = 0xb#4 then rawB lo x t else
  if hi = 0xc#4 then rawC lo x t else
  if hi = 0xd#4 then rawD lo x t else
  if hi = 0xe#4 then rawE lo x t else
  if hi = 0xf#4 then rawF lo x t else
  none

/-- Why an encoding is not an instruction (R68): no opcode or X of the map, or a wrong tail length, a reserved bit or a
field value that its entry does not define. Each traps ILLEGAL_INSTRUCTION. -/
inductive DecodeError where
  | unassigned
  | malformed
  deriving DecidableEq, Repr

/-- The instruction of an encoding, total: R68 in one test, by encoding the fields again. -/
def decode (e : Enc) : Except DecodeError Instr :=
  match raw e.op e.x e.tail with
  | none => .error .unassigned
  | some i => if i.wf && decide (encode i = some e) then .ok i else .error .malformed

/-- A head (R52). -/
def headWord (m : Marks) (e : Enc) : BitVec 16 := e.len ++ BitVec.ofBool m.s ++ BitVec.ofBool m.p ++ e.op ++ e.x
/-- The marks of a head (R52). -/
def headMarks (h : BitVec 16) : Marks := ⟨h.getLsbD 13, h.getLsbD 12⟩
/-- The opcode of a head (R52). -/
def headOp (h : BitVec 16) : BitVec 8 := h.extractLsb' 4 8
/-- The encoding that a head and its tail make. -/
def headEnc (h : BitVec 16) (tail : BitVec 64) : Enc := ⟨headOp h, h.extractLsb' 0 4, h.extractLsb' 14 2, tail⟩

/-- R49: a line is 64 bytes; byte k is bits 8k + 7 to 8k. -/
abbrev Line := BitVec 512

/-- R50: B16. -/
def Line.b16 (l : Line) (k : Nat) : BitVec 16 := l.extractLsb' (8 * k) 16
/-- R49: the instruction count n. -/
def Line.count (l : Line) : Nat := (l.b16 0).toNat / 2048
/-- R50: the tail length, in bytes, of a length code. -/
def tailBytes (c : BitVec 2) : Nat := if c = 0 then 0 else if c = 1 then 2 else if c = 2 then 4 else 8
/-- R49: the head of instruction i. -/
def Line.head (l : Line) (i : Nat) : BitVec 16 := l.b16 (2 * i)
/-- R50: the total length of the tails of instructions 1 to i. -/
def Line.tails (l : Line) : Nat → Nat
  | 0 => 0
  | i + 1 => l.tails i + tailBytes ((l.head (i + 1)).extractLsb' 14 2)
/-- R50: the tail of instruction i, its bit 0 first. -/
def Line.tail (l : Line) (i : Nat) : BitVec 64 :=
  let bytes := tailBytes ((l.head i).extractLsb' 14 2)
  (l.extractLsb' (8 * (64 - l.tails i)) 64) &&& BitVec.ofNat 64 (2 ^ (8 * bytes) - 1)
/-- R51: the checks of a whole line, with the index that the PC names. -/
def Line.ok (l : Line) (idx : Nat) : Bool :=
  let n := l.count
  decide (1 ≤ n) && decide ((l.b16 0).toNat % 2048 = 0) && decide (2 * n + l.tails n ≤ 62) && decide (1 ≤ idx)
    && decide (idx ≤ n)
/-- The instruction at an index of a line. -/
def Line.decodeAt (l : Line) (i : Nat) : Except DecodeError Instr := decode (headEnc (l.head i) (l.tail i))

/-- The line of one instruction: head and tail placed as R49 states, the gap zero. -/
def Line.single (h : BitVec 16) (tail : BitVec 64) : Line :=
  let bytes := tailBytes (h.extractLsb' 14 2)
  BitVec.ofNat 512 (2048 + h.toNat * 2 ^ 16 + tail.toNat % 2 ^ (8 * bytes) * 2 ^ (8 * (64 - bytes)))

/-- The head and tail of a word as spec/opcode_table.json numbers its bits: the tail lowest, the head above it. -/
def tableHead (nbits w : Nat) : BitVec 16 := BitVec.ofNat 16 (w / 2 ^ (nbits - 16))
/-- The tail part of such a word. -/
def tableTail (nbits w : Nat) : BitVec 64 := BitVec.ofNat 64 (w % 2 ^ (nbits - 16))

/-- The instruction that the decoder reads from a line holding just that word. -/
def decodeTableWord (nbits w : Nat) : Option Instr :=
  let l := Line.single (tableHead nbits w) (tableTail nbits w)
  if l.ok 1 then (l.decodeAt 1).toOption else none

end Sys2Proof
end

