-- ==== Sys2Proof/Machine/Records.lean ====
section
/-! DEFINITION. The records that the state is made of: plain data, one structure per object of the manual. Each record's
defaults are its value when the object comes into being. -/

namespace Sys2Proof.Machine

/-- Memory: address and byte, addresses rising, no zero byte listed (an unlisted byte reads 0). -/
abbrev Memory := List Host.Cell

/-- R1: the ordering codes. -/
inductive OrderingCode where
  | p4 | p4s | m4
  deriving DecidableEq, Repr

/-- R388, R390: what a producer's signal carries: its entity (R389), the time of its action, and its CPT. -/
structure Tag where
  ent : Word := 0
  time : Word := 0
  cptTime : Word := 0
  cptPtr : Word := 0
  deriving DecidableEq, Repr

/-- R146: the full/empty operations that can wait. -/
inductive FeOp where
  | ldfe | stfe | ldff
  deriving DecidableEq, Repr

/-- A full/empty access parked on a word: its word number, operation, effective address, value to store, destination, and whether it
extends the sign. -/
structure FeReq where
  word : Nat
  ea : Word := 0
  op : FeOp
  value : BitVec 32 := 0
  dst : Field := 0x1F
  signed : Bool := false
  deriving DecidableEq, Repr

/-- The scalar registers as an instruction reads its sources: a pair's second member (R62), or an instruction that waits
after its issue. -/
structure Sources where
  g : Vector Word 16
  shared : Vector Word 16
  deriving DecidableEq, Repr

/-- Why a thread is Parked (R89). -/
inductive Wait where
  /-- a switch marker, or an entry's wait for earlier long-latency results (R93) -/
  | results
  /-- the slots of a sync tail's WAIT, or of `dwait` (R60, R95) -/
  | depZero (mask : BitVec 8)
  /-- SE with the slot at 15 (R60) -/
  | depRoom (slot : Nat)
  /-- a line that is not in the instruction cache (R122) -/
  | fetch
  /-- a TLB miss (R140) -/
  | walk
  /-- the owner's reply to a remote write, atomic or message (R140, R261) -/
  | reply
  /-- the conditions of R165 at a scope -/
  | release (scope : Nat)
  /-- every earlier store acknowledged at its home (R72, R350) -/
  | acks
  /-- an acquire's value (R166) -/
  | landing (seq : Nat)
  /-- the accesses that channel 0 carries ahead to the lines of some bytes at a home (R18, R162) -/
  | lane (remote : Bool) (home addr n : Nat)
  /-- a full/empty word (R147) -/
  | fullEmpty (word : Nat)
  /-- a barrier phase (R258) -/
  | barrier (kind id : Nat) (token : BitVec 32)
  /-- the phase in which the thread has already arrived (R253) -/
  | rearrive (kind id : Nat) (phase : BitVec 32)
  /-- results landed, d0-d7 zero and beats finished (R106, R107, R190) -/
  | drained
  /-- results landed and d0-d7 zero (R248) -/
  | settled
  /-- a resample's collective (R248) -/
  | resample (gen : BitVec 32)
  /-- a join counter at a DVA (R245) -/
  | join (dva : Nat)
  /-- a matching mailbox entry (R262) -/
  | mail (own : Bool)
  /-- room for a message at the receiver (R261) -/
  | mailRoom
  /-- slot HEAD of a buffer (R280) -/
  | cbFill (n : Nat)
  /-- a free slot of a buffer (R280, R296) -/
  | cbFree (n : Nat)
  /-- a free record of a node (R277) -/
  | nodeFree (node : Nat)
  /-- the conditions of R96 -/
  | migrate
  /-- a full latch queue (R217) -/
  | latchRoom
  /-- a `mop` from its issue to its completion (R219) -/
  | mop
  /-- pending beats and vector memory accesses (R190) -/
  | vector
  /-- a copy command waiting for its engine (R285) -/
  | engine
  /-- a seventeenth closed batch (R291) -/
  | batchRoom
  /-- closed batches (R292) -/
  | batch (n : Nat)
  /-- a subscription whose delivery an IX has begun (R330) -/
  | applied
  /-- a subscription, a pool, a skip or a promotion being applied: in a cycle after the one of its issue (R313, R314, R328, R329) -/
  | applying (at_ : Nat)
  /-- a full promotion queue (R314) -/
  | promoRoom (car : Nat)
  /-- a lap (R315) -/
  | lap (car : Nat) (l0 : Nat)
  /-- `wfi` (R367) -/
  | work
  /-- a `publish` (R172) -/
  | publish
  /-- every access of the context issued before a removal of translations (R350) -/
  | performed (before : Nat)
  /-- results, slots and copy commands before `cxsave` (R349) -/
  | quiet
  deriving DecidableEq, Repr

/-- R89: the states a thread in a slot can be in. Migrating, Queued and Spilled threads are packets; a Halted thread is gone. -/
inductive TState where
  | seeded | running | parked (w : Wait) | faulted
  deriving DecidableEq, Repr

/-- R345, R363: what a fault record will hold. `resume` is the frame's PC where it is not the
instruction's own (R365); `recorded` once frame and record are written; `woken` where the wake came before that (R347); `fetch` marks the
fetch of a line; `back` is the result of an acquire that the thread waits for again after the wake (R166, R372). -/
structure FaultInfo where
  kind : Nat
  ea : Word := 0
  dva : Word := 0
  access : Nat := 0
  level : Nat := 0
  dst : Field := 0x1F
  resume : Option Word := none
  recorded : Bool := false
  woken : Bool := false
  fetch : Bool := false
  back : Option Nat := none
  deriving DecidableEq, Repr

/-- A translation that a thread or the fetch unit waits for (R140, R343): access is the code of R345. -/
structure WalkReq where
  ea : Word
  dva : Nat
  write : Bool
  access : Nat
  deriving DecidableEq, Repr

/-- Where a long-latency result lands (R93): a scalar register field, or a vector register of the claim. -/
inductive ResultDst where
  | scalar (f : Field)
  | vector (r : Nat)
  deriving DecidableEq, Repr

/-- An outstanding long-latency result (R92, R93): the values known so far (element number and value), how many are still
missing, the dependency slot its landing decrements (R156), and the core whose bank takes a result for a shared register, where that
is not the thread's own (R141). -/
structure Pending where
  seq : Nat
  dst : ResultDst
  vals : List (Nat × Word) := []
  missing : Nat := 0
  dep : Option (Fin 8) := none
  bank : Option Nat := none
  deriving DecidableEq, Repr

/-- A four-beat vector instruction between its first and its last beat (R189): what it will write. -/
structure Beats where
  left : Nat
  writes : List (Nat × List (Nat × BitVec 32))
  deriving DecidableEq, Repr

/-- R225: a `mop` in progress: its step cursor, its place in the order in which the block runs its `mop`s, and the cycle up to which
its step cycles have been used, with the last cycle in which the block was lent to a beat (R213). -/
structure MopRun where
  tile : Nat
  la : Nat
  sa : Nat
  step : Nat
  k : Nat
  fa : BitVec 4
  fb : BitVec 4
  table : List Byte
  dep : Option (Fin 8) := none
  started : Bool := false
  order : Nat := 0
  since : Nat := 0
  lentAt : Option Nat := none
  deriving DecidableEq, Repr

/-- R181: a claim: REQ and the held strips in rank order; the window is that of the home pair. -/
structure Claim where
  req : Nat
  strips : List Nat
  deriving DecidableEq, Repr

/-- R290: the batch tracker: OPEN, the open batch's number and how many of its commands have not completed, and the closed
batches that still hold one, with their counts. -/
structure BatchTracker where
  opened : Nat := 0
  number : Nat := 0
  live : Nat := 0
  closed : List (Nat × Nat) := []
  deriving DecidableEq, Repr

/-- R85: a thread. `uid` is the model's own number for it (log 1); `stage`, `aux`, `granted`, `refused`, `latched`, `vdata`, `blocked`,
`taken` and `sent` carry an instruction that waits (R359 AUX): how far it is, its answer, its operands as read at issue
(a vector memory instruction's active elements with their offsets and data, R198), the wait
and since when it lasts, the dependency slot that its issue incremented, and the place of its copy command in the order of channel 0
(R18). `refetch` marks a held line that is kept, after a save or a remap, for the instruction in progress alone (R66). -/
structure Thread where
  uid : Nat := 0
  ctx : Nat := 0
  pc : Word := 0
  g : Vector Word 16 := Vector.replicate 16 0
  stat : Word := 0xF80000
  tm : BitVec 16 := 0xFFFF
  dep : Vector (BitVec 4) 8 := Vector.replicate 8 0
  fa : BitVec 4 := 0
  fb : BitVec 4 := 0
  sa : BitVec 32 := 0
  sb : BitVec 32 := 0
  kb : Vector Word 8 := Vector.replicate 8 0
  kd : Vector Word 8 := Vector.replicate 8 0
  sm : BitVec 8 := 0
  w : BitVec 32 := 1
  lin : Word := 0
  plin : Word := 0xFFFFFFFFFFFFFFFF
  kid : BitVec 32 := 0
  gid : BitVec 32 := 0
  tidx : BitVec 32 := 0
  cptTime : Word := 0
  cptPtr : Word := 0
  claim : Claim := ⟨1, []⟩
  v : Vector (List (BitVec 32)) 16 := Vector.replicate 16 []
  vp : Vector (List Bool) 4 := Vector.replicate 4 []
  batch : BatchTracker := {}
  st : TState := .seeded
  pending : List Pending := []
  nextSeq : Nat := 0
  beats : Option Beats := none
  held : Option (Nat × Line) := none
  refetch : Bool := false
  replay : Option Word := none
  fault : Option FaultInfo := none
  faultCount : Nat := 0
  fetchCount : Nat := 0
  walk : Option WalkReq := none
  fe : Option FeReq := none
  feCount : Nat := 0
  mop : Option MopRun := none
  lent : Bool := false
  stage : Nat := 0
  aux : Word := 0
  granted : Bool := false
  refused : Bool := false
  latched : Option Sources := none
  vdata : Option (List (Nat × Int × BitVec 32)) := none
  blocked : Option (Wait × Nat) := none
  taken : Option (Fin 8) := none
  sent : Nat := 0
  tag : Option Tag := none
  depTag : Option Tag := none
  batchTag : Option Tag := none
  home : Option Nat := none
  hold : Bool := false
  skipBreak : Bool := false
  launched : Bool := false
  deriving DecidableEq, Repr

/-- R259: a mailbox entry, its producer's tag, and the cycle from which instructions see it (R260). -/
structure Mail where
  d : Word
  tt : BitVec 32
  ktag : BitVec 12
  kind : BitVec 4
  sender : BitVec 12
  tag : Tag := {}
  visible : Nat := 0
  deriving DecidableEq, Repr

/-- R279: the states of a buffer slot. -/
inductive SlotState where
  | free | filling | filled | held
  deriving DecidableEq, Repr

/-- R296: a producer waiting for a free slot: a thread by its number, a copy command or a carousel delivery by its own. -/
inductive Producer where
  | thread (uid : Nat)
  | command (id : Nat)
  | delivery (id : Nat)
  deriving DecidableEq, Repr

/-- R278: a circular buffer: its fields, the state of each slot, and who waits; of each
slot that `cbrel` has freed, who freed it and in which cycle (R263, R296); `fills` are the slots of a saved buffer whose fills are done,
to become Filled at the restore (R405). -/
structure CircBuf where
  en : Bool := false
  cnt : Nat := 0
  sz : Nat := 0
  base : Nat := 0
  head : Nat := 0
  tail : Nat := 0
  slots : List SlotState := []
  heldOrder : List Nat := []
  waiters : List Producer := []
  fillTags : List (Nat × Tag) := []
  freeTags : List (Nat × Tag) := []
  freedAt : List (Nat × Nat) := []
  fills : List (Nat × Tag) := []
  deriving DecidableEq, Repr

/-- R216: the states of a latch. -/
inductive LatchState where
  | empty | filling | full | passing
  deriving DecidableEq, Repr

/-- R217: an entry of a latch queue. A fill names its source offset, K, format and scale offset; a delivery carries its
bytes; an instruction's entry may carry the thread and slot that its end decrements. -/
inductive LatchJob where
  | bload (off k : Nat) (fb : BitVec 4) (sb : Nat) (dep : Option (Nat × Fin 8))
  | delivery (k : Nat) (lf : BitVec 4) (data scale : List Byte)
  | mop (uid : Nat)
  | bpass (dep : Option (Nat × Fin 8))
  | drop (dep : Option (Nat × Fin 8))
  deriving DecidableEq, Repr

/-- R218: what a pass brings its destination, and the slot that the end of its round decrements. -/
structure Passing where
  data : Memory
  scale : Memory
  k : Nat
  lf : BitVec 4
  dep : Option (Nat × Fin 8)
  deriving DecidableEq, Repr

/-- R216: an operand latch with its queue, what a pass round in progress brings it (R218), and the threads and deliveries that wait for
room in the queue, the first to wait first (R217). -/
structure Latch where
  data : Memory := []
  scale : Memory := []
  lf : BitVec 4 := 0
  k : Nat := 0
  rdr : Nat := 0
  st : LatchState := .empty
  queue : List LatchJob := []
  fill : Option LatchJob := none
  coming : Option Passing := none
  room : List Producer := []
  deriving DecidableEq, Repr

/-- R316: a ray pool and the thread that declared it (R325). -/
structure Pool where
  valid : Bool := false
  splat : Bool := false
  count : Nat := 0
  list : Nat := 0
  base : Nat := 0
  tidx : BitVec 32 := 0
  kid : BitVec 32 := 0
  deriving DecidableEq, Repr

/-- R240: a task. -/
structure Task where
  pc : Word
  a1 : Word
  a2 : Word
  a3 : Word
  a4 : Word
  lin : Word
  plin : Word
  kid : BitVec 32
  gid : BitVec 32
  stat : Word
  sa : BitVec 32
  sb : BitVec 32
  fa : BitVec 4
  fb : BitVec 4
  cptTime : Word := 0
  cptPtr : Word := 0
  ctx : Nat
  deriving DecidableEq, Repr

/-- R240: a deque entry; the kind bit tells a task from a clone. -/
inductive DequeEntry where
  | task (t : Task)
  | clone (t : Thread)
  deriving DecidableEq, Repr

/-- A thread on its way (R96, R101): where from, where to. -/
structure Packet where
  src : Nat
  srcSlot : Nat
  dst : Nat
  thread : Thread
  deriving DecidableEq, Repr

/-- R347: a faulter whose slot is lent, until its wake: the slot, the fault, whom the wake is for, and the CPT it carries. -/
structure Faulter where
  slot : Nat
  kind : Nat
  dva : Word
  tidx : BitVec 32
  kid : BitVec 32
  frame : Nat
  tag : Tag := {}
  deriving DecidableEq, Repr

/-- R31: the reset code table. -/
def resetTable : Vector Byte 16 :=
  ((((((((Vector.replicate 16 (0 : Byte)).set 1 1).set 2 2).set 3 3).set 4 4).set 5 5).set 6 6).set 7 7).set 8 0xF8
    |>.set 9 0xF9 |>.set 10 0xFA |>.set 11 0xFB |>.set 12 0xFC |>.set 13 0xFD |>.set 14 0xFE |>.set 15 0xFF

/-- A logical core and its state; the defaults are the hand-over values of R356. `wraps` keeps a
counter's value before the cycle's increment, with that cycle, where it has overflowed, and `selWas` the event that it counts in the
cycle in which its PMSELn is written (R396). A spill ring and a deque have the
chunks of memory that Bobbin has allocated (R103, R241) and the places of their records there: of the ring's in order, and of the
deque's entries above the bottom 32, the top first. `lastAccept` is the cycle of the last accepted arrival (R101). `lastTurn` is the
cycle in which the core last began to serve its slots, `served` how many it has served in it, and `pick` the slot whose turn it is
(R91). `dirty` are the words to check again, each with the cycle of its change (R147). -/
structure CoreState where
  ctx : Option Nat := none
  shared : Vector Word 16 := Vector.replicate 16 0
  slots : Vector (Option Thread) 16 := Vector.replicate 16 none
  last : Nat := 15
  lastIssue : Vector (Option Nat) 16 := Vector.replicate 16 none
  lastTurn : Option Nat := none
  served : Nat := 0
  pick : Option (Fin 16) := none
  ls : Memory := []
  emptyWords : List Nat := []
  dirty : List (Nat × Nat) := []
  feTags : List (Nat × Tag) := []
  win : Vector Word 4 := Vector.replicate 4 0
  cb : Vector CircBuf 4 := Vector.replicate 4 {}
  mcbase : Nat := 0
  pool : Pool := {}
  latch : Latch := {}
  table : Vector Byte 16 := resetTable
  mailbox : List Mail := []
  arrivals : List Thread := []
  lastAccept : Option Nat := none
  spill : List Thread := []
  spillChunks : List Nat := []
  spillAt : List Nat := []
  deque : List DequeEntry := []
  dequeChunks : List Nat := []
  dequeAt : List Nat := []
  held : List Mail := []
  faulters : List Faulter := []
  bp : Vector Word 4 := Vector.replicate 4 0
  wpa : Vector Word 2 := Vector.replicate 2 0
  wpc : Vector Word 2 := Vector.replicate 2 0
  stopEn : Bool := false
  stopped : Bool := false
  pmc : Vector Word 4 := Vector.replicate 4 0
  pmsel : Vector (BitVec 8) 4 := Vector.replicate 4 0
  wraps : Vector (Option (Nat × Word)) 4 := Vector.replicate 4 none
  selWas : Vector (Option (Nat × BitVec 8)) 4 := Vector.replicate 4 none
  remapStep : Nat := 0
  remapTarget : Option Nat := none
  deriving DecidableEq, Repr

/-- R344: a cached entry of a walk: its context, the log2 of the bytes it covers, the DVA divided by them, and the entry. -/
structure TlbEntry where
  ctx : Nat
  shift : Nat
  page : Nat
  entry : Word
  deriving DecidableEq, Repr

/-- R319: a subscription: a ray of a core's pool, or a weight target (0 to 3 a buffer, 4 the latch); the cycle of its
registration, the delivery it takes part in, for a weight target the deliveries after that one (R308), the result of its box test
there, and its issuer's tag. -/
structure Sub where
  core : Nat
  ray : Option Nat
  target : Nat := 0
  car : Nat
  seg : Nat
  ctx : Nat
  since : Nat := 0
  opened : Option Nat := none
  more : List Nat := []
  boxed : Option Bool := none
  tag : Tag := {}
  deriving DecidableEq, Repr

/-- R306, R326: a delivery in a cluster's buffer, the next primitive to test, and how many of its rays have been tested against it. -/
structure IxJob where
  delivery : Nat
  car : Nat
  seg : Nat
  kind : Nat
  dva : Nat
  header : List Byte
  payload : List Byte
  next : Nat := 0
  ray : Nat := 0
  begun : Bool := false
  deriving DecidableEq, Repr

/-- A cluster: its caches and its Intersection Engine. `acquired` keeps, for a thread that acquired on the cluster with stores of its own
in flight, its place in program order then (R162). -/
structure Cluster where
  icache : List (Nat × Nat × Line) := []
  ccache : List (Nat × List Byte) := []
  acquired : List (Nat × Nat) := []
  tlb : List TlbEntry := []
  nonleaf : List TlbEntry := []
  subs : List Sub := []
  buffer : List IxJob := []
  redeliver : List IxJob := []
  failedPolls : Nat := 0
  polledAt : Option Nat := none
  deriving DecidableEq, Repr

/-- R282: a parameter block. -/
structure Block where
  serial : Nat
  mb : Bool
  cb : Bool
  n : Nat
  shd : Bool
  nrcv : Nat
  len : Nat
  src : Word
  dst : Word
  nrow : Nat
  sstr : Int
  dstr : Int
  list : Word
  tag : Word
  deriving DecidableEq, Repr

/-- R285: the copy instructions. -/
inductive CopyOp where
  | cpy | cpgx | cpsx | cpmc
  deriving DecidableEq, Repr

/-- An accepted copy command (R285): its block, its issuer, the snapshot of its segments, its batch and slot, its list once read,
the words already written (row and word), source words read and still needed (by row and word), the buffer slots taken and the MCBASE read for each landing, the cycle of its deliveries,
and the translation fault on which it is parked (kind, level and DVA, R402). -/
structure Command where
  id : Nat
  op : CopyOp
  block : Block
  uid : Nat
  ctx : Nat
  core : Nat
  kid : BitVec 32
  tidx : BitVec 32
  kb : Vector Word 8
  kd : Vector Word 8
  batch : Option Nat := none
  dep : Option (Fin 8) := none
  list : Option (List Nat) := none
  done : List (Nat × Nat) := []
  words : List (Nat × List Byte) := []
  taken : List (Nat × Nat) := []
  bases : List (Nat × Nat) := []
  err : Bool := false
  delivered : Option Nat := none
  fault : Option (Nat × Nat × Nat) := none
  packet : Option (Nat × Nat) := none
  tag : Tag := {}
  deriving DecidableEq, Repr

/-- R281, R286: a copy engine. -/
structure Engine where
  commands : List Command := []
  cache : List (Nat × Nat × Nat × List Byte) := []
  deriving DecidableEq, Repr

/-- R300: the states of a carousel. -/
inductive CarState where
  | off | running | idle | stopping
  deriving DecidableEq, Repr

/-- An entry of a carousel's schedule; `failed` is how often its read has failed since it last succeeded (R307). -/
structure SchedEntry where
  dva : Nat
  seg : Nat
  kind : Nat
  plen : Nat := 0
  failed : Nat := 0
  bad : Bool := false
  deriving DecidableEq, Repr

/-- R302: a command waiting for a lap boundary, with the packet that it ends. -/
inductive CarCmd where
  | replace (index dva plen q idx : Nat)
  | period (k q idx : Nat)
  deriving DecidableEq, Repr

/-- R314: a promotion, the cycle in which it was queued, and the slots that its end decrements (thread, slot and tag). -/
structure Promo where
  seg : Nat
  since : Nat := 0
  deps : List (Nat × Fin 8 × Tag) := []
  deriving DecidableEq, Repr

/-- R300 to R304, R311: a carousel. -/
structure Carousel where
  st : CarState := .off
  partition : Nat := 0
  ctx : Nat := 0
  k : Nat := 8
  promo : List Promo := []
  sched : List SchedEntry := []
  p : Nat := 0
  s : Nat := 0
  lapn : Nat := 0
  badid : Nat := 0xFFFF
  cmds : List CarCmd := []
  openedSince : Bool := false
  read : Option (Nat × List Byte × List Byte) := none
  stopPacket : Option (Nat × Nat) := none
  lapTime : Word := 0
  deriving DecidableEq, Repr

/-- A delivery on the network: its job and the clusters it has not reached. -/
structure Delivery where
  id : Nat
  job : IxJob
  clusters : List Nat
  deriving DecidableEq, Repr

/-- A die: its engines and its carousels. -/
structure Die where
  engines : Vector Engine 16 := Vector.replicate 16 {}
  cars : Vector Carousel 4 := Vector.replicate 4 {}
  deliveries : List Delivery := []
  deriving DecidableEq, Repr

/-- R154 to R157: what an atomic does at its home. -/
inductive AmoOp where
  | add | and | or | xor | min | max | minu | maxu | swap | cas | fadd
  deriving DecidableEq, Repr

/-- What an access does at its home. -/
inductive AccessOp where
  | load | store
  | amo (op : AmoOp)
  deriving DecidableEq, Repr

/-- An access that has been accepted and not yet been performed at its home (R140, R161): its thread, the core that sent it (R18), its
place in program order, the leaf it left from, the home (a die, or a package of the domain), address, size, data, the extension of its
result (R150), carried rounding state (R157), and the result it feeds; `stranded` where LINK_DOWN has been raised for it, until the wake
(R372). -/
structure Access where
  uid : Nat
  ctx : Nat
  core : Nat := 0
  leaf : Nat := 0
  seq : Nat
  op : AccessOp
  remote : Bool := false
  home : Nat := 0
  addr : Nat
  size : Nat
  data : Word := 0
  data2 : Word := 0
  ext : Nat := 3
  stat : Word := 0
  result : Option Nat := none
  elem : Nat := 0
  cached : Option Nat := none
  ea : Word := 0
  dva : Nat := 0
  stranded : Bool := false
  tag : Tag := {}
  deriving DecidableEq, Repr

/-- R139, R155: an atomic on the issuing core's own local store, which that core's interface performs after the writes of its slots
(R138): its thread, context and core, offset and size, operation and operands, STAT, and the result it feeds. -/
structure OwnAtomic where
  uid : Nat
  ctx : Nat
  core : Nat
  off : Nat
  size : Nat
  op : AmoOp
  data : Word
  data2 : Word
  stat : Word
  result : Nat
  deriving DecidableEq, Repr

/-- What a message on channel 0 or 2 carries (R17). -/
inductive MsgBody where
  | write (off size : Nat) (data : Word)
  | atomic (op : AmoOp) (off size : Nat) (data data2 stat : Word)
  | ack (old : Option Word)
  | nack
  | mail (m : Mail) (reply : Bool)
  deriving DecidableEq, Repr

/-- A message in flight: its sequence number, the cores it runs between, the leaves they lay at when it was sent, the thread and slot it speaks for, the result it
will feed, whether it has been lost, whether the interface of a core in a remap has accepted it and holds it (R401), and the cycle in which it was last
sent (R20). -/
structure Msg where
  seq : Nat
  src : Nat
  dst : Nat
  srcLeaf : Nat := 0
  dstLeaf : Nat := 0
  uid : Nat
  ctx : Nat := 0
  body : MsgBody
  result : Option Nat := none
  lost : Bool := false
  held : Bool := false
  since : Nat := 0
  tag : Tag := {}
  deriving DecidableEq, Repr

/-- R227: a launch descriptor. -/
structure Desc where
  entry : Word := 0
  seeds : List Word := []
  quota : Nat := 16
  cls : Nat := 0
  domain : Nat := 0
  priv : Bool := false
  prio : Nat := 0
  fa : BitVec 4 := 0
  fb : BitVec 4 := 0
  sa : BitVec 32 := 0
  sb : BitVec 32 := 0
  gsize : Nat := 0
  plimit : Nat := 0
  upcall : Word := 0
  rseed : Word := 0
  insig : Nat := 0
  outsig : Nat := 0
  gangn : Nat := 0
  gto : Nat := 0
  glist : List Nat := []
  kb : Vector Word 8 := Vector.replicate 8 0
  kd : Vector Word 8 := Vector.replicate 8 0
  deriving DecidableEq, Repr

/-- R274: the states of a record of a node's pool. -/
inductive RecState where
  | free | ready | held
  deriving DecidableEq, Repr

/-- R274: a node of a graph, with its records, who waits for one, and who holds which. -/
structure Node where
  kid : BitVec 32 := 0
  pool : Nat
  rsize : Nat
  depth : Nat
  records : List RecState
  launched : Nat := 0
  waiters : List Nat := []
  holders : List (Nat × Nat) := []
  tags : List (Nat × Tag) := []
  deriving DecidableEq, Repr

/-- R253: a barrier: CPH, the threads that have arrived, COUNT of the open phase of a named one, and the last producer. -/
structure Barrier where
  cph : BitVec 32 := 0
  arrived : List Nat := []
  count : Nat := 0
  tag : Option Tag := none
  deriving DecidableEq, Repr

/-- R236: a gang member's protocol: its members, the cycle it started, the messages received, the phases of the others, and the
participant that each one's next phase message names (R371). -/
structure Gang where
  members : List Nat
  start : Option Nat := none
  acks : List Nat := []
  dones : List Nat := []
  phases : List (Nat × Nat) := []
  tags : List (Nat × Tag) := []
  selfDone : Bool := false
  aborted : Bool := false
  deriving DecidableEq, Repr

/-- A launch that the front end has started and that is not yet failed or seeded (R227, R231); a concurrent one that waits for
slots has its KID, its nodes, their descriptors and KIDs as of its acceptance (R274) and its place in the order of acceptance (R232). -/
structure Launch where
  ctx : Nat
  queue : Nat
  packet : Nat
  n : Nat
  slice0 : Nat
  nslice : Nat
  graph : Nat
  nnode : Nat
  desc : Option Desc
  waiting : Bool := false
  kid : BitVec 32 := 0
  nodes : List (Desc × Node) := []
  accepted : Nat := 0
  gang : Option Gang := none
  deriving DecidableEq, Repr

/-- R231, R234: a kernel. -/
structure Kernel where
  ctx : Nat
  kid : BitVec 32
  queue : Nat := 0
  packet : Nat := 0
  desc : Desc := {}
  n : Nat := 0
  next : Nat := 0
  live : Nat := 0
  copies : Nat := 0
  slice0 : Nat := 0
  nslice : Nat := 0
  accepted : Nat := 0
  nodes : List Node := []
  root : Option (BitVec 32) := none
  node : Option Nat := none
  bar : Barrier := {}
  gang : Option Gang := none
  done : Bool := false
  deriving DecidableEq, Repr

/-- R248: an arrival at a resample, with the register that takes the copy number. -/
structure Arrival where
  uid : Nat
  comb : Nat
  w : Nat
  n : Nat
  dst : Field := 0x1F
  deriving DecidableEq, Repr

/-- R238: a group record; a join counter is kept by its DVA (R245). -/
structure Group where
  ctx : Nat
  kid : BitVec 32
  gid : BitVec 32
  pop : Nat
  gen : BitVec 32 := 0
  next : Nat
  limit : Nat
  joins : List (Word × Nat) := []
  bar : Barrier := {}
  named : List (Nat × Barrier) := []
  arrivals : List Arrival := []
  tag : Option Tag := none
  deriving DecidableEq, Repr

/-- R357: the states of a context. -/
inductive CtxState where
  | created | active | preempted | faulted | killed | destroyed
  deriving DecidableEq, Repr

/-- R385 to R387: an open trace session; `word` is its head word as last written. -/
structure Session where
  ring : Nat
  size : Nat
  head : Nat
  src : BitVec 8
  per : Nat
  queue : Nat
  start : Nat := 0
  samples : Nat := 0
  word : Nat := 0
  deriving DecidableEq, Repr

/-- A context. `repeats` holds, for a faulter whose thread is in a frame, how often its instruction's access and the fetch of its line
have faulted (R345). -/
structure Context where
  partition : Nat := 0
  st : CtxState := .created
  root : Nat := 0
  otag : BitVec 13 := 0
  ranges : List (Nat × Nat) := []
  apertures : List (Nat × Nat × Nat) := []
  sel : List (Nat × Bool) := []
  nextKid : BitVec 32 := 1
  grace : Nat := 40000
  session : Option Session := none
  saved : List (Nat × CoreState) := []
  savedIx : List (Nat × IxJob) := []
  saving : List Nat := []
  saveSince : List (Nat × Nat) := []
  resumeAsked : List Nat := []
  repeats : List (Nat × Nat × Nat) := []
  deriving DecidableEq, Repr

/-- R268: the states of a queue. -/
inductive QueueState where
  | active | stopped | resetting | destroyed
  deriving DecidableEq, Repr

/-- R266: a command queue: its parts, the next packet to start, and the started packets that have not ended, with their CSIG.
`discards` holds what a reset has still to discard, with W0 (R273). `holding` is the packet that holds the head (R272): its index, whether it is a BARRIER_AND, and the signal words it waits for. -/
structure Queue where
  ctx : Nat
  ring : Nat
  size : Nat
  riDva : Nat
  wi : Nat := 0
  ri : Nat := 0
  st : QueueState := .active
  runtime : Bool := false
  started : List (Nat × Nat) := []
  holding : Option (Nat × Bool × List Nat) := none
  discards : List Nat := []
  resetTo : Nat := 0
  deriving DecidableEq, Repr

/-- R355: a partition: its slices, its share of device memory (each range from its first byte to one past its last), its display heads and
encoders, the digest of its image. -/
structure Partition where
  slices : List Nat
  share : List (Nat × Nat) := []
  heads : List Nat := []
  encoders : List Nat := []
  digest : List Byte := []
  deriving DecidableEq, Repr

/-- R337: a shard of a weight load; `segs` are its segments as their headers have been checked: SEGID, DVA and PLEN. -/
structure Shard where
  index : Nat
  repl : Nat
  len : Nat
  dst : Nat
  layer : Nat
  digest : List Byte
  since : Nat := 0
  tries : Nat := 0
  ok : Bool := false
  failed : Bool := false
  segs : List (Nat × Nat × Nat) := []
  deriving DecidableEq, Repr

/-- R337 to R339: a weight load on this package: its own arrival at the barrier and the others', whether the barrier has completed with
success, the version and the number of requests
that a replacement replaces, and the layers swapped so far, each with the die. -/
structure WeightLoad where
  ctx : Nat
  queue : Nat
  packet : Nat
  manifest : Nat
  version : Nat
  nlayer : Nat
  replaceMode : Bool
  car : Nat
  lto : Nat
  gate : Nat
  gang : List Nat
  start : Nat
  shards : List Shard
  arrived : Option (Option Nat) := none
  peers : List (Nat × Option Nat) := []
  replacing : Option (Nat × Nat) := none
  swapping : List (Nat × Nat) := []
  through : Bool := false
  deriving DecidableEq, Repr

/-- What leaves on the host interface (R271, R375, R377, R379). -/
inductive HostMsg where
  | queueStopped (q dva reason : Nat)
  | bootFailed
  | status (request : Nat) (ok : Bool)
  | quote (bytes : List Byte)
  | contextKilled (ctx : Nat)
  | log (bytes : List Byte)
  deriving DecidableEq, Repr

/-- What a message to another package says (R236, R256, R337), with its tag (R371). -/
inductive LinkKind where
  | gangAck (tag : Tag) | gangAbort (tag : Tag) | gangDone (tag : Tag)
  | gangPhase (phase : Nat) (tag : Tag)
  | loadArrive (failed : Option Nat) (tag : Tag)
  deriving DecidableEq, Repr

/-- R230, R245: what an update at a home does: a store of some bytes, a signal word's step with a code, or a join counter's step with
its producer's tag. -/
inductive UpdateKind where
  | store (size value : Nat)
  | signal (code : Nat)
  | count (tag : Tag)
  deriving DecidableEq, Repr

/-- An update that waits for its page (R347, R353). -/
structure Update where
  ctx : Nat
  dva : Nat
  kind : UpdateKind
  deriving DecidableEq, Repr

/-- A message to another package: whose queue and packet it is about. -/
structure LinkMsg where
  dst : Nat
  ctx : Nat
  queue : Nat
  packet : Nat
  kind : LinkKind
  deriving DecidableEq, Repr

/-- R374: the package time counter, the deviation of its rate in parts per 2²⁴, and the offset still to be absorbed; counter and
offset in units of 2⁻²⁴ of a TIME unit. -/
structure TimeCounter where
  acc : Nat := 0
  rate : Int := 0
  slew : Int := 0
  deriving DecidableEq, Repr

/-- The package outside its clusters; `lostPaths` are the packages to which no path has existed, each since a cycle (R372);
`crossed` are the cores whose sensor has reached the thermal threshold and for which no remap has been tried yet (R361, R399), `sparing` the
clusters that firmware remaps as a whole, each with its spare (R384); a leaf l of die d (R15) is named 148·d + l: `sysCores` are the system cores that Bobbin has been started on, each with the address of its image (R375, R382); parts, maps, sensors, network, links, measurement, boot (R1, R9, R13, R20, R369, R375). -/
structure Package where
  form : OrderingCode := .p4
  coreMap : List (Nat × Nat) := []
  partMap : List (Nat × Nat) := []
  baseMap : List (Nat × Nat) := []
  fused : List Nat := []
  failed : List Nat := []
  retired : List Nat := []
  sensors : List (Nat × Int) := []
  threshold : Int := 95
  crossed : List Nat := []
  sparing : List (Nat × Nat) := []
  deadLeaves : List Nat := []
  deadSwitches : List Nat := []
  pkg : BitVec 18 := 0
  domain : BitVec 10 := 0
  linkup : BitVec 22 := 0
  linkLost : Nat := 0
  lostPaths : List (Nat × Nat) := []
  time : TimeCounter := {}
  meas : List Byte := List.replicate 48 0
  extends_ : Nat := 0
  bootSeed : BitVec 256 := 0
  running : Bool := false
  sysCores : List (Nat × Nat) := []
  imageNext : Nat := 0x3E000000000
  logging : Bool := false
  replay : Option Bool := none
  version : BitVec 32 := 0
  areaBase : Nat := 0x3F000000000
  chunkNext : Nat := 0x3F100000000
  lendBase : Nat := 0x1F000000000000
  hostOut : List HostMsg := []
  linkOut : List LinkMsg := []
  deriving DecidableEq, Repr

/-- R398: what an entry of a replay log brings: a draw of the entropy source, an arrival or correction, named by the step that it is, or the host's
store. -/
inductive Logged where
  | draw (seed : BitVec 256)
  | step (i : Instr)
  | store (pa : Nat) (bytes : List Byte)
  deriving DecidableEq, Repr
/-- R398: an entry of the log that a package replays, with its TIME. -/
structure LogEntry where
  time : Nat
  what : Logged
  deriving DecidableEq, Repr

/-- Steps of agents outside the opcode table's rows, which the agenda may name: a word of a copy command, a store by the host
or Bobbin to device memory, a store by another package to its own memory, a cache line dropped, a temperature read, the thermal threshold set, a decision to
spare a cluster (R361), a context's grace period (R358), Bobbin's own records, its number and its place in the domain (R370), a partition's share of memory (R355), a refusal by another package
(R370), the part
that this package is (R1, R9), a path to another package lost or back (R372), a message lost, an ECC error that a read has met, some of a `mop`'s steps, and a start in logging or in replay mode (R398). -/
inductive Micro where
  | copyWord (die eng k row word : Nat)
  | store (pa : Nat) (bytes : List Byte)
  | remoteStore (addr : Nat) (bytes : List Byte)
  | dropCode (cluster line : Nat)
  | dropConst (cluster line : Nat)
  | sensor (core : Nat) (deg : Int)
  | threshold (deg : Int)
  | spare (cluster : Nat)
  | grace (ctx n : Nat)
  | mapRange (ctx lo hi : Nat)
  | aperture (ctx idx dom base : Nat)
  | number (pkg domain : Nat)
  | share (partition lo hi : Nat)
  | refuse (k kind level : Nat)
  | part (form : OrderingCode) (enabled fused : List Nat)
  | sendLost (k : Nat)
  | path (pkg : Nat) (up : Bool)
  | ecc (line : Nat)
  | mopSteps (core slot n : Nat)
  | gangTag (k pkg : Nat) (tag : Tag)
  | logging
  | replay (form : OrderingCode) (enabled fused : List Nat) (log : List LogEntry)
  deriving DecidableEq, Repr

/-- What the agenda can name as the next step (log 1): a core's turn, a cycle, a step of the opcode table, or a micro step. -/
inductive Agenda where
  | turn (core : Nat)
  | tick
  | event (i : Instr)
  | micro (m : Micro)
  deriving DecidableEq, Repr

end Sys2Proof.Machine
end

