-- ==== Sys2Proof/Machine/State.lean ====
section
/-! DEFINITION. The state of a package, the reasons a step can stop, and the state after reset. Plain data: the records
are in Machine/Records.lean. Cores, clusters and dies are listed by number where they differ from their hand-over state. -/

namespace Sys2Proof.Machine

/-- Why a step stops. -/
inductive Fault where
  /-- `exec` was asked to run an instruction for a slot that holds no thread. Raised by every instruction's meaning; the
  step never does so, since it only issues from slots that hold one. Safe: the model stops where no hardware acts. -/
  | noThread
  deriving DecidableEq, Repr

/-- Why an instruction has no meaning here. -/
inductive Refusal where
  /-- The instruction has no meaning in this model yet. Raised by `exec`'s rejected arms alone. Safe: nothing is claimed. -/
  | notModelled (mnemonic : String)
  deriving DecidableEq, Repr

/-- The state of one package. -/
structure State where
  package : Package
  cycle : Nat
  phase : Nat
  ownAt : Nat
  agenda : List Agenda
  cur : Nat
  slot : Fin 16
  bundle : Option Sources
  free : Nat
  nextUid : Nat
  nextId : Nat
  mem : Memory
  rmem : Memory
  poison : List Nat
  lineTags : List (Nat × Nat × Nat)
  cores : List (Nat × CoreState)
  clusters : List (Nat × Cluster)
  dies : Vector Die 4
  flight : List Access
  msgs : List Msg
  transit : List Packet
  contexts : List (Nat × Context)
  partitions : List (Nat × Partition)
  queues : List (Nat × Queue)
  launches : List Launch
  kernels : List Kernel
  groups : List Group
  loads : List WeightLoad
  updates : List Update
  amos : List OwnAtomic
  owed : List (Nat × Fin 4 × BitVec 8 × Nat)
  replayLog : List LogEntry
  deriving DecidableEq, Repr

/-- The package right after reset (R375): nothing measured, no partition, no thread, every object at the value the spec gives;
the values that the spec leaves open are named in notes/assumptions/3.md, 4.md and 11.md. -/
def State.reset : State where
  package := {}
  cycle := 0
  phase := 0
  ownAt := 0
  agenda := []
  cur := 0
  slot := 0
  bundle := none
  free := 0
  nextUid := 1
  nextId := 1
  mem := []
  rmem := []
  poison := []
  lineTags := []
  cores := []
  clusters := []
  dies := Vector.replicate 4 {}
  flight := []
  msgs := []
  transit := []
  contexts := []
  partitions := []
  queues := []
  launches := []
  kernels := []
  groups := []
  loads := []
  updates := []
  amos := []
  owed := []
  replayLog := []

end Sys2Proof.Machine
end

