-- ==== Sys2Proof/Machine/Ops.lean ====
section
/-! DEFINITION. The named operations over memory, registers and threads that every meaning is written in: sparse maps,
memory bytes, cores and threads, register fields (R56, R57), the PC (R63), parking (R89), taking a trap and returning
from one (R7, R345, R349, R363), and the checks of R135 and R136. -/

namespace Sys2Proof.Machine

/-! ### Maps -/

/-- The value listed for a key. -/
def mapGet {α : Type} : List (Nat × α) → Nat → Option α
  | [], _ => none
  | (k, v) :: r, a => if k = a then some v else mapGet r a

/-- The list with a key's value set, in its place by rising key. -/
def mapPut {α : Type} : List (Nat × α) → Nat → α → List (Nat × α)
  | [], a, x => [(a, x)]
  | (k, v) :: r, a, x => if a < k then (a, x) :: (k, v) :: r else if k = a then (a, x) :: r else (k, v) :: mapPut r a x

/-- The list without a key. -/
def mapDel {α : Type} : List (Nat × α) → Nat → List (Nat × α)
  | [], _ => []
  | (k, v) :: r, a => if k = a then mapDel r a else (k, v) :: mapDel r a

/-- The list with the value of one position changed. -/
def listSet {α : Type} : List α → Nat → α → List α
  | [], _, _ => []
  | _ :: r, 0, x => x :: r
  | y :: r, n + 1, x => y :: listSet r n x

/-- The list without one position. -/
def listDel {α : Type} : List α → Nat → List α
  | [], _ => []
  | _ :: r, 0 => r
  | y :: r, n + 1 => y :: listDel r n

/-- A vector with every element changed. -/
def vmap {α : Type} {n : Nat} (f : α → α) (v : Vector α n) : Vector α n :=
  (List.range n).foldl (fun (u : Vector α n) i => if h : i < n then u.set i (f u[i]) h else u) v

/-! ### Memory bytes (R5) -/

/-- Reading one byte: an unlisted byte reads 0. -/
def Memory.read (m : Memory) (a : Nat) : Byte := (mapGet m a).getD 0

/-- Writing one byte: a zero byte is not listed. -/
def Memory.write (m : Memory) (a : Nat) (b : Byte) : Memory := if b = 0 then mapDel m a else mapPut m a b

/-- The canonical form: addresses strictly rising, no zero byte listed. -/
def Memory.wf : Memory → Bool
  | [] => true
  | (a, b) :: r => b != 0 && (match r with | [] => true | (a', _) :: _ => decide (a < a')) && Memory.wf r

/-- `n` bytes from an address. -/
def Memory.bytes (m : Memory) (a : Nat) : Nat → List Byte
  | 0 => []
  | n + 1 => m.read a :: m.bytes (a + 1) n

/-- Bytes written from an address up. -/
def Memory.put (m : Memory) (a : Nat) : List Byte → Memory
  | [] => m
  | b :: r => (m.write a b).put (a + 1) r

/-- Memory with the bytes [a, a + n) zero. -/
def Memory.clear (m : Memory) (a n : Nat) : Memory := m.filter (fun c => decide (c.1 < a ∨ a + n ≤ c.1))

/-- The number that bytes spell, the lowest address first (R5). -/
def leNat : List Byte → Nat
  | [] => 0
  | b :: r => b.toNat + 256 * leNat r

/-- The `n` low bytes of a number, the lowest first (R5). -/
def leBytes (v : Nat) : Nat → List Byte
  | 0 => []
  | n + 1 => BitVec.ofNat 8 v :: leBytes (v / 256) n

/-- The number in `n` bytes. -/
def Memory.num (m : Memory) (a n : Nat) : Nat := leNat (m.bytes a n)

/-- The low `n` bytes of a number written. -/
def Memory.putNum (m : Memory) (a n v : Nat) : Memory := m.put a (leBytes v n)

/-- Bits [hi:lo] of a word as a number. -/
def bits (w : Word) (hi lo : Nat) : Nat := (w.toNat >>> lo) % 2 ^ (hi + 1 - lo)

/-- A number's bits [hi:lo]. -/
def nbits (w hi lo : Nat) : Nat := (w >>> lo) % 2 ^ (hi + 1 - lo)

/-- A word with bits [hi:lo] replaced. -/
def setBits (w : Word) (hi lo : Nat) (v : Nat) : Word :=
  BitVec.ofNat 64 (w.toNat - (bits w hi lo) <<< lo + (v % 2 ^ (hi + 1 - lo)) <<< lo)

/-! ### Cores, clusters, threads -/

/-- The state of a logical core; a core not listed is as at hand-over (R356). -/
def State.core (s : State) (c : Nat) : CoreState := (mapGet s.cores c).getD {}
/-- The state with one core set. -/
def State.setCore (s : State) (c : Nat) (k : CoreState) : State := { s with cores := mapPut s.cores c k }
/-- The state of a logical cluster, numbered die·128 + cluster (R11). -/
def State.cluster (s : State) (n : Nat) : Cluster := (mapGet s.clusters n).getD {}
/-- The state with one cluster set. -/
def State.setCluster (s : State) (n : Nat) (k : Cluster) : State := { s with clusters := mapPut s.clusters n k }
/-- A context. -/
def State.context (s : State) (x : Nat) : Context := (mapGet s.contexts x).getD {}
/-- The state with one context set. -/
def State.setContext (s : State) (x : Nat) (c : Context) : State := { s with contexts := mapPut s.contexts x c }
/-- The thread in a slot of a core. -/
def State.threadAt (s : State) (c : Nat) (i : Fin 16) : Option Thread := (s.core c).slots[i]
/-- The state with one slot set. -/
def State.setSlot (s : State) (c : Nat) (i : Fin 16) (t : Option Thread) : State :=
  s.setCore c { s.core c with slots := (s.core c).slots.set i t }
/-- The thread that issues: that of the current slot. -/
def State.thread (s : State) : Option Thread := s.threadAt s.cur s.slot
/-- The issuing thread, or a fresh one where the slot is empty. -/
def State.th (s : State) : Thread := s.thread.getD {}
/-- The state with the issuing thread changed. -/
def State.setTh (s : State) (t : Thread) : State := s.setSlot s.cur s.slot (some t)
/-- The slots' numbers, in ascending order. -/
def slotNumbers : List (Fin 16) := [0, 1, 2, 3, 4, 5, 6, 7, 8, 9, 10, 11, 12, 13, 14, 15]
/-- The die of a core number, and its cluster's number (R11). -/
def dieOf (c : Nat) : Nat := c / 1024
def clusterOf (c : Nat) : Nat := c / 8

/-- R9, R12: the enabled clusters of a die. -/
def enabled (p : Package) : Nat := match p.form with | .p4s => 64 | _ => 72
/-- R10: the clusters of a slice. -/
def sliceSize (p : Package) : Nat := match p.form with | .p4s => 8 | _ => 9
/-- R11: a number that names a core. -/
def State.namesCore (s : State) (c : Nat) : Bool :=
  decide (c < 4096) && decide (c / 8 % 128 < enabled s.package) && !s.package.retired.contains (c / 8)
/-- R10: the package slice of a core. -/
def State.sliceOf (s : State) (c : Nat) : Nat := 8 * dieOf c + (c / 8 % 128) / sliceSize s.package
/-- The slices of a context's partition (R355). -/
def State.slicesOf (s : State) (x : Nat) : List Nat := ((mapGet s.partitions (s.context x).partition).map (·.slices)).getD []
/-- R14, R105: a core of a context's partition. -/
def State.coreOk (s : State) (x c : Nat) : Bool := s.namesCore c && (s.slicesOf x).contains (s.sliceOf c)

/-! ### The network's leaves (R12 to R18) -/

/-- R12, R13: the physical number of a core, and the physical cluster behind a logical one (R9, R384). -/
def State.pcluster (s : State) (cl : Nat) : Nat := (mapGet s.package.baseMap cl).getD cl
def State.pcore (s : State) (c : Nat) : Nat := (mapGet s.package.coreMap c).getD (8 * s.pcluster (clusterOf c) + c % 8)
/-- R15: the leaf ids of a die's parts: the port of a physical cluster, of a memory slice (R8), and a die port. -/
def clusterLeaf (cl : Nat) : Nat := cl % 80
def sliceLeaf (sl : Nat) : Nat := 80 + sl % 64
def portLeaf (p : Nat) : Nat := 144 + p % 4
/-- R18: the die port through which traffic to a leaf of another die leaves and enters. -/
def diePort (leaf : Nat) : Nat := leaf % 4
/-- R15: a leaf of a die, as one number. -/
def leafName (die leaf : Nat) : Nat := 148 * die + leaf
/-- R13, R15: the leaf of a logical core: the port of the physical cluster that holds it now. -/
def State.coreLeaf (s : State) (c : Nat) : Nat := leafName (dieOf c) (clusterLeaf (s.pcore c / 8 % 128))
/-- R20: the leaves of the clusters that were fused off at test are in no live-uplink mask. -/
def fusedLeaves (l : List Nat) : List Nat := l.map (fun p => leafName (p / 128) (clusterLeaf (p % 128)))
/-- R400: the IX that serves a logical core, by its number: that of the core's cluster, or, for a core remapped into another physical cluster,
that of the logical cluster which that one backs; the IX of a spare cluster p, which backs none, is 4096 + p. -/
def State.ixOf (s : State) (c : Nat) : Nat :=
  let p := s.pcore c / 8
  if p = s.pcluster (clusterOf c) then clusterOf c
  else match (List.range 512).find? (fun l => s.namesCore (8 * l) && s.pcluster l == p) with
    | some l => l
    | none => 4096 + p
/-- The die of an IX. -/
def ixDie (cl : Nat) : Nat := cl % 4096 / 128
/-- R401: a core's interface accepts requests and performs none of them: step 3 of a remap (R361). -/
def State.holding (s : State) (c : Nat) : Bool := (s.core c).remapStep == 3

/-! ### TIME and scalar registers -/

/-- R374: the value of TIME. -/
def State.time (s : State) : Nat := s.package.time.acc / 2 ^ 24

/-- R398: in logging mode, an entry of the replay log: a header of 32 bytes, TIME, source (0 digest, 1 entropy, 2 host, 3 Ethernet, 4 link), length
and port, 8 bytes each (log 76), and the data, padded to whole units of 32 bytes. -/
def State.logged (s : State) (source port : Nat) (data : List Byte) : State :=
  if s.package.logging then
    let head := leBytes s.time 8 ++ leBytes source 8 ++ leBytes data.length 8 ++ leBytes port 8
    { s with package := { s.package with
        hostOut := s.package.hostOut ++ [.log (head ++ data ++ List.replicate ((32 - data.length % 32) % 32) 0)] } }
  else s

/-! ### Scalar registers (R56, R57, R62) -/

/-- The register file as the issuing instruction reads it: the snapshot of its bundle or of its issue, else the file itself. -/
def State.sources (s : State) : Sources := s.bundle.getD ⟨s.th.g, (s.core s.cur).shared⟩

/-- R56, R57: a scalar register field read from a register file on core `c`. -/
def Sources.reg (src : Sources) (c : Nat) (f : Field) : Word :=
  let i : BitVec 4 := f.extractLsb' 0 4
  if f.getLsbD 4 then (if i = 14 then BitVec.ofNat 64 c else if i = 15 then 0 else src.shared[i.toFin])
  else src.g[i.toFin]

/-- R56: the value of a scalar source field for the issuing thread. -/
def State.reg (s : State) (f : Field) : Word := s.sources.reg s.cur f

/-- R56, R57: a scalar register written for the thread of a slot; s14 and s15 discard the write. -/
def State.putReg (s : State) (c : Nat) (i : Fin 16) (f : Field) (v : Word) : State :=
  let n : BitVec 4 := f.extractLsb' 0 4
  if f.getLsbD 4 then
    if n = 14 ∨ n = 15 then s
    else s.setCore c { s.core c with shared := (s.core c).shared.set n.toNat v n.isLt }
  else match s.threadAt c i with
    | some t => s.setSlot c i (some { t with g := t.g.set n.toNat v n.isLt })
    | none => s

/-- The issuing thread's destination written. -/
def State.setReg (s : State) (f : Field) (v : Word) : State := s.putReg s.cur s.slot f v

/-! ### The PC (R63, R64, R66) -/

/-- R63: the PC after an instruction of a line of `n`. -/
def nextPc (pc : Word) (n : Nat) : Word :=
  if (pc &&& 63).toNat < n then pc + 1 else ((pc >>> 6) + 1) <<< 6 ||| 1

/-- The instruction count of the held line. -/
def Thread.lineCount (t : Thread) : Nat := (t.held.map (fun h => h.2.count)).getD 0

/-- An instruction has ended for its thread: the PC moves, and what its waits and faults carried is dropped (R345 COUNT). -/
def Thread.finish (t : Thread) (pc : Word) (held : Option (Nat × Line)) : Thread :=
  { t with
    pc := pc, held := if t.refetch then none else held, refetch := false, stage := 0, aux := 0, granted := false, refused := false, latched := none, vdata := none,
    blocked := none, taken := none, tag := none, faultCount := 0, fetchCount := 0, replay := none, feCount := 0, skipBreak := false }

/-- R63, R66: past the instruction; falling through past instruction n drops the held line. -/
def Thread.advance (t : Thread) : Thread :=
  t.finish (nextPc t.pc t.lineCount) (if (t.pc &&& 63).toNat < t.lineCount then t.held else none)

/-- R63: the issuing thread goes on to the next instruction. -/
def State.advance (s : State) : State := s.setTh s.th.advance

/-- R64, R66: a taken branch, jump or return: the target is fetched again. -/
def State.jump (s : State) (pc : Word) : State := s.setTh (s.th.finish pc none)

/-- R64: the target of an immediate branch. -/
def branchTarget (pc : Word) (idx : Field) (off : BitVec 17) : Word :=
  (pc >>> 6 + off.signExtend 64) <<< 6 ||| idx.zeroExtend 64

/-! ### Parking (R6, R89) -/

/-- R263: the wait that a thread is blocked on once it is Parked for a reason, with its first cycle: a line or a page that it needs
meanwhile does not end a wait that it was blocked on. -/
def blockedOn (b : Option (Wait × Nat)) (w : Wait) (now : Nat) : Wait × Nat :=
  match b, w with
  | some x, .fetch => x
  | some x, .walk => x
  | some (w', c), w => if w' = w then (w, c) else (w, now)
  | none, w => (w, now)
/-- Parked for a reason after issue: the operands stay as they were read, and the wait's first cycle is kept (R263). -/
def Thread.park (t : Thread) (w : Wait) (now : Nat) (src : Option Sources) : Thread :=
  { t with st := .parked w, latched := src, blocked := some (blockedOn t.blocked w now) }

/-- `Park` after issue. -/
def State.park (s : State) (w : Wait) : State := s.setTh (s.th.park w s.cycle (some s.sources))
/-- A wait that is met before issue (R91): nothing has been read. -/
def State.parkBefore (s : State) (w : Wait) : State := s.setTh (s.th.park w s.cycle s.th.latched)

/-! ### Traps (R6, R7, R345, R363) -/

/-- The kinds of R363. -/
def kIllegalLine : Nat := 16
def kIllegal : Nat := 17
def kClaim : Nat := 18
def kFormat : Nat := 19
def kMisaligned : Nat := 20
def kSegLimit : Nat := 21
def kSegRights : Nat := 22
def kRefused : Nat := 23
def kFeTimeout : Nat := 24
def kVecRemote : Nat := 25
def kBadCore : Nat := 26
def kGroupFull : Nat := 27
def kResampleLimit : Nat := 28
def kResampleMismatch : Nat := 29
def kIllegalBarrier : Nat := 30
def kBarrierLimit : Nat := 31
def kBarrierMismatch : Nat := 32
def kBadNode : Nat := 33
def kGraphOrder : Nat := 34
def kBadRecord : Nat := 35
def kBadBuffer : Nat := 36
def kBufferBusy : Nat := 37
def kBadCopy : Nat := 38
def kBadPublish : Nat := 39
def kBadSegment : Nat := 40
def kBadCarousel : Nat := 41
def kPoolBusy : Nat := 42
def kBadPool : Nat := 43
def kSubFull : Nat := 44
def kBadFrame : Nat := 45
def kTrap : Nat := 64

/-- A dependency slot counted down, not below 0 (R94). -/
def depDown (d : Vector (BitVec 4) 8) (k : Fin 8) : Vector (BitVec 4) 8 := if d[k] = 0 then d else d.set k (d[k] - 1)
/-- A dependency slot counted up, not above 15 (R94). -/
def depUp (d : Vector (BitVec 4) 8) (k : Fin 8) : Vector (BitVec 4) 8 := if d[k] = 15 then d else d.set k (d[k] + 1)

/-- Taking a trap or a translation fault: the thread is Faulted (R89) with what its record will hold; the PC keeps naming
the instruction, nothing that the instruction did is kept (R7: the slot it incremented is counted down again), and the
held line is dropped (R66). -/
def Thread.fail (t : Thread) (f : FaultInfo) : Thread :=
  { t with
    st := .faulted, fault := some f, held := none, refetch := false, stage := 0, aux := 0, granted := false, refused := false,
    latched := none, vdata := none, blocked := none, walk := none, fe := none, feCount := 0, replay := none, taken := none,
    dep := (match t.taken with | some k => depDown t.dep k | none => t.dep) }

/-- THE operation by which the thread of a slot takes a trap. What follows (frame, record, upcall, Bobbin) is `faultRecord`. -/
def State.takeTrap (s : State) (c : Nat) (i : Fin 16) (f : FaultInfo) : State :=
  match s.threadAt c i with
  | some t => s.setSlot c i (some (t.fail f))
  | none => s

/-- The issuing thread traps with a kind; the other fields of the record do not apply. -/
def State.trap (s : State) (kind : Nat) : State := s.takeTrap s.cur s.slot { kind := kind }
/-- The issuing thread traps on an access. -/
def State.trapAt (s : State) (kind : Nat) (ea : Word) (access : Nat) : State :=
  s.takeTrap s.cur s.slot { kind := kind, ea := ea, access := access }

/-- R86: the fields of STAT. -/
def statPriv (st : Word) : Nat := bits st 1 0
def statM (st : Word) : Bool := st.getLsbD 5
def statCP (st : Word) : Bool := st.getLsbD 6
def statSat (st : Word) : Bool := st.getLsbD 7
def statRm (st : Word) : Nat := bits st 9 8
def statFte (st : Word) : Bool := st.getLsbD 19
def statFrl (st : Word) : Nat := bits st 23 20
/-- A bit of STAT set or cleared. -/
def setStat (st : Word) (k : Nat) (b : Bool) : Word := setBits st k k b.toNat

/-! ### The checks of R135 and R136 -/

/-- Where an access goes: device memory by DVA, or a byte of a core's local store (R131). -/
inductive Place where
  | device (dva : Nat)
  | store (core off : Nat)
  deriving DecidableEq, Repr

/-- R131: the segment register that an effective address selects. -/
def segIndex (ea : Word) : Fin 8 := (ea.extractLsb' 61 3).toFin
def segOffset (ea : Word) : Nat := ea.toNat % 2 ^ 61
/-- R132: the fields of KD. -/
def kdKind (kd : Word) : Nat := bits kd 63 62
def kdR (kd : Word) : Bool := kd.getLsbD 61
def kdW (kd : Word) : Bool := kd.getLsbD 60
def kdX (kd : Word) : Bool := kd.getLsbD 59
def kdA (kd : Word) : Bool := kd.getLsbD 58
def kdConst (kd : Word) : Bool := kd.getLsbD 57
def kdLimit (kd : Word) : Nat := bits kd 56 0
/-- R133: a malformed KD. -/
def kdMalformed (kd : Word) : Bool := kdKind kd == 3 || (kdConst kd && (kdW kd || kdA kd))

/-- The right an access needs (R135 check 2). -/
inductive Right where
  | read | write | readWrite | atomic
  deriving DecidableEq, Repr

/-- Whether KD grants a right. -/
def grants (kd : Word) : Right → Bool
  | .read => kdR kd
  | .write => kdW kd
  | .readWrite => kdR kd && kdW kd
  | .atomic => kdA kd

/-- The access code of a fault record (R345). -/
def Right.code : Right → Nat
  | .read => 0
  | .atomic => 2
  | _ => 1

/-- R135, checks 2 to 4, for `n` bytes at `ea` through the thread's segment registers; `fe` marks a full/empty instruction. -/
def State.check (s : State) (t : Thread) (ea : Word) (n : Nat) (r : Right) (fe : Bool) : Except Nat Place :=
  let kd := t.kd[segIndex ea]
  let a := t.kb[segIndex ea].toNat + segOffset ea
  if kdKind kd = 0 ∨ kdKind kd = 3 ∨ (fe ∧ kdKind kd = 1) ∨ !grants kd r then .error kSegRights
  else if segOffset ea + n - 1 > kdLimit kd then .error kSegLimit
  else if kdKind kd = 1 then
    if a + n - 1 ≥ 2 ^ 57 then .error kSegLimit
    else if a % n ≠ 0 then .error kMisaligned else .ok (.device a)
  else if a + n - 1 ≥ 2 ^ 30 ∨ !s.coreOk t.ctx (a / 2 ^ 18) ∨ !s.coreOk t.ctx ((a + n - 1) / 2 ^ 18) then .error kSegLimit
  else if a % n ≠ 0 then .error kMisaligned
  else .ok (.store (a / 2 ^ 18) (a % 2 ^ 18))

/-- R136: the checks of the fetch of the line at the byte address a; the line's DVA. -/
def checkFetch (t : Thread) (a : Word) : Except Nat Nat :=
  let kd := t.kd[segIndex a]
  let d := t.kb[segIndex a].toNat + segOffset a
  if kdKind kd ≠ 1 ∨ !kdX kd then .error kSegRights
  else if segOffset a + 63 > kdLimit kd ∨ d + 63 ≥ 2 ^ 57 then .error kSegLimit
  else .ok d

/-! ### The outcome of an instruction -/

/-- What a meaning answers. -/
abbrev Out := Host.Outcome State Fault Refusal

/-- An instruction acts for the thread of the current slot; without one it faults (log 15). -/
def issue (s : State) (next : State) : Out := if s.thread.isSome then .next next else .fault .noThread

end Sys2Proof.Machine
end

