-- ==== Sys2Proof/Machine/Float.lean ====
section
/-! DEFINITION. Floating point: the six formats (R23, R24), exact sums, products, quotients and roots, the one rounding of
R35 to R38, saturation (R41), comparison and minimum (R42), and conversions to and from integers (R40). -/

namespace Sys2Proof.Machine

/-- R23: a floating-point format: exponent bits, fraction bits, bias; E4M3 has no infinity (R24). -/
structure Fmt where
  exp : Nat
  frac : Nat
  bias : Nat
  noInf : Bool := false
  deriving DecidableEq, Repr

def fp64 : Fmt := ⟨11, 52, 1023, false⟩
def fp32 : Fmt := ⟨8, 23, 127, false⟩
def fp16 : Fmt := ⟨5, 10, 15, false⟩
def bf16 : Fmt := ⟨8, 7, 127, false⟩
def e4m3 : Fmt := ⟨4, 3, 7, true⟩
def e5m2 : Fmt := ⟨5, 2, 15, false⟩

/-- A value of R24: a NaN, an infinity, or `(-1)^neg · m · 2^e` exactly (m = 0: a zero with its sign). -/
inductive FVal where
  | nan
  | inf (neg : Bool)
  | fin (neg : Bool) (m : Nat) (e : Int)
  deriving DecidableEq, Repr

/-- R24: the value of an encoding. -/
def Fmt.decode (f : Fmt) (w : Nat) : FVal :=
  let s := w.testBit (f.exp + f.frac)
  let e := (w >>> f.frac) % 2 ^ f.exp
  let m := w % 2 ^ f.frac
  if e = 0 then .fin s m (1 - f.bias - f.frac)
  else if e = 2 ^ f.exp - 1 ∧ !f.noInf then (if m = 0 then .inf s else .nan)
  else if e = 2 ^ f.exp - 1 ∧ m = 2 ^ f.frac - 1 then .nan
  else .fin s (2 ^ f.frac + m) (e - f.bias - f.frac)

/-- R23: the default NaN. -/
def Fmt.nanBits (f : Fmt) : Nat :=
  if f.noInf then 2 ^ (f.exp + f.frac) - 1 else (2 ^ f.exp - 1) * 2 ^ f.frac + 2 ^ (f.frac - 1)
/-- The sign bit of an encoding. -/
def Fmt.signBit (f : Fmt) (neg : Bool) : Nat := if neg then 2 ^ (f.exp + f.frac) else 0
/-- R23: the largest finite encoding's magnitude bits. -/
def Fmt.maxBits (f : Fmt) : Nat := if f.noInf then 2 ^ (f.exp + f.frac) - 2 else (2 ^ f.exp - 1) * 2 ^ f.frac - 1
/-- The significand and exponent of the largest finite value. -/
def Fmt.maxSig (f : Fmt) : Nat := if f.noInf then 2 ^ (f.frac + 1) - 2 else 2 ^ (f.frac + 1) - 1
def Fmt.maxExp (f : Fmt) : Int := (if f.noInf then 2 ^ f.exp - 1 else 2 ^ f.exp - 2 : Nat) - (f.bias : Int) - f.frac

/-- An infinite result: R41 under saturation, R36 in E4M3. -/
def Fmt.infBits (f : Fmt) (sat neg : Bool) : Nat :=
  if sat then f.signBit neg + f.maxBits
  else if f.noInf then f.nanBits else f.signBit neg + (2 ^ f.exp - 1) * 2 ^ f.frac

/-- R35: whether a mode rounds away from zero: `q` the truncated significand, `r` of `2^d` left over. -/
def roundUp (rm : Nat) (neg : Bool) (q r d : Nat) : Bool :=
  if rm = 0 then decide (2 * r > 2 ^ d) || (decide (2 * r = 2 ^ d) && q.testBit 0)
  else if rm = 1 then false
  else if rm = 2 then neg && r != 0
  else !neg && r != 0

/-- R35: what a finite result that overflows becomes. -/
def Fmt.overflow (f : Fmt) (rm : Nat) (sat neg : Bool) : Nat :=
  if rm = 0 ∨ (rm = 2 ∧ neg) ∨ (rm = 3 ∧ !neg) then f.infBits sat neg else f.signBit neg + f.maxBits

/-- The exact magnitude m·2^e rounded once to a format (R35, R36, R38). -/
def Fmt.roundMag (f : Fmt) (rm : Nat) (sat neg : Bool) (m : Nat) (e : Int) : Nat :=
  if m = 0 then f.signBit neg
  else
    let lo : Int := 1 - f.bias - f.frac
    let q0 : Int := max (e + Nat.log2 m - f.frac) lo
    let d : Int := q0 - e
    let k0 : Nat := if d ≤ 0 then m <<< (-d).toNat
      else
        let q := m >>> d.toNat
        if roundUp rm neg q (m % 2 ^ d.toNat) d.toNat then q + 1 else q
    let k := if k0 = 2 ^ (f.frac + 1) then 2 ^ f.frac else k0
    let q := if k0 = 2 ^ (f.frac + 1) then q0 + 1 else q0
    if q > f.maxExp ∨ (q = f.maxExp ∧ k > f.maxSig) then f.overflow rm sat neg
    else if k < 2 ^ f.frac then f.signBit neg + k
    else f.signBit neg + (q + f.bias + f.frac).toNat * 2 ^ f.frac + (k - 2 ^ f.frac)

/-- `RND(f, x)` (R6, R37, R41). -/
def Fmt.round (f : Fmt) (rm : Nat) (sat : Bool) : FVal → Nat
  | .nan => f.nanBits
  | .inf s => f.infBits sat s
  | .fin s m e => f.roundMag rm sat s m e

/-- Whether a value is a NaN, an infinity of a sign, a zero. -/
def FVal.isNan : FVal → Bool | .nan => true | _ => false
def FVal.isInf (neg : Bool) : FVal → Bool | .inf s => s == neg | _ => false
def FVal.isZero : FVal → Bool | .fin _ m _ => m == 0 | _ => false
def FVal.neg : FVal → Bool | .nan => false | .inf s => s | .fin s _ _ => s
/-- The value with its sign inverted. -/
def FVal.negate : FVal → FVal | .nan => .nan | .inf s => .inf (!s) | .fin s m e => .fin (!s) m e

/-- The exact product; an exact zero has the exclusive-or of the signs (R38, R41). -/
def FVal.mul : FVal → FVal → FVal
  | .nan, _ => .nan
  | _, .nan => .nan
  | .inf s, y => if y.isZero then .nan else .inf (s != y.neg)
  | x, .inf s => if x.isZero then .nan else .inf (x.neg != s)
  | .fin s m e, .fin s' m' e' => .fin (s != s') (m * m') (e + e')

/-- A finite value as an integer multiple of 2^e0. -/
def FVal.scaled (e0 : Int) : FVal → Int
  | .fin s m e => let k : Int := (m <<< (e - e0).toNat : Nat); if s then -k else k
  | _ => 0

/-- The least exponent of the finite values of a list that are not zero. -/
def leastExp : List FVal → Option Int
  | [] => none
  | .fin _ m e :: r => if m = 0 then leastExp r else match leastExp r with | none => some e | some x => some (min e x)
  | _ :: r => leastExp r

/-- The exact sum of addends (R38, R44): a NaN, opposite infinities, an infinity, or the exact finite sum; the sign of an
exact zero sum depends on the mode. -/
def FVal.sum (rm : Nat) (xs : List FVal) : FVal :=
  if xs.any FVal.isNan ∨ (xs.any (FVal.isInf true) ∧ xs.any (FVal.isInf false)) then .nan
  else if xs.any (FVal.isInf true) then .inf true
  else if xs.any (FVal.isInf false) then .inf false
  else
    let e0 := (leastExp xs).getD 0
    let t := (xs.map (FVal.scaled e0)).foldl (· + ·) 0
    if t = 0 then
      let allNeg := xs.all (fun x => x.isZero && x.neg)
      let allPos := xs.all (fun x => x.isZero && !x.neg)
      .fin (allNeg || (rm == 2 && !allPos)) 0 0
    else .fin (decide (t < 0)) t.natAbs e0

/-- The exact quotient, to more bits than any format holds and one sticky bit below them (R41, R48). -/
def FVal.div : FVal → FVal → FVal
  | .nan, _ => .nan
  | _, .nan => .nan
  | .inf s, y => match y with | .inf _ => .nan | _ => .inf (s != y.neg)
  | .fin s _ _, .inf s' => .fin (s != s') 0 0
  | .fin s m e, .fin s' m' e' =>
    if m' = 0 then (if m = 0 then .nan else .inf (s != s'))
    else
      let k := 70 + Nat.log2 m'
      let q := (m <<< k) / m'
      .fin (s != s') (2 * q + (if (m <<< k) % m' = 0 then 0 else 1)) (e - e' - k - 1)

/-- The integer square root, from bit `n - 1` of the root down. -/
def isqrt (m : Nat) : Nat → Nat → Nat
  | 0, r => r
  | n + 1, r => if (r + 2 ^ n) * (r + 2 ^ n) ≤ m then isqrt m n (r + 2 ^ n) else isqrt m n r

/-- The exact root, to more bits than any format holds and one sticky bit below them (R41, R48). -/
def FVal.sqrt : FVal → FVal
  | .nan => .nan
  | .inf true => .nan
  | .inf false => .inf false
  | .fin s m e =>
    if m = 0 then .fin s 0 0
    else if s then .nan
    else
      let m1 := if e % 2 = 0 then m else 2 * m
      let e1 := if e % 2 = 0 then e else e - 1
      let m2 := m1 <<< 140
      let r := isqrt m2 (Nat.log2 m2 / 2 + 1) 0
      .fin false (2 * r + (if r * r = m2 then 0 else 1)) ((e1 - 140) / 2 - 1)

/-- x < y for two values that are not NaN; −0 = +0 (R125). -/
def FVal.lt : FVal → FVal → Bool
  | .nan, _ => false
  | _, .nan => false
  | .inf s, y => s && !(y.isInf true)
  | x, .inf s => !s && !(x.isInf false)
  | .fin s m e, .fin s' m' e' =>
    let e0 := min e e'
    decide (FVal.scaled e0 (.fin s m e) < FVal.scaled e0 (.fin s' m' e'))

/-- R42: the smaller or the larger, with −0 below +0. -/
def FVal.below (x y : FVal) : Bool := x.lt y || (!(y.lt x) && x.neg && !y.neg)

/-- R42: `fmin` and `fmax` on encodings: a NaN gives the default NaN, else the bits of one operand. -/
def Fmt.pick (f : Fmt) (larger : Bool) (a b : Nat) : Nat :=
  let x := f.decode a
  let y := f.decode b
  if x.isNan || y.isNan then f.nanBits
  else if (if larger then y.below x else x.below y) then a % 2 ^ (f.exp + f.frac + 1) else b % 2 ^ (f.exp + f.frac + 1)

/-- A finite value rounded to an integer in a mode (R40). -/
def roundInt (rm : Nat) (neg : Bool) (m : Nat) (e : Int) : Int :=
  let k : Nat := if e ≥ 0 then m <<< e.toNat
    else
      let d := (-e).toNat
      let q := m >>> d
      if roundUp rm neg q (m % 2 ^ d) d then q + 1 else q
  if neg then -(k : Int) else k

/-- R40: float to integer in [lo, hi], with the indefinite value. -/
def toInteger (rm : Nat) (sat : Bool) (lo hi indef : Int) : FVal → Int
  | .nan => indef
  | .inf s => if sat then (if s then lo else hi) else indef
  | .fin s m e =>
    let v := roundInt rm s m e
    if v < lo then (if sat then lo else indef) else if v > hi then (if sat then hi else indef) else v

/-- An integer as an exact value (R40). -/
def ofInteger (v : Int) : FVal := .fin (decide (v < 0)) v.natAbs 0

/-- R126: the class of an encoding, one bit of nine. -/
def Fmt.classify (f : Fmt) (w : Nat) : Nat :=
  let e := (w >>> f.frac) % 2 ^ f.exp
  match f.decode w with
  | .nan => 256
  | .inf s => if s then 1 else 128
  | .fin s m _ =>
    if m = 0 then (if s then 8 else 16)
    else if e = 0 then (if s then 4 else 32)
    else if s then 2 else 64

/-- R127: the exponent and fraction of x with a chosen sign. -/
def Fmt.signOp (f : Fmt) (op : Nat) (a b : Nat) : Nat :=
  let n := f.exp + f.frac
  let s := if op = 0 then b.testBit n else if op = 1 then !b.testBit n else (a.testBit n != b.testBit n)
  a % 2 ^ n + f.signBit s

/-- R124: the scalar arithmetic of one format on encodings. -/
def Fmt.add (f : Fmt) (rm : Nat) (sat : Bool) (a b : Nat) : Nat := f.round rm sat (FVal.sum rm [f.decode a, f.decode b])
def Fmt.sub (f : Fmt) (rm : Nat) (sat : Bool) (a b : Nat) : Nat :=
  f.round rm sat (FVal.sum rm [f.decode a, (f.decode b).negate])
def Fmt.mul (f : Fmt) (rm : Nat) (sat : Bool) (a b : Nat) : Nat := f.round rm sat ((f.decode a).mul (f.decode b))
def Fmt.div (f : Fmt) (rm : Nat) (sat : Bool) (a b : Nat) : Nat := f.round rm sat ((f.decode a).div (f.decode b))
def Fmt.sqrt (f : Fmt) (rm : Nat) (sat : Bool) (a : Nat) : Nat := f.round rm sat (f.decode a).sqrt
def Fmt.fma (f : Fmt) (rm : Nat) (sat : Bool) (a b c : Nat) : Nat :=
  f.round rm sat (FVal.sum rm [(f.decode a).mul (f.decode b), f.decode c])

/-- A conversion between two floating formats. -/
def convert (src dst : Fmt) (rm : Nat) (sat : Bool) (a : Nat) : Nat := dst.round rm sat (src.decode a)

/-- R32: the floating formats by code. -/
def fmtOf (code : Nat) : Option Fmt :=
  match code with
  | 0 => some fp32
  | 1 => some bf16
  | 2 => some fp16
  | 3 => some e4m3
  | 4 => some e5m2
  | _ => none

end Sys2Proof.Machine
end

