-- ==== Sys2Proof/Machine/Flags.lean ====
section
/-! DEFINITION. The condition flags: STAT.CF is written by `fcmp` alone (R86, R111, R125) and by `wrsys STAT` (R87). -/

namespace Sys2Proof.Machine

/-- R125: the comparison of two values: less, equal, greater, unordered. -/
structure Cmp where
  lt : Bool
  eq : Bool
  gt : Bool
  un : Bool
  deriving DecidableEq, Repr

/-- R125: comparing two values; −0 = +0. -/
def FVal.compare (x y : FVal) : Cmp :=
  if x.isNan || y.isNan then ⟨false, false, false, true⟩
  else ⟨x.lt y, !(x.lt y) && !(y.lt x), y.lt x, false⟩

/-- R125: the predicate 0 equal, 1 less, 2 less or equal, 3 unordered. -/
def Cmp.test (c : Cmp) (pred : Nat) : Bool :=
  if pred = 0 then c.eq else if pred = 1 then c.lt else if pred = 2 then c.lt || c.eq else c.un

/-- R86, R125: CF, N = less, Z = equal, C = greater, V = unordered. -/
def Cmp.flags (c : Cmp) : Nat := 8 * c.lt.toNat + 4 * c.eq.toNat + 2 * c.gt.toNat + c.un.toNat

/-- R86: STAT with CF replaced. -/
def setCF (st : Word) (cf : Nat) : Word := setBits st 15 12 cf

/-- R87: what `wrsys STAT` leaves: FRL, FTE, CF, RM and SAT from the source, the rest as before. -/
def writeStat (old src : Word) : Word :=
  let m : Word := 0xF8F380
  (old &&& ~~~ m) ||| (src &&& m)

end Sys2Proof.Machine
end

