-- ==== Sys2Proof/Machine/Operands.lean ====
section
/-! DEFINITION. The operand forms: immediates (R55, R115), the order and scope field OS (R149), sizes and extensions (R150),
sync tails (R59, R60), vector register fields with broadcast (R58), and waits written as Park. -/

namespace Sys2Proof.Machine

/-- R115: a 22-bit immediate, sign-extended. -/
def sx22 (imm : BitVec 22) : Word := imm.signExtend 64
/-- R131: a 17-bit offset, sign-extended. -/
def sx17 (imm : BitVec 17) : Word := imm.signExtend 64

/-- R149: the order of an OS field. -/
inductive Order where
  | plain | relaxed | acquire | release | acqRel
  deriving DecidableEq, Repr

/-- R149: decoding OS[4:3], with OS[2:0] = 7 plain. -/
def osOrder (os : Field) : Order :=
  if os.extractLsb' 0 3 = 7 then .plain
  else match (os.extractLsb' 3 2).toNat with
    | 0 => .relaxed
    | 1 => .acquire
    | 2 => .release
    | _ => .acqRel
/-- R149: the scope code of OS. -/
def osScope (os : Field) : Nat := (os.extractLsb' 0 3).toNat
/-- Whether an order acquires (R166), whether it releases (R165). -/
def Order.acquires : Order → Bool | .acquire => true | .acqRel => true | _ => false
def Order.releases : Order → Bool | .release => true | .acqRel => true | _ => false

/-- R150: the bytes of a size code. -/
def sizeBytes (x : BitVec 4) : Nat := 2 ^ (x.extractLsb' 0 2).toNat
/-- R150: whether a size code extends the sign. -/
def sizeSigned (x : BitVec 4) : Bool := x.getLsbD 2
/-- R150: the register result of a load of `n` bytes. -/
def extend (n : Nat) (signed : Bool) (v : Nat) : Word :=
  if signed ∧ v.testBit (8 * n - 1) then BitVec.ofInt 64 ((v : Int) - 2 ^ (8 * n)) else BitVec.ofNat 64 v

/-- R59: the slots that WAIT names, whether SE is set, and SET. -/
def syncWait (y : BitVec 12) : BitVec 8 := y.extractLsb' 0 8
def syncSe (y : BitVec 12) : Bool := y.getLsbD 11
def syncSet (y : BitVec 12) : Fin 8 := (y.extractLsb' 8 3).toFin

/-- The dependency slots' numbers. -/
def depNumbers : List (Fin 8) := [0, 1, 2, 3, 4, 5, 6, 7]
/-- R95: every slot of a mask reads zero. -/
def Thread.depsZero (t : Thread) (mask : BitVec 8) : Bool := depNumbers.all (fun k => !mask.getLsbD k.val || t.dep[k] == 0)
/-- R96: every slot reads zero. -/
def Thread.allDepsZero (t : Thread) : Bool := t.depsZero 0xFF

/-- R60, R94: the issue of an instruction with a sync tail: slot SET goes up by one and the instruction's phase becomes 1. -/
def Thread.issued (t : Thread) (y : BitVec 12) : Thread :=
  if t.stage ≠ 0 then t
  else if syncSe y then { t with dep := depUp t.dep (syncSet y), taken := some (syncSet y), stage := 1 } else { t with stage := 1 }

/-- The slot that an instruction's end decrements. -/
def syncDep (y : BitVec 12) : Option (Fin 8) := if syncSe y then some (syncSet y) else none

/-- R263: the thread is blocked on slots of which one is `k`, and they do not all read zero yet. -/
def Thread.blockedOnDep (t : Thread) (k : Fin 8) : Bool :=
  match t.blocked with
  | some (.depZero m, _) => m.getLsbD k.val && !t.depsZero m
  | _ => false
/-- R94: the end of an instruction decrements the slot it set. Where the thread waits for that slot, the producer's tag (R388) is kept:
the last one kept is that of the decrement that ends the wait (R263). -/
def Thread.depEnd (t : Thread) (k : Option (Fin 8)) (tag : Tag) : Thread :=
  match k with
  | none => t
  | some k => { t with dep := depDown t.dep k, depTag := if t.blockedOnDep k then some tag else t.depTag }

/-! ### Vector operands (R58) -/

/-- R178, R179: VL of the claim. -/
def Thread.vl (t : Thread) : Nat := 16 * t.claim.strips.length

/-- R58: element `m` of a vector source field: a vector register, or the low half of a private scalar register. -/
def State.velem (s : State) (f : Field) (m : Nat) : BitVec 32 :=
  if f.getLsbD 4 then (s.sources.g[(f.extractLsb' 0 4).toFin]).truncate 32
  else (s.th.v[(f.extractLsb' 0 4).toFin]).getD m 0

/-- R58: the vector register of a destination field. -/
def vreg (f : Field) : Fin 16 := (f.extractLsb' 0 4).toFin

/-- Predicate element `m` of vp(k), which is 0 where nothing was written. -/
def Thread.pelem (t : Thread) (k : Fin 4) (m : Nat) : Bool := (t.vp[k]).getD m false

end Sys2Proof.Machine
end

