-- ==== Sys2Proof/Machine/Images.lean ====
section
/-! DEFINITION. The byte layouts of the records in which work lies in memory: the migration packet and spill record (R99), the task
(R240), the `mop` cursor (R225), the IX cursor (R326), the fibre frame (R348), the thread record and its extensions (R359). Every
field is little-endian, and reserved bytes are zero. -/

namespace Sys2Proof.Machine

/-- The bytes of a row of fields, each given by its value and its size. -/
def fieldBytes (l : List (Nat × Nat)) : List Byte := l.flatMap (fun p => leBytes p.1 p.2)

/-- R227: the segment-table entries of the segment registers that a mask names, in ascending order. -/
def Thread.segFields (t : Thread) (m : BitVec 8) : List (Nat × Nat) :=
  (depNumbers.filter (fun k => m.getLsbD k.val)).flatMap (fun k => [((t.kb[k]).toNat, 8), ((t.kd[k]).toNat, 8)])
/-- R290: OPEN and OB. -/
def BatchTracker.field (b : BatchTracker) : Nat := b.opened % 128 + b.closed.length % 32 * 256
/-- R99: the fields of a packet or spill record; `mask` names the g registers that travel. The TM field is the thread's own TM, with the mask
0xFFFF of R106 too (log 80). -/
def Thread.packetFields (t : Thread) (mask : BitVec 16) : List (Nat × Nat) :=
  let gs := slotNumbers.filter (fun i => mask.getLsbD i.val)
  let ks := t.segFields t.sm
  [(t.pc.toNat, 8), (t.stat.toNat, 8), (t.lin.toNat, 8), (t.plin.toNat, 8), (t.kid.toNat, 4), (t.gid.toNat, 4), (t.tidx.toNat, 4),
    (t.w.toNat, 4), (t.tm.toNat, 2), (t.fa.toNat + t.fb.toNat * 16, 1), (t.sm.toNat, 1), (t.sa.toNat, 4), (t.sb.toNat, 4),
    (96 + 8 * gs.length + 8 * ks.length, 2), (t.replay.isSome.toNat, 2), (t.cptTime.toNat, 8), (t.cptPtr.toNat, 8),
    ((t.replay.getD 0).toNat, 8), (t.batch.field, 2), (0, 6)] ++
    gs.map (fun i => ((t.g[i]).toNat, 8)) ++ ks
/-- R99: the bytes of a packet or spill record. -/
def Thread.packetBytes (t : Thread) (mask : BitVec 16) : List Byte := fieldBytes (t.packetFields mask)

/-- R240: a task's fields. -/
def Task.fields (t : Task) : List (Nat × Nat) :=
  [(t.pc.toNat, 8), (t.a1.toNat, 8), (t.a2.toNat, 8), (t.a3.toNat, 8), (t.a4.toNat, 8), (t.lin.toNat, 8), (t.plin.toNat, 8),
    (t.kid.toNat, 4), (t.gid.toNat, 4), (t.stat.toNat, 8), (t.sa.toNat, 4), (t.sb.toNat, 4), (t.fa.toNat + t.fb.toNat * 16, 1), (0, 15),
    (t.cptTime.toNat, 8), (t.cptPtr.toNat, 8), (0, 16)]
/-- R240: a task's bytes. -/
def Task.bytes (t : Task) : List Byte := fieldBytes t.fields
/-- R240: a deque entry's bytes: a task, or a clone in the layout of R99. -/
def DequeEntry.bytes : DequeEntry → List Byte
  | .task t => t.bytes
  | .clone t => t.packetBytes t.tm

/-- R225: the step cursor of a `mop` of core `c`; of one that has not started: log 82. -/
def MopRun.cursor (r : MopRun) (c : Nat) : List Byte :=
  fieldBytes [(c * 2 ^ 18 + r.la, 4), (r.sa, 4), (r.step, 2), (r.k, 2), (r.fa.toNat + r.fb.toNat * 16, 1), (r.tile % 2 + 2, 1), (0, 2)] ++
    (List.range 16).map (fun i => r.table.getD i 0)
/-- R326: the IX cursor of an interrupted delivery; all zero where none was in progress. -/
def ixCursor : Option IxJob → List Byte
  | some j => fieldBytes [(j.next, 4), (j.seg, 2), (j.car % 4 + 128, 1), (0, 1), (j.dva, 8)]
  | none => List.replicate 16 0

/-- R348: a thread's frame, 32 words, with a PC. -/
def Thread.frame (t : Thread) (pc : Word) : List Word :=
  let w (lo hi : Nat) : Word := BitVec.ofNat 64 (lo + hi * 2 ^ 32)
  [pc, t.stat, t.lin, t.plin, w t.kid.toNat t.gid.toNat, w t.tidx.toNat t.w.toNat,
    w (t.tm.toNat + (t.fa.toNat + t.fb.toNat * 16) * 2 ^ 16) t.sa.toNat, w t.sb.toNat 0, t.cptTime, t.cptPtr, 0, 0] ++
    t.g.toList ++ [0, 0, 0, 0]
/-- R359: the state codes. -/
def TState.code : TState → Nat | .seeded => 0 | .running => 1 | .parked _ => 2 | .faulted => 3
/-- R359: AUX, the wait's own value. -/
def Thread.auxField (t : Thread) : Nat :=
  match t.st with
  | .parked (.barrier _ _ tok) => tok.toNat
  | .parked (.lap _ l0) => l0
  | _ => t.aux.toNat
/-- R359: the thread record of slot `i` of core `c`, with its extensions. -/
def Thread.saveBytes (t : Thread) (c : Nat) (i : Fin 16) : List Byte :=
  let f := (t.frame t.pc).flatMap (fun w => leBytes w.toNat 8)
  f.take 80 ++
    fieldBytes [((depNumbers.map (fun k => (t.dep[k]).toNat * 2 ^ (4 * k.val))).sum, 4), (t.st.code, 1), (t.sm.toNat, 1), (i.val, 1),
      (t.mop.isSome.toNat + t.lent.toNat * 2, 1), (t.batch.field, 2), (0, 6)] ++
    (f.drop 96).take 128 ++ fieldBytes [(t.auxField, 8), (0, 24)] ++
    fieldBytes (t.segFields t.sm) ++ ((t.mop.map (fun r => r.cursor c)).getD [])
/-- R359: bit `m` of a predicate register's strip. -/
def predBits (l : List Bool) : Nat := (l.zipIdx.map (fun p => p.1.toNat * 2 ^ p.2)).sum
/-- R359: the 1,032 bytes of the strip of rank `r` of a claim. -/
def Thread.stripBytes (t : Thread) (r : Nat) : List Byte :=
  slotNumbers.flatMap (fun n => (List.range 16).flatMap (fun m => leBytes ((t.v[n]).getD (16 * r + m) 0).toNat 4)) ++
    ([0, 1, 2, 3] : List (Fin 4)).flatMap (fun k => leBytes (predBits ((List.range 16).map (fun m => (t.vp[k]).getD (16 * r + m) false))) 2)
/-- R359: a claim as it is saved, with the value of its CLAIM register. -/
def Thread.claimBytes (t : Thread) (reg : Word) : List Byte :=
  leBytes reg.toNat 8 ++ (List.range 32).map (fun r => ((t.claim.strips[r]?).map (BitVec.ofNat 8)).getD 0xFF) ++
    (List.range t.claim.strips.length).flatMap t.stripBytes

end Sys2Proof.Machine
end

