-- ==== Sys2Proof/Machine/Paging.lean ====
section
/-! DEFINITION. The page: entries and their checks (R341 to R343), the walk, the port's caches (R344), homes on this package
and on packages of the domain (R352, R370), and reading and writing device memory at a home (R161, R354). -/

namespace Sys2Proof.Machine

/-- R341: the fields of a page-table entry. -/
def pteV (e : Word) : Bool := e.getLsbD 63
def ptePR (e : Word) : Bool := e.getLsbD 62
def pteWR (e : Word) : Bool := e.getLsbD 61
def pteHome (e : Word) : Nat := bits e 60 59
def ptePP (e : Word) : Bool := e.getLsbD 58
def pteLeaf (e : Word) : Bool := e.getLsbD 57
def pteC64 (e : Word) : Bool := e.getLsbD 56
def pteMV (e : Word) : Bool := e.getLsbD 55
def pteOtag (e : Word) : Nat := bits e 54 42
def pteFrame (e : Word) : Nat := bits e 41 12 * 4096
def pteRgn (e : Word) : Nat := bits e 11 0

/-- The log2 of the bytes that one entry of a level covers (R340). -/
def levelShift (l : Nat) : Nat := 12 + 9 * l

/-- R341: a leaf entry at a level is malformed; `big` marks an entry of a 64 KiB page. -/
def leafMalformed (l : Nat) (e : Word) (big : Bool) : Bool :=
  (pteC64 e && l != 0) || (pteLeaf e && l == 0) || (!ptePP e && pteRgn e != 0) ||
  (l != 0 && pteFrame e % 2 ^ levelShift l != 0) || (ptePP e && l == 0 && !big && pteFrame e % 8192 != 0)

/-- R341: a non-leaf entry uses V and FRAME only. -/
def nonLeafMalformed (e : Word) : Bool := bits e 62 42 != 0 || pteRgn e != 0

/-- R342: sixteen aligned level-0 entries of a table form a 64 KiB page. -/
def forms64 (es : List Word) : Bool :=
  match es with
  | [] => false
  | e0 :: _ =>
    es.all pteC64 && es.all (fun e => bits e 63 42 == bits e0 63 42 && pteRgn e == pteRgn e0) &&
    pteFrame e0 % 65536 == 0 && (es.zipIdx.all (fun p => pteFrame p.1 == pteFrame e0 + 4096 * p.2))

/-- How a walk ends: a leaf with the log2 of its page size, or a fault kind at a level. -/
inductive WalkEnd where
  | leaf (shift level : Nat) (entry : Word)
  | fault (kind level : Nat)
  deriving DecidableEq, Repr

/-- R340 to R343, checks 1 and 2: the walk from a table at a level down, with the non-leaf entries it went through. An entry
that the port has cached is used as cached (R344). Bits 63 to 57 of a DVA that an agent is given play no part (log 84). -/
def walkFrom (m : Memory) (cached : Nat → Nat → Option Word) (dva : Nat) : Nat → Nat → List (Nat × Word) × WalkEnd
  | 0, table =>
    let i := (dva / 4096) % 512
    let e := BitVec.ofNat 64 (m.num (table + 8 * i) 8)
    let base := table + 8 * (i / 16 * 16)
    let big := pteC64 e && forms64 ((List.range 16).map (fun k => BitVec.ofNat 64 (m.num (base + 8 * k) 8)))
    if leafMalformed 0 e big then ([], .fault 4 0)
    else if !pteV e then ([], .fault 1 0)
    else if big then ([], .leaf 16 0 (BitVec.ofNat 64 (m.num base 8)))
    else ([], .leaf 12 0 e)
  | l + 1, table =>
    let e := (cached (levelShift (l + 1)) (dva / 2 ^ levelShift (l + 1))).getD
      (BitVec.ofNat 64 (m.num (table + 8 * ((dva / 2 ^ levelShift (l + 1)) % 512)) 8))
    if pteLeaf e && l < 2 then
      if leafMalformed (l + 1) e false then ([], .fault 4 (l + 1))
      else if !pteV e then ([], .fault 1 (l + 1))
      else ([], .leaf (levelShift (l + 1)) (l + 1) e)
    else if nonLeafMalformed e then ([], .fault 4 (l + 1))
    else if !pteV e then ([], .fault 1 (l + 1))
    else
      let r := walkFrom m cached dva l (pteFrame e)
      ((levelShift (l + 1), e) :: r.1, r.2)

/-- Where a byte of device memory lives: on this package's die, or at a package of the domain (by its index). -/
structure Home where
  remote : Bool
  at_ : Nat
  addr : Nat
  deriving DecidableEq, Repr

/-- R343, R352, R370: the home of a DVA through a leaf; `shadow` chooses the frame that is not visible. None: an aperture
entry that Bobbin has not written. -/
def State.homeOf (s : State) (x : Nat) (shift : Nat) (e : Word) (dva : Nat) (shadow : Bool) : Option Home :=
  let size := 2 ^ shift
  let sel := ptePP e && (((mapGet (s.context x).sel (pteRgn e)).getD false) != shadow)
  let pa := pteFrame e + dva % size + (if sel then size else 0)
  if pa / 2 ^ 41 % 2 = 1 then
    match (s.context x).apertures.find? (fun a => a.1 == pa / 2 ^ 30 % 2048) with
    | some a => some ⟨true, a.2.1, a.2.2 + pa % 2 ^ 30⟩
    | none => none
  else some ⟨false, pteHome e, pa⟩

/-- What a translation answers. -/
inductive Xlat where
  | ok (shift : Nat) (entry : Word) (home : Home)
  | fault (kind level : Nat)
  | moving
  deriving DecidableEq, Repr

/-- R343, checks 3 to 5 after the walk; a leaf with MV = 1 raises no fault and waits. -/
def State.judge (s : State) (x : Nat) (dva : Nat) (write shadow : Bool) : WalkEnd → Xlat
  | .fault k l => .fault k l
  | .leaf sh l e =>
    if pteMV e then .moving
    else if pteOtag e ≠ (s.context x).otag.toNat then .fault 5 l
    else if !ptePR e then .fault 2 l
    else if write && !pteWR e then .fault 3 l
    else match s.homeOf x sh e dva shadow with
      | some h => .ok sh e h
      | none => .fault 1 0

/-- R344: the port's cached non-leaf entries of a context. -/
def cachedNonLeaf (c : Cluster) (x : Nat) (shift page : Nat) : Option Word :=
  (c.nonleaf.find? (fun t => t.ctx == x && t.shift == shift && t.page == page)).map (·.entry)

/-- A fresh walk by a cluster's port. -/
def State.portWalk (s : State) (cl x dva : Nat) : List (Nat × Word) × WalkEnd :=
  walkFrom s.mem (cachedNonLeaf (s.cluster cl) x) dva 4 (s.context x).root

/-- A fresh walk by an agent whose port caches nothing (front end, engines, trace; log 12). -/
def State.agentXlat (s : State) (x dva : Nat) (write shadow : Bool) : Xlat :=
  s.judge x dva write shadow (walkFrom s.mem (fun _ _ => none) dva 4 (s.context x).root).2

/-- R344: the cached leaf that covers a DVA; a cached entry without WR does not serve a write. -/
def tlbHit (c : Cluster) (x dva : Nat) (write : Bool) : Option TlbEntry :=
  c.tlb.find? (fun t => t.ctx == x && t.page == dva / 2 ^ t.shift && (!write || pteWR t.entry))

/-- R140: the translation that the port answers at once. -/
def State.hit (s : State) (cl x dva : Nat) (write : Bool) : Option Home :=
  match tlbHit (s.cluster cl) x dva write with
  | some t => s.homeOf x t.shift t.entry dva false
  | none => none

/-! ### Reading and writing at a home -/

/-- R369, R372: some Logrim link carries traffic. -/
def State.linked (s : State) : Bool := s.package.linkup.toNat % 2 ^ 18 != 0
/-- R372: a path to a package exists. -/
def State.pathTo (s : State) (pkg : Nat) : Bool := s.linked && (mapGet s.package.lostPaths pkg).isNone
/-- R372: a home can be reached. -/
def State.reachable (s : State) (h : Home) : Bool := !h.remote || s.pathTo h.at_
/-- R372: no path to a package has existed for 2²⁰ cycles. -/
def State.pathLost (s : State) (pkg : Nat) : Bool :=
  (!s.linked && decide (s.cycle ≥ s.package.linkLost + 2 ^ 20)) ||
  (match mapGet s.package.lostPaths pkg with | some n => decide (s.cycle ≥ n + 2 ^ 20) | none => false)
/-- R372: the accesses that have waited for a path so long. -/
def State.anyLost (s : State) : Bool := !s.linked || !s.package.lostPaths.isEmpty
/-- The key of a byte of another package of the domain. -/
def remoteKey (h : Home) : Nat := h.at_ * 2 ^ 42 + h.addr

/-- `n` bytes at a home, as a number. A byte of this package's memory is named by its physical address alone: HOME names the die whose
slices serve it and is no part of the name (log 51). -/
def State.homeRead (s : State) (h : Home) (n : Nat) : Nat :=
  if h.remote then s.rmem.num (remoteKey h) n else s.mem.num h.addr n

/-- R354: the poisoned lines that a write of `n` bytes leaves poisoned: those that it does not write whole. -/
def stillPoisoned (l : List Nat) (a n : Nat) : List Nat := l.filter (fun q => !decide (a ≤ 64 * q ∧ 64 * q + 64 ≤ a + n))
/-- R354, R403: bytes written at a home; each 64-byte line keeps the owner tag of its last writer and the die of its slice, and a
whole-line write clears poison. -/
def State.homePut (s : State) (x : Nat) (h : Home) (bs : List Byte) : State :=
  if h.remote then { s with rmem := s.rmem.put (remoteKey h) bs }
  else { s with
    mem := s.mem.put h.addr bs
    lineTags := mapPut s.lineTags (h.addr / 64) ((s.context x).otag.toNat, h.at_)
    poison := stillPoisoned s.poison h.addr bs.length }

/-- R354: bytes put in device memory by the host or by firmware, through no context's translation: the lines belong to no context then
(log 77). -/
def State.firmPut (s : State) (pa : Nat) (bs : List Byte) : State :=
  { s with
    mem := s.mem.put pa bs
    lineTags := s.lineTags.filter (fun t => !decide (pa < 64 * t.1 + 64 ∧ 64 * t.1 < pa + bs.length))
    poison := stillPoisoned s.poison pa bs.length }

/-- The aligned 64-byte line of a home: its name in a cache, and its bytes. -/
def lineKey (h : Home) : Nat := if h.remote then 2 ^ 60 + remoteKey h / 64 else h.addr / 64
def State.homeLine (s : State) (h : Home) : List Byte :=
  if h.remote then s.rmem.bytes (remoteKey h / 64 * 64) 64 else s.mem.bytes (h.addr / 64 * 64) 64

/-- The low `n` bytes of a number written at a home. -/
def State.homeWrite (s : State) (x : Nat) (h : Home) (n v : Nat) : State := s.homePut x h (leBytes v n)

/-- R354, R362: a read that meets a poisoned line is followed by the containment of the line's owner. -/
def State.meetEcc (s : State) (h : Home) (n : Nat) : State :=
  match (if h.remote then none else s.poison.find? (fun l => decide (h.addr < 64 * l + 64 ∧ 64 * l < h.addr + n))) with
  | some l => { s with agenda := .micro (.ecc l) :: s.agenda }
  | none => s
/-- R354: a hardware agent has read some bytes at a DVA of a context; it meets what is poisoned there. -/
def State.agentMeets (s : State) (x dva n : Nat) : State :=
  if s.poison.isEmpty then s
  else (List.range ((n + 63) / 64 + 1)).foldl (fun (s : State) i =>
    let a := if i = 0 then dva else (dva / 64 + i) * 64
    if a ≥ dva + n then s
    else match s.agentXlat x a false false with
      | .ok _ _ h => s.meetEcc h 1
      | _ => s) s
/-- R354: the lines of the tables that a walk has read. -/
def walkLines (m : Memory) (cached : Nat → Nat → Option Word) (dva : Nat) : Nat → Nat → List Nat
  | 0, table => [(table + 8 * ((dva / 4096) % 512)) / 64]
  | l + 1, table =>
    let a := table + 8 * ((dva / 2 ^ levelShift (l + 1)) % 512)
    match cached (levelShift (l + 1)) (dva / 2 ^ levelShift (l + 1)) with
    | some e => walkLines m cached dva l (pteFrame e)
    | none =>
      let e := BitVec.ofNat 64 (m.num a 8)
      if pteV e && !pteLeaf e then a / 64 :: walkLines m cached dva l (pteFrame e) else [a / 64]
/-- R354: the walk of a cluster's port meets what is poisoned in the tables. -/
def State.walkMeets (s : State) (cl x dva : Nat) : State :=
  if s.poison.isEmpty then s
  else (walkLines s.mem (cachedNonLeaf (s.cluster cl) x) dva 4 (s.context x).root).foldl
    (fun (s : State) l => s.meetEcc ⟨false, 0, 64 * l⟩ 1) s

/-- A hardware agent reads `n` aligned bytes at a DVA of a context. -/
def State.agentRead (s : State) (x dva n : Nat) : Option Nat :=
  match s.agentXlat x dva false false with
  | .ok _ _ h => some (s.homeRead h n)
  | _ => none

/-- A hardware agent reads `n` blocks of 8 bytes at a DVA. -/
def State.agentBytes (s : State) (x dva : Nat) : Nat → Option (List Byte)
  | 0 => some []
  | n + 1 => match s.agentRead x dva 8, s.agentBytes x (dva + 8) n with
    | some v, some r => some (leBytes v 8 ++ r)
    | _, _ => none

/-- R347: a DVA in a range that the context has mapped or reserved through Bobbin. -/
def Context.inRange (x : Context) (dva : Nat) : Bool := x.ranges.any (fun r => decide (r.1 ≤ dva ∧ dva < r.2))
/-- R347: Bobbin's own records say that a translation fault can be resolved. -/
def State.resolvable (s : State) (x kind dva : Nat) : Bool :=
  kind == 2 || kind == 6 || (kind == 1 && (s.context x).inRange dva)
/-- R289, R347, R372: the home that an engine finds for a byte; it answers false where it has to wait and true where the command ends. -/
def State.engineHome (s : State) (x dva : Nat) (write shadow : Bool) : Except Bool Home :=
  match s.agentXlat x dva write shadow with
  | .ok _ e h => if shadow && !ptePP e then .error true else if s.reachable h then .ok h else .error (s.pathLost h.at_)
  | .moving => .error false
  | .fault k _ => .error (!s.resolvable x k dva)
/-- R343, R347, R353, R372: the home of a hardware agent's write; it answers false where the write waits for its page or its link, and
true where there is none: such a write is lost (log 18). -/
def State.updateHome (s : State) (x dva : Nat) : Except Bool Home :=
  match s.agentXlat x dva true false with
  | .ok _ _ h => if s.reachable h then .ok h else .error (s.pathLost h.at_)
  | .moving => .error false
  | .fault k _ => .error (!s.resolvable x k dva)

/-- R229: the fields of a signal word. -/
def sigCount (w : Nat) : Nat := w % 2 ^ 56
def sigErr (w : Nat) : Bool := w.testBit 63
/-- R230: a signal word after one producer has ended with a code; 0 is success. -/
def signalNew (w code : Nat) : Nat :=
  let c := sigCount w - 1
  if code = 0 ∨ sigErr w then w - sigCount w + c else 2 ^ 63 + (code % 128) * 2 ^ 56 + c
/-- R245: the home that a thread's `join` on a DVA reads. -/
def State.joinHome (s : State) (t : Thread) (dva : Nat) : Option Home :=
  match s.agentXlat t.ctx dva false false with | .ok _ _ h => some h | _ => none

/-- A change applied to the threads of a core, and to every thread in the cores and in the save records (R405). -/
def mapSlots (f : Thread → Thread) (sl : Vector (Option Thread) 16) : Vector (Option Thread) 16 :=
  slotNumbers.foldl (fun v (i : Fin 16) => match sl[i] with | some t => v.set i (some (f t)) | none => v) sl
def State.mapThreads (s : State) (f : Thread → Thread) : State :=
  { s with
    cores := s.cores.map (fun p => (p.1, { p.2 with slots := mapSlots f p.2.slots }))
    contexts := s.contexts.map (fun p =>
      (p.1, { p.2 with saved := p.2.saved.map (fun q => (q.1, { q.2 with slots := mapSlots f q.2.slots })) })) }
/-- R245: a thread whose `join` waits on a counter that reads 0 where the counter's DVA lies now. -/
def State.joinDone (s : State) (t : Thread) : Bool :=
  match t.st with
  | .parked (.join a) => !t.granted && (match s.joinHome t a with | some h => s.homeRead h 4 == 0 | none => false)
  | _ => false
/-- R245, R263: a counter that reads 0 answers the joins on it; who wrote it is named. -/
def State.answerZeros (s : State) (tag : Option Tag) : State :=
  if s.cores.any (fun p => p.2.slots.toList.any (fun o => match o with | some t => s.joinDone t | none => false)) then
    s.mapThreads (fun t => if s.joinDone t then { t with granted := true, tag := tag } else t)
  else s
/-- R245, R263: a counter has been counted down to 0: the joins that wait on it are answered, and name who did it. -/
def State.answerJoins (s : State) (h : Home) (tag : Tag) : State :=
  s.mapThreads (fun t => match t.st with
    | .parked (.join a) => if s.joinHome t a = some h then { t with granted := true, tag := some tag } else t
    | _ => t)
/-- R230, R245: an update done at its home. -/
def State.updateAt (s : State) (x : Nat) (h : Home) : UpdateKind → State
  | .store n v => s.homeWrite x h n v
  | .signal code => s.homeWrite x h 8 (signalNew (s.homeRead h 8) code)
  | .count tag =>
    let v := (s.homeRead h 4 + 2 ^ 32 - 1) % 2 ^ 32
    let s1 := s.homeWrite x h 4 v
    if v = 0 then s1.answerJoins h tag else s1
/-- An update of an agent, in one step at its word's home; one whose page or link is not there yet waits for it, and a context's
later updates wait behind it. -/
def State.update (s : State) (u : Update) : State :=
  if s.updates.any (fun v => v.ctx == u.ctx) then { s with updates := s.updates ++ [u] }
  else match s.updateHome u.ctx u.dva with
  | .ok h => s.updateAt u.ctx h u.kind
  | .error false => { s with updates := s.updates ++ [u] }
  | .error true => s
/-- The updates that wait, tried again in their order. -/
def State.retryUpdates (s : State) : State := s.updates.foldl State.update { s with updates := [] }
/-- A hardware agent writes `n` aligned bytes at a DVA of a context. -/
def State.agentWrite (s : State) (x dva n v : Nat) : State := s.update ⟨x, dva, .store n v⟩
/-- R230: the update of a signal word; no word, no update. -/
def State.signal (s : State) (x dva code : Nat) : State := if dva = 0 then s else s.update ⟨x, dva, .signal code⟩

/-- A hardware agent writes whole blocks of 8 bytes from a DVA up. -/
def State.agentPut (s : State) (x dva : Nat) : List Word → State
  | [] => s
  | w :: r => (s.agentWrite x dva 8 w.toNat).agentPut x (dva + 8) r

/-- What a hardware agent will have written at a DVA once its updates are done: the last one that waits, else the word where it lies; a
page that firmware moves still lies at its old home (R353). -/
def State.agentPeek (s : State) (x dva : Nat) : Option Nat :=
  match s.updates.reverse.findSome? (fun u => match u.kind with
    | .store 8 v => if u.ctx = x ∧ u.dva = dva then some v else none
    | _ => none) with
  | some v => some v
  | none => match (walkFrom s.mem (fun _ _ => none) dva 4 (s.context x).root).2 with
    | .leaf sh l e => match s.judge x dva false false (.leaf sh l (e &&& ~~~(1#64 <<< 55))) with
      | .ok _ _ h => some (s.homeRead h 8)
      | _ => none
    | .fault _ _ => none

/-- Bytes gathered into 64-bit words, the lowest first. -/
def toWords : Nat → List Byte → List Word
  | 0, _ => []
  | n + 1, bs => BitVec.ofNat 64 (leNat (bs.take 8)) :: toWords n (bs.drop 8)

end Sys2Proof.Machine
end

