-- ==== Sys2Proof/Machine/Trace.lean ====
section
/-! DEFINITION. Trace records (R385 to R390): entity ids, appending to a session's ring, edges and the CPT (R263, R390). -/

namespace Sys2Proof.Machine

/-- R389: an entity id. -/
def State.entity (s : State) (die kind unit slot : Nat) : Word :=
  BitVec.ofNat 64 (s.package.pkg.toNat * 2 ^ 22 + die % 4 * 2 ^ 20 + kind % 16 * 2 ^ 16 + unit % 4096 * 16 + slot % 16)
/-- R389: a thread slot. -/
def State.slotEntity (s : State) (c slot : Nat) : Word := s.entity (dieOf c) 0 c slot

/-- R388, R390: the tag of a signal made by a thread in a slot now. -/
def State.tagOf (s : State) (c : Nat) (i : Fin 16) (t : Thread) : Tag :=
  ⟨s.slotEntity c i.val, BitVec.ofNat 64 s.time, t.cptTime, t.cptPtr⟩
/-- The tag of the issuing thread. -/
def State.selfTag (s : State) : Tag := s.tagOf s.cur s.slot s.th
/-- R390: an agent's tag: it carries its issuer's CPT and names itself. -/
def State.agentTag (s : State) (ent : Word) (t : Tag) : Tag := { t with ent := ent, time := BitVec.ofNat 64 s.time }

/-- A context's session and its head word; where its page is not there yet, the head word as last written. -/
def State.sessionHead (s : State) (x : Nat) : Option (Session × Nat) :=
  match (s.context x).session with
  | some ss => match s.agentPeek x ss.head with
    | some h => some (ss, h)
    | none => match s.updateHome x ss.head with
      | .error false => some (ss, ss.word)
      | _ => none
  | none => none
/-- R387: the head word written. -/
def State.putHead (s : State) (x : Nat) (ss : Session) (v : Nat) : State :=
  (s.setContext x { s.context x with session := some { ss with word := v } }).agentWrite x ss.head 8 v

/-- R387: appending a record of whole 32-byte units; `last` marks an END record. Answers the DVA where it was placed. -/
def State.append (s : State) (x : Nat) (ws : List Word) (last : Bool) : State × Option Nat :=
  match s.sessionHead x with
  | none => (s, none)
  | some (ss, h) =>
    let u := h % 2 ^ 40
    let d := h / 2 ^ 40
    let n := ws.length / 4
    if u + n + (if last then 0 else 1) ≤ ss.size / 32 then
      ((s.agentPut x (ss.ring + 32 * u) ws).putHead x ss (d * 2 ^ 40 + (u + n) % 2 ^ 40), some (ss.ring + 32 * u))
    else (s.putHead x ss (min (d + 1) (2 ^ 24 - 1) * 2 ^ 40 + u), none)

/-- R388: word 0 of a record. -/
def recordHead (type flags time : Nat) : Word := BitVec.ofNat 64 (type % 16 + flags % 16 * 16 + time % 2 ^ 56 * 256)

/-- Whether a session is Open with a bit of SRC set. -/
def State.tracing (s : State) (x k : Nat) : Bool := match (s.context x).session with | some ss => ss.src.getLsbD k | none => false

/-- A one-unit record appended when the bit of SRC that it needs is set. -/
def State.appendIf (s : State) (x : Nat) (k : Option Nat) (w0 w1 w2 w3 : Word) : State :=
  if (match k with | some k => s.tracing x k | none => true) then (s.append x [w0, w1, w2, w3] false).1 else s

/-- R388: the PATH of the record that a CPT pointer names, read in the ring; 0 for a null pointer. -/
def State.pathAt (s : State) (x : Nat) (ptr : Word) : Nat :=
  if ptr = 0 then 0 else ((s.agentPeek x (ptr.toNat + 16)).getD 0) / 2 ^ 40

/-- A count saturated at 2²⁴ − 1 (R388). -/
def sat24 (n : Nat) : Nat := min n (2 ^ 24 - 1)

/-- R263, R388, R390: a blocked wait of a slot's thread ends: the edge record, and the CPT. `since` is the wait's first cycle,
counted from when the producer carries no tag. -/
def State.edge (s : State) (c : Nat) (i : Fin 16) (since : Nat) (tag : Option Tag) : State :=
  match s.threadAt c i with
  | none => s
  | some t =>
    let now := s.time
    let g := tag.getD { time := BitVec.ofNat 64 (now - 4 * (s.cycle - since)) }
    let w1 := BitVec.ofNat 64 ((s.slotEntity c i.val).toNat + sat24 (now - g.time.toNat) * 2 ^ 40)
    let w2 := BitVec.ofNat 64 (g.ent.toNat % 2 ^ 40 + sat24 (1 + s.pathAt t.ctx g.cptPtr) * 2 ^ 40)
    let r := if s.tracing t.ctx 0 then s.append t.ctx [recordHead 1 0 now, w1, w2, g.cptPtr] false else (s, none)
    match r.1.threadAt c i with
    | none => r.1
    | some t' => r.1.setSlot c i (some { t' with cptTime := BitVec.ofNat 64 now, cptPtr := BitVec.ofNat 64 (r.2.getD 0) })

/-- R263: the end of a wait of the issuing thread: an edge if the thread was Parked on this wait for at least one cycle. -/
def State.waited (s : State) (w : Wait) (tag : Option Tag) : State :=
  match s.th.blocked with
  | some (w', since) => if w' = w ∧ since < s.cycle then s.edge s.cur s.slot since tag else s
  | none => s

end Sys2Proof.Machine
end

