-- ==== Sys2Proof/Machine/Waits.lean ====
section
/-! DEFINITION. Waits: when each Parked reason is resolved (R89), the release and acquire conditions (R165, R166), the sync
tail's wait (R60), and the lookups of groups, kernels and barriers that waits need. -/

namespace Sys2Proof.Machine

/-! ### Kernels, groups, barriers -/

/-- The kernel of a context with a KID. -/
def State.kernel (s : State) (x : Nat) (kid : BitVec 32) : Option Kernel :=
  s.kernels.find? (fun k => k.ctx == x && k.kid == kid)
/-- The kernels with one of them changed. -/
def State.setKernel (s : State) (k : Kernel) : State :=
  { s with kernels := s.kernels.map (fun j => if j.ctx = k.ctx ∧ j.kid = k.kid then k else j) }
/-- The group record of a group of a kernel (R238). -/
def State.group (s : State) (x : Nat) (kid gid : BitVec 32) : Option Group :=
  s.groups.find? (fun g => g.ctx == x && g.kid == kid && g.gid == gid)
/-- The same two groups. -/
def Group.same (g h : Group) : Bool := h.ctx == g.ctx && h.kid == g.kid && h.gid == g.gid
/-- The groups with one of them set. -/
def State.setGroup (s : State) (g : Group) : State :=
  { s with groups := if s.groups.any g.same then s.groups.map (fun h => if g.same h then g else h) else s.groups ++ [g] }
/-- R231, R238: the launch threads of a group of a kernel: the first TIDX, and one above the last. -/
def Kernel.groupSpan (k : Kernel) (gid : Nat) : Nat × Nat :=
  if k.desc.gsize = 0 then (0, k.n) else (min k.n (gid * k.desc.gsize), min k.n ((gid + 1) * k.desc.gsize))
/-- R238: a group record as the launch makes it. The consumers of a node join one by one (R275), so its groups start empty. -/
def Kernel.freshGroup (k : Kernel) (gid : BitVec 32) : Group :=
  let sp := k.groupSpan gid.toNat
  { ctx := k.ctx
    kid := k.kid
    gid := gid
    pop := if k.node.isSome then 0 else sp.2 - sp.1
    next := sp.2
    limit := if k.desc.plimit ≠ 0 then k.desc.plimit else if k.desc.gsize ≠ 0 then k.desc.gsize else k.n }
/-- The kernel of a context with a KID, or an empty one. -/
def State.kernelAt (s : State) (x : Nat) (kid : BitVec 32) : Kernel := (s.kernel x kid).getD { ctx := x, kid := kid }
/-- The group of a kernel; one whose record has not changed yet is as the launch made it. -/
def State.groupAt (s : State) (x : Nat) (kid gid : BitVec 32) : Group :=
  (s.group x kid gid).getD ((s.kernelAt x kid).freshGroup gid)
/-- The group of a thread. -/
def State.groupOf (s : State) (t : Thread) : Group := s.groupAt t.ctx t.kid t.gid
/-- The kernel of a thread. -/
def State.kernelOf (s : State) (t : Thread) : Kernel := s.kernelAt t.ctx t.kid

/-- R254: the barrier of a kind and id for a thread: 0 group, 1 named, 2 kernel. -/
def State.barrier (s : State) (t : Thread) (kind id : Nat) : Barrier :=
  if kind = 0 then (s.groupOf t).bar
  else if kind = 1 then (mapGet (s.groupOf t).named id).getD {}
  else (s.kernelOf t).bar
/-- The barrier of a thread changed. -/
def State.setBarrier (s : State) (t : Thread) (kind id : Nat) (b : Barrier) : State :=
  if kind = 0 then s.setGroup { s.groupOf t with bar := b }
  else if kind = 1 then s.setGroup { s.groupOf t with named := mapPut (s.groupOf t).named id b }
  else s.setKernel { s.kernelOf t with bar := b }
/-- R258: the phase of a token has completed. -/
def phasePassed (cph tok : BitVec 32) : Bool := decide (1 ≤ (cph - tok).toNat ∧ (cph - tok).toNat < 2 ^ 31)

/-! ### Release and acquire (R160, R165, R166) -/

/-- Whether an operation writes. -/
def AccessOp.writes : AccessOp → Bool | .load => false | _ => true
/-- R160: a GLOBAL home lies within a scope of a thread on core `c`. -/
def scopeHolds (c scope : Nat) (remote : Bool) (home : Nat) : Bool :=
  if scope < 2 then false
  else if scope = 2 then !remote && home == dieOf c
  else if scope = 3 then !remote
  else true
/-- R165: no earlier write of a thread to a home within a scope is unacknowledged. -/
def State.acked (s : State) (c : Nat) (uid : Nat) (scope : Nat) : Bool :=
  s.flight.all (fun a => a.uid != uid || !a.op.writes || !scopeHolds c scope a.remote a.home)
/-- R165: the release conditions of a thread at a scope. -/
def State.releasable (s : State) (c : Nat) (t : Thread) (scope : Nat) : Bool := t.pending.isEmpty && s.acked c t.uid scope
/-- R137, R166, R170: an acquire on a core invalidates the constant cache of its cluster. -/
def State.acquireAt (s : State) (c : Nat) : State :=
  s.setCluster (clusterOf c) { s.cluster (clusterOf c) with ccache := [] }
/-- R137, R162, R166: a thread acquires on a core; what it has stored and not yet seen performed is kept in mind. -/
def State.acquireFor (s : State) (c uid : Nat) : State :=
  let cl := s.cluster (clusterOf c)
  s.setCluster (clusterOf c) { cl with
    ccache := []
    acquired := if s.flight.any (fun a => a.uid == uid && a.op.writes) then mapPut cl.acquired uid s.nextId else cl.acquired }
/-- The issuing thread acquires. -/
def State.acquire (s : State) : State := s.acquireFor s.cur s.th.uid
/-- R18, R162, R371: nothing that channel 0 carries from a core's leaf to the lines of some bytes, and no access of a thread to them, is in
flight. -/
def State.laneClear (s : State) (c uid : Nat) (remote : Bool) (home addr n : Nat) : Bool :=
  s.flight.all (fun a => a.stranded || a.remote != remote ||
    !((a.home == home && a.leaf == s.coreLeaf c &&
        (remote || (decide (a.addr / 64 ≤ (addr + n - 1) / 64) && decide (addr / 64 ≤ a.addr / 64)))) ||
      ((!remote || a.home == home) && a.uid == uid && decide (a.addr < addr + n ∧ addr < a.addr + a.size))))

/-! ### Mailboxes (R259) -/

/-- R259: an entry matches a thread; `own` excludes ANY entries. -/
def mailMatches (t : Thread) (own : Bool) (m : Mail) : Bool :=
  m.ktag == t.kid.truncate 12 && (m.tt == t.tidx || (m.tt == 0xFFFFFFFF && !own))
/-- R260: an entry that instructions of this cycle see. -/
def State.mailSeen (s : State) (t : Thread) (own : Bool) (m : Mail) : Bool :=
  mailMatches t own m && decide (m.visible ≤ s.cycle)
/-- R260: entries of KIND 0. -/
def messages (ms : List Mail) : Nat := (ms.filter (fun m => m.kind == 0)).length

/-- R356, R392, R395: a core's state at hand-over; its rotation and a remap in progress stay. -/
def CoreState.fresh (k : CoreState) (x : Option Nat) : CoreState :=
  { ctx := x
    last := k.last
    lastIssue := k.lastIssue
    lastTurn := k.lastTurn
    served := k.served
    pick := k.pick
    lastAccept := k.lastAccept
    remapStep := k.remapStep
    remapTarget := k.remapTarget }
/-- R405: a logical core as a context's requests find it: the saved record while the context's core is saved; a core that the context
does not hold, as Bobbin hands it over (log 48). -/
def State.coreFor (s : State) (x c : Nat) : CoreState :=
  match mapGet (s.context x).saved c with
  | some k => k
  | none => if (s.core c).ctx = some x then s.core c else (s.core c).fresh (some x)
/-- R261, R405: an `msend` to a core finds no room: 24 messages are there, or, in a saved record, are held. -/
def State.mailFull (s : State) (x c : Nat) : Bool :=
  let k := s.coreFor x c
  if (mapGet (s.context x).saved c).isSome then decide (messages k.held ≥ 24)
  else decide (messages k.mailbox + messages k.held ≥ 24) || decide (k.mailbox.length ≥ 32)
/-- The same, set; a core that another context holds stays as it is, and what reaches a pre-empted context's is saved with it. -/
def State.setCoreFor (s : State) (x c : Nat) (k : CoreState) : State :=
  if (mapGet (s.context x).saved c).isSome ∨ ((s.core c).ctx = none ∧ (s.context x).st = .preempted) then
    s.setContext x { s.context x with saved := mapPut (s.context x).saved c k }
  else if (s.core c).ctx = none ∨ (s.core c).ctx = some x then s.setCore c k
  else s
/-- R143, R261: a context holds a core, saved or not, or is handed it, since no other context holds it (log 48). -/
def State.holds (s : State) (x c : Nat) : Bool :=
  (mapGet (s.context x).saved c).isSome || decide ((s.core c).ctx = some x) || (decide ((s.core c).ctx = none) && s.coreOk x c)

/-! ### What waits to enter a core (R184, R231) -/

/-- R231: the cores of a kernel's set E. -/
def State.covers (s : State) (k : Kernel) (c : Nat) : Bool :=
  s.namesCore c && decide (k.slice0 ≤ s.sliceOf c) && decide (s.sliceOf c < k.slice0 + k.nslice)
/-- R231: the launch-seeded threads of a kernel on a core. -/
def State.resident (s : State) (k : Kernel) (c : Nat) : Nat :=
  (slotNumbers.filter (fun i => match s.threadAt c i with
    | some t => t.launched && t.ctx == k.ctx && t.kid == k.kid
    | none => false)).length
/-- The root kernel of a graph: it holds the nodes. -/
def State.rootOf (s : State) (k : Kernel) : Kernel := match k.root with | some r => s.kernelAt k.ctx r | none => k
/-- A node of a root kernel. -/
def Kernel.nodeAt (k : Kernel) (n : Nat) : Option Node := k.nodes[n]?
/-- The lowest-numbered record of a node in a state. -/
def Node.first (v : Node) (st : RecState) : Option Nat := (v.records.zipIdx.find? (fun p => p.1 == st)).map (·.2)
/-- R231, R275: what launch seeding still has to seed of a kernel: threads, or a node's Ready records. -/
def State.unseeded (s : State) (k : Kernel) : Bool :=
  match k.node with
  | some n => (((s.rootOf k).nodeAt n).bind (·.first .ready)).isSome
  | none => k.desc.cls != 2 && decide (k.next < k.n)
/-- A core belongs to a context, or to none yet. -/
def State.openTo (s : State) (c x : Nat) : Bool := (s.core c).ctx.isNone || decide ((s.core c).ctx = some x)
/-- R184, R231: a launch would seed a thread on a core now if the core had a free slot. -/
def State.wouldSeed (s : State) (c : Nat) (k : Kernel) : Bool :=
  !k.done && s.unseeded k && s.covers k c && decide (s.resident k c < k.desc.quota) && s.openTo c k.ctx
/-- R184, R232: a concurrent launch that waits for slots counts as one that would seed. -/
def State.launchWaits (s : State) (c : Nat) : Bool :=
  s.launches.any (fun l => l.waiting && decide (l.slice0 ≤ s.sliceOf c) && decide (s.sliceOf c < l.slice0 + l.nslice) &&
    s.openTo c l.ctx)
/-- R367: there is work for a core or for a thread of it. -/
def State.work (s : State) (c : Nat) (t : Thread) : Bool :=
  let k := s.core c
  k.mailbox.any (s.mailSeen t false) || !k.arrivals.isEmpty || !k.spill.isEmpty || !k.deque.isEmpty ||
  s.kernels.any (s.wouldSeed c) || s.launchWaits c ||
  decide (k.remapStep ≠ 0) || k.stopped || !(s.context t.ctx).saving.isEmpty

/-- The dies' carousels. -/
def State.car (s : State) (d k : Nat) : Carousel := ((s.dies.toList.getD d {}).cars.toList).getD k {}

/-- A slot's thread is in a wait, or has been since before it was woken to take what it waited for. -/
def waitsFor (w : Wait) (o : Option Thread) : Bool :=
  match o with | some t => (match t.blocked with | some (v, _) => v == w | none => false) | none => false

/-- R279, R296: a producer may take slot TAIL: it is Free, and no other producer waits ahead of it. The head of the queue takes a slot
from the cycle after the `cbrel` that freed it. -/
def CircBuf.mayTake (b : CircBuf) (p : Producer) (now : Nat) : Bool :=
  b.slots.getD b.tail .held == .free &&
    (match b.waiters with
      | [] => true
      | q :: _ => q == p && (match mapGet b.freedAt b.tail with | some n => decide (n < now) | none => true))

/-- R89: the reason that a thread of core `c` is Parked for is resolved. A reason that only an event resolves is resolved when
the event has left its answer in the thread. -/
def State.resolved (s : State) (c : Nat) (t : Thread) : Wait → Bool
  | .results => t.pending.isEmpty
  | .depZero m => t.depsZero m
  | .depRoom k => t.dep.toList.getD k 0 != 15
  | .fetch => t.held.isSome
  | .walk => t.walk.isNone
  | .reply => t.granted || t.refused
  | .release sc => s.releasable c t sc
  | .acks => s.acked c t.uid 5
  | .landing n => t.pending.all (fun p => p.seq != n)
  | .lane remote home addr n => s.laneClear c t.uid remote home addr n
  | .fullEmpty _ => t.fe.isNone
  | .barrier kind id tok => phasePassed (s.barrier t kind id).cph tok
  | .rearrive kind id p => (s.barrier t kind id).cph != p
  | .drained => t.pending.isEmpty && t.allDepsZero && t.beats.isNone
  | .resample _ => t.granted
  | .join _ => t.granted
  | .mail own => (s.core c).mailbox.any (s.mailSeen t own)
  | .mailRoom => !s.mailFull t.ctx t.aux.toNat
  | .cbFill n => match ((s.core c).cb.toList.getD n {}) with
    | b => b.slots.getD b.head .free == .filled && (match (s.core c).slots.toList.find? (waitsFor (.cbFill n)) with
      | some (some u) => u.uid == t.uid
      | _ => true)
  | .cbFree n => ((s.core c).cb.toList.getD n {}).mayTake (.thread t.uid) s.cycle
  | .nodeFree n =>
    let k := s.kernelOf t
    match (s.kernelAt t.ctx (k.root.getD t.kid)).nodes[n]? with
    | some v => v.records.contains .free && (v.waiters.head? == some t.uid || v.waiters.isEmpty)
    | none => true
  | .migrate => false
  | .latchRoom =>
    let l := (s.core c).latch
    decide (l.queue.length < 16) && (match l.room with | u :: _ => u == .thread t.uid | [] => true)
  | .mop => t.granted
  | .vector => t.beats.isNone && t.pending.all (fun p => match p.dst with | .vector _ => false | .scalar _ => true)
  | .engine => t.granted
  | .batchRoom => decide (t.batch.closed.length < 16)
  | .batch n => decide (t.batch.closed.length ≤ n)
  | .applied => t.granted
  | .applying n => decide (n < s.cycle)
  | .promoRoom k => decide ((s.car (dieOf c) k).promo.length < 16)
  | .lap k l0 => t.granted || t.refused || (s.car (dieOf c) k).lapn != l0
  | .work => s.work c t
  | .publish => t.granted
  | .performed n => s.flight.all (fun a => a.ctx != t.ctx || decide (a.seq ≥ n))
  | .settled => t.pending.isEmpty && t.allDepsZero
  | .quiet => t.pending.isEmpty && t.allDepsZero &&
      s.dies.toList.all (fun d => d.engines.toList.all (fun e => e.commands.all (fun k => k.uid != t.uid)))

/-- R277, R280: a thread that traps while it waits leaves the queues of the buffers, of the latch and of the nodes. -/
def State.leaveQueues (s : State) (c uid : Nat) : State :=
  let k := s.core c
  let s1 := s.setCore c { k with
    cb := k.cb |> vmap (fun b => { b with waiters := b.waiters.filter (· != .thread uid) })
    latch := { k.latch with room := k.latch.room.filter (· != .thread uid) } }
  { s1 with kernels := s1.kernels.map (fun j => { j with
    nodes := j.nodes.map (fun v => { v with waiters := v.waiters.filter (· != uid) }) }) }

/-- `Park(reason)` written before the rest of an instruction: it goes on when the reason is resolved, and is Parked otherwise. -/
def State.await (s : State) (w : Wait) (k : State → State) : State :=
  if s.resolved s.cur s.th w then k s else s.park w

/-- R60: the waits of a sync tail come before issue; once they are over (or the instruction has issued) it goes on. -/
def State.sync (s : State) (y : BitVec 12) (k : State → State) : State :=
  let t := s.th
  if t.stage ≠ 0 then k s
  else if !t.depsZero (syncWait y) then s.parkBefore (.depZero (syncWait y))
  else if syncSe y ∧ t.dep[syncSet y] = 15 then s.parkBefore (.depRoom (syncSet y).val)
  else k s

/-- R60, R94: an instruction with a sync tail issues. -/
def State.issueSync (s : State) (y : BitVec 12) : State := s.setTh (s.th.issued y)

/-- R94: an instruction with a sync tail completes: the slot that it set counts down, and the PC goes on. -/
def State.complete (s : State) (y : BitVec 12) : State := (s.setTh (s.th.depEnd (syncDep y) s.selfTag)).advance

/-- The next phase of an instruction that has waited. -/
def State.stage (s : State) (n : Nat) : State := s.setTh { s.th with stage := n, granted := false, refused := false }

end Sys2Proof.Machine
end

