-- ==== Sys2Proof/Machine/Debug.lean ====
section
/-! DEFINITION. The debug module and the counters: stopping a core, watchpoints, counting (R392 to R396). -/

namespace Sys2Proof.Machine

/-- R393: a core stops; the DEBUG record names slot, cause, PC and watched address. -/
def State.stopCore (s : State) (c slot cause : Nat) (pc addr : Word) : State :=
  let s1 := s.setCore c { s.core c with stopped := true }
  match (s.core c).ctx with
  | some x => s1.appendIf x (some 3) (recordHead 7 0 s.time)
      (BitVec.ofNat 64 ((s.slotEntity c slot).toNat + cause % 256 * 2 ^ 40)) pc addr
  | none => s1

/-- R392: watchpoint `n` of a core watches `k` bytes at `ea` in this mode. -/
def watches (c : CoreState) (n : Fin 2) (ea : Word) (k : Nat) (write : Bool) : Bool :=
  (if write then (c.wpc[n]).getLsbD 0 else (c.wpc[n]).getLsbD 1) &&
  decide (ea.toNat < ((c.wpa[n]).toNat / 8 + 1) * 8 ∧ (c.wpa[n]).toNat / 8 * 8 < ea.toNat + k)

/-- R393: an access of the issuing thread touches a watched granule: the core stops after the instruction issues. A core that has
stopped does not stop again. -/
def State.watch (s : State) (ea : Word) (k : Nat) (write : Bool) : State :=
  if (s.core s.cur).stopped then s
  else if watches (s.core s.cur) 0 ea k write then s.stopCore s.cur s.slot.val 20 s.th.pc ((s.core s.cur).wpa[0])
  else if watches (s.core s.cur) 1 ea k write then s.stopCore s.cur s.slot.val 21 s.th.pc ((s.core s.cur).wpa[1])
  else s

/-- R393: the same for an atomic, which reads and writes. -/
def State.watchBoth (s : State) (ea : Word) (k : Nat) : State := (s.watch ea k true).watch ea k false

/-- R395: a counter of a core after `n` occurrences of the event that it counts, and whether it wrapped. -/
def countUp (w : Word) (n : Nat) : Word × Bool :=
  let v := bits w 47 0 + n
  (setBits (if v ≥ 2 ^ 48 then w ||| (1 <<< 63) else w) 47 0 v, decide (v ≥ 2 ^ 48))

/-- R396: the event that a counter counts: a write to PMSELn takes effect in the next cycle. -/
def State.selects (s : State) (c : Nat) (k : Fin 4) : BitVec 8 :=
  match (s.core c).selWas[k] with
  | some (n, e) => if n = s.cycle then e else (s.core c).pmsel[k]
  | none => (s.core c).pmsel[k]
/-- R395, R396: one counter counts `n` of an event; if it wraps, its COUNTER record is appended, which names that event. -/
def State.bump (s : State) (c : Nat) (k : Fin 4) (ev : BitVec 8) (n : Nat) : State :=
  let j := s.core c
  let r := countUp (j.pmc[k]) n
  let s1 := s.setCore c { j with pmc := j.pmc.set k r.1, wraps := if r.2 then j.wraps.set k (some (s.cycle, j.pmc[k])) else j.wraps }
  match r.2, j.ctx with
  | true, some x => s1.appendIf x (some 2) (recordHead 6 0 s.time)
      (BitVec.ofNat 64 ((s.slotEntity c 0).toNat + k.val * 2 ^ 40 + ev.toNat * 2 ^ 48)) 0 0
  | _, _ => s1
/-- R396: the value of a counter before the increment, in the cycle in which it has overflowed. -/
def State.wrapped (s : State) (c : Nat) (k : Fin 4) : Option Word :=
  match (s.core c).wraps[k] with
  | some (n, v) => if n = s.cycle then some v else none
  | none => none
/-- R396: what a read of a counter returns. -/
def State.pmcRead (s : State) (c : Nat) (k : Fin 4) : Word :=
  match s.wrapped c k with
  | some v => v ||| (1 <<< 63)
  | none => (s.core c).pmc[k]
/-- R395: the counters of a core that select an event are to count `n`. What the events of a cycle add is added as the next cycle
begins, before anything that it brings reads or writes the counter (R396, log 69). -/
def State.count (s : State) (c ev n : Nat) : State :=
  { s with owed := s.owed ++ ([0, 1, 2, 3] : List (Fin 4)).filterMap (fun k =>
      if (s.selects c k).toNat = ev ∧ ev ≠ 0 ∧ n ≠ 0 then some (c, k, s.selects c k, n) else none) }
/-- R395: what the events of the last cycle add to the counters. -/
def State.payOwed (s : State) : State :=
  s.owed.foldl (fun (s : State) o => s.bump o.1 o.2.1 o.2.2.1 o.2.2.2) { s with owed := [] }

end Sys2Proof.Machine
end

