-- ==== Sys2Proof/Machine/Scalar.lean ====
section
/-! DEFINITION. Scalar integer instructions, branches and jumps (R71, R111 to R122). -/

namespace Sys2Proof.Machine

/-- R111, R112: a short operation: both sources read, the destination written, the PC past the instruction. -/
def State.alu2 (s : State) (d a b : Field) (f : Word → Word → Word) : State := (s.setReg d (f (s.reg a) (s.reg b))).advance
/-- A short operation of one source. -/
def State.alu1 (s : State) (d a : Field) (f : Word → Word) : State := (s.setReg d (f (s.reg a))).advance

/-- R92, R93: a long-latency result that is known at issue: it lands when it lands. The PC goes on. -/
def Thread.pend (t : Thread) (d : ResultDst) (vals : List (Nat × Word)) (missing : Nat) (dep : Option (Fin 8))
    (bank : Option Nat := none) : Thread :=
  { t with pending := t.pending ++ [⟨t.nextSeq, d, vals, missing, dep, bank⟩], nextSeq := t.nextSeq + 1 }
/-- A long-latency result of the issuing thread for a scalar destination, known at issue. -/
def State.late (s : State) (d : Field) (v : Word) : State := (s.setTh (s.th.pend (.scalar d) [(0, v)] 0 none)).advance

/-- R71. -/
def execNop (s : State) : Out := issue s s.advance

/-- R112. -/
def execAdd (d a b : Field) (s : State) : Out := issue s (s.alu2 d a b fun x y => x + y)
/-- R112. -/
def execSub (d a b : Field) (s : State) : Out := issue s (s.alu2 d a b fun x y => x - y)
/-- R112. -/
def execMul (d a b : Field) (s : State) : Out := issue s (s.alu2 d a b fun x y => x * y)
/-- R112. -/
def execMulh (d a b : Field) (s : State) : Out := issue s (s.alu2 d a b fun x y => BitVec.ofInt 64 (x.toInt * y.toInt / 2 ^ 64))
/-- R112. -/
def execMulhu (d a b : Field) (s : State) : Out := issue s (s.alu2 d a b fun x y => BitVec.ofNat 64 (x.toNat * y.toNat / 2 ^ 64))
/-- R112. -/
def execAndR (d a b : Field) (s : State) : Out := issue s (s.alu2 d a b fun x y => x &&& y)
/-- R112. -/
def execOrR (d a b : Field) (s : State) : Out := issue s (s.alu2 d a b fun x y => x ||| y)
/-- R112. -/
def execXorR (d a b : Field) (s : State) : Out := issue s (s.alu2 d a b fun x y => x ^^^ y)
/-- R112. -/
def execSll (d a b : Field) (s : State) : Out := issue s (s.alu2 d a b fun x y => x <<< bits y 5 0)
/-- R112. -/
def execSrl (d a b : Field) (s : State) : Out := issue s (s.alu2 d a b fun x y => x >>> bits y 5 0)
/-- R112. -/
def execSra (d a b : Field) (s : State) : Out := issue s (s.alu2 d a b fun x y => x.sshiftRight (bits y 5 0))
/-- R112. -/
def execSlt (d a b : Field) (s : State) : Out := issue s (s.alu2 d a b fun x y => (if x.toInt < y.toInt then 1 else 0))
/-- R112. -/
def execSltu (d a b : Field) (s : State) : Out := issue s (s.alu2 d a b fun x y => (if x.toNat < y.toNat then 1 else 0))
/-- R112. -/
def execMinR (d a b : Field) (s : State) : Out := issue s (s.alu2 d a b fun x y => (if x.toInt ≤ y.toInt then x else y))
/-- R112. -/
def execMaxR (d a b : Field) (s : State) : Out := issue s (s.alu2 d a b fun x y => (if x.toInt ≤ y.toInt then y else x))
/-- R112. -/
def execMinu (d a b : Field) (s : State) : Out := issue s (s.alu2 d a b fun x y => (if x.toNat ≤ y.toNat then x else y))
/-- R112. -/
def execMaxu (d a b : Field) (s : State) : Out := issue s (s.alu2 d a b fun x y => (if x.toNat ≤ y.toNat then y else x))

/-! ### Division (R113) -/

/-- R113: the signed quotient, rounded toward zero. -/
def divS (x y : Word) : Word := if y = 0 then -1 else if x.toInt = -2 ^ 63 ∧ y.toInt = -1 then x else BitVec.ofInt 64 (x.toInt.tdiv y.toInt)
/-- R113: the signed remainder, with the sign of the dividend. -/
def remS (x y : Word) : Word :=
  if y = 0 then x else if x.toInt = -2 ^ 63 ∧ y.toInt = -1 then 0
  else BitVec.ofInt 64 (x.toInt - y.toInt * x.toInt.tdiv y.toInt)
/-- R113: the unsigned quotient and remainder. -/
def divU (x y : Word) : Word := if y = 0 then -1 else BitVec.ofNat 64 (x.toNat / y.toNat)
def remU (x y : Word) : Word := if y = 0 then x else BitVec.ofNat 64 (x.toNat % y.toNat)

/-- R113. -/
def execDiv (d a b : Field) (s : State) : Out := issue s (s.late d (divS (s.reg a) (s.reg b)))
/-- R113. -/
def execDivu (d a b : Field) (s : State) : Out := issue s (s.late d (divU (s.reg a) (s.reg b)))
/-- R113. -/
def execRem (d a b : Field) (s : State) : Out := issue s (s.late d (remS (s.reg a) (s.reg b)))
/-- R113. -/
def execRemu (d a b : Field) (s : State) : Out := issue s (s.late d (remU (s.reg a) (s.reg b)))

/-! ### One source (R114) -/

/-- The number of leading zero bits of `x` among its low `n` bits. -/
def leadingZeros (x : Word) : Nat → Nat
  | 0 => 0
  | n + 1 => if x.getLsbD n then 0 else 1 + leadingZeros x n
/-- The number of trailing zero bits from bit `k` on, of `n` bits. -/
def trailingZeros (x : Word) (k : Nat) : Nat → Nat
  | 0 => 0
  | n + 1 => if x.getLsbD k then 0 else 1 + trailingZeros x (k + 1) n
/-- The number of one bits among the low `n` bits. -/
def onesIn (x : Word) : Nat → Nat
  | 0 => 0
  | n + 1 => (x.getLsbD n).toNat + onesIn x n

/-- R114. -/
def execClz (d a : Field) (s : State) : Out := issue s (s.alu1 d a fun x => BitVec.ofNat 64 (leadingZeros x 64))
/-- R114. -/
def execCtz (d a : Field) (s : State) : Out := issue s (s.alu1 d a fun x => BitVec.ofNat 64 (trailingZeros x 0 64))
/-- R114. -/
def execPopc (d a : Field) (s : State) : Out := issue s (s.alu1 d a fun x => BitVec.ofNat 64 (onesIn x 64))
/-- R114. -/
def execMov (d a : Field) (s : State) : Out := issue s (s.alu1 d a fun x => x)

/-! ### Immediates (R115, R116) -/

/-- R115. -/
def execAddi (d a : Field) (imm : BitVec 22) (s : State) : Out := issue s (s.alu1 d a fun x => x + sx22 imm)
/-- R115. -/
def execAndi (d a : Field) (imm : BitVec 22) (s : State) : Out := issue s (s.alu1 d a fun x => x &&& sx22 imm)
/-- R115. -/
def execOri (d a : Field) (imm : BitVec 22) (s : State) : Out := issue s (s.alu1 d a fun x => x ||| sx22 imm)
/-- R115. -/
def execXori (d a : Field) (imm : BitVec 22) (s : State) : Out := issue s (s.alu1 d a fun x => x ^^^ sx22 imm)
/-- R115. -/
def execSlti (d a : Field) (imm : BitVec 22) (s : State) : Out := issue s (s.alu1 d a fun x => (if x.toInt < (sx22 imm).toInt then 1 else 0))
/-- R115. -/
def execSlli (d a : Field) (sh : BitVec 6) (s : State) : Out := issue s (s.alu1 d a fun x => x <<< sh.toNat)
/-- R115. -/
def execSrli (d a : Field) (sh : BitVec 6) (s : State) : Out := issue s (s.alu1 d a fun x => x >>> sh.toNat)
/-- R115. -/
def execSrai (d a : Field) (sh : BitVec 6) (s : State) : Out := issue s (s.alu1 d a fun x => x.sshiftRight sh.toNat)
/-- R116. -/
def execLi (d : Field) (imm : BitVec 22) (s : State) : Out := issue s (s.setReg d (sx22 imm)).advance
/-- R116: X names a private register. -/
def execLiL (d : BitVec 4) (imm : Word) (s : State) : Out := issue s (s.setReg (0#1 ++ d) imm).advance

/-! ### Select, extract, insert (R117, R118) -/

/-- R117. -/
def execSel (d a b c : Field) (s : State) : Out := issue s (s.alu2 d a b fun x y => if s.reg c ≠ 0 then x else y)
/-- R118: the field of `len1 + 1` bits at `pos`, zero-extended. -/
def extractField (x : Word) (pos len1 : Nat) : Word := BitVec.ofNat 64 (bits x (pos + len1) pos)
/-- R118: `y` with the field replaced by the low bits of `x`. -/
def insertField (x y : Word) (pos len1 : Nat) : Word := setBits y (pos + len1) pos x.toNat
/-- R118. -/
def execExt (d a : Field) (pos len1 : BitVec 6) (s : State) : Out :=
  issue s (s.alu1 d a fun x => extractField x pos.toNat len1.toNat)
/-- R118. -/
def execIns (d a b : Field) (pos len1 : BitVec 6) (s : State) : Out :=
  issue s (s.alu2 d a b fun x y => insertField x y pos.toNat len1.toNat)

/-! ### Branches and jumps (R119 to R122) -/

/-- R119: a branch. -/
def State.branch (s : State) (taken : Bool) (idx : Field) (off : BitVec 17) : State :=
  if taken then s.jump (branchTarget s.th.pc idx off) else s.advance

/-- R119. -/
def execBeq (a b idx : Field) (off : BitVec 17) (s : State) : Out :=
  issue s (s.branch (decide (s.reg a = s.reg b)) idx off)
/-- R119. -/
def execBne (a b idx : Field) (off : BitVec 17) (s : State) : Out :=
  issue s (s.branch (decide (s.reg a ≠ s.reg b)) idx off)
/-- R119. -/
def execBlt (a b idx : Field) (off : BitVec 17) (s : State) : Out :=
  issue s (s.branch (decide ((s.reg a).toInt < (s.reg b).toInt)) idx off)
/-- R119. -/
def execBge (a b idx : Field) (off : BitVec 17) (s : State) : Out :=
  issue s (s.branch (decide ((s.reg b).toInt ≤ (s.reg a).toInt)) idx off)
/-- R119. -/
def execBltu (a b idx : Field) (off : BitVec 17) (s : State) : Out :=
  issue s (s.branch (decide ((s.reg a).toNat < (s.reg b).toNat)) idx off)
/-- R119. -/
def execBgeu (a b idx : Field) (off : BitVec 17) (s : State) : Out :=
  issue s (s.branch (decide ((s.reg b).toNat ≤ (s.reg a).toNat)) idx off)
/-- R120: the PC that the thread would have run without the jump. -/
def State.link (s : State) : Word := nextPc s.th.pc s.th.lineCount
/-- R120. -/
def execJ (idx : Field) (off : BitVec 17) (s : State) : Out := issue s (s.jump (branchTarget s.th.pc idx off))
/-- R120. -/
def execJal (l idx : Field) (off : BitVec 17) (s : State) : Out :=
  issue s ((s.setReg l s.link).jump (branchTarget s.th.pc idx off))
/-- R121. -/
def execJr (a : Field) (s : State) : Out := issue s (s.jump (s.reg a))
/-- R121: the target is read before the link is written. -/
def execJalr (d a : Field) (s : State) : Out := issue s ((s.setReg d s.link).jump (s.reg a))

end Sys2Proof.Machine
end

