-- ==== Sys2Proof/Machine/Access.lean ====
section
/-! DEFINITION. Accesses: local stores with their full/empty words (R138, R146), acceptance (R140), accesses in flight to
memory slices, requests to other cores (R143, R144), atomics (R154 to R157), the constant cache (R137). -/

namespace Sys2Proof.Machine

/-! ### Threads by their number -/

/-- A change applied to the thread with a number in a slot vector. -/
def updSlots (sl : Vector (Option Thread) 16) (uid : Nat) (f : Thread → Thread) : Vector (Option Thread) 16 :=
  slotNumbers.foldl (fun v i => match v[i] with
    | some t => if t.uid = uid then v.set i (some (f t)) else v
    | none => v) sl

/-- A change applied to the thread with a number, in a core or in a save record (R405). -/
def State.updThread (s : State) (uid : Nat) (f : Thread → Thread) : State :=
  { s with
    cores := s.cores.map (fun p => (p.1, { p.2 with slots := updSlots p.2.slots uid f }))
    contexts := s.contexts.map (fun p =>
      (p.1, { p.2 with saved := p.2.saved.map (fun q => (q.1, { q.2 with slots := updSlots q.2.slots uid f })) })) }

/-- The slot of a core that holds a thread with a number. -/
def slotOf (k : CoreState) (uid : Nat) : Option (Fin 16) :=
  slotNumbers.find? (fun i => match k.slots[i] with | some t => t.uid == uid | none => false)

/-- Where a thread is: core and slot. -/
def State.locate (s : State) (uid : Nat) : Option (Nat × Fin 16) :=
  s.cores.findSome? (fun p => (slotOf p.2 uid).map (fun i => (p.1, i)))

/-! ### The local store (R138, R146, R316) -/

/-- R316: the bytes [off, off + n) touch the closed list area of a core's pool. -/
def listClosed (k : CoreState) (off n : Nat) : Bool :=
  k.pool.valid && decide (off < k.pool.list + 0xA000 ∧ k.pool.list < off + n)

/-- R138: a word is Full. -/
def CoreState.full (k : CoreState) (word : Nat) : Bool := !k.emptyWords.contains word

/-- R147: a word is to be checked again. -/
def CoreState.isDirty (k : CoreState) (word : Nat) : Bool := k.dirty.any (fun p => p.1 == word)
/-- R146, R147: a word's full/empty state set in a cycle; a change marks the word for a re-check round in the next cycle and names its
maker. -/
def CoreState.setFull (k : CoreState) (word : Nat) (full : Bool) (tag : Tag) (now : Nat) : CoreState :=
  if k.full word = full then k
  else { k with
    emptyWords := if full then k.emptyWords.filter (· != word) else word :: k.emptyWords
    dirty := if k.isDirty word then k.dirty else k.dirty ++ [(word, now)]
    feTags := mapPut k.feTags word tag }

/-- A free 64-bit value (log 5). -/
def State.freeWord (s : State) : State × Word := ({ s with free := s.free + 1 }, Config.freeWord s.free)
/-- A free choice (log 5). -/
def State.choose (s : State) : State × Bool := ({ s with free := s.free + 1 }, Config.freeChoice s.free)

/-- R138: `n` bytes of the issuing core's local store; inside the list area, whose layout is not architectural, a free value. -/
def State.lsRead (s : State) (off n : Nat) : State × Nat :=
  if listClosed (s.core s.cur) off n then (s.freeWord.1, s.freeWord.2.toNat % 2 ^ (8 * n)) else (s, (s.core s.cur).ls.num off n)

/-- R138: the low `n` bytes of a number written to the issuing core's local store. -/
def State.lsWrite (s : State) (off n v : Nat) : State :=
  s.setCore s.cur { s.core s.cur with ls := (s.core s.cur).ls.putNum off n v }

/-! ### Atomics (R154 to R157) -/

/-- What an atomic stores at its home: none where nothing is stored. `n` bytes; b and c its operands; STAT as it travels. -/
def amoNew (op : AmoOp) (n old b c : Nat) (stat : Word) : Option Nat :=
  let m := 2 ^ (8 * n)
  let sg (v : Nat) : Int := if v ≥ m / 2 then (v : Int) - m else v
  let b := b % m
  match op with
  | .add => some ((old + b) % m)
  | .and => some (old &&& b)
  | .or => some (old ||| b)
  | .xor => some (old ^^^ b)
  | .min => some (if sg old ≤ sg b then old else b)
  | .max => some (if sg old ≤ sg b then b else old)
  | .minu => some (min old b)
  | .maxu => some (max old b)
  | .swap => some b
  | .cas => if old = b then some (c % m) else none
  | .fadd => some ((if n = 4 then fp32 else fp64).add (statRm stat) (statSat stat) old b)

/-! ### Acceptance (R140) -/

/-- R140: a GLOBAL access is accepted when the port translates it; a miss parks the thread for the walk. -/
def State.needPage (s : State) (ea : Word) (dva : Nat) (write : Bool) (access : Nat) (k : Home → State) : State :=
  match s.hit (clusterOf s.cur) s.th.ctx dva write with
  | some h => k h
  | none => (s.setTh { s.th with walk := some ⟨ea, dva, write, access⟩ }).park .walk

/-- R372: the same for an access that is performed in this step: it waits as long as its home cannot be reached. -/
def State.needHome (s : State) (ea : Word) (dva : Nat) (write : Bool) (access : Nat) (k : Home → State) : State :=
  s.needPage ea dva write access fun h =>
    if s.reachable h then k h else (s.setTh { s.th with walk := some ⟨ea, dva, write, access⟩ }).park .walk

/-- R17, R18, R162: an access that is performed at its home in this step comes after what channel 0 carries there before it, and after the
thread's earlier accesses to the same bytes. -/
def State.inLane (s : State) (h : Home) (n : Nat) (k : State → State) : State := s.await (.lane h.remote h.at_ h.addr n) k

/-- The result that a load or atomic waits for is registered, and the PC goes on; an acquire holds the next instruction until
it lands (R166). `bank` is the core whose bank takes a result for a shared register (R141). -/
def State.finishLoad (s : State) (d : ResultDst) (vals : List (Nat × Word)) (missing : Nat) (dep : Option (Fin 8)) (acq : Bool)
    (bank : Option Nat := none) : State :=
  let s := if acq then s.acquire else s
  let t := (s.th.pend d vals missing dep bank).advance
  s.setTh (if acq then { t with st := .parked (.landing s.th.nextSeq) } else t)

/-- An access of the issuing thread to a GLOBAL home. -/
def State.mkAccess (s : State) (op : AccessOp) (h : Home) (ea : Word) (dva n : Nat) : Access :=
  { uid := s.th.uid
    ctx := s.th.ctx
    core := s.cur
    leaf := s.coreLeaf s.cur
    seq := s.nextId
    op := op
    remote := h.remote
    home := h.at_
    addr := h.addr
    size := n
    ea := ea
    dva := dva
    stat := s.th.stat
    tag := s.selfTag }
/-- The access goes on its way. -/
def State.send (s : State) (a : Access) : State := { s with flight := s.flight ++ [a], nextId := s.nextId + 1 }

/-- A message on channel 0 from the issuing thread. -/
def State.post (s : State) (dst : Nat) (body : MsgBody) : State :=
  { s with
    msgs := s.msgs ++ [{ seq := s.nextId, src := s.cur, dst := dst, srcLeaf := s.coreLeaf s.cur, dstLeaf := s.coreLeaf dst, uid := s.th.uid, ctx := s.th.ctx, body := body,
                         since := s.cycle, tag := s.selfTag }]
    nextId := s.nextId + 1 }

/-- R145: the access calls for a migration to core `c`: it replays there from `ea`. -/
def State.migrateFor (s : State) (c : Nat) (ea : Word) (access : Nat) : State :=
  if statM s.th.stat then s.trapAt kClaim ea access
  else (s.setTh { s.th with replay := some ea, aux := BitVec.ofNat 64 c, stage := 1 }).park .migrate

/-- R145: where a replayed access lies in the issuing core's local store: its address is not checked again. -/
def State.replayPlace (s : State) (ea : Word) : Place :=
  .store s.cur (((s.th.kb[segIndex ea]).toNat + segOffset ea) % 2 ^ 18)

/-- The effective address of an access and the place it names, after the checks of R135, or the kind that traps. -/
def State.place (s : State) (ea : Word) (n : Nat) (r : Right) (fe : Bool) : Except Nat Place :=
  match s.th.replay with
  | some a => .ok (s.replayPlace a)
  | none => s.check s.th ea n r fe

/-- The effective address: the replay address where the thread carries one (R100). -/
def State.eaOf (s : State) (ea : Word) : Word := s.th.replay.getD ea

/-! ### The constant cache (R137) -/

/-- R162: a store of the issuing thread to a line is in flight which it made before it last acquired here. -/
def State.ownOlder (s : State) (h : Home) : Bool :=
  match mapGet (s.cluster (clusterOf s.cur)).acquired s.th.uid with
  | some n => s.flight.any (fun a => a.uid == s.th.uid && a.op.writes && decide (a.seq < n) && lineKey ⟨a.remote, a.home, a.addr⟩ == lineKey h)
  | none => false
/-- R137, R162: a plain load through a CONST segment may be served from the cluster's constant cache. -/
def State.constHit (s : State) (h : Home) (n : Nat) : Option Nat :=
  if s.ownOlder h then none
  else match mapGet (s.cluster (clusterOf s.cur)).ccache (lineKey h) with
  | some line => some (leNat ((line.drop (h.addr % 64)).take n))
  | none => none

/-! ### Atomics and loads as issued -/

/-- R141: the core that has served a remote atomic. -/
def State.servedAt (s : State) (ea : Word) (n : Nat) : Option Nat :=
  match s.check s.th ea n .atomic false with | .ok (.store c _) => some c | _ => none
/-- R154: the mould of the atomics: check, release wait, then the core's own interface (R139), a slice, or the owner of another core's
word. -/
def State.atomic (s : State) (n : Nat) (d : Field) (ea b c : Word) (os : Field) (op : AmoOp) (y : BitVec 12) : State :=
  let acq := (osOrder os).acquires
  let dep := syncDep y
  if s.th.stage = 2 then
    if s.th.granted then s.finishLoad (.scalar d) [(0, s.th.aux)] 0 dep acq (s.servedAt ea n)
    else if s.th.refused then s.trapAt kRefused ea 2
    else s.park .reply
  else match s.check s.th ea n .atomic false with
    | .error k => s.trapAt k ea 2
    | .ok p =>
      if (match p with | .store cc o => cc == s.cur && listClosed (s.core s.cur) o n | .device _ => false) then s.trapAt kSegRights ea 2
      else
        let s := s.issueSync y
        let go (s : State) : State :=
          match p with
          | .device dva => s.needPage ea dva true 2 fun h =>
              let a := s.mkAccess (.amo op) h ea dva n
              ((s.watchBoth ea n).send { a with data := b, data2 := c, result := some s.th.nextSeq }).finishLoad
                (.scalar d) [] 1 dep acq
          | .store cc o =>
            if cc = s.cur then
              let a : OwnAtomic := { uid := s.th.uid, ctx := s.th.ctx, core := s.cur, off := o, size := n, op := op
                                     data := b, data2 := c, stat := s.th.stat, result := s.th.nextSeq }
              (({ s with amos := s.amos ++ [a] } : State).watchBoth ea n).finishLoad (.scalar d) [] 1 dep acq
            else
              let s1 := (s.watchBoth ea n).post cc (.atomic op o n b c s.th.stat)
              (s1.stage 2).park .reply
        if (osOrder os).releases then s.await (.release (osScope os)) go else go s

/-- R151: a scalar load. An access to the issuing core's own local store is performed at its issue, in program order (log 54). -/
def State.load (s : State) (n : Nat) (signed : Bool) (d : Field) (ea0 : Word) (os : Field) : State :=
  let ea := s.eaOf ea0
  let acq := (osOrder os).acquires
  match s.place ea n .read false with
  | .error k => s.trapAt k ea 0
  | .ok (.store c o) =>
    if c ≠ s.cur then s.migrateFor c ea 0
    else
      let r := s.lsRead o n
      (r.1.watch ea n false).finishLoad (.scalar d) [(0, extend n signed r.2)] 0 none acq
  | .ok (.device dva) => s.needPage ea dva false 0 fun h =>
      let s := s.watch ea n false
      let const := kdConst (s.th.kd[segIndex ea]) && osOrder os == .plain
      let pick := s.choose
      match (if const && pick.2 then s.constHit h n else none) with
      | some v => pick.1.finishLoad (.scalar d) [(0, extend n signed v)] 0 none acq
      | none =>
        let s := if const then pick.1 else s
        let a := s.mkAccess .load h ea dva n
        (s.send { a with ext := (if signed then 4 else 0) + Nat.log2 n, result := some s.th.nextSeq,
                         cached := if const then some (clusterOf s.cur) else none }).finishLoad (.scalar d) [] 1 none acq

/-- R152: a scalar store of the low `n` bytes of a value. -/
def State.store (s : State) (n : Nat) (ea v : Word) (os : Field) : State :=
  if s.th.stage = 2 then
    if s.th.granted then s.advance
    else if s.th.refused then s.trapAt kRefused ea 1
    else s.park .reply
  else match s.check s.th ea n .write false with
    | .error k => s.trapAt k ea 1
    | .ok p =>
      if (match p with | .store c o => c == s.cur && listClosed (s.core s.cur) o n | .device _ => false) then s.trapAt kSegRights ea 1
      else
        let go (s : State) : State :=
          match p with
          | .device dva => s.needPage ea dva true 1 fun h =>
              let a := s.mkAccess .store h ea dva n
              ((s.watch ea n true).send { a with data := v }).advance
          | .store c o =>
            if c = s.cur then ((s.lsWrite o n v.toNat).watch ea n true).advance
            else
              let s1 := (s.watch ea n true).post c (.write o n v)
              (s1.stage 2).park .reply
        if (osOrder os).releases then s.await (.release (osScope os)) go else go s

/-! ### Full/empty (R146 to R148) -/

/-- R153: the right that a full/empty instruction needs, which gives its access code (R345). -/
def FeOp.right : FeOp → Right
  | .ldfe => .readWrite
  | .ldff => .read
  | .stfe => .write
/-- R146: a full/empty instruction on a word of the issuing core: it proceeds, or parks with its request. -/
def State.feAccess (s : State) (op : FeOp) (o : Nat) (v : BitVec 32) (d : Field) (signed : Bool) (ea : Word) : State :=
  let k := s.core s.cur
  let w := o / 4
  if s.th.granted then
    let s := s.waited (.fullEmpty w) s.th.tag
    match op with
    | .stfe => s.advance
    | _ => s.finishLoad (.scalar d) [(0, extend 4 signed s.th.aux.toNat)] 0 none true
  else
    let s := s.watch ea 4 (op == .stfe)
    if (op = .stfe) = k.full w then
      (s.setTh { s.th with fe := some ⟨w, ea, op, v, d, signed⟩, feCount := 0 }).park (.fullEmpty w)
    else match op with
      | .stfe =>
        let s := s.lsWrite o 4 v.toNat
        (s.setCore s.cur ((s.core s.cur).setFull w true s.selfTag s.cycle)).advance
      | .ldfe =>
        let r := s.lsRead o 4
        (r.1.setCore s.cur ((r.1.core s.cur).setFull w false s.selfTag s.cycle)).finishLoad (.scalar d) [(0, extend 4 signed r.2)] 0 none true
      | .ldff =>
        let r := s.lsRead o 4
        r.1.finishLoad (.scalar d) [(0, extend 4 signed r.2)] 0 none true

/-- R153: a full/empty instruction: checks, migration, then the access; the release of `stfe` comes before it (R146). -/
def State.fullEmpty (s : State) (op : FeOp) (ea0 : Word) (v : Word) (d : Field) (signed : Bool) (os : Field) : State :=
  let ea := s.eaOf ea0
  let right := op.right
  match s.place ea 4 right true with
  | .error k => s.trapAt k ea right.code
  | .ok (.device _) => s.trapAt kSegRights ea right.code
  | .ok (.store c o) =>
    if c ≠ s.cur then s.migrateFor c ea right.code
    else if op = .stfe ∧ !s.th.granted ∧ listClosed (s.core s.cur) o 4 then s.trapAt kSegRights ea 1
    else if op = .stfe ∧ !s.th.granted then
      s.await (.release (osScope os)) fun s => s.feAccess op o (v.truncate 32) d signed ea
    else s.feAccess op o (v.truncate 32) d signed ea

/-- R147: an access that a round lets proceed leaves its answer with its thread. -/
def feGrant (t : Thread) (v : Nat) (tag : Option Tag) : Thread :=
  { t with fe := none, granted := true, aux := BitVec.ofNat 64 v, feCount := 0, tag := tag }

/-- The threads of a core parked on a word with an operation, in ascending slot order. -/
def feParked (k : CoreState) (w : Nat) (op : FeOp) : List (Fin 16) :=
  slotNumbers.filter (fun i => match k.slots[i] with
    | some t => (match t.fe with | some r => r.word == w && r.op == op | none => false)
    | none => false)

/-- A change applied to one slot's thread. -/
def CoreState.updSlot (k : CoreState) (i : Fin 16) (f : Thread → Thread) : CoreState :=
  match k.slots[i] with | some t => { k with slots := k.slots.set i (some (f t)) } | none => k

/-- R147, R316: the three steps of a round on a word, and whether step 3 let a `stfe` proceed. Those that would write a list area
which has been closed since they parked trap. -/
def State.feRound (s : State) (c w : Nat) : State × Bool :=
  let k := s.core c
  let v := k.ls.num (4 * w) 4
  let k1 := if k.full w then (feParked k w .ldff).foldl (fun k i => k.updSlot i (fun t => feGrant t v (mapGet k.feTags w))) k else k
  let k2 := if k1.full w then
      match feParked k1 w .ldfe with
      | i :: _ => match k1.slots[i] with
        | some t => (k1.updSlot i (fun t => feGrant t v (mapGet k1.feTags w))).setFull w false (s.tagOf c i t) s.cycle
        | none => k1
      | [] => k1
    else k1
  if k2.full w then (s.setCore c k2, false)
  else if listClosed k2 (4 * w) 4 then
    ((feParked k2 w .stfe).foldl (fun (r : State) i => r.takeTrap c i
      { kind := kSegRights, ea := (((k2.slots[i]).bind (·.fe)).map (·.ea)).getD 0, access := 1 }) (s.setCore c k2), false)
  else match feParked k2 w .stfe with
    | i :: _ => match k2.slots[i] with
      | some t =>
        let nv := match t.fe with | some r => r.value.toNat | none => 0
        let k3 := (k2.updSlot i (fun t => feGrant t 0 (mapGet k2.feTags w))).setFull w true (s.tagOf c i t) s.cycle
        (s.setCore c { k3 with ls := k3.ls.putNum (4 * w) 4 nv }, true)
      | none => (s.setCore c k2, false)
    | [] => (s.setCore c k2, false)

/-- R148: the access of a slot has reached its retry limit and STAT.FTE is set. -/
def feExpired (t : Thread) : Bool := t.fe.isSome && statFte t.stat && decide (t.feCount ≥ 2 ^ (statFrl t.stat + 1))

/-- R148: the access of a slot traps FE_TIMEOUT if it has expired; the word stays as it is. -/
def State.feExpire (s : State) (c : Nat) (i : Fin 16) : State :=
  match s.threadAt c i with
  | some t => if feExpired t then s.takeTrap c i
      { kind := kFeTimeout, ea := (t.fe.map (·.ea)).getD 0, access := (t.fe.map (·.op.right.code)).getD 0 }
    else s
  | none => s

/-- R147: a word that changed in an earlier cycle than this one. -/
def State.roundDue (s : State) (c w : Nat) : Bool := (s.core c).dirty.any (fun p => p.1 == w && decide (p.2 < s.cycle))
/-- R147, R148: a round, in a later cycle than the change, and its failed re-checks. A round in which a `stfe` proceeded is followed by
another in the next cycle; no other change within it starts one. -/
def State.feRecheck (s : State) (c w : Nat) : State :=
  if !s.roundDue c w then s
  else
    let r := s.feRound c w
    let k := r.1.core c
    let rest := k.dirty.filter (fun p => p.1 != w)
    let left := feParked k w .ldfe ++ feParked k w .ldff ++ feParked k w .stfe
    let k := { k with dirty := if r.2 then rest ++ [(w, s.cycle)] else rest }
    let k := left.foldl (fun k i => k.updSlot i (fun t => { t with feCount := t.feCount + 1 })) k
    left.foldl (fun s i => s.feExpire c i) ((r.1.setCore c k).count c 8 left.length)

end Sys2Proof.Machine
end

