-- ==== Sys2Proof/Machine/ScalarFloat.lean ====
section
/-! DEFINITION. Scalar floating point (R123 to R130). -/

namespace Sys2Proof.Machine

/-- R124: the format that X[0] selects. -/
def scalarFmt (f : BitVec 1) : Fmt := if f = 0 then fp32 else fp64
/-- R123: an operand in the low bits of its register. -/
def Fmt.low (f : Fmt) (w : Word) : Nat := w.toNat % 2 ^ (f.exp + f.frac + 1)
/-- STAT.RM and STAT.SAT as the issuing instruction reads them (R39). -/
def State.rm (s : State) : Nat := statRm s.th.stat
def State.sat (s : State) : Bool := statSat s.th.stat
/-- R124: a two-operand result of the format, zero-extended (R123). -/
def State.float2 (s : State) (f : BitVec 1) (a b : Field) (op : Fmt → Nat → Bool → Nat → Nat → Nat) : Word :=
  let F := scalarFmt f
  BitVec.ofNat 64 (op F s.rm s.sat (F.low (s.reg a)) (F.low (s.reg b)))

/-- R124. -/
def execFadd (f : BitVec 1) (d a b : Field) (s : State) : Out := issue s (s.setReg d (s.float2 f a b Fmt.add)).advance
/-- R124. -/
def execFsub (f : BitVec 1) (d a b : Field) (s : State) : Out := issue s (s.setReg d (s.float2 f a b Fmt.sub)).advance
/-- R124. -/
def execFmul (f : BitVec 1) (d a b : Field) (s : State) : Out := issue s (s.setReg d (s.float2 f a b Fmt.mul)).advance
/-- R124: long-latency. -/
def execFdiv (f : BitVec 1) (d a b : Field) (s : State) : Out := issue s (s.late d (s.float2 f a b Fmt.div))
/-- R124: long-latency. -/
def execFsqrt (f : BitVec 1) (d a : Field) (s : State) : Out :=
  issue s (s.late d (BitVec.ofNat 64 ((scalarFmt f).sqrt s.rm s.sat ((scalarFmt f).low (s.reg a)))))
/-- R42, R124. -/
def execFmin (f : BitVec 1) (d a b : Field) (s : State) : Out :=
  issue s (s.setReg d (s.float2 f a b fun F _ _ x y => F.pick false x y)).advance
/-- R42, R124. -/
def execFmax (f : BitVec 1) (d a b : Field) (s : State) : Out :=
  issue s (s.setReg d (s.float2 f a b fun F _ _ x y => F.pick true x y)).advance
/-- R125: the comparison of two operands. -/
def State.fcompare (s : State) (f : BitVec 1) (a b : Field) : Cmp :=
  let F := scalarFmt f
  (F.decode (F.low (s.reg a))).compare (F.decode (F.low (s.reg b)))
/-- The issuing thread's STAT replaced. -/
def State.setStatWord (s : State) (w : Word) : State := s.setTh { s.th with stat := w }
/-- R125: writes 0 or 1, and STAT.CF. -/
def execFcmp (pred : BitVec 3) (f : BitVec 1) (d a b : Field) (s : State) : Out :=
  let c := s.fcompare f a b
  issue s ((s.setStatWord (setCF s.th.stat c.flags)).setReg d (if c.test pred.toNat then 1 else 0)).advance
/-- R126. -/
def execFclass (f : BitVec 1) (d a : Field) (s : State) : Out :=
  issue s (s.setReg d (BitVec.ofNat 64 ((scalarFmt f).classify ((scalarFmt f).low (s.reg a))))).advance
/-- R127. -/
def execFsgn (op : BitVec 3) (f : BitVec 1) (d a b : Field) (s : State) : Out :=
  issue s (s.setReg d (s.float2 f a b fun F _ _ x y => F.signOp op.toNat x y)).advance
/-- R124: one rounding. -/
def execFfma (f : BitVec 1) (d a b c : Field) (s : State) : Out :=
  let F := scalarFmt f
  issue s (s.setReg d (BitVec.ofNat 64 (F.fma s.rm s.sat (F.low (s.reg a)) (F.low (s.reg b)) (F.low (s.reg c))))).advance

/-- R128, R129: the conversion that X selects. -/
def fcvtValue (x : Nat) (rm : Nat) (sat : Bool) (a : Word) : Word :=
  let s := fp32.decode (fp32.low a)
  let d := fp64.decode a.toNat
  let out (f : Fmt) (v : FVal) : Word := BitVec.ofNat 64 (f.round rm sat v)
  let toI (bits : Nat) (v : FVal) : Word :=
    BitVec.ofInt 64 (toInteger rm sat (-2 ^ (bits - 1)) (2 ^ (bits - 1) - 1) (-2 ^ (bits - 1)) v)
  let widen (f : Fmt) : Word := BitVec.ofNat 64 (fp32.round rm sat (f.decode (f.low a)))
  match x with
  | 0 => out fp32 d
  | 1 => out fp64 s
  | 2 => toI 64 s
  | 3 => toI 64 d
  | 4 => out fp32 (ofInteger a.toInt)
  | 5 => out fp64 (ofInteger a.toInt)
  | 6 => toI 32 s
  | 7 => toI 32 d
  | 8 => out fp16 s
  | 9 => widen fp16
  | 10 => out bf16 s
  | 11 => widen bf16
  | 12 => out e4m3 s
  | 13 => widen e4m3
  | 14 => out e5m2 s
  | _ => widen e5m2
/-- R128. -/
def execFcvt (x : BitVec 4) (d a : Field) (s : State) : Out :=
  issue s (s.alu1 d a fun v => fcvtValue x.toNat s.rm s.sat v)

end Sys2Proof.Machine
end

