-- ==== Sys2Proof/Machine/Memory.lean ====
section
/-! DEFINITION. Memory instructions (R151 to R159, R174, R175) and the steps that serve them: accesses performed at their homes
(R161, R162), requests and replies (R140, R143, R144), results landing (R92), walks (R343), full/empty rounds (R147, R148). -/

namespace Sys2Proof.Machine

/-- R151. -/
def execLd (size : BitVec 4) (d a os : Field) (off : BitVec 17) (s : State) : Out :=
  issue s (s.load (sizeBytes size) (sizeSigned size) d (s.reg a + sx17 off) os)
/-- R152. -/
def execSt (size : BitVec 4) (os a b : Field) (off : BitVec 17) (s : State) : Out :=
  issue s (s.store (sizeBytes size) (s.reg a + sx17 off) (s.reg b) os)
/-- R153. -/
def execLdfe (size : BitVec 4) (d a os : Field) (off : BitVec 17) (s : State) : Out :=
  issue s (s.fullEmpty .ldfe (s.reg a + sx17 off) 0 d (sizeSigned size) os)
/-- R153. -/
def execStfe (os a b : Field) (off : BitVec 17) (s : State) : Out :=
  issue s (s.fullEmpty .stfe (s.reg a + sx17 off) (s.reg b) 0x1F false os)
/-- R153. -/
def execLdff (size : BitVec 4) (d a os : Field) (off : BitVec 17) (s : State) : Out :=
  issue s (s.fullEmpty .ldff (s.reg a + sx17 off) 0 d (sizeSigned size) os)

/-- R146, R153: `feset` sets a word's state; its data stays. -/
def State.feset (s : State) (full : Bool) (ea0 : Word) : State :=
  let ea := s.eaOf ea0
  match s.place ea 4 .write true with
  | .error k => s.trapAt k ea 1
  | .ok (.device _) => s.trapAt kSegRights ea 1
  | .ok (.store c o) =>
    if c ≠ s.cur then s.migrateFor c ea 1
    else if listClosed (s.core s.cur) o 4 then s.trapAt kSegRights ea 1
    else ((s.setCore s.cur ((s.core s.cur).setFull (o / 4) full s.selfTag s.cycle)).watch ea 4 true).advance
/-- R153. -/
def execFeset (st : BitVec 1) (a : Field) (off : BitVec 17) (s : State) : Out :=
  issue s (s.feset (st == 1) (s.reg a + sx17 off))

/-- R154. -/
def execAmoAdd (size : BitVec 4) (d a b os : Field) (s : State) : Out :=
  issue s (s.atomic (sizeBytes size) d (s.reg a) (s.reg b) 0 os .add 0)
/-- R154. -/
def execAmoAnd (size : BitVec 4) (d a b os : Field) (s : State) : Out :=
  issue s (s.atomic (sizeBytes size) d (s.reg a) (s.reg b) 0 os .and 0)
/-- R154. -/
def execAmoOr (size : BitVec 4) (d a b os : Field) (s : State) : Out :=
  issue s (s.atomic (sizeBytes size) d (s.reg a) (s.reg b) 0 os .or 0)
/-- R154. -/
def execAmoXor (size : BitVec 4) (d a b os : Field) (s : State) : Out :=
  issue s (s.atomic (sizeBytes size) d (s.reg a) (s.reg b) 0 os .xor 0)
/-- R154. -/
def execAmoMin (size : BitVec 4) (d a b os : Field) (s : State) : Out :=
  issue s (s.atomic (sizeBytes size) d (s.reg a) (s.reg b) 0 os .min 0)
/-- R154. -/
def execAmoMax (size : BitVec 4) (d a b os : Field) (s : State) : Out :=
  issue s (s.atomic (sizeBytes size) d (s.reg a) (s.reg b) 0 os .max 0)
/-- R154. -/
def execAmoMinu (size : BitVec 4) (d a b os : Field) (s : State) : Out :=
  issue s (s.atomic (sizeBytes size) d (s.reg a) (s.reg b) 0 os .minu 0)
/-- R154. -/
def execAmoMaxu (size : BitVec 4) (d a b os : Field) (s : State) : Out :=
  issue s (s.atomic (sizeBytes size) d (s.reg a) (s.reg b) 0 os .maxu 0)
/-- R154. -/
def execAmoSwap (size : BitVec 4) (d a b os : Field) (s : State) : Out :=
  issue s (s.atomic (sizeBytes size) d (s.reg a) (s.reg b) 0 os .swap 0)
/-- R157. -/
def execAmoFadd (size : BitVec 4) (d a b os : Field) (s : State) : Out :=
  issue s (s.atomic (sizeBytes size) d (s.reg a) (s.reg b) 0 os .fadd 0)
/-- R156. -/
def execAmoCas (size : BitVec 4) (d a b c os : Field) (sync : BitVec 12) (s : State) : Out :=
  issue s (s.sync sync fun s => s.atomic (sizeBytes size) d (s.reg a) (s.reg b) (s.reg c) os .cas sync)

/-- R174, R175: the waits, then the acquire of `.ar`. -/
def execFence (o : BitVec 1) (scope : BitVec 3) (s : State) : Out :=
  issue s (s.await (.release scope.toNat) fun s => (if o = 0 then s.acquire else s).advance)

/-- R158. -/
def execLea (x : BitVec 4) (d a b : Field) (off : BitVec 17) (s : State) : Out :=
  issue s (s.alu2 d a b fun p q => p + sx17 off + (if x.getLsbD 2 then q <<< (x.extractLsb' 0 2).toNat else 0))

/-- R159: what `segq` answers for an address. -/
def segqValue (t : Thread) (q : BitVec 1) (a : Word) : Word :=
  let kd := t.kd[segIndex a]
  let off := segOffset a
  if q = 0 then
    BitVec.ofNat 64 (bits kd 63 57 * 2 ^ 57 + (if off ≤ kdLimit kd then min (kdLimit kd - off + 1) (2 ^ 57 - 1) else 0))
  else t.kb[segIndex a] + BitVec.ofNat 64 off
/-- R159. -/
def execSegq (q : BitVec 1) (d a : Field) (s : State) : Out := issue s (s.alu1 d a fun x => segqValue s.th q x)

/-! ### Accesses performed at their homes (R161, R162) -/

/-- Two accesses touch a common byte. -/
def overlaps (a b : Access) : Bool :=
  a.remote == b.remote && (!a.remote || a.home == b.home) && decide (a.addr < b.addr + b.size ∧ b.addr < a.addr + a.size)

/-- R18, R371, R403: two accesses left from one leaf for one: both name one line, which lies in one slice, or go to one other package.
Whether two lines share a slice is not architectural. -/
def sameLane (a b : Access) : Bool :=
  a.leaf == b.leaf && a.remote == b.remote && a.home == b.home && (a.remote || a.addr / 64 == b.addr / 64)
/-- R18, R162, R371, R372: the access at a place in flight, if no earlier access of its thread touches its bytes, none that channel 0
carries before it goes where it goes, and its home can be reached. One for which LINK_DOWN has been raised waits for the wake, and holds
up no other. -/
def State.nextAt (s : State) (k : Nat) : Option Access :=
  match s.flight[k]? with
  | some a =>
    if a.stranded || (a.remote && !s.pathTo a.home) ||
        (s.flight.take k).any (fun b => (b.uid == a.uid && overlaps a b) || (!b.stranded && sameLane a b)) then none
    else some a
  | none => none

/-- A value delivered to a thread's outstanding result (R92). -/
def Thread.deliver (t : Thread) (seq elem : Nat) (v : Word) : Thread :=
  { t with pending := t.pending.map (fun p =>
      if p.seq = seq then { p with vals := p.vals ++ [(elem, v)], missing := p.missing - 1 } else p) }

/-- The register image of a loaded value (R150): the access's extension code. -/
def Access.image (a : Access) (v : Nat) : Word := extend a.size (decide (a.ext ≥ 4)) v

/-- R162: a store of a thread that has acquired since it made the store: the constant caches where it acquired keep no older line. -/
def State.dropOlder (s : State) (a : Access) (h : Home) : State :=
  if a.op.writes && s.clusters.any (fun p => match mapGet p.2.acquired a.uid with | some n => decide (a.seq < n) | none => false) then
    { s with clusters := s.clusters.map (fun p => match mapGet p.2.acquired a.uid with
        | some n => if a.seq < n then (p.1, { p.2 with ccache := p.2.ccache.filter (fun e => e.1 != lineKey h) }) else p
        | none => p) }
  else s
/-- R161: the access is performed: read, write, or both in one step (R155). -/
def State.performAt (s : State) (a : Access) : State :=
  let h : Home := ⟨a.remote, a.home, a.addr⟩
  let old := s.homeRead h a.size
  let s := s.dropOlder a h
  let s0 := if a.remote then s.logged 4 0 (leBytes old a.size) else s
  let s1 := match a.op with
    | .load => s0
    | .store => (s0.homeWrite a.ctx h a.size a.data.toNat).answerZeros (some a.tag)
    | .amo op => match amoNew op a.size old a.data.toNat a.data2.toNat a.stat with
      | some v => (s0.homeWrite a.ctx h a.size v).answerZeros (some a.tag)
      | none => s0
  let s2 := match a.result, a.op with
    | some q, .load => s1.updThread a.uid (fun t => t.deliver q a.elem (a.image old))
    | some q, _ => s1.updThread a.uid (fun t => t.deliver q a.elem (BitVec.ofNat 64 old))
    | none, _ => s1
  match a.cached with
  | some cl =>
    let r := s2.choose
    if r.2 then r.1.setCluster cl { r.1.cluster cl with
      ccache := mapPut (r.1.cluster cl).ccache (lineKey h) (s.homeLine h) } else r.1
  | none => s2

/-- R138, R139, R155: an atomic on its issuer's own local store is performed by the core's interface. -/
def State.ownAtomic (s : State) (a : OwnAtomic) : State :=
  let k := s.coreFor a.ctx a.core
  let old := k.ls.num a.off a.size
  let s1 := match amoNew a.op a.size old a.data.toNat a.data2.toNat a.stat with
    | some v => s.setCoreFor a.ctx a.core { k with ls := k.ls.putNum a.off a.size v }
    | none => s
  s1.updThread a.uid (fun t => t.deliver a.result 0 (BitVec.ofNat 64 old))
/-- R161, R354: the k-th access in flight is performed. One that meets a poisoned line is found by the ECC check next. -/
def execMemorySliceAccess (k : Nat) (s : State) : Out :=
  match s.nextAt k with
  | none => .next s
  | some a =>
    let s1 := ({ s with flight := listDel s.flight k }).performAt a
    .next (if !a.remote && s.poison.contains (a.addr / 64) && (match a.op with | .store => false | _ => true) then
      { s1 with agenda := .micro (.ecc (a.addr / 64)) :: s1.agenda } else s1)

/-! ### Results (R92, R93) -/

/-- A register's elements with some replaced; the register has at least `n` elements. -/
def putAt (n : Nat) (old : List (BitVec 32)) (w : List (Nat × BitVec 32)) : List (BitVec 32) :=
  w.foldl (fun v p => listSet v p.1 p.2) ((List.range n).map (fun m => old.getD m 0))

/-- R57, R141, R405: a shared register of a context's core written, that of its saved record where the core is saved. -/
def State.putBank (s : State) (x c : Nat) (n : BitVec 4) (v : Word) : State :=
  if n = 14 ∨ n = 15 then s
  else s.setCoreFor x c (let k := s.coreFor x c; { k with shared := k.shared.set n.toNat v n.isLt })
/-- R92, R141, R166, R167: the result lands: its register is written, its dependency slot counts down (R156), and it is outstanding no
more. Where an acquire waits for it, what the constant cache has been filled with since the acquire's issue is dropped too. -/
def State.land (s : State) (c : Nat) (i : Fin 16) (k : Nat) : State :=
  match s.threadAt c i with
  | none => s
  | some t => match t.pending[k]? with
    | none => s
    | some p =>
      if p.missing ≠ 0 then s
      else
        let t1 := ({ t with pending := listDel t.pending k }).depEnd p.dep (s.tagOf c i t)
        let s := if t.st = .parked (.landing p.seq) then s.acquireAt c else s
        match p.dst with
        | .scalar f =>
          let v := (p.vals.head?.map (·.2)).getD 0
          match (if f.getLsbD 4 then p.bank else none) with
          | some b => (s.setSlot c i (some t1)).putBank t.ctx b (f.extractLsb' 0 4) v
          | none => (s.setSlot c i (some t1)).putReg c i f v
        | .vector r =>
          let q : Fin 16 := Fin.ofNat 16 r
          s.setSlot c i (some { t1 with v := t1.v.set q (putAt t.vl t1.v[q] (p.vals.map (fun x => (x.1, x.2.truncate 32)))) })
/-- R92. -/
def execResultLanding (core slot k : Nat) (s : State) : Out := .next (s.land core (Fin.ofNat 16 slot) k)

/-! ### Requests to other cores (R143, R144) -/

/-- R143: a window admits a request of `n` bytes at `off` from core `src`. -/
def windowAdmits (w : Word) (src dst off n : Nat) (atomic : Bool) : Bool :=
  w.getLsbD 63 && (if atomic then w.getLsbD 61 else w.getLsbD 62) &&
  (match bits w 60 58 with
    | 1 => clusterOf src == clusterOf dst
    | 2 => dieOf src == dieOf dst
    | 3 => true
    | _ => false) &&
  decide (bits w 17 0 ≤ off ∧ off + n - 1 ≤ bits w 35 18)

/-- R143: the owner admits a request of a context; the list area of a pool is closed (R316). -/
def State.admits (s : State) (x src dst off n : Nat) (atomic : Bool) : Bool :=
  s.holds x dst && !listClosed (s.coreFor x dst) off n &&
  (s.coreFor x dst).win.toList.any (fun w => windowAdmits w src dst off n atomic)

/-- Whether a message travels on channel 0. -/
def MsgBody.ordered : MsgBody → Bool
  | .write .. => true
  | .atomic .. => true
  | .mail _ reply => !reply
  | _ => false

/-- R18, R19: two messages run from one leaf to one: they left from and for the same ones, or between the same logical cores. -/
def sameRoute (a b : Msg) : Bool :=
  (a.srcLeaf == b.srcLeaf || a.src == b.src) && (a.dstLeaf == b.dstLeaf || a.dst == b.dst)
/-- R18: the message at a place, if no earlier message on channel 0 runs between the same leaves, and it is not lost (R20). -/
def State.msgAt (s : State) (k : Nat) : Option Msg :=
  match s.msgs[k]? with
  | some m =>
    if m.lost || m.held || (m.body.ordered && (s.msgs.take k).any (fun j => !j.held && j.body.ordered && sameRoute j m)) then none else some m
  | none => none

/-- R19, R401: the message at a place comes to its core's interface: it is performed, or accepted behind those that wait there. -/
def State.atInterface (s : State) (k : Nat) (m : Msg) (f : State → State) : State :=
  if s.holding m.dst then { s with msgs := listDel s.msgs k ++ [{ m with held := true }] } else f { s with msgs := listDel s.msgs k }
/-- The reply to a message, on channel 2. -/
def State.reply (s : State) (m : Msg) (body : MsgBody) : State :=
  { s with msgs := s.msgs ++ [{ m with src := m.dst, dst := m.src, srcLeaf := m.dstLeaf, dstLeaf := m.srcLeaf, body := body, held := false, since := s.cycle }] }

/-- R143, R155, R405: the owner serves a remote write or atomic, or refuses it. -/
def State.serve (s : State) (m : Msg) : State :=
  match m.body with
  | .write off n data =>
    if s.admits m.ctx m.src m.dst off n false then
      let k := s.coreFor m.ctx m.dst
      (s.setCoreFor m.ctx m.dst { k with ls := k.ls.putNum off n data.toNat }).reply m (.ack none)
    else s.reply m .nack
  | .atomic op off n b c stat =>
    if s.admits m.ctx m.src m.dst off n true then
      let k := s.coreFor m.ctx m.dst
      let old := k.ls.num off n
      let k' := match amoNew op n old b.toNat c.toNat stat with | some v => { k with ls := k.ls.putNum off n v } | none => k
      (s.setCoreFor m.ctx m.dst k').reply m (.ack (some (BitVec.ofNat 64 old)))
    else s.reply m .nack
  | _ => s
/-- R143: a remote write or atomic reaches its owner. -/
def execRemoteRequest (msg : Nat) (s : State) : Out :=
  match s.msgAt msg with
  | some m => match m.body with
    | .write .. => .next (s.atInterface msg m (·.serve m))
    | .atomic .. => .next (s.atInterface msg m (·.serve m))
    | _ => .next s
  | none => .next s

/-- R140: an acknowledgement reaches its issuer, whose wait is over. -/
def execAcknowledgement (msg : Nat) (s : State) : Out :=
  match s.msgAt msg with
  | some m => match m.body with
    | .ack old => .next (({ s with msgs := listDel s.msgs msg }).updThread m.uid
        (fun t => { t with granted := true, aux := old.getD t.aux }))
    | _ => .next s
  | none => .next s
/-- R140, R143: a refusal reaches its issuer, which will trap. -/
def execNegativeAcknowledgement (msg : Nat) (s : State) : Out :=
  match s.msgAt msg with
  | some m => match m.body with
    | .nack => .next (({ s with msgs := listDel s.msgs msg }).updThread m.uid (fun t => { t with refused := true }))
    | _ => .next s
  | none => .next s
/-! ### Walks (R343, R344) -/

/-- R344: what a walk leaves in the port. -/
def State.fill (s : State) (cl x dva : Nat) (up : List (Nat × Word)) (leaf : Option (Nat × Word)) : State :=
  let c := s.cluster cl
  let nl := up.foldl (fun l p =>
    if l.any (fun t => t.ctx == x && t.shift == p.1 && t.page == dva / 2 ^ p.1) then l
    else ⟨x, p.1, dva / 2 ^ p.1, p.2⟩ :: l) c.nonleaf
  let tl := match leaf with
    | some (sh, e) => ⟨x, sh, dva / 2 ^ sh, e⟩ :: c.tlb.filter (fun t => !(t.ctx == x && t.page == dva / 2 ^ t.shift))
    | none => c.tlb
  s.setCluster cl { c with nonleaf := nl, tlb := tl }

/-- R343, R345, R372: the walk that a thread waits for completes: the leaf is cached, or the fault is raised at the access, LINK_DOWN
where no path to the home has existed for too long. -/
def State.walkDone (s : State) (c : Nat) (i : Fin 16) : State :=
  match s.threadAt c i with
  | none => s
  | some t => match t.walk with
    | none => s
    | some w =>
      let r := s.portWalk (clusterOf c) t.ctx w.dva
      let s := s.walkMeets (clusterOf c) t.ctx w.dva
      match s.judge t.ctx w.dva w.write false r.2 with
      | .ok sh e h =>
        let s1 := s.fill (clusterOf c) t.ctx w.dva r.1 (some (sh, e))
        if !s.reachable h && s.pathLost h.at_ then (s1.leaveQueues c t.uid).takeTrap c i
          { kind := 6, ea := w.ea, dva := BitVec.ofNat 64 w.dva, access := w.access }
        else s1.setSlot c i (some { t with walk := none })
      | .moving => s.fill (clusterOf c) t.ctx w.dva r.1 none
      | .fault k l => ((s.fill (clusterOf c) t.ctx w.dva r.1 none).leaveQueues c t.uid).takeTrap c i
          { kind := k, ea := w.ea, dva := BitVec.ofNat 64 w.dva, access := w.access, level := l }
/-- R343. -/
def execPageWalk (core slot : Nat) (s : State) : Out := .next (s.walkDone core (Fin.ofNat 16 slot))

/-- R147. -/
def execFeRecheckRound (core word : Nat) (s : State) : Out := .next (s.feRecheck core word)
/-- R148. -/
def execFeTimeout (core slot : Nat) (s : State) : Out := .next (s.feExpire core (Fin.ofNat 16 slot))

end Sys2Proof.Machine
end

