-- ==== Sys2Proof/Machine/Claim.lean ====
section
/-! DEFINITION. The lane claim (R179 to R188, R195): strips, pairs, free slots, recall, renegotiation, and the four claim
instructions. -/

namespace Sys2Proof.Machine

/-- R179: the home strip of a slot of a core, and the window of its home pair. -/
def homeStrip (c : Nat) (i : Fin 16) : Nat := 4 * (c % 8) + i.val / 4
def homeWin (i : Fin 16) : Nat := i.val % 4
/-- The distance of two numbers. -/
def absDiff (a b : Nat) : Nat := (a - b) + (b - a)
/-- R181: the key that ranks strips around the home strip `h`, as one number. -/
def stripKey (h q : Nat) : Nat := absDiff (q / 4) (h / 4) * 4096 + absDiff q h * 64 + q
/-- A list with a value put in its place by rising key. -/
def insertBy {α : Type} (key : α → Nat) (x : α) : List α → List α
  | [] => [x]
  | y :: r => if key x < key y then x :: y :: r else y :: insertBy key x r
/-- A list sorted by rising key, equal keys in their order. -/
def sortBy {α : Type} (key : α → Nat) (l : List α) : List α := l.foldl (fun r x => insertBy key x r) []
/-- R181: strips in rank order. -/
def rankOrder (h : Nat) (l : List Nat) : List Nat := sortBy (stripKey h) l

/-- The logical cores of a cluster. -/
def coresOf (cl : Nat) : List Nat := (List.range 8).map (8 * cl + ·)
/-- R180: a claim of a thread of the cluster, other than that of the slot excepted, holds a pair. -/
def State.pairHeld (s : State) (cl q w : Nat) (but : Option (Nat × Fin 16)) : Bool :=
  (coresOf cl).any (fun c => slotNumbers.any (fun i => homeWin i == w && but != some (c, i) &&
    (match s.threadAt c i with | some t => t.claim.strips.contains q | none => false)))
/-- R179: the slot whose home pair is (q, w). -/
def homeSlot (q w : Nat) : Fin 16 := Fin.ofNat 16 (4 * (q % 4) + w)
/-- R180: a slot that holds no thread and whose home pair no claim holds. -/
def State.slotFree (s : State) (c : Nat) (i : Fin 16) : Bool :=
  (s.threadAt c i).isNone && !s.pairHeld (clusterOf c) (homeStrip c i) (homeWin i) none
/-- The lowest-numbered free slot of a core. -/
def State.freeSlot (s : State) (c : Nat) : Option (Fin 16) := slotNumbers.find? (fun i => s.slotFree c i)

/-- R184: a thread or task waits to enter a slot of a core. -/
def State.entrant (s : State) (c : Nat) : Bool :=
  !(s.core c).arrivals.isEmpty || !(s.core c).deque.isEmpty || s.kernels.any (s.wouldSeed c) || s.launchWaits c

/-- R361, step 2: the block of a core is under recall for the threads of other cores; not where its cluster moves as a whole. -/
def State.blockLeaves (s : State) (o : Nat) : Bool :=
  decide (2 ≤ (s.core o).remapStep ∧ (s.core o).remapStep ≤ 3) && (mapGet s.package.sparing (clusterOf o)).isNone
/-- R184: strip `q` of the claim of slot `i` of core `c` is under recall. -/
def State.recalled (s : State) (c : Nat) (i : Fin 16) (q : Nat) : Bool :=
  let o := 8 * clusterOf c + q / 4
  q != homeStrip c i &&
  (((s.threadAt o (homeSlot q (homeWin i))).isNone && s.entrant o && (s.freeSlot o).isNone) || (s.blockLeaves o && o != c))
/-- R184: pair (q, w) is wanted, as far as a thread of core `c` is concerned. -/
def State.wanted (s : State) (c q w : Nat) : Bool :=
  let o := 8 * clusterOf c + q / 4
  ((s.threadAt o (homeSlot q w)).isNone && s.entrant o) || (s.blockLeaves o && o != c)
/-- R400: a core backed by a physical core of another physical cluster than its own. -/
def State.movedAway (s : State) (c : Nat) : Bool := s.pcore c / 8 != s.pcluster (clusterOf c)
/-- R180, R400: pair (q, w) is free for the claim of a slot. -/
def State.pairFree (s : State) (c : Nat) (i : Fin 16) (q : Nat) : Bool :=
  let o := 8 * clusterOf c + q / 4
  (o == c || (!s.movedAway c && !s.movedAway o)) &&
  (s.threadAt (8 * clusterOf c + q / 4) (homeSlot q (homeWin i))).isNone &&
  !s.pairHeld (clusterOf c) q (homeWin i) (some (c, i))

/-- R182: the strips held after a renegotiation, in rank order. -/
def State.negotiated (s : State) (c : Nat) (i : Fin 16) (held : List Nat) (req : Nat) : List Nat :=
  let h := homeStrip c i
  let keep := (rankOrder h (held.filter (fun q => !s.recalled c i q))).take req
  let more := (rankOrder h (List.range 32)).filter
    (fun q => !keep.contains q && s.pairFree c i q && !s.wanted c q (homeWin i))
  rankOrder h (keep ++ more.take (req - keep.length))

/-- R183: the sixteen values of a strip, from a register's elements under the old ranking. -/
def stripValues {α : Type} (zero : α) (old : List Nat) (vals : List α) (q : Nat) : List α :=
  match old.idxOf? q with
  | some r => (List.range 16).map (fun m => vals.getD (16 * r + m) zero)
  | none => List.replicate 16 zero
/-- R183: a register's elements under the new ranking. -/
def rerank {α : Type} (zero : α) (old new : List Nat) (vals : List α) : List α := new.flatMap (stripValues zero old vals)

/-- A change applied to every register of a file of sixteen, and of four. -/
def mapRegs16 (f : List (BitVec 32) → List (BitVec 32)) (v : Vector (List (BitVec 32)) 16) : Vector (List (BitVec 32)) 16 :=
  slotNumbers.foldl (fun v (i : Fin 16) => v.set i (f v[i])) v
def mapRegs4 (f : List Bool → List Bool) (v : Vector (List Bool) 4) : Vector (List Bool) 4 :=
  ([0, 1, 2, 3] : List (Fin 4)).foldl (fun v (i : Fin 4) => v.set i (f v[i])) v

/-- R182, R183: the thread with its claim renegotiated to a set of strips. -/
def Thread.reclaim (t : Thread) (req : Nat) (new : List Nat) : Thread :=
  { t with
    claim := ⟨req, new⟩
    v := mapRegs16 (rerank 0 t.claim.strips new) t.v
    vp := mapRegs4 (rerank false t.claim.strips new) t.vp }

/-- R182: the thread of a slot renegotiates. -/
def State.renegotiate (s : State) (c : Nat) (i : Fin 16) (req : Nat) : State :=
  match s.threadAt c i with
  | some t => s.setSlot c i (some (t.reclaim req (s.negotiated c i t.claim.strips req)))
  | none => s

/-- R181, R85: the claim with which a thread enters a slot: the home strip alone, every element zero. -/
def Thread.homeClaim (t : Thread) (c : Nat) (i : Fin 16) : Thread :=
  { t with claim := ⟨1, [homeStrip c i]⟩, v := Vector.replicate 16 [], vp := Vector.replicate 4 [], stat := setStat t.stat 6 false }

/-- R188: the CLAIM register of a slot's thread. -/
def State.claimReg (s : State) (c : Nat) (i : Fin 16) (t : Thread) : Word :=
  BitVec.ofNat 64 (t.claim.strips.foldl (fun m q => m ||| 1 <<< q) 0 + homeWin i * 2 ^ 32 + t.claim.req % 64 * 2 ^ 40 +
    (if t.claim.strips.any (s.recalled c i) then 2 ^ 46 else 0))

/-- R187: claim-present set. -/
def Thread.present (t : Thread) : Thread := { t with stat := setStat t.stat 6 true }

/-- R195: a renegotiation, with VL written to a destination. -/
def State.claimTo (s : State) (req : Nat) (d : Field) : State :=
  let s1 := (s.setTh s.th.present).renegotiate s.cur s.slot req
  (s1.setReg d (BitVec.ofNat 64 s1.th.vl)).advance

/-- R195. -/
def execVclaim (d a : Field) (s : State) : Out :=
  let n := (s.reg a).toNat
  issue s (if statM s.th.stat then s.trap kClaim
    else if n = 0 ∨ n > 32 then s.trap kClaim
    else s.await .vector fun s => s.claimTo n d)
/-- R195. -/
def execVrenew (d : Field) (s : State) : Out :=
  issue s (if statM s.th.stat then s.trap kClaim else s.await .vector fun s => s.claimTo s.th.claim.req d)
/-- R195: the home strip's cells read zero afterwards, and CP is cleared. -/
def execVfree (s : State) : Out :=
  issue s (if statM s.th.stat then s.trap kClaim
    else s.await .vector fun s =>
      let s1 := s.renegotiate s.cur s.slot 1
      (s1.setTh (s1.th.homeClaim s.cur s.slot)).advance)
/-- R195. -/
def execVlen (d : Field) (s : State) : Out := issue s (s.setReg d (BitVec.ofNat 64 s.th.vl)).advance

end Sys2Proof.Machine
end

