-- ==== Sys2Proof/Machine/Vector.lean ====
section
/-! DEFINITION. Vector instructions (R189 to R206): operands, beats, vector memory, arithmetic, conversion, compare, select,
reductions and movement. In matrix mode they act on the same registers (R212). -/

namespace Sys2Proof.Machine

/-! ### Writes and beats (R189, R193) -/

/-- What an instruction writes: for each register, elements and values. -/
abbrev VWrites := List (Nat × List (Nat × BitVec 32))

/-- The vector registers after an instruction's writes. -/
def Thread.vput (t : Thread) (ws : VWrites) : Thread :=
  { t with v := ws.foldl (fun v w => v.set (w.1 % 16) (putAt t.vl (v[w.1 % 16]'(Nat.mod_lt _ (by decide))) w.2)
      (Nat.mod_lt _ (by decide))) t.v }

/-- R187, R189: a vector instruction's end at issue: its writes now, or at the last of four beats; CP is set; the PC goes on. -/
def State.vfinish (s : State) (four : Bool) (ws : VWrites) : State :=
  let t := s.th.present.advance
  s.setTh (if four then { t with beats := some ⟨3, ws⟩ } else t.vput ws)

/-- R189: one later beat of a thread; the last one writes the destination. -/
def Thread.beat (t : Thread) : Thread :=
  match t.beats with
  | none => t
  | some b => if b.left ≤ 1 then { t.vput b.writes with beats := none } else { t with beats := some { b with left := b.left - 1 } }
/-- R189: a turn's beat. -/
def execPendingBeat (s : State) : Out := issue s (s.setTh s.th.beat)

/-! ### Operands (R191, R192) -/

/-- R192: the elements that are active under PE and k. -/
def Thread.active (t : Thread) (pe : Bool) (k : Fin 4) : List Nat :=
  (List.range t.vl).filter (fun e => !pe || t.pelem k e)
/-- R192: the predicate field of X. -/
def predReg (x : BitVec 4) : Fin 4 := (x.extractLsb' 1 2).toFin
/-- The active elements of the issuing thread under X[3:1]. -/
def State.activeX (s : State) (x : BitVec 4) : List Nat := s.th.active (x.getLsbD 3) (predReg x)
/-- R191: a 64-bit element: a pair of registers, or all of a broadcast register. -/
def State.velem64 (s : State) (f : Field) (m : Nat) : Word :=
  if f.getLsbD 4 then s.sources.g[(f.extractLsb' 0 4).toFin]
  else s.velem (f ||| 1) m ++ s.velem f m
/-- R191: the writes of 64-bit elements to a pair. -/
def pairWrites (d : Field) (ws : List (Nat × Word)) : VWrites :=
  [((vreg d).val, ws.map (fun p => (p.1, p.2.truncate 32))), ((vreg d).val + 1, ws.map (fun p => (p.1, p.2.extractLsb' 32 32)))]

/-- R199, R200: one result per active element, of 32 bits or of 64 by W; `four` where even `.e32` takes four beats. -/
def State.vbin (s : State) (x : BitVec 4) (d a b : Field) (four : Bool) (f : BitVec 32 → BitVec 32 → BitVec 32)
    (g : Word → Word → Word) : State :=
  if x.getLsbD 0 then
    s.vfinish true (pairWrites d ((s.activeX x).map (fun e => (e, g (s.velem64 a e) (s.velem64 b e)))))
  else s.vfinish four [((vreg d).val, (s.activeX x).map (fun e => (e, f (s.velem a e) (s.velem b e))))]

/-! ### Integer arithmetic (R199) -/

/-- R199. -/
def execVadd (x : BitVec 4) (d a b : Field) (s : State) : Out :=
  issue s (s.vbin x d a b false (fun x y => x + y) (fun x y => x + y))
/-- R199. -/
def execVsub (x : BitVec 4) (d a b : Field) (s : State) : Out :=
  issue s (s.vbin x d a b false (fun x y => x - y) (fun x y => x - y))
/-- R199. -/
def execVmul (x : BitVec 4) (d a b : Field) (s : State) : Out :=
  issue s (s.vbin x d a b false (fun x y => x * y) (fun x y => x * y))
/-- R199. -/
def execVmin (x : BitVec 4) (d a b : Field) (s : State) : Out :=
  issue s (s.vbin x d a b false (fun x y => if x.toInt ≤ y.toInt then x else y) (fun x y => if x.toInt ≤ y.toInt then x else y))
/-- R199. -/
def execVmax (x : BitVec 4) (d a b : Field) (s : State) : Out :=
  issue s (s.vbin x d a b false (fun x y => if x.toInt ≤ y.toInt then y else x) (fun x y => if x.toInt ≤ y.toInt then y else x))
/-- R199. -/
def execVand (x : BitVec 4) (d a b : Field) (s : State) : Out :=
  issue s (s.vbin x d a b false (fun x y => x &&& y) (fun x y => x &&& y))
/-- R199. -/
def execVor (x : BitVec 4) (d a b : Field) (s : State) : Out :=
  issue s (s.vbin x d a b false (fun x y => x ||| y) (fun x y => x ||| y))
/-- R199. -/
def execVxor (x : BitVec 4) (d a b : Field) (s : State) : Out :=
  issue s (s.vbin x d a b false (fun x y => x ^^^ y) (fun x y => x ^^^ y))
/-- R199: the count is taken modulo the width. -/
def execVshl (x : BitVec 4) (d a b : Field) (s : State) : Out :=
  issue s (s.vbin x d a b false (fun x y => x <<< (y.toNat % 32)) (fun x y => x <<< (y.toNat % 64)))
/-- R199: the count is taken modulo the width. -/
def execVshr (x : BitVec 4) (d a b : Field) (s : State) : Out :=
  issue s (s.vbin x d a b false (fun x y => x >>> (y.toNat % 32)) (fun x y => x >>> (y.toNat % 64)))
/-- R199: the count is taken modulo the width. -/
def execVsra (x : BitVec 4) (d a b : Field) (s : State) : Out :=
  issue s (s.vbin x d a b false (fun x y => x.sshiftRight (y.toNat % 32)) (fun x y => x.sshiftRight (y.toNat % 64)))
/-- R199. -/
def execVabs (x : BitVec 4) (d a : Field) (s : State) : Out :=
  issue s (s.vbin x d a a false (fun x _ => if x.toInt < 0 then -x else x) (fun x _ => if x.toInt < 0 then -x else x))
/-- R199. -/
def execVneg (x : BitVec 4) (d a : Field) (s : State) : Out :=
  issue s (s.vbin x d a a false (fun x _ => -x) (fun x _ => -x))

/-! ### Floating point (R200, R201) -/

/-- R200: a floating-point result per active element, of FP32 or FP64 by W. -/
def State.vfloat (s : State) (x : BitVec 4) (d a b : Field) (four : Bool) (op : Fmt → Nat → Bool → Nat → Nat → Nat) : State :=
  s.vbin x d a b four (fun p q => BitVec.ofNat 32 (op fp32 s.rm s.sat p.toNat q.toNat))
    (fun p q => BitVec.ofNat 64 (op fp64 s.rm s.sat p.toNat q.toNat))

/-- R200. -/
def execVfadd (x : BitVec 4) (d a b : Field) (s : State) : Out := issue s (s.vfloat x d a b false Fmt.add)
/-- R200. -/
def execVfsub (x : BitVec 4) (d a b : Field) (s : State) : Out := issue s (s.vfloat x d a b false Fmt.sub)
/-- R200. -/
def execVfmul (x : BitVec 4) (d a b : Field) (s : State) : Out := issue s (s.vfloat x d a b false Fmt.mul)
/-- R200. -/
def execVfmin (x : BitVec 4) (d a b : Field) (s : State) : Out := issue s (s.vfloat x d a b false (fun F _ _ p q => F.pick false p q))
/-- R200. -/
def execVfmax (x : BitVec 4) (d a b : Field) (s : State) : Out := issue s (s.vfloat x d a b false (fun F _ _ p q => F.pick true p q))
/-- R200. -/
def execVfdiv (x : BitVec 4) (d a b : Field) (s : State) : Out := issue s (s.vfloat x d a b true Fmt.div)
/-- R201. -/
def execVffma (x : BitVec 4) (d a b c : Field) (s : State) : Out :=
  issue s (if x.getLsbD 0 then
      s.vfinish true (pairWrites d ((s.activeX x).map (fun e =>
        (e, BitVec.ofNat 64 (fp64.fma s.rm s.sat (s.velem64 a e).toNat (s.velem64 b e).toNat (s.velem64 c e).toNat)))))
    else
      s.vfinish false [((vreg d).val, (s.activeX x).map (fun e =>
        (e, BitVec.ofNat 32 (fp32.fma s.rm s.sat (s.velem a e).toNat (s.velem b e).toNat (s.velem c e).toNat))))])

/-! ### Conversion (R202) -/

/-- R202: integer narrowing: the low bits, or a clamp under saturation. -/
def narrow (sat : Bool) (lo hi : Int) (bits : Nat) (v : Int) : Nat :=
  if sat then ((max lo (min hi v)) % 2 ^ bits).toNat else (v % 2 ^ bits).toNat
/-- R202: the conversion of a code. -/
def vcvtValue (c : Nat) (rm : Nat) (sat : Bool) (a : BitVec 32) : BitVec 32 :=
  let x := fp32.decode a.toNat
  let toI (lo hi indef : Int) : BitVec 32 := BitVec.ofNat 32 ((toInteger rm sat lo hi indef x) % 2 ^ 32).toNat
  let to8 (lo hi indef : Int) : BitVec 32 := BitVec.ofNat 32 ((toInteger rm sat lo hi indef x) % 256).toNat
  let out (f : Fmt) : BitVec 32 := BitVec.ofNat 32 (f.round rm sat x)
  let widen (f : Fmt) : BitVec 32 := BitVec.ofNat 32 (convert f fp32 rm sat (a.toNat % 2 ^ (f.exp + f.frac + 1)))
  match c with
  | 0 => BitVec.ofNat 32 (fp32.round rm sat (ofInteger a.toInt))
  | 1 => toI (-2 ^ 31) (2 ^ 31 - 1) (-2 ^ 31)
  | 2 => out fp16
  | 3 => widen fp16
  | 4 => out bf16
  | 5 => widen bf16
  | 6 => out e4m3
  | 7 => widen e4m3
  | 8 => out e5m2
  | 9 => widen e5m2
  | 10 => BitVec.ofNat 32 (narrow sat (-128) 127 8 a.toInt)
  | 11 => BitVec.ofNat 32 (narrow sat 0 255 8 a.toInt)
  | 12 => (a.truncate 8).signExtend 32
  | 13 => (a.truncate 8).zeroExtend 32
  | 14 => to8 (-128) 127 (-128)
  | _ => to8 0 255 0
/-- R202. -/
def execVcvt (x : BitVec 4) (d a c : Field) (s : State) : Out :=
  issue s (s.vfinish false [((vreg d).val, (s.activeX x).map (fun e => (e, vcvtValue c.toNat s.rm s.sat (s.velem a e))))])

/-! ### Compare, select, predicates (R203, R204) -/

/-- R203: a condition. -/
def vcond (c : Nat) (a b : BitVec 32) : Bool :=
  let r := (fp32.decode a.toNat).compare (fp32.decode b.toNat)
  match c with
  | 0 => a == b
  | 1 => a != b
  | 2 => decide (a.toInt < b.toInt)
  | 3 => decide (a.toInt ≤ b.toInt)
  | 4 => decide (a.toNat < b.toNat)
  | 5 => decide (a.toNat ≤ b.toNat)
  | 6 => r.eq
  | 7 => r.lt
  | 8 => r.lt || r.eq
  | _ => r.un
/-- A predicate register written below VL. -/
def State.pfinish (s : State) (p : Fin 4) (f : Nat → Bool) : State :=
  let t := s.th.present.advance
  s.setTh { t with vp := t.vp.set p ((List.range t.vl).map f) }
/-- R203: not predicated. -/
def execVcmp (cond : BitVec 4) (p : BitVec 2) (a b : Field) (s : State) : Out :=
  issue s (s.pfinish p.toFin fun e => vcond cond.toNat (s.velem a e) (s.velem b e))
/-- R204. -/
def execVsel (k : BitVec 2) (d a b : Field) (s : State) : Out :=
  issue s (s.vfinish false [((vreg d).val, (List.range s.th.vl).map (fun e =>
    (e, if s.th.pelem k.toFin e then s.velem a e else s.velem b e)))])
/-- R204. -/
def execVpand (d a b : BitVec 2) (s : State) : Out :=
  issue s (s.pfinish d.toFin fun e => s.th.pelem a.toFin e && s.th.pelem b.toFin e)
/-- R204. -/
def execVpor (d a b : BitVec 2) (s : State) : Out :=
  issue s (s.pfinish d.toFin fun e => s.th.pelem a.toFin e || s.th.pelem b.toFin e)
/-- R204. -/
def execVpnot (d a : BitVec 2) (s : State) : Out := issue s (s.pfinish d.toFin fun e => !s.th.pelem a.toFin e)

/-! ### Reductions (R205) -/

/-- R205: the active elements of a source. -/
def State.vsource (s : State) (x : BitVec 4) (a : Field) : List (BitVec 32) := (s.activeX x).map (s.velem a)
/-- R205: a scalar result of a vector instruction. -/
def State.vscalar (s : State) (d : Field) (v : Word) : State := ((s.setTh s.th.present).setReg d v).advance
/-- R205: the sum. -/
def vsum (fp : Bool) (rm : Nat) (sat : Bool) (l : List (BitVec 32)) : Word :=
  if fp then (if l.isEmpty then 0 else BitVec.ofNat 64 (fp32.round rm sat (FVal.sum rm (l.map (fun v => fp32.decode v.toNat)))))
  else BitVec.ofInt 64 ((l.map (·.toInt)).foldl (· + ·) 0)
/-- R205: the smallest or the largest. -/
def vextreme (larger fp : Bool) (l : List (BitVec 32)) : Word :=
  match l with
  | [] =>
    if fp then (if larger then 0xFF800000 else 0x7F800000) else (if larger then 0xFFFFFFFF80000000 else 0x7FFFFFFF)
  | v :: r =>
    if fp then BitVec.ofNat 64 (r.foldl (fun m w => fp32.pick larger m w.toNat) (fp32.pick larger v.toNat v.toNat))
    else (r.foldl (fun m w => if larger then (if m.toInt ≤ w.toInt then w else m) else (if m.toInt ≤ w.toInt then m else w)) v).signExtend 64
/-- R205. -/
def execVredadd (x : BitVec 4) (d a : Field) (s : State) : Out :=
  issue s (s.vscalar d (vsum (x.getLsbD 0) s.rm s.sat (s.vsource x a)))
/-- R205. -/
def execVredmin (x : BitVec 4) (d a : Field) (s : State) : Out :=
  issue s (s.vscalar d (vextreme false (x.getLsbD 0) (s.vsource x a)))
/-- R205. -/
def execVredmax (x : BitVec 4) (d a : Field) (s : State) : Out :=
  issue s (s.vscalar d (vextreme true (x.getLsbD 0) (s.vsource x a)))

/-! ### Broadcast, slide, permute (R206) -/

/-- R206. -/
def execVbcast (x : BitVec 4) (d a : Field) (s : State) : Out :=
  issue s (s.vfinish false [((vreg d).val, (s.activeX x).map (fun e =>
    (e, ((if x.getLsbD 0 then s.reg a + BitVec.ofNat 64 e else s.reg a) : Word).truncate 32)))])
/-- R206: element e + k of the source where there is one, else the fill. -/
def execVslide (x : BitVec 4) (d a b : Field) (k : BitVec 17) (s : State) : Out :=
  issue s (s.vfinish false [((vreg d).val, (s.activeX x).map (fun (e : Nat) =>
    let j : Int := (e : Int) + k.toInt
    (e, if 0 ≤ j ∧ j < s.th.vl then s.velem a j.toNat else s.velem b e)))])
/-- R206. -/
def execVperm (x : BitVec 4) (d a b : Field) (s : State) : Out :=
  issue s (s.vfinish false [((vreg d).val, (s.activeX x).map (fun e =>
    let i := (s.velem b e).toNat
    (e, if i < s.th.vl then s.velem a i else 0)))])

/-! ### Vector memory (R196 to R198) -/

/-- An active element's access: its number, its offset in the segment, exact, and what a store writes there. -/
structure VElem where
  e : Nat
  off : Int
  data : BitVec 32 := 0
  deriving DecidableEq, Repr

/-- R197: the checks over all active elements, in order: the kind of the earliest failing check and its lowest element. -/
def State.vcheck (s : State) (seg : Fin 8) (write : Bool) (es : List VElem) : Option (Nat × VElem) :=
  let kd := s.th.kd[seg]
  let base := (s.th.kb[seg]).toNat
  let at_ (v : VElem) : Nat := base + v.off.toNat
  let limit (v : VElem) : Bool := decide (v.off < 0 ∨ v.off + 3 > kdLimit kd) ||
    (if kdKind kd = 1 then decide (at_ v + 3 ≥ 2 ^ 57)
     else decide (at_ v + 3 ≥ 2 ^ 30) || !s.coreOk s.th.ctx (at_ v / 2 ^ 18) || !s.coreOk s.th.ctx ((at_ v + 3) / 2 ^ 18))
  let bad2 := kdKind kd = 0 ∨ kdKind kd = 3 ∨ !(if write then kdW kd else kdR kd)
  match es with
  | [] => none
  | v0 :: _ =>
    if bad2 then some (kSegRights, v0)
    else match es.find? limit with
      | some v => some (kSegLimit, v)
      | none => match es.find? (fun v => kdKind kd == 2 && at_ v / 2 ^ 18 != s.cur) with
        | some v => some (kVecRemote, v)
        | none => match es.find? (fun v => at_ v % 4 != 0) with
          | some v => some (kMisaligned, v)
          | none => match es.find? (fun v => write && kdKind kd == 2 && listClosed (s.core s.cur) (at_ v % 2 ^ 18) 4) with
            | some v => some (kSegRights, v)
            | none => none

/-- The effective address of an element. One whose offset is negative has no address in its segment: offset 0 stands for it in a
fault record (log 56). -/
def velemEa (seg : Fin 8) (v : VElem) : Word := BitVec.ofNat 64 (seg.val * 2 ^ 61 + v.off.toNat)

/-- R197, R198: every active element's page is translated, the lowest element first; a miss parks the thread for its walk, with the
elements and their data as they were read at issue. -/
def State.needPages (s : State) (seg : Fin 8) (write : Bool) (es : List VElem) (k : State → State) : State :=
  let base := (s.th.kb[seg]).toNat
  match es.find? (fun v => (s.hit (clusterOf s.cur) s.th.ctx (base + v.off.toNat) write).isNone) with
  | some v => (s.setTh { s.th with
      walk := some ⟨velemEa seg v, base + v.off.toNat, write, if write then 5 else 4⟩
      vdata := some (es.map (fun v => (v.e, v.off, v.data))) }).park .walk
  | none => k s

/-- The home of an accepted element. -/
def State.velemHome (s : State) (seg : Fin 8) (write : Bool) (v : VElem) : Home :=
  (s.hit (clusterOf s.cur) s.th.ctx ((s.th.kb[seg]).toNat + v.off.toNat) write).getD ⟨false, 0, 0⟩

/-- R198: a vector load of the elements. -/
def State.vload (s : State) (seg : Fin 8) (d : Field) (es : List VElem) : State :=
  match s.vcheck seg false es with
  | some (k, v) => s.trapAt k (velemEa seg v) 4
  | none =>
    if es.isEmpty then s.vfinish false []
    else
      let base := (s.th.kb[seg]).toNat
      let fin (s : State) (vals : List (Nat × Word)) (n : Nat) : State :=
        (s.setTh s.th.present).finishLoad (.vector (vreg d).val) vals n none false
      if kdKind (s.th.kd[seg]) = 2 then
        let r := es.foldl (fun (r : State × List (Nat × Word)) v =>
          let q := r.1.lsRead ((base + v.off.toNat) % 2 ^ 18) 4
          (q.1.watch (velemEa seg v) 4 false, r.2 ++ [(v.e, BitVec.ofNat 64 q.2)])) (s, [])
        fin r.1 r.2 0
      else s.needPages seg false es fun s =>
        let const := kdConst (s.th.kd[seg])
        let r := es.foldl (fun (r : State × List (Nat × Word) × Nat) v =>
          let h := s.velemHome seg false v
          let s1 := r.1.watch (velemEa seg v) 4 false
          let p := s1.choose
          match (if const && p.2 then p.1.constHit h 4 else none) with
          | some x => (p.1, r.2.1 ++ [(v.e, BitVec.ofNat 64 x)], r.2.2)
          | none =>
            let s2 := if const then p.1 else s1
            (s2.send { s2.mkAccess .load h (velemEa seg v) (base + v.off.toNat) 4 with
              ext := 2, result := some s.th.nextSeq, elem := v.e, cached := if const then some (clusterOf s.cur) else none },
             r.2.1, r.2.2 + 1)) (s, [], 0)
        fin r.1 r.2.1 r.2.2

/-- R198: a vector store of the elements, whose data is read at issue. -/
def State.vstore (s : State) (seg : Fin 8) (es : List VElem) : State :=
  match s.vcheck seg true es with
  | some (k, v) => s.trapAt k (velemEa seg v) 5
  | none =>
    let base := (s.th.kb[seg]).toNat
    let fin (s : State) : State := s.vfinish false []
    if kdKind (s.th.kd[seg]) = 2 then
      fin (es.foldl (fun (r : State) v =>
        (r.lsWrite ((base + v.off.toNat) % 2 ^ 18) 4 v.data.toNat).watch (velemEa seg v) 4 true) s)
    else s.needPages seg true es fun s =>
      fin (es.foldl (fun (r : State) v =>
        let r := r.watch (velemEa seg v) 4 true
        r.send { r.mkAccess .store (s.velemHome seg true v) (velemEa seg v) (base + v.off.toNat) 4 with
          data := v.data.zeroExtend 64 }) s)

/-- R198: the elements as they were read at issue. -/
def State.asIssued (s : State) (es : List VElem) : List VElem :=
  match s.th.vdata with
  | some l => l.map (fun p => ⟨p.1, p.2.1, p.2.2⟩)
  | none => es
/-- R198: the elements of a store with their data. -/
def State.withData (s : State) (data : Field) (es : List VElem) : List VElem := es.map (fun v => { v with data := s.velem data v.e })
/-- R196: the elements of a unit-stride or strided access, and of an indexed one. -/
def State.strideElems (s : State) (x : BitVec 4) (ea : Word) (b : Field) : List VElem :=
  let st : Int := if x.getLsbD 0 then (s.reg b).toInt else 4
  (s.activeX x).map (fun e => { e := e, off := segOffset ea + e * st })
def State.indexElems (s : State) (x : BitVec 4) (ea : Word) (b : Field) : List VElem :=
  (s.activeX x).map (fun e => { e := e, off := segOffset ea + (s.velem b e).toInt })

/-- R196. -/
def execVld (x : BitVec 4) (d a b : Field) (off : BitVec 17) (s : State) : Out :=
  let ea := s.reg a + sx17 off
  issue s (s.vload (segIndex ea) d (s.asIssued (s.strideElems x ea b)))
/-- R196. -/
def execVst (x : BitVec 4) (d a b : Field) (off : BitVec 17) (s : State) : Out :=
  let ea := s.reg a + sx17 off
  issue s (s.vstore (segIndex ea) (s.asIssued (s.withData d (s.strideElems x ea b))))
/-- R196. -/
def execVldx (x : BitVec 4) (d a b : Field) (off : BitVec 17) (s : State) : Out :=
  let ea := s.reg a + sx17 off
  issue s (s.vload (segIndex ea) d (s.asIssued (s.indexElems x ea b)))
/-- R196. -/
def execVstx (x : BitVec 4) (d a b : Field) (off : BitVec 17) (s : State) : Out :=
  let ea := s.reg a + sx17 off
  issue s (s.vstore (segIndex ea) (s.asIssued (s.withData d (s.indexElems x ea b))))

end Sys2Proof.Machine
end

