-- ==== Sys2Proof/Machine/Special.lean ====
section
/-! DEFINITION. The special functions (R46 to R48, R207): intervals that enclose the true result, the two FP32 values that
bracket it, and the choice between them, which is free. -/

namespace Sys2Proof.Machine

/-- ⌊ln 2 · 2^128⌋ and ⌊π · 10^20⌋. -/
def ln2Fixed : Nat := 0xb17217f7d1cf79abc9e3b39803f2f6af
def piFixed : Nat := 314159265358979323846

/-- The terms of the exponential series of `y / 2^p`, from term `n` on, each rounded down. -/
def expTerms (p y : Nat) : Nat → Nat → Nat → Nat
  | 0, _, _ => 0
  | fuel + 1, n, t => t + expTerms p y fuel (n + 1) (t * y / (2 ^ p * (n + 1)))

/-- The terms of the alternating series of a sine or cosine of `y / 2^p`, from a term with index `n` on. -/
def trigTerms (p y : Nat) : Nat → Nat → Int → Int
  | 0, _, _ => 0
  | fuel + 1, n, t => t + trigTerms p y fuel (n + 2) (-(t * y * y / (2 ^ (2 * p) * ((n + 1) * (n + 2)) : Nat)))

/-- An enclosure of a magnitude: lo · 2^e ≤ |f| ≤ hi · 2^e. -/
structure Enclosure where
  lo : Nat
  hi : Nat
  e : Int
  deriving DecidableEq, Repr

/-- 2^f · 2^i for f the fraction of a value: f = fm / 2^k. -/
def encloseExp2 (i : Int) (fm k : Nat) : Enclosure :=
  let f := fm * 2 ^ 128 / 2 ^ k
  let y := f * ln2Fixed / 2 ^ 128
  let s := expTerms 128 y 40 0 (2 ^ 128)
  ⟨s, s + 1000, i - 128⟩

/-- The terms of the series of half the logarithm of (1 + z) / (1 − z), from term `n` on: `t` is z^(2n+1) and `q` is z², both in units of
2^-p. -/
def logTerms (p q : Nat) : Nat → Nat → Nat → Nat
  | 0, _, _ => 0
  | fuel + 1, n, t => t / (2 * n + 1) + logTerms p q fuel (n + 1) (t * q / 2 ^ p)

/-- log2 of m · 2^e, as a magnitude and its sign: m = 2^l · f with 1 ≤ f < 2, and ln f by the series at z = (f − 1) / (f + 1) ≤ 1/3. -/
def encloseLog2 (m : Nat) (e : Int) : Bool × Enclosure :=
  let l := Nat.log2 m
  let z := (m - 2 ^ l) * 2 ^ 192 / (m + 2 ^ l)
  let s := 2 * logTerms 192 (z * z / 2 ^ 192) 64 0 z
  let whole : Int := (e + l) * 2 ^ 192
  let lo : Int := whole + (if m = 2 ^ l then 0 else s * 2 ^ 128 / (ln2Fixed + 1) : Nat)
  let hi : Int := whole + (if m = 2 ^ l then 0 else (s + 1000) * 2 ^ 128 / ln2Fixed + 1 : Nat)
  if lo < 0 then (true, ⟨(-hi).toNat, (-lo).toNat, -192⟩) else (false, ⟨lo.toNat, hi.toNat, -192⟩)

/-- 1/√(m · 2^e). -/
def encloseRsq (m : Nat) (e : Int) : Enclosure :=
  let m1 := if e % 2 = 0 then m else 2 * m
  let e1 := if e % 2 = 0 then e else e - 1
  let n := 2 ^ 200 / m1
  let r := isqrt n 101 0
  ⟨r, if r * r * m1 = 2 ^ 200 then r else r + 1, -100 - e1 / 2⟩

/-- |sin(π r)| or |cos(π r)| for r = n / 2^k in [0, 1/2]. -/
def encloseTrig (cosine : Bool) (n k : Nat) : Enclosure :=
  let y := piFixed * n * 2 ^ 256 / (10 ^ 20 * 2 ^ k)
  let y' := (piFixed + 1) * n * 2 ^ 256 / (10 ^ 20 * 2 ^ k) + 1
  let f (y : Nat) : Int := if cosine then trigTerms 256 y 64 0 (2 ^ 256) else trigTerms 256 y 64 1 y
  let lo := f (if cosine then y' else y) - 1000
  let hi := f (if cosine then y else y') + 1000
  ⟨lo.toNat, hi.toNat, -256⟩

/-- R46: the FP32 value that a function returns for an enclosed result of a sign: an exact one, or one of the two that bracket it.
`mag` orders the inputs of a branch by magnitude; `rising` says that the result's magnitude rises with it. -/
def faithful (fn : FaithfulFn) (sat neg : Bool) (c : Enclosure) (branch : Nat) (mag : Int) (rising : Bool) : Nat :=
  let a := fp32.roundMag 1 sat false c.lo c.e
  let b := fp32.roundMag 3 sat false c.hi c.e
  let v := if b ≤ a then a
    else if b > a + 1 then a + 1
    else
      let cut := Config.faithfulCut fn (fp32.signBit neg + a) branch
      if (if rising then decide (mag ≥ cut) else decide (mag ≤ cut)) then b else a
  fp32.signBit neg + v

/-- R48: `vexp2`. -/
def exp2Value (sat : Bool) (w : Nat) : Nat :=
  match fp32.decode w with
  | .nan => fp32.nanBits
  | .inf s => if s then 0 else fp32.infBits sat false
  | .fin s m e =>
    let mag : Int := w % 2 ^ 31
    let x : Int := if s then -(m : Int) else m
    let i : Int := if e ≥ 0 then x * 2 ^ e.toNat else x / 2 ^ (-e).toNat
    let fm : Nat := if e ≥ 0 then 0 else (x % 2 ^ (-e).toNat).toNat
    if m = 0 then 0x3F800000
    else if i ≥ 128 then fp32.infBits sat false
    else if fm = 0 ∧ i ≥ -149 then fp32.roundMag 0 sat false 1 i
    else if i < -150 then 0
    else if i = -150 then faithful .exp2 sat false ⟨0, 1, -149⟩ 0 mag false
    else faithful .exp2 sat false (encloseExp2 i fm (-e).toNat) 0 mag (!s)

/-- R48: `vlog2`. -/
def log2Value (sat : Bool) (w : Nat) : Nat :=
  match fp32.decode w with
  | .nan => fp32.nanBits
  | .inf s => if s then fp32.nanBits else fp32.infBits sat false
  | .fin s m e =>
    if m = 0 then fp32.infBits sat true
    else if s then fp32.nanBits
    else
      let r := encloseLog2 m e
      faithful .log2 sat r.1 r.2 0 (w % 2 ^ 31 : Nat) (!r.1)

/-- R48: `vrsq`. -/
def rsqValue (sat : Bool) (w : Nat) : Nat :=
  match fp32.decode w with
  | .nan => fp32.nanBits
  | .inf s => if s then fp32.nanBits else 0
  | .fin s m e =>
    if m = 0 then fp32.infBits sat s
    else if s then fp32.nanBits
    else faithful .rsq sat false (encloseRsq m e) 0 (w % 2 ^ 31 : Nat) false

/-- R48: `vsinpi` and `vcospi`: the half-units of |x| below it, and the rest of the half-unit. -/
def trigValue (cosine sat : Bool) (w : Nat) : Nat :=
  match fp32.decode w with
  | .nan => fp32.nanBits
  | .inf _ => fp32.nanBits
  | .fin s m e =>
    let fn : FaithfulFn := if cosine then .cospi else .sinpi
    let k := (-e).toNat
    let n : Nat := if e ≥ 0 then m <<< e.toNat else m
    -- |x| = n / 2^k; h half-units and r / 2^(k+1) of one more unit
    let h := 2 * n / 2 ^ k
    let r := 2 * n % 2 ^ k
    let one (neg : Bool) : Nat := fp32.signBit neg + 0x3F800000
    if m = 0 then (if cosine then one false else fp32.signBit s)
    else if r = 0 then
      if cosine then (if h % 2 = 1 then 0 else one (h % 4 == 2))
      else (if h % 2 = 0 then fp32.signBit s else one (s != (h % 4 == 3)))
    else
      -- the distance to the nearest multiple of the unit below or above, in [0, 1/2]
      let d := if h % 2 = 0 then r else 2 ^ k - r
      let neg := if cosine then h % 4 == 1 || h % 4 == 2 else s != decide (h % 4 ≥ 2)
      faithful fn sat neg (encloseTrig cosine d (k + 1)) (2 * h + s.toNat) (w % 2 ^ 31 : Nat)
        (if cosine then h % 2 == 1 else h % 2 == 0)

/-- R207: a special function of the active elements, in four beats; the predicate stands in the src2 field. -/
def State.vspecial (s : State) (p d a : Field) (f : Nat → Nat) : State :=
  s.vfinish true [((vreg d).val, (s.th.active (p.getLsbD 4) (p.extractLsb' 0 2).toFin).map (fun e =>
    (e, BitVec.ofNat 32 (f (s.velem a e).toNat))))]
/-- R207. -/
def execVexp2 (p d a : Field) (s : State) : Out := issue s (s.vspecial p d a (exp2Value s.sat))
/-- R207. -/
def execVlog2 (p d a : Field) (s : State) : Out := issue s (s.vspecial p d a (log2Value s.sat))
/-- R47, R207. -/
def execVrcp (p d a : Field) (s : State) : Out := issue s (s.vspecial p d a (fp32.div s.rm s.sat 0x3F800000))
/-- R207. -/
def execVrsq (p d a : Field) (s : State) : Out := issue s (s.vspecial p d a (rsqValue s.sat))
/-- R47, R207. -/
def execVsqrt (p d a : Field) (s : State) : Out := issue s (s.vspecial p d a (fp32.sqrt s.rm s.sat))
/-- R207. -/
def execVsinpi (p d a : Field) (s : State) : Out := issue s (s.vspecial p d a (trigValue false s.sat))
/-- R207. -/
def execVcospi (p d a : Field) (s : State) : Out := issue s (s.vspecial p d a (trigValue true s.sat))

end Sys2Proof.Machine
end

