-- ==== Sys2Proof/Machine/Tile.lean ====
section
/-! DEFINITION. The tile (R209 to R226): matrix mode, formats and operand layouts, the matrix sums of R43 to R45, the operand
latch with its queue and pass rounds, and the instructions that set what `mop` reads. -/

namespace Sys2Proof.Machine

/-! ### Formats (R32, R43) -/

/-- R32: the element width of a format code, in bits. -/
def fmtBits (c : BitVec 4) : Nat :=
  if c = 0 then 32 else if c = 1 ∨ c = 2 then 16 else if c = 7 ∨ c = 8 then 4 else 8
/-- R43: the depth d of a pair of formats, and whether it accumulates integers; none for a pair that is not legal. -/
def mopPair (a b : BitVec 4) : Option (Nat × Bool) :=
  let x := min a.toNat b.toNat
  let y := max a.toNat b.toNat
  if x = 0 ∧ y ≤ 4 then some (1, false)
  else if (x = 1 ∨ x = 2) ∧ y ≤ 4 then some (2, false)
  else if (x = 3 ∨ x = 4) ∧ y ≤ 4 then some (4, false)
  else if (x = 1 ∨ x = 2) ∧ y = 8 then some (2, false)
  else if (x = 3 ∨ x = 4) ∧ y = 8 then some (8, false)
  else if (x = 5 ∨ x = 6) ∧ y ≤ 6 then some (4, true)
  else if x = 5 ∧ y = 7 then some (8, true)
  else none
/-- Whether a pair has a Q4 operand. -/
def hasQ4 (a b : BitVec 4) : Bool := a == 8 || b == 8
/-- R221: the largest K that a `bload` may bring. -/
def kMax (fb : BitVec 4) : Nat := 2048 / fmtBits fb

/-- R34: element `n` of a packed array of a width at an offset of a store. -/
def packedElem (m : Memory) (off bits n : Nat) : Nat :=
  if bits = 4 then (m.read (off + n / 2)).toNat / (if n % 2 = 0 then 1 else 16) % 16 else m.num (off + bits / 8 * n) (bits / 8)

/-- R27: a Q4 code's signed magnitude, in 1/128. -/
def q4Level (c : Nat) : FVal :=
  .fin (c ≥ 8) (match c % 8 with | 0 => 5 | 1 => 16 | 2 => 28 | 3 => 40 | 4 => 53 | 5 => 69 | 6 => 91 | _ => 128) (-7)
/-- R29: one Q4 element converted to FP32. -/
def q4Value (sat : Bool) (u : Nat) (b c : Nat) : Nat :=
  fp32.round 0 sat (((q4Level c).mul (.fin false b 0)).mul (fp32.decode u))

/-- An element of a float class, exact; a Q4 element without its scales. -/
def floatElem (code : BitVec 4) (w : Nat) : FVal :=
  if code = 8 then q4Level w else match fmtOf code.toNat with | some f => f.decode w | none => .nan
/-- R30: an element of an integer class; I4T through the copied table. -/
def intElem (table : List Byte) (code : BitVec 4) (w : Nat) : Int :=
  if code = 5 then (BitVec.ofNat 8 w).toInt else if code = 7 then (table.getD w 0).toInt else w

/-! ### The matrix sum (R44, R214, R215) -/

/-- What a `mop` reads. -/
structure MopOps where
  fa : BitVec 4
  fb : BitVec 4
  d : Nat
  ints : Bool
  panel : Memory
  la : Nat
  sa : Nat
  b : Memory
  bScale : Memory
  table : List Byte
  sat : Bool
  deriving DecidableEq, Repr

/-- R214: the panel element of row (or column) `i` at K position `k`. -/
def layout (d i k : Nat) : Nat := 16 * d * (k / d) + d * i + k % d
/-- A[i][k] and B[k][j] as encodings. -/
def MopOps.a (o : MopOps) (i k : Nat) : Nat := packedElem o.panel o.la (fmtBits o.fa) (layout o.d i k)
def MopOps.bAt (o : MopOps) (k j : Nat) : Nat := packedElem o.b 0 (fmtBits o.fb) (layout o.d j k)
/-- R215: the scales U and b of the sub-block of a row or column at K position `k`. -/
def scales (m : Memory) (off i k : Nat) : FVal × FVal :=
  let e := off + 8 * (16 * (k / 256) + i)
  (fp32.decode (m.num e 4), .fin false (m.read (e + 4 + k % 256 / 64)).toNat 0)
/-- R44: one product, exact. -/
def MopOps.product (o : MopOps) (i j k : Nat) : FVal := (floatElem o.fa (o.a i k)).mul (floatElem o.fb (o.bAt k j))

/-- R44: one cell after step `m` (without Q4), or after sub-block `m` (with Q4). The 0 that the sum starts with is no addend of R38: a cell of −0
with products of −0 stays −0 (log 79). -/
def MopOps.cell (o : MopOps) (m i j : Nat) (c : BitVec 32) : BitVec 32 :=
  if o.ints then
    let sigma : Int := (List.range o.d).foldl (fun t x =>
      t + intElem o.table o.fa (o.a i (o.d * m + x)) * intElem o.table o.fb (o.bAt (o.d * m + x) j)) 0
    let v := c.toInt + sigma
    BitVec.ofInt 32 (if o.sat then max (-2 ^ 31) (min (2 ^ 31 - 1) v) else v)
  else
    let x := fp32.decode c.toNat
    if hasQ4 o.fa o.fb then
      let part := FVal.sum 0 ((List.range 64).map (fun t => o.product i j (64 * m + t)))
      let sc := if o.fa = 8 then scales o.panel o.sa i (64 * m) else scales o.bScale 0 j (64 * m)
      BitVec.ofNat 32 (fp32.round 0 o.sat (FVal.sum 0 [x, (part.mul sc.2).mul sc.1]))
    else
      let sigma := FVal.sum 0 ((List.range o.d).map (fun t => o.product i j (o.d * m + t)))
      BitVec.ofNat 32 (fp32.round 0 o.sat (FVal.sum 0 [x, sigma]))

/-- R211: the register and element of row `i`, column `j` of a tile. -/
def tileReg (t j : Nat) : Nat := 8 + 4 * t + j % 4
def tileElem (i j : Nat) : Nat := 4 * i + j / 4

/-- A cell run through some steps from a first one. -/
def MopOps.cells (o : MopOps) (i j : Nat) : Nat → Nat → BitVec 32 → BitVec 32
  | 0, _, c => c
  | n + 1, m, c => o.cells i j n (m + 1) (o.cell m i j c)

/-- R44: a tile after `n` steps (or sub-blocks) from one on. -/
def Thread.mopTile (t : Thread) (o : MopOps) (tile m n : Nat) : VWrites :=
  (List.range 4).map (fun q =>
    (8 + 4 * tile + q, (List.range 64).map (fun e =>
      (e, o.cells (e / 4) (4 * (e % 4) + q) n m ((t.v[(8 + 4 * tile + q) % 16]'(Nat.mod_lt _ (by decide))).getD e 0)))))

/-! ### The latch queue (R216, R217) -/

/-- The latch of a core changed. -/
def State.setLatch (s : State) (c : Nat) (l : Latch) : State := s.setCore c { s.core c with latch := l }
/-- R217: there is room in a latch queue for one who waits, or who comes when nobody waits. -/
def Latch.hasRoom (l : Latch) (p : Producer) : Bool :=
  decide (l.queue.length < 16) && (match l.room with | u :: _ => u == p | [] => true)
/-- R217: one who waits for room keeps its place among those who do. -/
def Latch.wait (l : Latch) (p : Producer) : Latch := if l.room.contains p then l else { l with room := l.room ++ [p] }
/-- R217: a job joins a latch queue. -/
def Latch.join (l : Latch) (p : Producer) (j : LatchJob) : Latch := { l with queue := l.queue ++ [j], room := l.room.filter (· != p) }
/-- R217: the issuing thread's job joins its core's latch queue, once there is room; then the rest of the instruction follows. -/
def State.joinLatch (s : State) (j : LatchJob) (k : State → State) : State :=
  let l := (s.core s.cur).latch
  let me := Producer.thread s.th.uid
  if l.hasRoom me then k (s.setLatch s.cur (l.join me j)) else (s.setLatch s.cur (l.wait me)).park .latchRoom

/-- The dependency slot of a thread counted down at an instruction's end, wherever the thread is. -/
def State.endDep (s : State) (dep : Option (Nat × Fin 8)) : State :=
  match dep with
  | none => s
  | some (uid, k) =>
    let tag := match s.locate uid with
      | some (c, i) => match s.threadAt c i with | some t => some (s.tagOf c i t) | none => none
      | none => none
    s.updThread uid (fun t => t.depEnd (some k) (tag.getD {}))

/-- R210. -/
def execMmode (m : BitVec 1) (s : State) : Out :=
  issue s (
    let t := s.th
    let block := 15 <<< (4 * (s.cur % 8))
    if m = 1 ∧ !statM t.stat ∧ t.claim.strips.foldl (fun x q => x ||| 1 <<< q) 0 ≠ block then s.trap kClaim
    else s.await .vector fun s => (s.setStatWord (setStat s.th.stat 5 (m == 1))).advance)

/-- R31, R219: the copies that a `mop` takes at its issue. -/
def State.mopCopies (s : State) (tile : Nat) (y : BitVec 12) : State :=
  let t := s.th
  if t.mop.isSome then s
  else s.setTh { t with mop := some {
    tile := tile, la := 0, sa := t.sa.toNat, step := 0, k := 0, fa := t.fa, fb := t.fb
    table := (s.core s.cur).table.toList, dep := syncDep y } }
/-- R219: the checks of a `mop` at its issue. -/
def Thread.mopCheck (t : Thread) : Option Nat :=
  if !statM t.stat then some kClaim else if (mopPair t.fa t.fb).isNone then some kFormat else none
/-- R219: `mop` up to its place in the latch queue; the rest happens at its start and its completion. -/
def State.mopIssue (s : State) (tile : Nat) (ea : Word) (y : BitVec 12) : State :=
  let t := s.th
  if t.stage = 2 then (if t.granted then s.advance else s.park .mop)
  else match t.mopCheck with
    | some k => s.trap k
    | none => s.sync y fun s => ((s.issueSync y).mopCopies tile y).joinLatch (.mop t.uid) fun s =>
        (s.setTh { s.th with aux := ea, stage := 2 }).park .mop
/-- R219. -/
def execMop (t : BitVec 1) (a : Field) (sync : BitVec 12) (s : State) : Out :=
  issue s (s.mopIssue t.toNat (s.reg a) sync)

/-- R219, R221, R280: the check of an operand's source in the issuing core's local store: its LA, or the kind that traps. A source that
begins there and runs on into the next core's store is one in another core (log 57). -/
def State.checkNear (s : State) (c : Nat) (t : Thread) (ea : Word) (n : Nat) : Except Nat Nat :=
  let kd := t.kd[segIndex ea]
  let a := t.kb[segIndex ea].toNat + segOffset ea
  if kdKind kd ≠ 2 ∨ !kdR kd then .error kSegRights
  else if segOffset ea + n - 1 > kdLimit kd ∨ a + n - 1 ≥ 2 ^ 30 ∨ !s.coreOk t.ctx (a / 2 ^ 18) ∨
      !s.coreOk t.ctx ((a + n - 1) / 2 ^ 18) then .error kSegLimit
  else if a / 2 ^ 18 ≠ c ∨ (a + n - 1) / 2 ^ 18 ≠ c then .error kVecRemote
  else .ok a
/-- R219, R221: the same for a source aligned to 64 bytes: its offset. -/
def State.checkOwn (s : State) (c : Nat) (t : Thread) (ea : Word) (n : Nat) : Except Nat Nat :=
  match s.checkNear c t ea n with
  | .error k => .error k
  | .ok a => if a % 64 ≠ 0 then .error kMisaligned else .ok (a % 2 ^ 18)

/-- R219: the check of a Q4 scale table. -/
def scaleCheck (fmt : BitVec 4) (sa k : Nat) : Option Nat :=
  if fmt ≠ 8 then none
  else if sa % 8 ≠ 0 then some kMisaligned
  else if sa + 128 * ((k + 255) / 256) > 0x40000 then some kSegLimit
  else none

/-- R43, R219: the checks of a `mop` at its start: the panel's offset, or the kind that traps. -/
def State.mopStart (s : State) (c : Nat) (t : Thread) (r : MopRun) : Except Nat Nat :=
  let l := (s.core c).latch
  let d := ((mopPair r.fa r.fb).map (·.1)).getD 1
  if l.lf ≠ r.fb ∨ l.k % d ≠ 0 ∨ (hasQ4 r.fa r.fb ∧ l.k % 64 ≠ 0) then .error kFormat
  else match s.checkOwn c t t.aux (16 * l.k * fmtBits r.fa / 8) with
    | .error k => .error k
    | .ok off => match scaleCheck r.fa r.sa l.k with
      | some k => .error k
      | none => .ok off

/-- R221: the checks of a `bload`: the offset of its source, or the kind that traps, and whether it traps on the source. -/
def State.bloadCheck (s : State) (c : Nat) (t : Thread) (ea kw : Word) : Except (Nat × Bool) Nat :=
  let k := kw.toNat
  if k = 0 ∨ k % 8 ≠ 0 ∨ k > kMax t.fb ∨ (t.fb = 8 ∧ k % 64 ≠ 0) then .error (kFormat, false)
  else match s.checkOwn c t ea (16 * k * fmtBits t.fb / 8) with
    | .error e => .error (e, true)
    | .ok off => match scaleCheck t.fb t.sb.toNat k with
      | some e => .error (e, false)
      | none => .ok off
/-- R221. -/
def State.bload (s : State) (ea kw : Word) (y : BitVec 12) : State :=
  let t := s.th
  match s.bloadCheck s.cur t ea kw with
  | .error (k, true) => s.trapAt k ea 0
  | .error (k, false) => s.trap k
  | .ok off => s.sync y fun s =>
      (s.issueSync y).joinLatch (.bload off kw.toNat t.fb t.sb.toNat ((syncDep y).map (fun d => (t.uid, d)))) State.advance
/-- R221. -/
def execBload (a b : Field) (sync : BitVec 12) (s : State) : Out :=
  issue s (s.bload (s.reg a) (s.reg b) sync)
/-- R222. -/
def execBpass (sync : BitVec 12) (s : State) : Out :=
  issue s (s.sync sync fun s =>
    (s.issueSync sync).joinLatch (.bpass ((syncDep sync).map (fun d => (s.th.uid, d)))) State.advance)
/-- R222. -/
def execBpassDrop (sync : BitVec 12) (s : State) : Out :=
  issue s (s.sync sync fun s =>
    (s.issueSync sync).joinLatch (.drop ((syncDep sync).map (fun d => (s.th.uid, d)))) State.advance)

/-- R223. -/
def execMzero (t : BitVec 1) (s : State) : Out :=
  issue s (if !statM s.th.stat then s.trap kClaim
    else s.setTh ((s.th.advance).vput ((List.range 4).map (fun q =>
      (8 + 4 * t.toNat + q, (List.range s.th.vl).map (fun e => (e, 0)))))))
/-- R224: byte `k` of a word. -/
def wordByte (w : Word) (k : Nat) : Byte := w.extractLsb' (8 * k) 8
/-- R224: the code table of the core. -/
def execTbset (a b : Field) (s : State) : Out :=
  issue s (
    let x := s.reg a
    let y := s.reg b
    let tab := slotNumbers.foldl (fun (v : Vector Byte 16) (i : Fin 16) =>
      v.set i (if i.val < 8 then wordByte x i.val else wordByte y (i.val - 8))) (s.core s.cur).table
    (s.setCore s.cur { s.core s.cur with table := tab }).advance)
/-- R33, R224. -/
def execFmtset (a : Field) (s : State) : Out :=
  issue s (
    let w := s.reg a
    let fa : BitVec 4 := w.extractLsb' 0 4
    let fb : BitVec 4 := w.extractLsb' 4 4
    if fa.toNat > 8 ∨ fb.toNat > 8 then s.trap kFormat
    else s.setTh ({ s.th with fa := fa, fb := fb }).advance)
/-- R224. -/
def execSclset (a b : Field) (s : State) : Out :=
  issue s (s.setTh ({ s.th with sa := (s.reg a).truncate 32, sb := (s.reg b).truncate 32 }).advance)

/-! ### Steps of the latch (R217 to R221) -/

/-- R218: the destination of a pass from a core, and the core that passes to one. -/
def passDst (c : Nat) : Nat := c / 8 * 8 + (c % 8 + 1) % 8
def passSrc (c : Nat) : Nat := c / 8 * 8 + (c % 8 + 7) % 8
/-- R218: the `bpass` at the head of a core's queue is ready. -/
def State.passReady (s : State) (c : Nat) : Bool :=
  let l := (s.core c).latch
  (match l.queue with | .bpass _ :: _ => true | _ => false) && l.st == .full && l.rdr == 0
/-- R217, R218: a fill may start: the latch is Empty and no pass takes it first. -/
def State.fillable (s : State) (c : Nat) : Bool :=
  let l := (s.core c).latch
  l.st == .empty && l.coming.isNone && !s.passReady (passSrc c)

/-- R217, R219: the head of a latch queue starts, if its condition holds. The record of a trap that a `mop` takes at its start carries
the panel's address (log 58). -/
def State.latchStart (s : State) (c : Nat) : State :=
  let l := (s.core c).latch
  match l.queue with
  | [] => s
  | j :: r =>
    let l1 := { l with queue := r }
    match j with
    | .bload .. => if s.fillable c then s.setLatch c { l1 with st := .filling, fill := some j } else s
    | .delivery .. => if s.fillable c then s.setLatch c { l1 with st := .filling, fill := some j } else s
    | .drop dep =>
      if l.st = .full ∧ l.rdr = 0 then (s.setLatch c { l1 with st := .empty, k := 0 }).endDep dep else s
    | .bpass _ => s
    | .mop uid =>
      if l.st ≠ .full then s
      else match slotOf (s.core c) uid with
        | none => s.setLatch c l1
        | some i => match s.threadAt c i with
          | none => s
          | some t => match t.mop with
            | none => s.setLatch c l1
            | some r => match s.mopStart c t r with
              | .error k => ((s.setLatch c l1).setSlot c i (some { t with mop := none })).takeTrap c i { kind := k, ea := t.aux }
              | .ok off =>
                ({ s with nextId := s.nextId + 1 }.setLatch c { l1 with rdr := l.rdr + 1 }).setSlot c i
                  (some { t with mop := some { r with la := off, k := l.k, started := true, order := s.nextId, since := s.cycle } })
/-- R217. -/
def execLatchQueueStart (core : Nat) (s : State) : Out := .next (s.latchStart core)

/-- R221, R308: a fill ends: data, for Q4 the scales, the tag, Full. A `bload` reads all its bytes here, those that another agent writes
meanwhile and those of a closed list area among them (logs 59, 60). -/
def State.fillDone (s : State) (c : Nat) : State :=
  let k := s.core c
  let l := k.latch
  match l.fill with
  | some (.bload off kk fb sb dep) =>
    let l1 := { l with
      data := l.data.put 0 (k.ls.bytes off (16 * kk * fmtBits fb / 8))
      scale := if fb = 8 then l.scale.put 0 (k.ls.bytes sb (128 * ((kk + 255) / 256))) else l.scale
      k := kk, lf := fb, st := .full, fill := none }
    (s.setLatch c l1).endDep dep
  | some (.delivery kk lf data scale) =>
    s.setLatch c { l with
      data := l.data.put 0 data, scale := l.scale.put 0 scale, k := kk, lf := lf, st := .full, fill := none }
  | _ => s
/-- R221. -/
def execFillComplete (core : Nat) (s : State) : Out := .next (s.fillDone core)

/-- R218: the ready passes that move: those whose destination is Empty or is itself the source of one that moves. -/
def State.movers (s : State) : Nat → List Nat → List Nat
  | 0, cs => cs
  | n + 1, cs => s.movers n (cs.filter (fun c => (s.core (passDst c)).latch.st == .empty || cs.contains (passDst c)))

/-- R218: what the `bpass` at the head of a latch's queue passes on. -/
def Latch.passed (l : Latch) : Passing :=
  { data := l.data, scale := l.scale, k := l.k, lf := l.lf, dep := (match l.queue with | .bpass d :: _ => d | _ => none) }
/-- R217, R218: a pass round of a cluster starts: each source is Passing, its entry has left, and what it held is on its way. The
destination takes it whichever context holds that core, and a core that no context holds as well (log 61). -/
def State.startRound (s : State) (cl : Nat) : State :=
  let mv := s.movers 8 ((coresOf cl).filter s.passReady)
  (coresOf cl).foldl (fun (r : State) c =>
    let l := (s.core c).latch
    let l1 := if mv.contains c then { l with queue := l.queue.drop 1, st := .passing } else l
    let l2 := if mv.contains (passSrc c) then { l1 with coming := some (s.core (passSrc c)).latch.passed } else l1
    if l2 = l then r else r.setLatch c l2) s
/-- R218: a latch at the end of a round: Full of what it received, or Empty if it was a source that received nothing. -/
def Latch.settle (l : Latch) : Latch :=
  match l.coming with
  | some p => { l with data := p.data, scale := p.scale, k := p.k, lf := p.lf, st := .full, coming := none }
  | none => if l.st = .passing then { l with st := .empty, k := 0 } else l
/-- R218, R222: a pass round ends. -/
def State.endRound (s : State) (cl : Nat) : State :=
  let deps := (coresOf cl).filterMap (fun c => (s.core c).latch.coming.map (·.dep))
  let s1 := (coresOf cl).foldl (fun (r : State) c =>
    let l := (s.core c).latch
    if l.settle = l then r else r.setLatch c l.settle) s
  deps.foldl State.endDep s1
/-- R218: the step of a cluster's pass round: its end where one is in progress, else the start of one. -/
def State.passRound (s : State) (cl : Nat) : State :=
  if (coresOf cl).any (fun c => (s.core c).latch.coming.isSome) then s.endRound cl else s.startRound cl
/-- R218. -/
def execPassRound (cluster : Nat) (s : State) : Out := .next (s.passRound cluster)

/-- What a started `mop` of a core reads: the words as they stand when its steps run, one that another agent writes meanwhile and one of
a closed list area among them (logs 59, 60). -/
def State.mopOps (s : State) (c : Nat) (t : Thread) (r : MopRun) : MopOps :=
  let k := s.core c
  { fa := r.fa, fb := r.fb, d := ((mopPair r.fa r.fb).map (·.1)).getD 1, ints := ((mopPair r.fa r.fb).map (·.2)).getD false,
    panel := k.ls, la := r.la, sa := r.sa, b := k.latch.data, bScale := k.latch.scale, table := r.table, sat := statSat t.stat }

/-- R44, R45, R213: up to `n` steps (sub-blocks for a Q4 operand) of the `mop` of a slot, when it is the oldest of its block, and no more
than the cycles since its start, or since its last step, allow. -/
def State.mopRun (s : State) (c : Nat) (i : Fin 16) (n : Nat) (last : Bool) : State :=
  match s.threadAt c i with
  | none => s
  | some t => match t.mop with
    | none => s
    | some r =>
      if t.hold ∨ !r.started ∨ slotNumbers.any (fun j => match s.threadAt c j with
          | some u => (match u.mop with | some q => q.started && decide (q.order < r.order) | none => false)
          | none => false) then s
      else
        let o := s.mopOps c t r
        let unit := if hasQ4 r.fa r.fb then 64 else o.d
        let m := r.step * o.d / unit
        let each := unit / o.d
        let steps := min (min n (r.k / unit - m - (!last).toNat)) ((s.cycle - r.since) / each)
        let t1 := t.vput (t.mopTile o r.tile m steps)
        let r1 := { r with step := (m + steps) * each, since := r.since + steps * each }
        (s.setSlot c i (some { t1 with mop := some r1 })).count c 7 (steps * each)

/-- R213: the `mop`s of a core that have waited for another one have used no step cycle yet. -/
def CoreState.mopsFrom (k : CoreState) (now : Nat) : CoreState :=
  { k with slots := mapSlots (fun t => { t with mop := t.mop.map (fun r => { r with since := max r.since now }) }) k.slots }
/-- R213: a beat of a thread of core `c`, slot `i`, lends the blocks that its claim reaches: a `mop` of another window that runs there
makes no step in this cycle. -/
def State.lendBlocks (s : State) (c : Nat) (i : Fin 16) : State :=
  match s.threadAt c i with
  | none => s
  | some t =>
    (coresOf (clusterOf c)).foldl (fun (s : State) o =>
      if !t.claim.strips.any (fun q => q / 4 == o % 8) then s
      else slotNumbers.foldl (fun (s : State) j => match s.threadAt o j with
        | some u => match u.mop with
          | some r => if r.started && homeWin j != homeWin i && r.lentAt != some s.cycle then
              s.setSlot o j (some { u with mop := some { r with since := r.since + 1, lentAt := some s.cycle } }) else s
          | none => s
        | none => s) s) s
/-- R219: the `mop` of a slot completes: the steps that are left, RDR, its dependency slot; its thread goes on. -/
def State.mopDone (s : State) (c : Nat) (i : Fin 16) : State :=
  let s1 := s.mopRun c i 512 true
  match s1.threadAt c i with
  | none => s
  | some t => match t.mop with
    | none => s
    | some r =>
      if !r.started then s
      else if r.step * ((mopPair r.fa r.fb).map (·.1)).getD 1 < r.k then s1
      else
        let s2 := s1.setSlot c i (some ({ t with mop := none, granted := true, taken := none }.depEnd r.dep (s.tagOf c i t)))
        let k := (s2.core c).mopsFrom s.cycle
        s2.setCore c { k with latch := { k.latch with rdr := k.latch.rdr - 1 } }
/-- R219. -/
def execMopComplete (core slot : Nat) (s : State) : Out := .next (s.mopDone core (Fin.ofNat 16 slot))

end Sys2Proof.Machine
end

