-- ==== Sys2Proof/Machine/Work.lean ====
section
/-! DEFINITION. The work of a core: threads entering and leaving slots (R85, R100, R101, R107, R243), live counts and group
records (R234, R238), barrier phases (R253 to R256), node records (R274 to R277), mailboxes (R259, R260), the offer of
a free slot (R102, R231, R242). -/

namespace Sys2Proof.Machine


/-! ### Barriers (R253 to R256) -/

/-- R253: the phase completes when every one of `n` participants has arrived. -/
def Barrier.check (b : Barrier) (n : Nat) (tag : Tag) : Barrier :=
  if b.arrived.length = n then { cph := b.cph + 1, arrived := [], count := 0, tag := some tag } else b

/-- R263: a completed phase names its last producer to the threads that wait for it. -/
def State.phaseTag (s : State) (x : Nat) (kid : BitVec 32) (gid : Option (BitVec 32)) (kind id : Nat) (old new : BitVec 32)
    (tag : Tag) : State :=
  if old = new then s
  else s.mapThreads (fun t => match t.st with
    | .parked (.barrier k j tok) =>
      if t.ctx == x && t.kid == kid && (match gid with | some g => t.gid == g | none => true) && k == kind && j == id &&
          !phasePassed old tok && phasePassed new tok then { t with tag := some tag } else t
    | .parked (.rearrive k j p) =>
      if t.ctx == x && t.kid == kid && (match gid with | some g => t.gid == g | none => true) && k == kind && j == id && p == old
      then { t with tag := some tag } else t
    | _ => t)

/-- R253, R255: the check of a group's barrier after an update. -/
def State.checkGroup (s : State) (g : Group) (tag : Tag) : State :=
  let b := g.bar.check g.pop tag
  (s.setGroup { g with bar := b }).phaseTag g.ctx g.kid (some g.gid) 0 0 g.bar.cph b.cph tag

/-- R256: the phases that a package of a gang has completed locally. -/
def Gang.phaseOf (g : Gang) (p : Nat) : Nat := (mapGet g.phases p).getD 0
/-- R236: a message to every other member of a gang. -/
def State.tell (s : State) (x q packet : Nat) (g : Gang) (kind : LinkKind) : State :=
  { s with package := { s.package with linkOut := s.package.linkOut ++
      (g.members.filter (· != s.package.pkg.toNat)).map (fun p => { dst := p, ctx := x, queue := q, packet := packet, kind := kind }) } }
/-- R371, R389: the tag of a message that the dispatcher sends. -/
def State.gscTag (s : State) : Tag := s.agentTag (s.entity 0 5 0 0) {}
/-- R253, R256: a package of a gang has completed the phase after `cph` completed ones; phases count modulo 2³². -/
def Gang.passed (g : Gang) (p : Nat) (cph : BitVec 32) : Bool := phasePassed (BitVec.ofNat 32 (g.phaseOf p)) cph
/-- R254 to R256: the check of a kernel's barrier after an update; in a gang the phase completes when every member has
completed it locally. -/
def State.checkKernel (s : State) (k : Kernel) (tag : Tag) : State :=
  match k.gang with
  | none =>
    let b := k.bar.check k.live tag
    (s.setKernel { k with bar := b }).phaseTag k.ctx k.kid none 2 0 k.bar.cph b.cph tag
  | some g =>
    let me := s.package.pkg.toNat
    let next := k.bar.cph + 1
    let now := k.bar.arrived.length = k.live ∧ !g.passed me k.bar.cph
    let g1 := if now then { g with phases := mapPut g.phases me next.toNat } else g
    let b := if g1.members.all (fun p => g1.passed p k.bar.cph) then
      { cph := next, arrived := [], count := 0, tag := some tag } else k.bar
    let s1 := if now then s.tell k.ctx k.queue k.packet g (.gangPhase next.toNat tag) else s
    (s1.setKernel { k with bar := b, gang := some g1 }).phaseTag k.ctx k.kid none 2 0 k.bar.cph b.cph tag

/-! ### Node records (R274 to R277) -/

/-- The kernel with one node changed. -/
def Kernel.setNode (k : Kernel) (n : Nat) (v : Node) : Kernel := { k with nodes := listSet k.nodes n v }
/-- R275, R277: a record becomes Free; the consumer that freed it is named to the `nqput` that takes it. -/
def State.freeRecord (s : State) (x : Nat) (root : BitVec 32) (n rec : Nat) (tag : Tag) : State :=
  let r := s.kernelAt x root
  match r.nodeAt n with
  | none => s
  | some v =>
    let s1 := s.setKernel (r.setNode n { v with records := listSet v.records rec .free, holders := mapDel v.holders rec, tags := mapPut v.tags rec tag })
    let k := s1.kernelAt x v.kid
    s1.setKernel { k with live := k.live - 1 }

/-- R275: the node and the record that a consumer holds. -/
def State.heldRecord (s : State) (t : Thread) : Option (Nat × Node × Nat) :=
  let k := s.kernelOf t
  match k.node with
  | none => none
  | some n => match (s.rootOf k).nodeAt n with
    | none => none
    | some v => (v.holders.find? (fun h => h.2 == t.uid)).map (fun h => (n, v, h.1))
/-- R275: a consumer's record becomes Free, if it still holds one. -/
def State.freeHeld (s : State) (t : Thread) (tag : Tag) : State :=
  match s.heldRecord t with
  | some (n, _, rec) => s.freeRecord t.ctx ((s.kernelOf t).root.getD t.kid) n rec tag
  | none => s

/-! ### Mailboxes (R259, R260) -/

/-- R260: whether a mailbox has room for an entry. -/
def CoreState.mailRoom (k : CoreState) (m : Mail) : Bool :=
  decide (k.mailbox.length < 32) && (m.kind != 0 || decide (messages k.mailbox < 24))
/-- R260, R405: the held entries that find room are placed, oldest first; they are seen from the next cycle on. -/
def placeHeld (now : Nat) (k : CoreState) : List Mail → CoreState
  | [] => { k with held := [] }
  | m :: r => if k.mailRoom m then placeHeld now { k with mailbox := k.mailbox ++ [{ m with visible := now + 1 }] } r
    else { k with held := m :: r }
/-- The held entries of a core placed as far as there is room. -/
def CoreState.settleMail (k : CoreState) (now : Nat) : CoreState := placeHeld now k k.held
/-- R107, R237, R259: the entries of a context that a test selects are discarded, wherever its mailboxes are. -/
def State.dropMail (s : State) (x : Nat) (f : Mail → Bool) : State :=
  let clean (k : CoreState) : CoreState :=
    if k.mailbox.any f || k.held.any f then
      { k with mailbox := k.mailbox.filter (fun m => !f m), held := k.held.filter (fun m => !f m) }
    else k
  { s with
    cores := s.cores.map (fun p => if p.2.ctx = some x then (p.1, (clean p.2).settleMail s.cycle) else p)
    contexts := s.contexts.map (fun p => if p.1 = x then
      (p.1, { p.2 with saved := p.2.saved.map (fun q => (q.1, clean q.2)) }) else p) }
/-- R259: an entry tagged for a kernel. -/
def Mail.ofKernel (m : Mail) (kid : BitVec 32) : Bool := m.ktag == kid.truncate 12
/-- R259: an entry whose kernel is live. -/
def State.mailLive (s : State) (x : Nat) (m : Mail) : Bool :=
  s.kernels.any (fun k => k.ctx == x && !k.done && k.kid.truncate 12 == m.ktag)
/-- R259, R260, R401, R405: an entry for a core of a context: placed, held until there is room, or held in the saved record or by the
interface of a core that is being remapped. -/
def State.deliverMail (s : State) (x c : Nat) (m : Mail) : State :=
  if !s.holds x c || !s.mailLive x m then s
  else
    let k := s.coreFor x c
    let k1 := { k with held := k.held ++ [m] }
    s.setCoreFor x c (if (mapGet (s.context x).saved c).isSome || s.holding c then k1 else k1.settleMail s.cycle)

/-! ### Entering a slot -/

/-- R356: a core handed to a context. -/
def State.handOver (s : State) (c x : Nat) : State :=
  if (s.core c).ctx = some x then s
  else { s.setCore c ((s.core c).fresh (some x)) with owed := s.owed.filter (fun o => o.1 != c) }
/-- A thread takes a free slot: Seeded, with its home strip as its claim (R98, R181, R243). What it has acquired elsewhere holds on its new
cluster too: the constant cache there keeps no older line (R162, R167, log 13). -/
def State.seat (s : State) (c : Nat) (i : Fin 16) (t : Thread) : State :=
  let s1 := (s.handOver c t.ctx).acquireFor c t.uid
  { s1 with nextUid := if t.uid = 0 then s1.nextUid + 1 else s1.nextUid }.setSlot c i
    (some { t.homeClaim c i with uid := if t.uid = 0 then s1.nextUid else t.uid, st := .seeded })

/-- R85, R231: a launch thread of a kernel. -/
def Kernel.newThread (k : Kernel) (tidx : Nat) : Thread :=
  let d := k.desc
  let seed (n : Nat) : Word := d.seeds.getD n 0
  { ctx := k.ctx
    pc := d.entry
    g := (((((Vector.replicate 16 0).set 1 (BitVec.ofNat 64 tidx)).set 2 (seed 0)).set 3 (seed 1)).set 4 (seed 2))
    stat := setStat 0xF80000 0 d.priv
    fa := d.fa
    fb := d.fb
    sa := d.sa
    sb := d.sb
    kb := d.kb
    kd := d.kd
    lin := BitVec.ofNat 64 tidx
    kid := k.kid
    gid := if d.gsize = 0 then 0 else BitVec.ofNat 32 (tidx / d.gsize)
    tidx := BitVec.ofNat 32 tidx
    launched := true }

/-- R231: the next launch thread of a kernel takes a slot. -/
def State.seedNext (s : State) (k : Kernel) (c : Nat) (i : Fin 16) : State :=
  (s.seat c i (k.newThread k.next)).setKernel { k with next := k.next + 1 }

/-- R275: the lowest-numbered Ready record of a node becomes Held and its consumer takes a slot. -/
def State.seedNode (s : State) (k : Kernel) (n : Nat) (v : Node) (c : Nat) (i : Fin 16) : State :=
  match v.first .ready with
  | none => s
  | some rec =>
    let t := k.newThread v.launched
    let t1 := { t with
      g := ((t.g.set 1 (BitVec.ofNat 64 (v.pool + v.rsize * rec))).set 2 (BitVec.ofNat 64 n)).set 3 (k.desc.seeds.getD 1 0) }
    let s1 := s.seat c i t1
    let r := s1.rootOf k
    let s2 := s1.setKernel (r.setNode n { v with
      records := listSet v.records rec .held, launched := v.launched + 1, holders := mapPut v.holders rec s.nextUid })
    let k2 := s2.kernelAt k.ctx k.kid
    let g := s2.groupAt k.ctx k.kid t.gid
    ((s2.setKernel { k2 with live := k2.live + 1 }).setGroup { g with pop := g.pop + 1 }).acquireAt c

/-- R243: the thread of a task. -/
def State.taskThread (s : State) (t : Task) : Thread :=
  let d := (s.kernelAt t.ctx t.kid).desc
  { ctx := t.ctx
    pc := t.pc
    g := ((((Vector.replicate 16 0).set 1 t.a1).set 2 t.a2).set 3 t.a3).set 4 t.a4
    stat := t.stat
    fa := t.fa
    fb := t.fb
    sa := t.sa
    sb := t.sb
    kb := d.kb
    kd := d.kd
    lin := t.lin
    plin := t.plin
    kid := t.kid
    gid := t.gid
    tidx := t.lin.truncate 32
    cptTime := t.cptTime
    cptPtr := t.cptPtr }
/-- R243: a slot takes a deque entry. -/
def State.seatEntry (s : State) (c : Nat) (i : Fin 16) (e : DequeEntry) : State :=
  ((s.seat c i (match e with | .task t => s.taskThread t | .clone t => t))).acquireAt c
/-- The context and kernel of a deque entry. -/
def DequeEntry.owner : DequeEntry → Nat × BitVec 32
  | .task t => (t.ctx, t.kid)
  | .clone t => (t.ctx, t.kid)

/-! ### Packing and arriving (R96 to R101) -/

/-- R99, R100: a thread as it travels: the g registers that a mask names, the modified segment registers, the rest of them
reloaded from the descriptor, matrix mode and claim left behind. -/
def State.packed (s : State) (t : Thread) (mask : BitVec 16) : Thread :=
  let d := (s.kernelAt t.ctx t.kid).desc
  { t with
    g := slotNumbers.foldl (fun v (i : Fin 16) => if mask.getLsbD i.val then v else v.set i 0) t.g
    kb := depNumbers.foldl (fun v (k : Fin 8) => if t.sm.getLsbD k.val then v else v.set k d.kb[k]) t.kb
    kd := depNumbers.foldl (fun v (k : Fin 8) => if t.sm.getLsbD k.val then v else v.set k d.kd[k]) t.kd
    stat := setStat (setStat t.stat 5 false) 6 false
    claim := ⟨1, []⟩
    v := Vector.replicate 16 []
    vp := Vector.replicate 4 []
    held := none
    refetch := false
    latched := none
    launched := false }

/-- R101: an arriving thread finds a free slot and nobody before it. -/
def State.seatable (s : State) (c : Nat) : Bool :=
  let k := s.core c
  k.arrivals.isEmpty && k.spill.isEmpty && !k.stopped && (s.freeSlot c).isSome
/-! ### The spill ring and the deque's spill (R101, R103, R241) -/

/-- R103, R241: the first 512-byte record of a chain of 64 KiB chunks that is not in use. -/
def freePlace (chunks used : List Nat) : Option Nat :=
  chunks.findSome? (fun a => ((List.range 128).map (fun n => a + 512 * n)).find? (fun r => !used.contains r))
/-- R103: the ring has room for one more record. -/
def CoreState.ringRoom (k : CoreState) : Bool := (freePlace k.spillChunks k.spillAt).isSome
/-- R101, R103: a record written at the tail of a spill ring, in the layout of R99; `mask` names the g registers that travel. The ring
of a saved core is kept with its record (R405). -/
def State.spillTo (s : State) (x c : Nat) (t : Thread) (mask : BitVec 16) : State :=
  let k := s.coreFor x c
  match freePlace k.spillChunks k.spillAt with
  | some a => (s.setCoreFor x c { k with spill := k.spill ++ [t], spillAt := k.spillAt ++ [a] }).firmPut a (t.packetBytes mask)
  | none => s
/-- R101: the arrival queue has room for one more thread, or the spill ring has. -/
def CoreState.spillRoom (k : CoreState) : Bool := (k.spill.isEmpty && decide (k.arrivals.length < 16)) || k.ringRoom
/-- R101: a thread placed behind those that wait: the arrival queue's tail, or the spill ring's. -/
def State.enqueue (s : State) (c : Nat) (t : Thread) (mask : BitVec 16) : State :=
  let k := s.core c
  if k.spill.isEmpty && decide (k.arrivals.length < 16) then s.setCore c { k with arrivals := k.arrivals ++ [t] }
  else s.spillTo t.ctx c t mask
/-- R101: an accepted thread: a free slot, the arrival queue's tail, or the spill ring's tail. A stopped core offers no slot (R393). -/
def State.accept (s : State) (c : Nat) (t : Thread) : State :=
  let s0 := s.handOver c t.ctx
  let s1 := s0.setCore c { s0.core c with lastAccept := some s.cycle }
  match (if s1.seatable c then s1.freeSlot c else none) with
  | some i => s1.seat c i t
  | none => s1.enqueue c t t.tm
/-- R101: the arrival queue's head taken, and the ring's head moved into the queue. -/
def CoreState.takeArrival (k : CoreState) : CoreState :=
  match k.spill with
  | [] => { k with arrivals := k.arrivals.drop 1 }
  | t :: r => { k with arrivals := k.arrivals.drop 1 ++ [t], spill := r, spillAt := k.spillAt.drop 1 }
/-- R241: of a deque's entries, those above the bottom 32 lie in its chunks, in the order of the deque. -/
def CoreState.trimDeque (k : CoreState) : CoreState := { k with dequeAt := k.dequeAt.take (k.deque.length - 32) }
/-- R241: the bottom entry taken. -/
def CoreState.popDeque (k : CoreState) : CoreState := ({ k with deque := k.deque.dropLast }).trimDeque
/-- R241, R242: entry `n` from the top taken. -/
def CoreState.stealDeque (k : CoreState) (n : Nat) : CoreState :=
  ({ k with deque := listDel k.deque n, dequeAt := listDel k.dequeAt n }).trimDeque
/-- R240, R241: the next entry that leaves the bottom 32 is written to a record of the chunks, if one is free. -/
def State.spillDeque (s : State) (c : Nat) : State :=
  let k := s.core c
  if k.dequeAt.length + 32 ≥ k.deque.length then s
  else match freePlace k.dequeChunks k.dequeAt, k.deque[k.dequeAt.length]? with
    | some a, some e => (s.setCore c { k with dequeAt := k.dequeAt ++ [a] }).firmPut a e.bytes
    | _, _ => s
/-- R241: an entry pushed at the bottom of a core's deque. -/
def State.pushDeque (s : State) (c : Nat) (e : DequeEntry) : State :=
  (s.setCore c { s.core c with deque := (s.core c).deque ++ [e] }).spillDeque c

/-! ### Leaving (R107, R245, R255) -/

/-- R245: a join counter counted down at its home; a count of 0 answers the joins that wait on it. -/
def State.countDown (s : State) (x dva : Nat) (tag : Tag) : State := s.update ⟨x, dva, .count tag⟩

/-- R107, R234, R245, R255, R275: a thread leaves its group and kernel: its counter, its arrivals, its record, and the checks of
the barriers that it took part in. -/
def State.depart (s : State) (t : Thread) (tag : Tag) : State :=
  let g := s.groupOf t
  let s1 := match g.joins.find? (fun j => j.1 == t.lin) with
    | some (_, a) => s.countDown t.ctx a tag
    | none => s
  let s2 := s1.checkGroup { g with
    pop := g.pop - 1
    joins := g.joins.filter (fun j => j.1 != t.lin)
    bar := { g.bar with arrived := g.bar.arrived.filter (· != t.uid) } } tag
  let k := s2.kernelOf t
  let s3 := s2.checkKernel { k with
    live := k.live - 1
    bar := { k.bar with arrived := k.bar.arrived.filter (· != t.uid) } } tag
  s3.freeHeld t tag

/-- R107: the mailbox entries tagged for a thread. -/
def taggedFor (t : Thread) (m : Mail) : Bool := m.ktag == t.kid.truncate 12 && m.tt == t.tidx
/-- R107: the thread of a slot is Halted: its entries are discarded, on whichever cores it was sent them, and its claim and slot are
free. -/
def State.vacate (s : State) (c : Nat) (i : Fin 16) : State :=
  match s.threadAt c i with
  | none => s
  | some t => (s.dropMail t.ctx (taggedFor t)).setSlot c i none

/-! ### The offer of a free slot (R102, R231, R232, R242, R275) -/

/-- R242: core `c` lies within a stealing domain measured from a victim. -/
def inDomain (domain victim c : Nat) : Bool :=
  match domain with
  | 0 => victim == c
  | 1 => clusterOf victim == clusterOf c
  | 2 => dieOf victim == dieOf c
  | _ => true
/-- R405: a context's record of a core is saved; nothing of the context enters the core until it is restored. -/
def State.savedHere (s : State) (x c : Nat) : Bool := (mapGet (s.context x).saved c).isSome
/-- R242: a thief on core `c` may take an entry of a victim. -/
def State.mayTake (s : State) (c victim : Nat) (e : DequeEntry) : Bool :=
  let k := s.kernelAt e.owner.1 e.owner.2
  inDomain k.desc.domain victim c && s.covers k c && !s.savedHere k.ctx c && s.openTo c k.ctx
/-- R242: the victims of core `c` in their order, with the place of the topmost entry that it may take. -/
def State.victim (s : State) (c : Nat) : Option (Nat × Nat) :=
  let order := (s.cores.filter (fun p => decide (p.1 > c))) ++ (s.cores.filter (fun p => decide (p.1 < c)))
  order.findSome? (fun p => (p.2.deque.zipIdx.find? (fun e => s.mayTake c p.1 e.1)).map (fun e => (p.1, e.2)))

/-- R232: the free slots of a core that waiting concurrent launches hold back. -/
def State.reserved (s : State) (c : Nat) : Nat :=
  ((s.launches.filter (fun l => l.waiting && decide (l.slice0 ≤ s.sliceOf c) && decide (s.sliceOf c < l.slice0 + l.nslice))).map (fun l => (l.desc.map (·.quota)).getD 0)).sum
/-- The number of free slots of a core. -/
def State.freeCount (s : State) (c : Nat) : Nat := (slotNumbers.filter (s.slotFree c)).length

/-- What launch seeding has for a core: a Ready record of a node (its depth), or the next thread of a kernel. -/
def State.seedable (s : State) (c : Nat) (k : Kernel) : Option Nat :=
  if k.done ∨ !s.covers k c ∨ !s.openTo c k.ctx ∨
      s.resident k c ≥ k.desc.quota ∨ decide ((s.context k.ctx).st ≠ .active) ∨ s.savedHere k.ctx c then none
  else match k.node with
    | some n => match (s.rootOf k).nodeAt n with
      | some v => if (v.first .ready).isSome then some v.depth else none
      | none => none
    | none => if k.desc.cls ≠ 2 ∧ k.next < k.n then some 0 else none
/-- R231, R275: the better of two candidates: depth, then PRIO, then the earlier acceptance. -/
def betterSeed (a b : Kernel × Nat) : Kernel × Nat :=
  if b.2 > a.2 ∨ (b.2 = a.2 ∧ (b.1.desc.prio > a.1.desc.prio ∨
      (b.1.desc.prio = a.1.desc.prio ∧ b.1.accepted < a.1.accepted))) then b else a
/-- R231, R275: the candidate that launch seeding offers a core. -/
def State.seedChoice (s : State) (c : Nat) : Option (Kernel × Nat) :=
  s.kernels.foldl (fun (r : Option (Kernel × Nat)) k =>
    match s.seedable c k, r with
    | some d, some a => some (betterSeed a (k, d))
    | some d, none => some (k, d)
    | none, _ => r) none

/-- R102: the lowest-numbered free slot of a core is offered: to the arrival queue, its own deque, launch seeding, a steal. -/
def State.offer (s : State) (c : Nat) : State :=
  let k := s.core c
  match (if k.stopped || !s.namesCore c then none else s.freeSlot c) with
  | none => s
  | some i =>
    match k.arrivals with
    | t :: _ => (s.setCore c k.takeArrival).seat c i t
    | [] => match k.deque.getLast? with
      | some e => (s.setCore c k.popDeque).seatEntry c i e
      | none =>
        if s.freeCount c ≤ s.reserved c then s
        else match s.seedChoice c with
          | some (q, _) => match q.node with
            | some n => match (s.rootOf q).nodeAt n with
              | some v => s.seedNode q n v c i
              | none => s
            | none => s.seedNext q c i
          | none => match s.victim c with
            | some (v, n) => match (s.core v).deque[n]? with
              | some e => (s.setCore v ((s.core v).stealDeque n)).seatEntry c i e
              | none => s
            | none => s

/-! ### Requests at group boundaries (R246, R358, R361) -/

/-- A pre-emption or a remap is pending for a core's thread. -/
def State.boundaryDue (s : State) (c : Nat) (t : Thread) : Bool :=
  (s.context t.ctx).saving.contains (clusterOf c) || decide (1 ≤ (s.core c).remapStep ∧ (s.core c).remapStep ≤ 3)
/-- The slot's thread held for its save, if it is still the same one. -/
def State.holdSame (s : State) (uid : Nat) : State :=
  match s.thread with
  | some t => if t.uid = uid then s.setTh { t with hold := true } else s
  | none => s
/-- R246, R358, R361: the instruction of a group boundary issues, and a pending request is honoured there: the thread is held, to be
saved as the instruction leaves it (log 33). -/
def State.boundary (s : State) (k : State → State) : State :=
  if s.th.stage = 0 ∧ s.boundaryDue s.cur s.th then (k s).holdSame s.th.uid else k s

end Sys2Proof.Machine
end

