-- ==== Sys2Proof/Machine/Threads.lean ====
section
/-! DEFINITION. The thread (R95 to R110): dependency waits, migration, the travel mask, yield, halt, the system registers, and
the steps that move threads (R96, R101 to R103). -/

namespace Sys2Proof.Machine

/-- R95; one that waits has issued (log 81). -/
def execDwait (wait : BitVec 8) (s : State) : Out :=
  issue s (s.await (.depZero wait) fun s => (s.waited (.depZero wait) s.th.depTag).advance)

/-! ### Migration (R96 to R105) -/

/-- R105. -/
def State.mig (s : State) (c : Nat) : State :=
  if c ≥ 4096 ∨ !s.coreOk s.th.ctx c then s.trap kBadCore
  else if statM s.th.stat then s.trap kClaim
  else if c = s.cur then s.advance
  else (s.setTh { s.th with aux := BitVec.ofNat 64 c, replay := none, stage := 1 }).park .migrate
/-- R105. -/
def execMig (a : Field) (s : State) : Out := issue s (s.mig (s.reg a).toNat)

/-- R104: the new travel mask. -/
def State.tmask (s : State) (d : Field) (m : BitVec 16) : State :=
  let old := s.th.tm
  ((s.setTh { s.th with tm := m }).setReg d (old.zeroExtend 64)).advance
/-- R104. -/
def execTmask (x : BitVec 4) (d a : Field) (imm : BitVec 22) (s : State) : Out :=
  issue s (s.tmask d (if x = 0 then imm.truncate 16 else (s.reg a).truncate 16))

/-- R96: the conditions under which a thread may be packed, and the vector waits of R190. -/
def Thread.packable (t : Thread) : Bool := t.pending.isEmpty && t.allDepsZero && t.beats.isNone && t.mop.isNone && t.fe.isNone

/-- R96: a thread that waits to migrate is packed and leaves its slot. -/
def State.packUp (s : State) (c : Nat) (i : Fin 16) : State :=
  match s.threadAt c i with
  | none => s
  | some t =>
    if t.st = .parked .migrate ∧ t.packable ∧ !t.hold then
      let t1 : Thread := { t with
        pc := if t.replay.isSome then t.pc else nextPc t.pc t.lineCount, stage := 0, blocked := none, aux := 0 }
      let p := s.packed t1 t.tm
      let k := s.core c
      let s1 : State := { s with transit := s.transit ++ [{ src := c, srcSlot := i.val, dst := t.aux.toNat, thread := p }] }
      (s1.setCore c { k with slots := k.slots.set i none }).count c 5 1
    else s
/-- R96. -/
def execMigrationPack (core slot : Nat) (s : State) : Out := .next (s.packUp core (Fin.ofNat 16 slot))

/-- R101, R405: the packet at a place in transit reaches its core, which accepts one in a cycle. It waits while the core belongs to another context, while its own
context is Pre-empted without a record of the core, while the core's record is being copied (R401), and while the ring needs a chunk
(R103). -/
def State.arrive (s : State) (k : Nat) : State :=
  match s.transit[k]? with
  | none => s
  | some p =>
    let t := p.thread
    let s1 : State := { s with transit := listDel s.transit k }
    match mapGet (s.context t.ctx).saved p.dst with
    | some q =>
      if q.ringRoom && q.lastAccept != some s.cycle then
        ((s1.setCoreFor t.ctx p.dst { q with lastAccept := some s.cycle }).spillTo t.ctx p.dst t t.tm).count p.dst 6 1
      else s
    | none =>
      if (s.core p.dst).lastAccept = some s.cycle ∨ (s.context t.ctx).st ≠ .active ∨ (s.core p.dst).remapStep = 3 then s
      else if (match (s.core p.dst).ctx with | some x => x != t.ctx | none => false) then s
      else if !s.seatable p.dst && !(s.core p.dst).spillRoom then s
      else (s1.accept p.dst t).count p.dst 6 1
/-- R101. -/
def execArrival (k : Nat) (s : State) : Out := .next (s.arrive k)

/-- R102. -/
def execSlotOffer (core : Nat) (s : State) : Out := .next (s.offer core)

/-- R106: the current thread goes behind those that wait, and its slot takes the head of the arrival queue. -/
def State.changePlaces (s : State) (head : Thread) : State :=
  let p := s.packed { s.th.advance with blocked := none } 0xFFFF
  let s1 := s.setCore s.cur { (s.core s.cur).takeArrival with slots := (s.core s.cur).slots.set s.slot none }
  (s1.enqueue s.cur p 0xFFFF).seat s.cur s.slot head
/-- R106: `yield` with no request pending; packing waits for the thread's results (R93). -/
def State.yield (s : State) : State :=
  match (s.core s.cur).arrivals with
  | head :: _ =>
    if (s.freeSlot s.cur).isNone ∧ !statCP s.th.stat ∧ !statM s.th.stat ∧ s.th.allDepsZero then
      s.await .drained (·.changePlaces head)
    else s.advance
  | [] => s.advance
/-- R106: with a request pending the thread stays in its slot, to be saved there. -/
def execYield (s : State) : Out := issue s (s.boundary fun s => if s.boundaryDue s.cur s.th then s.advance else s.yield)

/-- R107: the waits, then the thread leaves its kernel, its group and its slot. -/
def State.halt (s : State) : State :=
  s.await .drained fun s => s.await (.release 5) fun s =>
    (s.depart s.th s.selfTag).vacate s.cur s.slot
/-- R107. -/
def execHalt (s : State) : Out := issue s s.halt

/-! ### System registers (R108 to R110 and the chapters' own tables) -/

/-- R278: a buffer as its register. -/
def CircBuf.reg (b : CircBuf) : Word :=
  let n (st : SlotState) := (b.slots.filter (· == st)).length
  BitVec.ofNat 64 (b.tail * 2 ^ 51 + b.head * 2 ^ 45 + n .filled * 2 ^ 38 + n .free * 2 ^ 31 + b.en.toNat * 2 ^ 30 +
    b.cnt * 2 ^ 24 + b.sz * 2 ^ 18 + b.base)
/-- R216: the latch as its register. -/
def Latch.reg (l : Latch) : Word :=
  let st := match l.st with | .empty => 0 | .filling => 1 | .full => 2 | .passing => 3
  BitVec.ofNat 64 (l.lf.toNat * 2 ^ 26 + l.k * 2 ^ 16 + l.rdr * 2 ^ 4 + st)
/-- R290: the batch tracker as its register. -/
def BatchTracker.reg (b : BatchTracker) : Word := BitVec.ofNat 64 (b.closed.length * 2 ^ 8 + b.opened)
/-- R316: the subscriptions of a core. -/
def State.subsOf (s : State) (c : Nat) : List Sub := (s.cluster (s.ixOf c)).subs.filter (fun b => b.core == c && decide (some b.ctx = (s.core c).ctx))
/-- R316: the pool as its register. -/
def State.poolReg (s : State) (c : Nat) : Word :=
  let p := (s.core c).pool
  BitVec.ofNat 64 (p.valid.toNat * 2 ^ 63 + p.splat.toNat * 2 ^ 62 + (s.subsOf c).length * 2 ^ 49 + p.count * 2 ^ 36 +
    p.list * 2 ^ 18 + p.base)
/-- R311: a carousel as its register. -/
def Carousel.reg (k : Carousel) : Word :=
  let st := match k.st with | .off => 0 | .running => 1 | .idle => 2 | .stopping => 3
  BitVec.ofNat 64 (st * 2 ^ 62 + (k.k - 1) * 2 ^ 58 + k.promo.length * 2 ^ 53 +
    (k.sched.filter (fun e => !e.bad)).length * 2 ^ 40 + k.badid * 2 ^ 24 + k.lapn)
/-- R311: a carousel of another partition reads 0; one that is Off belongs to none. -/
def State.crst (s : State) (c n x : Nat) : Word :=
  let k := s.car (dieOf c) n
  if k.st ≠ .off ∧ k.partition ≠ (s.context x).partition then 0 else k.reg
/-- R31, R216: eight entries of the code table. -/
def tabReg (t : Vector Byte 16) (from_ : Nat) : Word := BitVec.ofNat 64 (leNat ((t.toList.drop from_).take 8))
/-- R346, log 11: the lending area of a slot. -/
def State.lendArea (s : State) (c : Nat) (i : Fin 16) : Nat := s.package.lendBase + 512 * (16 * c + i.val)

/-- R109 and the chapters' tables: what a system register reads; none for a number that no chapter assigns. TIME and POP are read in the cycle of
issue (logs 53, 86). -/
def State.sysRead (s : State) (num : Nat) : Option Word :=
  let t := s.th
  let c := s.core s.cur
  let w (n : Nat) : Option Word := some (BitVec.ofNat 64 n)
  if num = 0x000 then some t.stat
  else if num = 0x001 then some (t.tm.zeroExtend 64)
  else if num = 0x002 then some (t.w.zeroExtend 64)
  else if num = 0x003 then some t.lin
  else if num = 0x004 then some t.plin
  else if num = 0x005 then some (t.kid.zeroExtend 64)
  else if num = 0x006 then some (t.gid.zeroExtend 64)
  else if num = 0x007 then some (t.tidx.zeroExtend 64)
  else if num = 0x008 then w (t.fa.toNat + t.fb.toNat * 16)
  else if num = 0x009 then some (t.sa.zeroExtend 64)
  else if num = 0x00A then some (t.sb.zeroExtend 64)
  else if num = 0x00B then w (depNumbers.map (fun k => (t.dep[k]).toNat * 2 ^ (4 * k.val))).sum
  else if num = 0x00C then w s.slot.val
  else if num = 0x00D then some t.cptTime
  else if num = 0x00E then some t.cptPtr
  else if num = 0x040 then w s.cur
  else if num = 0x041 then w (s.pcore s.cur)
  else if num = 0x042 then w (enabled s.package)
  else if num = 0x043 then w s.time
  else if 0x060 ≤ num ∧ num < 0x064 then c.win.toList[num - 0x060]?
  else if 0x070 ≤ num ∧ num < 0x080 then
    (if num % 2 = 0 then t.kb.toList[(num - 0x070) / 2]? else t.kd.toList[(num - 0x070) / 2]?)
  else if num = 0x080 then w t.vl
  else if num = 0x081 then some (s.claimReg s.cur s.slot t)
  else if num = 0x088 then some c.latch.reg
  else if num = 0x089 then some (tabReg c.table 0)
  else if num = 0x08A then some (tabReg c.table 8)
  else if num = 0x090 then w (s.groupOf t).pop
  else if num = 0x091 then some ((s.groupOf t).gen.zeroExtend 64)
  else if num = 0x092 then some ((s.groupOf t).bar.cph.zeroExtend 64)
  else if num = 0x093 then some (if (s.kernelOf t).desc.cls = 1 then (s.kernelOf t).bar.cph.zeroExtend 64 else 0)
  else if 0x0A0 ≤ num ∧ num < 0x0A4 then (c.cb.toList[num - 0x0A0]?).map CircBuf.reg
  else if num = 0x0A8 then some t.batch.reg
  else if num = 0x0A9 then w c.mcbase
  else if 0x0B0 ≤ num ∧ num < 0x0B4 then some (s.crst s.cur (num - 0x0B0) t.ctx)
  else if num = 0x0B8 then some (s.poolReg s.cur)
  else if num = 0x0C0 then w (if (s.kernelOf t).desc.upcall = 0 then 0 else s.lendArea s.cur s.slot)
  else if num = 0x0C8 then w (s.package.pkg.toNat + s.package.domain.toNat * 2 ^ 18)
  else if num = 0x0C9 then some (s.package.linkup.zeroExtend 64)
  else if 0x0D0 ≤ num ∧ num < 0x0D4 then c.bp.toList[num - 0x0D0]?
  else if num = 0x0D4 then some c.wpa[0]
  else if num = 0x0D5 then some c.wpc[0]
  else if num = 0x0D6 then some c.wpa[1]
  else if num = 0x0D7 then some c.wpc[1]
  else if num = 0x0D8 then w (c.stopEn.toNat + c.stopped.toNat * 2)
  else if 0x0E0 ≤ num ∧ num < 0x0E4 then some (s.pmcRead s.cur (Fin.ofNat 4 (num - 0x0E0)))
  else if 0x0E4 ≤ num ∧ num < 0x0E8 then (c.pmsel.toList[num - 0x0E4]?).map (·.zeroExtend 64)
  else none

/-- R108. Log 53: TIME reads the counter in the cycle in which the instruction issues. -/
def execRdsys (d : Field) (num : BitVec 12) (s : State) : Out :=
  issue s (match s.sysRead num.toNat with
    | some v => s.late d v
    | none => s.trap kIllegal)

/-- R393: a write of STOP: the core stops, or goes on after the last issuer. -/
def State.stopWrite (s : State) (c slot : Nat) (pc : Word) (stop : Bool) : State :=
  if stop then (if (s.core c).stopped then s else s.stopCore c slot 32 pc 0)
  else s.setCore c { s.core c with stopped := false }
/-- R393. -/
def execDbgctlStop (core : Nat) (s : State) : Out := .next (s.stopWrite core (s.core core).last 0 true)
/-- R393: a bundle that stopped at a breakpoint issues without matching again. -/
def execDbgctlResume (core : Nat) (s : State) : Out := .next (s.stopWrite core (s.core core).last 0 false)

/-- R392: a write to a debug register. -/
def CoreState.debugWrite (c : CoreState) (num : Nat) (v : Word) : CoreState :=
  if num = 0x0D0 then { c with bp := c.bp.set 0 v }
  else if num = 0x0D1 then { c with bp := c.bp.set 1 v }
  else if num = 0x0D2 then { c with bp := c.bp.set 2 v }
  else if num = 0x0D3 then { c with bp := c.bp.set 3 v }
  else if num = 0x0D4 then { c with wpa := c.wpa.set 0 v }
  else if num = 0x0D5 then { c with wpc := c.wpc.set 0 (v &&& 3) }
  else if num = 0x0D6 then { c with wpa := c.wpa.set 1 v }
  else if num = 0x0D7 then { c with wpc := c.wpc.set 1 (v &&& 3) }
  else { c with stopEn := v.getLsbD 0 }
/-- R109, R392: every other number is read-only or unassigned. -/
def execWrsys (num : BitVec 12) (a : Field) (s : State) : Out :=
  let n := num.toNat
  let v := s.reg a
  issue s (
    if 0x0D0 ≤ n ∧ n ≤ 0x0D8 ∧ statPriv s.th.stat = 2 then
      let s1 := s.setCore s.cur ((s.core s.cur).debugWrite n v)
      (if n = 0x0D8 then s1.stopWrite s.cur s.slot.val s.th.pc (v.getLsbD 1) else s1).advance
    else s.trap kIllegal)

/-- R87: the fields of STAT that a write changes: FRL, FTE, CF, RM and SAT. -/
def statWritable : Word := 0xF8F380
/-- R87. -/
def execWrsysStat (a : Field) (s : State) : Out :=
  issue s (s.setTh { s.th with stat := (s.th.stat &&& ~~~statWritable) ||| (s.reg a &&& statWritable) }).advance
/-- R109: acts as `tmask`. -/
def execWrsysTm (a : Field) (s : State) : Out := issue s (s.setTh { s.th with tm := (s.reg a).truncate 16 }).advance
/-- R133, R134. -/
def execWrsysSegment (n : BitVec 3) (kd : BitVec 1) (a : Field) (s : State) : Out :=
  let v := s.reg a
  let t := s.th
  issue s (
    if statPriv t.stat = 0 ∨ (kd = 1 ∧ kdMalformed v) then s.trap kIllegal
    else (s.setTh { t with
      kb := if kd = 0 then t.kb.set n.toNat v n.isLt else t.kb
      kd := if kd = 1 then t.kd.set n.toNat v n.isLt else t.kd
      sm := t.sm ||| (1 <<< n.toNat) }).advance)
/-- R142: a window value that may be written. -/
def winOk (v : Word) : Bool := bits v 57 36 == 0 && (!v.getLsbD 63 || decide (1 ≤ bits v 60 58 ∧ bits v 60 58 ≤ 3))
/-- R142. -/
def execWrsysWin (m : BitVec 2) (a : Field) (s : State) : Out :=
  let v := s.reg a
  issue s (if !winOk v then s.trap kIllegal
    else (s.setCore s.cur { s.core s.cur with win := (s.core s.cur).win.set m.toNat v m.isLt }).advance)
/-- R278: a buffer as a write sets it. -/
def CircBuf.configured (v : Word) : CircBuf :=
  { en := v.getLsbD 30
    cnt := bits v 29 24
    sz := bits v 23 18
    base := bits v 17 0
    slots := if v.getLsbD 30 then List.replicate (bits v 29 24 + 1) .free else [] }
/-- R278: the encoding checks of a buffer's value. -/
def cbOk (v : Word) : Bool :=
  bits v 63 57 == 0 && bits v 5 0 == 0 &&
  decide (bits v 17 0 + 64 * (bits v 23 18 + 1) * (bits v 29 24 + 1) ≤ 0x40000)
/-- R278. -/
def execWrsysCb (n : BitVec 2) (a : Field) (s : State) : Out :=
  let v := s.reg a
  let k := s.core s.cur
  let b := k.cb[n.toFin]
  issue s (
    if !cbOk v then s.trap kIllegal
    else if b.slots.contains .filling ∨ b.slots.contains .held ∨ !b.waiters.isEmpty then s.trap kBufferBusy
    else (s.setCore s.cur { k with cb := k.cb.set n.toNat (CircBuf.configured v) n.isLt }).advance)
/-- R288. -/
def execWrsysMcbase (a : Field) (s : State) : Out :=
  let v := s.reg a
  issue s (if bits v 63 18 ≠ 0 then s.trap kIllegal
    else (s.setCore s.cur { s.core s.cur with mcbase := v.toNat }).advance)
/-- R395, R396: a write to PMSELn takes effect in the next cycle. -/
def execWrsysPmsel (n : BitVec 2) (a : Field) (s : State) : Out :=
  let v := s.reg a
  issue s (if statPriv s.th.stat = 0 ∨ v.toNat > 8 then s.trap kIllegal
    else
      let k := s.core s.cur
      (s.setCore s.cur { k with
        pmsel := k.pmsel.set n.toNat (v.truncate 8) n.isLt
        selWas := k.selWas.set n.toNat (some (s.cycle, s.selects s.cur n.toFin)) n.isLt }).advance)
/-- R395, R396. -/
def execWrsysPmc (n : BitVec 2) (a : Field) (s : State) : Out :=
  let v := s.reg a
  issue s (if statPriv s.th.stat = 0 ∨ bits v 62 48 ≠ 0 then s.trap kIllegal
    else
      let w := if (s.wrapped s.cur n.toFin).isSome then v ||| (1 <<< 63) else v
      (s.setCore s.cur { s.core s.cur with pmc := (s.core s.cur).pmc.set n.toNat w n.isLt }).advance)

end Sys2Proof.Machine
end

