-- ==== Sys2Proof/Machine/Group.lean ====
section
/-! DEFINITION. The group (R238 to R252): fork, join, weights, resampling; barriers (R253 to R258); mailboxes (R259 to R262);
`stepmark` (R264). -/

namespace Sys2Proof.Machine

/-! ### fork and join (R244, R245) -/

/-- R244: the task that `fork` makes. -/
def State.forkTask (s : State) (pc : Word) (b : Nat) (lin : Word) : Task :=
  let t := s.th
  let g (n : Nat) : Word := s.sources.g.toList.getD (b + n) 0
  { pc := pc, a1 := g 0, a2 := g 1, a3 := g 2, a4 := g 3, lin := lin, plin := t.lin, kid := t.kid, gid := t.gid
    stat := setBits (setStat (setStat t.stat 5 false) 6 false) 15 12 0
    sa := t.sa, sb := t.sb, fa := t.fa, fb := t.fb, cptTime := t.cptTime, cptPtr := t.cptPtr, ctx := t.ctx }

/-- R244: the counter's increment at its home, the group record, which keeps the counter's DVA, and the push. -/
def State.forkAt (s : State) (h : Option (Nat × Home)) (pc : Word) (b : Nat) : State :=
  let g := s.groupOf s.th
  if g.pop = g.limit ∨ g.next ≥ 2 ^ 32 then s.trap kGroupFull
  else
    let lin := BitVec.ofNat 64 (g.gen.toNat * 2 ^ 32 + g.next)
    let s1 := match h with
      | some (_, h) => s.homeWrite s.th.ctx h 4 ((s.homeRead h 4 + 1) % 2 ^ 32)
      | none => s
    let s2 := s1.setGroup { g with
      next := g.next + 1
      pop := g.pop + 1
      joins := match h with | some (dva, _) => g.joins ++ [(lin, dva)] | none => g.joins }
    let k := s2.kernelOf s2.th
    ((s2.setKernel { k with live := k.live + 1 }).pushDeque s.cur (.task (s2.forkTask pc b lin))).advance

/-- R244. -/
def State.fork (s : State) (jn : Bool) (ea : Word) (pc : Word) (b : Nat) : State :=
  if !jn then s.await (.release 5) fun s => s.forkAt none pc b
  else match s.check s.th ea 4 .atomic false with
    | .error k => s.trapAt k ea 2
    | .ok (.store _ _) => s.trapAt kSegRights ea 2
    | .ok (.device dva) => s.await (.release 5) fun s => s.needHome ea dva true 2 fun h => s.inLane h 4 fun s =>
        (s.watchBoth ea 4).forkAt (some (dva, h)) pc b
/-- R244. -/
def execFork (jn : BitVec 1) (a b idx : Field) (off : BitVec 17) (s : State) : Out :=
  issue s (s.fork (jn == 1) (s.reg a) (branchTarget s.th.pc idx off) b.toNat)

/-- R245. -/
def State.join (s : State) (ea : Word) : State :=
  match s.check s.th ea 4 .read false with
  | .error k => s.trapAt k ea 0
  | .ok (.store _ _) => s.trapAt kSegRights ea 0
  | .ok (.device dva) => s.needHome ea dva false 0 fun h => s.inLane h 4 fun s =>
      let w := Wait.join dva
      if s.th.granted ∨ s.homeRead h 4 = 0 then ((s.watch ea 4 false).waited w s.th.tag).acquire.advance
      else s.park w
/-- R245. -/
def execJoin (a : Field) (s : State) : Out := issue s (s.join (s.reg a))

/-! ### Resampling (R247 to R252) -/

/-- R247. -/
def execWset (a : Field) (s : State) : Out := issue s (s.setTh { s.th with w := (s.reg a).truncate 32 }).advance

/-- R231: the cores of a kernel's set E, in ascending number. -/
def State.eligible (s : State) (k : Kernel) : List Nat := (List.range 4096).filter (s.covers k)

/-- R248: the arrival, once its waits are over. -/
def State.resampArrive (s : State) (d : Field) (n : Nat) : State :=
  s.await .settled fun s => s.await (.release 5) fun s =>
    let g := s.groupOf s.th
    if (match g.arrivals with | a :: _ => a.n != n | [] => false) then s.trap kResampleMismatch
    else
      let s1 := s.setGroup { g with
        arrivals := g.arrivals ++ [⟨s.th.uid, s.th.lin.toNat % 2 ^ 32, s.th.w.toNat, n, d⟩], tag := some s.selfTag }
      ((s1.setTh { s1.th with aux := BitVec.ofNat 64 n }).stage 2).park (.resample g.gen)
/-- R248: the checks at issue, made once; then the arrival; then the collective's end: a survivor's dst := 0 comes after its clones' (log 87). -/
def State.resamp (s : State) (d : Field) (nw : Word) : State :=
  let t := s.th
  let n := nw.toNat
  if t.stage = 2 then
    if t.granted then ((s.acquire).setReg d 0).advance else s.park (.resample (s.groupOf t).gen)
  else if t.stage = 1 then s.resampArrive d n
  else
    let g := s.groupOf t
    let k := s.kernelOf t
    if n = 0 ∨ n > g.limit then s.trap kResampleLimit
    else if k.desc.cls = 1 ∧ n + (k.live - g.pop) > k.desc.quota * (s.eligible k).length then s.trap kResampleLimit
    else (s.stage 1).resampArrive d n
/-- R248. -/
def execResamp (d a : Field) (s : State) : Out := issue s (s.boundary fun s => s.resamp d (s.reg a))

/-- R250: MIX64. -/
def mixStep (x : Word) : Word := (x ^^^ (x >>> 32)) * 0xD6E8FEB86659FD93
def mix64 (x : Word) : Word := let y := mixStep (mixStep x); y ^^^ (y >>> 32)
/-- R250: u. -/
def combU (rseed : Word) (g : BitVec 32) : Nat := bits (mix64 (rseed ^^^ (g.zeroExtend 64 * 0x9E3779B97F4A7C15))) 63 32
/-- R249: how many of the `n` comb points lie below a prefix `p` of the sum `w`. -/
def pointsBelow (w n u p : Nat) : Nat := min n ((p * n * 2 ^ 32 - w * u + (w * 2 ^ 32 - 1)) / (w * 2 ^ 32))
/-- R249: each member of a comb in ascending index, with its first point and its number of points. -/
def deal (w n u : Nat) : Nat → List Arrival → List (Arrival × Nat × Nat)
  | _, [] => []
  | p, a :: r => (a, pointsBelow w n u p, pointsBelow w n u (p + a.w) - pointsBelow w n u p) :: deal w n u (p + a.w) r
/-- R249: the deal of a collective. -/
def comb (rseed : Word) (gen : BitVec 32) (arr : List Arrival) : List (Arrival × Nat × Nat) :=
  let ms := sortBy (·.comb) arr
  let n : Nat := (arr.head?.map (·.n)).getD 1
  let sum : Nat := (ms.map (·.w)).sum
  let ms1 := if sum = 0 then ms.map (fun a => { a with w := 1 }) else ms
  deal (if sum = 0 then ms.length else sum) n (combU rseed gen) 0 ms1

/-- R251: a survivor. -/
def Thread.survive (t : Thread) (gen : Nat) (j0 : Nat) : Thread :=
  { t with w := 1, plin := t.lin, lin := BitVec.ofNat 64 (gen * 2 ^ 32 + j0), granted := true, blocked := none }
/-- R251: clone `k` of a member. -/
def Thread.cloneOf (t : Thread) (gen j0 k : Nat) : Thread :=
  { ctx := t.ctx
    pc := nextPc t.pc t.lineCount
    g := t.g
    stat := setStat (setStat t.stat 5 false) 6 false
    tm := t.tm
    fa := t.fa
    fb := t.fb
    sa := t.sa
    sb := t.sb
    kb := t.kb
    kd := t.kd
    sm := t.sm
    lin := BitVec.ofNat 64 (gen * 2 ^ 32 + j0 + k)
    plin := t.lin
    kid := t.kid
    gid := t.gid
    tidx := BitVec.ofNat 32 (j0 + k)
    cptTime := t.cptTime
    cptPtr := t.cptPtr }

/-- R252: the cores that may take a clone of a member on core `c`, in their order. -/
def cloneCores (c : Nat) : List Nat := c :: sortBy (fun q => absDiff (q % 8) (c % 8) * 8 + q % 8) ((coresOf (clusterOf c)).filter (· != c))
/-- R252: a clone placed in a free slot, or at the bottom of the member's core's deque, as a record in the layout of R99 (R240): of
its g registers those that TM names. Its copy number is its dst. -/
def State.placeClone (s : State) (c : Nat) (d : Field) (t : Thread) (k : Nat) : State :=
  let t1 := if d.getLsbD 4 then t
    else { t with g := t.g.set (d.extractLsb' 0 4).toNat (BitVec.ofNat 64 k) (d.extractLsb' 0 4).isLt }
  let free (q : Nat) : Option (Nat × Fin 16) :=
    if (s.core q).stopped || !s.openTo q t.ctx then none
    else (s.freeSlot q).map (fun i => (q, i))
  match (cloneCores c).findSome? free with
  | some (q, i) =>
    let s1 := (s.seat q i t1).acquireAt q
    if d.getLsbD 4 then s1.putReg q i d (BitVec.ofNat 64 k) else s1
  | none =>
    let s1 := s.pushDeque c (.clone (s.packed t1 t1.tm))
    if d.getLsbD 4 then s1.putReg c 0 d (BitVec.ofNat 64 k) else s1

/-- R251: every member has arrived: edges, the record, the members that are bound off, then the clones. -/
def State.resampleDone (s : State) (n : Nat) : State :=
  match s.groups[n]? with
  | none => s
  | some g =>
    let where_ := g.arrivals.map (fun a => (a.uid, s.locate a.uid))
    if g.arrivals.isEmpty ∨ g.arrivals.length < g.pop ∨ where_.any (fun p => p.2.isNone) then s
    else
      let k := s.kernelAt g.ctx g.kid
      let cb := comb k.desc.rseed g.gen g.arrivals
      let gen := (g.gen + 1).toNat
      let total := (g.arrivals.head?.map (·.n)).getD 1
      let at_ (a : Arrival) : Option (Nat × Fin 16) := s.locate a.uid
      let s1 := cb.foldl (fun (r : State) m => match at_ m.1 with
        | some (c, i) => match (r.threadAt c i).bind (·.blocked) with
          | some (_, since) => if since < r.cycle then r.edge c i since g.tag else r
          | none => r
        | none => r) s
      let lins := cb.filterMap (fun m => (at_ m.1).bind (fun p => (s1.threadAt p.1 p.2).map (fun t => (m, p, t))))
      let ren := lins.map (fun (m, _, t) =>
        (t.lin.toNat, if m.2.2 = 0 then none else some (gen * 2 ^ 32 + m.2.1)))
      let s2 := lins.foldl (fun (r : State) (m, _, t) => if m.2.2 ≠ 0 then r
        else
          let r1 := match g.joins.find? (fun j => j.1 == t.lin) with
            | some (_, a) => r.countDown t.ctx a (g.tag.getD {})
            | none => r
          r1.freeHeld t (g.tag.getD {})) s1
      let off := (lins.filter (fun (m, _, _) => m.2.2 = 0)).map (fun (_, _, t) => t.uid)
      let s3 := s2.checkGroup { g with
        gen := g.gen + 1
        next := total
        pop := total
        arrivals := []
        joins := g.joins.filterMap (fun j => match mapGet ren j.1.toNat with
          | some (some l) => some (BitVec.ofNat 64 l, j.2)
          | some none => none
          | none => some j)
        bar := { g.bar with arrived := g.bar.arrived.filter (fun u => !off.contains u) } } (g.tag.getD {})
      let k3 := s3.kernelAt g.ctx g.kid
      let s4 := s3.checkKernel { k3 with
        live := k3.live + total - g.arrivals.length
        bar := { k3.bar with arrived := k3.bar.arrived.filter (fun u => !off.contains u) } } (g.tag.getD {})
      let s5 := lins.foldl (fun (r : State) (m, p, _) => if m.2.2 = 0 then r.vacate p.1 p.2
        else match r.threadAt p.1 p.2 with
          | some t => r.setSlot p.1 p.2 (some (t.survive gen m.2.1))
          | none => r) s4
      lins.foldl (fun (r : State) (m, p, t) =>
        (List.range (m.2.2 - 1)).foldl (fun (q : State) k =>
          q.placeClone p.1 m.1.dst (t.cloneOf gen m.2.1 (k + 1)) (k + 1)) r) s5
/-- R251. -/
def execResampleComplete (grp : Nat) (s : State) : Out := .next (s.resampleDone grp)

/-! ### Barriers (R253 to R258) -/

/-- R258: the arrival, which goes on with the number of the phase in which the thread has arrived. -/
def State.barrierArrive (s : State) (kind id n : Nat) (k : State → BitVec 32 → State) : State :=
  let t := s.th
  let g := s.groupOf t
  if kind = 2 ∧ (s.kernelOf t).desc.cls ≠ 1 then s.trap kIllegalBarrier
  else if kind = 1 ∧ (n = 0 ∨ n > g.limit) then s.trap kBarrierLimit
  else s.await (.release 5) fun s =>
    let b := s.barrier t kind id
    if kind = 1 ∧ !b.arrived.isEmpty ∧ n ≠ b.count then s.trap kBarrierMismatch
    else if b.arrived.contains t.uid then s.park (.rearrive kind id b.cph)
    else
      let b1 := { b with arrived := b.arrived ++ [t.uid], count := if kind = 1 then n else b.count }
      let s1 :=
        if kind = 0 then s.checkGroup { g with bar := b1 } s.selfTag
        else if kind = 1 then
          let b2 := b1.check n s.selfTag
          (s.setGroup { g with named := mapPut g.named id b2 }).phaseTag g.ctx g.kid (some g.gid) 1 id b1.cph b2.cph s.selfTag
        else s.checkKernel { s.kernelOf t with bar := b1 } s.selfTag
      k s1 b.cph

/-- R253, R263: a `bar.sync` that was Parked in the phase in which its thread had already arrived: the end of that wait. -/
def State.endRearrive (s : State) : State :=
  match s.th.blocked with
  | some (.rearrive k j p, _) =>
    let s1 := s.waited (.rearrive k j p) s.th.tag
    s1.setTh { s1.th with blocked := none, tag := none }
  | _ => s
/-- R258: the wait for a token's phase. -/
def State.barrierWait (s : State) (kind id : Nat) (tok : BitVec 32) : State :=
  let w := Wait.barrier kind id tok
  s.await w fun s => ((s.waited w s.th.tag).acquire).advance

/-- R258: the id of a named barrier. -/
def barId (kind : BitVec 2) (v : Word) : Nat := if kind = 1 then bits v 3 0 else 0

/-- R258. -/
def execBarArrive (kind : BitVec 2) (d a b : Field) (s : State) : Out :=
  issue s (s.boundary fun s => s.barrierArrive kind.toNat (barId kind (s.reg a)) (s.reg b).toNat fun s p =>
    (s.setReg d (p.zeroExtend 64)).advance)
/-- R258. -/
def execBarWait (kind : BitVec 2) (a b : Field) (s : State) : Out :=
  issue s (s.barrierWait kind.toNat (barId kind (s.reg b)) ((s.reg a).truncate 32))
/-- R258. -/
def execBarSync (kind : BitVec 2) (a b : Field) (s : State) : Out :=
  let id := barId kind (s.reg a)
  issue s (if s.th.stage = 2 then s.barrierWait kind.toNat id (s.th.aux.truncate 32)
    else s.boundary fun s => s.endRearrive.barrierArrive kind.toNat id (s.reg b).toNat fun s p =>
      let s1 := s.setTh { s.th with stage := 2, aux := p.zeroExtend 64 }
      s1.barrierWait kind.toNat id p)

/-! ### Mailboxes (R259 to R262) -/

/-- R261. -/
def State.msend (s : State) (c : Nat) (m : Mail) : State :=
  let t := s.th
  let go (s : State) : State :=
    ((s.post c (.mail { m with tag := s.selfTag } false)).setTh { s.th with stage := 2, granted := false, refused := false }).park .reply
  if t.stage = 2 then (if t.granted then s.advance else if t.refused then s.trap kRefused else s.park .reply)
  else if t.stage = 3 then s.await .mailRoom go
  else if c ≥ 4096 ∨ !s.coreOk t.ctx c then s.trap kBadCore
  else s.await (.release 5) go
/-- R261. -/
def execMsend (any : BitVec 1) (t c v : Field) (s : State) : Out :=
  issue s (s.msend (s.reg c).toNat
    { d := s.reg v
      tt := if any = 1 then 0xFFFFFFFF else (s.reg t).truncate 32
      ktag := s.th.kid.truncate 12
      kind := 0
      sender := BitVec.ofNat 12 s.cur })

/-- R260, R261: a message reaches its mailbox, or finds no room and goes back to its sender. -/
def State.takeMail (s : State) (m : Msg) (e : Mail) : State :=
  if !s.holds m.ctx m.dst then s.reply m .nack
  else if s.mailFull m.ctx m.dst then s.reply m (.mail e true)
  else (s.deliverMail m.ctx m.dst e).reply m (.ack none)
/-- R260, R261: a message comes to a core, or back to its sender. -/
def State.mailArrive (s : State) (msg : Nat) : State :=
  match s.msgAt msg with
  | none => s
  | some m => match m.body with
    | .mail e false => s.atInterface msg m (·.takeMail m e)
    | .mail _ true => ({ s with msgs := listDel s.msgs msg } : State).updThread m.uid (fun t => { t with
        stage := 3
        st := .parked .mailRoom
        aux := BitVec.ofNat 64 m.src
        blocked := none })
    | _ => s
/-- R19, R401: the requests that the interface of a core has accepted and not performed, performed in the order in which it accepted them. -/
def State.serveHeld (s : State) (c : Nat) : State :=
  (s.msgs.filter (fun m => m.held && m.dst == c)).foldl (fun (s : State) m =>
    let s1 : State := { s with msgs := s.msgs.filter (· != m) }
    match m.body with | .mail e _ => s1.takeMail m e | _ => s1.serve m) s
/-- R260. -/
def execMailboxArrival (msg : Nat) (s : State) : Out := .next (s.mailArrive msg)

/-- R262. -/
def execMwait (own : BitVec 1) (s : State) : Out :=
  issue s (
    let w := Wait.mail (own == 1)
    s.await w fun s =>
      (s.waited w (((s.core s.cur).mailbox.find? (s.mailSeen s.th (own == 1))).map (·.tag))).advance)
/-- R259: bytes 8 to 15 of an entry. -/
def Mail.high (m : Mail) : Word :=
  BitVec.ofNat 64 (m.tt.toNat + (m.ktag.toNat + m.kind.toNat * 2 ^ 12) * 2 ^ 32 + m.sender.toNat * 2 ^ 48)
/-- R262. -/
def State.mpop (s : State) (own : Bool) (d m : Field) : State :=
  let k := s.core s.cur
  match k.mailbox.find? (s.mailSeen s.th own) with
  | none => ((s.setReg d 0).setReg m (-1)).advance
  | some e =>
    let s1 := s.setCore s.cur ({ k with mailbox := k.mailbox.erase e }.settleMail s.cycle)
    (((s1.setReg d e.d).setReg m e.high).acquire).advance
/-- R262. -/
def execMpop (own : BitVec 1) (d m : Field) (s : State) : Out := issue s (s.mpop (own == 1) d m)

/-! ### stepmark (R264) -/

/-- R264. -/
def State.stepmark (s : State) (d : Field) (v : Word) : State :=
  let t := s.th
  let r := if s.tracing t.ctx 0 then
      s.append t.ctx [recordHead 2 0 t.cptTime.toNat,
        BitVec.ofNat 64 ((s.slotEntity s.cur s.slot.val).toNat + s.pathAt t.ctx t.cptPtr * 2 ^ 40),
        BitVec.ofNat 64 (v.toNat % 2 ^ 32), t.cptPtr] false
    else (s, none)
  let s1 := r.1.setTh { r.1.th with cptTime := 0, cptPtr := 0 }
  (s1.setReg d (BitVec.ofNat 64 (r.2.getD 0))).advance
/-- R264. -/
def execStepmark (d a : Field) (s : State) : Out := issue s (s.boundary fun s => s.stepmark d (s.reg a))

end Sys2Proof.Machine
end

