-- ==== Sys2Proof/Machine/Queue.lean ====
section
/-! DEFINITION. Circular buffers (R278 to R280, R296) and node queues (R277). -/

namespace Sys2Proof.Machine

/-! ### Circular buffers (R279, R280) -/

/-- R278: the byte offset of a slot, and the bytes of one. -/
def CircBuf.slotAt (b : CircBuf) (n : Nat) : Nat := b.base + 64 * (b.sz + 1) * n
def CircBuf.slotBytes (b : CircBuf) : Nat := 64 * (b.sz + 1)
/-- R279: a producer takes slot TAIL, which is Filling from now on. -/
def CircBuf.take (b : CircBuf) (p : Producer) : CircBuf :=
  { b with
    slots := listSet b.slots b.tail .filling
    tail := (b.tail + 1) % (b.cnt + 1)
    waiters := b.waiters.filter (· != p)
    freeTags := mapDel b.freeTags b.tail
    freedAt := mapDel b.freedAt b.tail }
/-- R296: a producer leaves the buffer's queue. -/
def CircBuf.leave (b : CircBuf) (p : Producer) : CircBuf := { b with waiters := b.waiters.filter (· != p) }
/-- R296: a producer joins the buffer's queue. -/
def CircBuf.enqueue (b : CircBuf) (p : Producer) : CircBuf :=
  if b.waiters.contains p then b else { b with waiters := b.waiters ++ [p] }
/-- R279: a fill is complete. -/
def CircBuf.filled (b : CircBuf) (n : Nat) (tag : Tag) : CircBuf :=
  { b with slots := listSet b.slots n .filled, fillTags := mapPut b.fillTags n tag }
/-- R405: the fills of a saved buffer's slots take effect at its restore, at a time. -/
def CircBuf.restored (b : CircBuf) (time : Nat) : CircBuf :=
  b.fills.foldl (fun b p => b.filled p.1 { p.2 with time := BitVec.ofNat 64 time }) { b with fills := [] }
/-- R279: the head slot is returned as Held. -/
def CircBuf.hold (b : CircBuf) : CircBuf :=
  { b with
    slots := listSet b.slots b.head .held
    heldOrder := b.heldOrder ++ [b.head]
    head := (b.head + 1) % (b.cnt + 1) }
/-- R279: the oldest Held slot is freed. -/
def CircBuf.release (b : CircBuf) (tag : Tag) (now : Nat) : CircBuf :=
  match b.heldOrder with
  | n :: r => { b with
      slots := listSet b.slots n .free
      heldOrder := r
      freeTags := mapPut b.freeTags n tag
      freedAt := mapPut b.freedAt n now }
  | [] => b

/-- A buffer of a core. -/
def CoreState.buf (k : CoreState) (n : Nat) : CircBuf := k.cb.toList.getD n {}
/-- A core with one of its buffers set. -/
def CoreState.setBuf (k : CoreState) (n : Nat) (b : CircBuf) : CoreState := { k with cb := k.cb.set (n % 4) b (Nat.mod_lt _ (by decide)) }
/-- R405: the fills of every buffer of a core that is restored. -/
def CoreState.fillBufs (k : CoreState) (time : Nat) : CoreState :=
  ([0, 1, 2, 3] : List Nat).foldl (fun (k : CoreState) n => k.setBuf n ((k.buf n).restored time)) k
/-- The issuing core's buffer set. -/
def State.setBuf (s : State) (n : Nat) (b : CircBuf) : State := s.setCore s.cur ((s.core s.cur).setBuf n b)

/-- R280: the LA of a slot on a core. -/
def slotLA (c off : Nat) : Word := BitVec.ofNat 64 (c * 2 ^ 18 + off)

/-- R280. -/
def State.cbwait (s : State) (n : Nat) (d : Field) : State :=
  if !((s.core s.cur).buf n).en then s.trap kBadBuffer
  else s.await (.cbFill n) fun s =>
    let b := (s.core s.cur).buf n
    let s1 := (s.waited (.cbFill n) (mapGet b.fillTags b.head)).setBuf n b.hold
    ((s1.acquire).setReg d (slotLA s.cur (b.slotAt b.head))).advance
/-- R280. -/
def execCbwait (n : BitVec 2) (d : Field) (s : State) : Out := issue s (s.cbwait n.toNat d)
/-- R280. -/
def State.cbrel (s : State) (n : Nat) : State :=
  let b := (s.core s.cur).buf n
  if !b.en ∨ b.heldOrder.isEmpty then s.trap kBadBuffer
  else s.await (.release 5) fun s => (s.setBuf n (((s.core s.cur).buf n).release s.selfTag s.cycle)).advance
/-- R280. -/
def execCbrel (n : BitVec 2) (s : State) : Out := issue s (s.cbrel n.toNat)
/-- R280, R296: a thread takes a free slot and fills it, or waits in the buffer's queue. -/
def State.cbfill (s : State) (n : Nat) (d : Field) (ea : Word) (off : Nat) : State :=
  let b := (s.core s.cur).buf n
  let me := Producer.thread s.th.uid
  if !b.mayTake me s.cycle then (s.setBuf n (b.enqueue me)).park (.cbFree n)
  else if listClosed (s.core s.cur) (b.slotAt b.tail) b.slotBytes then (s.setBuf n (b.leave me)).trapAt kSegRights ea 1
  else
    let s1 := s.waited (.cbFree n) (mapGet b.freeTags b.tail)
    let k := s1.core s1.cur
    let at_ := b.slotAt b.tail
    let k1 := { k with ls := k.ls.put at_ (k.ls.bytes off b.slotBytes) }.setBuf n ((b.take me).filled b.tail s1.selfTag)
    (((s1.setCore s1.cur k1).acquire).setReg d (slotLA s1.cur at_)).advance
/-- R280. -/
def State.cbput (s : State) (n : Nat) (d : Field) (ea : Word) : State :=
  let b := (s.core s.cur).buf n
  if !b.en then s.trap kBadBuffer
  else match s.checkNear s.cur s.th ea b.slotBytes with
    | .error k => s.trapAt k ea 0
    | .ok a =>
      if ea.toNat % 64 ≠ 0 then s.trapAt kMisaligned ea 0
      else s.await (.release 5) fun s => s.cbfill n d ea (a % 2 ^ 18)
/-- R280. -/
def execCbput (n : BitVec 2) (d a : Field) (s : State) : Out := issue s (s.cbput n.toNat d (s.reg a))

/-! ### Spans of GLOBAL memory (R131, R135, R402) -/

/-- R135, checks 2 and 3, of `n` bytes through the thread's segment registers, with no alignment of its own. -/
def State.checkSpan (s : State) (t : Thread) (ea : Word) (n : Nat) (r : Right) : Except Nat Place :=
  let kd := t.kd[segIndex ea]
  let a := t.kb[segIndex ea].toNat + segOffset ea
  if kdKind kd = 0 ∨ kdKind kd = 3 ∨ !grants kd r then .error kSegRights
  else if segOffset ea + n - 1 > kdLimit kd then .error kSegLimit
  else if kdKind kd = 1 then (if a + n - 1 ≥ 2 ^ 57 then .error kSegLimit else .ok (.device a))
  else if a + n - 1 ≥ 2 ^ 30 ∨ !s.coreOk t.ctx (a / 2 ^ 18) ∨ !s.coreOk t.ctx ((a + n - 1) / 2 ^ 18) then .error kSegLimit
  else .ok (.store (a / 2 ^ 18) (a % 2 ^ 18))
/-- The same for an instruction whose segment must be GLOBAL, which fails check 2 otherwise. -/
def State.checkGlobal (s : State) (t : Thread) (ea : Word) (n : Nat) (r : Right) : Except Nat Nat :=
  if kdKind t.kd[segIndex ea] ≠ 1 then .error kSegRights
  else match s.checkSpan t ea n r with
    | .ok (.device d) => .ok d
    | .ok (.store _ _) => .error kSegRights
    | .error k => .error k

/-- R402: the pages of a span of `size` bytes are translated in ascending order: `n` more 4 KiB pieces from page `p` on, and the span's
first byte. What channel 0 carries there before it is performed first (R17, R18). -/
def State.needSpan (s : State) (ea : Word) (dva : Nat) (write : Bool) (access size : Nat) : Nat → Nat → (State → State) → State
  | 0, _, k => k s
  | n + 1, p, k =>
    let a := max dva (p * 4096)
    let m := min (dva + size) ((p + 1) * 4096) - a
    s.needHome ea a write access fun h => s.inLane h m fun s =>
      (if write then s else s.meetEcc h m).needSpan ea dva write access size n (p + 1) k
/-- The 4 KiB pieces of a span. -/
def pieces (dva n : Nat) : Nat := (dva + n - 1) / 4096 + 1 - dva / 4096

/-- The home of a byte that the issuing cluster's port has translated. -/
def State.portHome (s : State) (dva : Nat) (write : Bool) : Option Home := s.hit (clusterOf s.cur) s.th.ctx dva write
/-- Bytes of device memory read through the port. -/
def State.portBytes (s : State) (dva : Nat) : Nat → List Byte
  | 0 => []
  | n + 1 => (match s.portHome dva false with | some h => BitVec.ofNat 8 (s.homeRead h 1) | none => 0) :: s.portBytes (dva + 1) n
/-- Words of device memory written through the port, each 8 bytes whole. -/
def State.portPut (s : State) (dva : Nat) : List Word → State
  | [] => s
  | w :: r => ((match s.portHome dva true with | some h => s.homeWrite s.th.ctx h 8 w.toNat | none => s)).portPut (dva + 8) r

/-! ### Node queues (R277) -/

/-- The depth of a thread: that of its kernel's node, 0 for the root (R274). -/
def State.depthOf (s : State) (k : Kernel) : Nat :=
  match k.node with
  | some n => ((s.rootOf k).nodeAt n).elim 0 (·.depth)
  | none => 0

/-- R277: a record is placed; the taking of a freed record acquires. -/
def State.placeRecord (s : State) (root : BitVec 32) (n : Nat) (d : Field) (bytes : List Byte) : State :=
  let r := s.kernelAt s.th.ctx root
  match r.nodeAt n with
  | none => s
  | some v => match v.first .free with
    | none => s
    | some i =>
      let at_ := v.pool + v.rsize * i
      let s1 := (s.waited (.nodeFree n) (mapGet v.tags i)).portPut at_ (toWords (v.rsize / 8) bytes)
      let s2 := s1.setKernel (r.setNode n { v with
        records := listSet v.records i .ready, waiters := v.waiters.filter (· != s.th.uid), tags := mapDel v.tags i })
      let k := s2.kernelAt s.th.ctx v.kid
      (((s2.setKernel { k with live := k.live + 1 }).acquire).setReg d (BitVec.ofNat 64 at_)).advance

/-- R277. -/
def State.nqput (s : State) (d : Field) (node ea : Word) : State :=
  let t := s.th
  let k := s.kernelOf t
  let r := s.rootOf k
  match r.nodeAt node.toNat with
  | none => s.trap kBadNode
  | some v =>
    if v.depth ≤ s.depthOf k then s.trap kGraphOrder
    else match s.checkSpan t ea v.rsize .read with
      | .error e => s.trapAt e ea 0
      | .ok p =>
        if (match p with | .store c o => c != s.cur || decide (o + v.rsize > 2 ^ 18) | .device _ => false) then s.trapAt kVecRemote ea 0
        else if ea.toNat % 16 ≠ 0 then s.trapAt kMisaligned ea 0
        else s.await (.release 5) fun s =>
          let n := node.toNat
          if !s.resolved s.cur s.th (.nodeFree n) then
            let w := if v.waiters.contains t.uid then v.waiters else v.waiters ++ [t.uid]
            (s.setKernel ((s.rootOf k).setNode n { v with waiters := w })).park (.nodeFree n)
          else
            let at_ := v.pool + v.rsize * (v.first .free).getD 0
            s.needSpan (BitVec.ofNat 64 at_) at_ true 1 v.rsize (pieces at_ v.rsize) (at_ / 4096) fun s =>
              match p with
              | .store _ o => s.placeRecord r.kid n d ((s.core s.cur).ls.bytes o v.rsize)
              | .device dva => s.needSpan ea dva false 0 v.rsize (pieces dva v.rsize) (dva / 4096) fun s =>
                s.placeRecord r.kid n d (s.portBytes dva v.rsize)
/-- R277. -/
def execNqput (d a b : Field) (s : State) : Out := issue s (s.nqput d (s.reg a) (s.reg b))

/-- R277. -/
def State.nqdone (s : State) (a : Word) : State :=
  match s.heldRecord s.th with
  | some (_, v, rec) =>
    if a ≠ BitVec.ofNat 64 (v.pool + v.rsize * rec) then s.trap kBadRecord
    else s.await (.release 5) fun s => (s.freeHeld s.th s.selfTag).advance
  | none => s.trap kBadRecord
/-- R277. -/
def execNqdone (a : Field) (s : State) : Out := issue s (s.nqdone (s.reg a))

end Sys2Proof.Machine
end

