-- ==== Sys2Proof/Machine/System.lean ====
section
/-! DEFINITION. System instructions: fibre frames (R348, R349), `trap`, `eret` and `wfi` (R365 to R367), translations (R350), code
lines (R72, R122), breakpoints and marks (R394). -/

namespace Sys2Proof.Machine

/-! ### Fibre frames (R348, R349) -/

/-- R348, R349: the address check of `cxsave` and `cxload`: neither the effective address nor the frame may be off a multiple of 64 (log 68). -/
def State.checkFrame (s : State) (ea : Word) (r : Right) : Except Nat Nat :=
  match s.checkGlobal s.th ea 256 r with
  | .error k => .error k
  | .ok d => if ea.toNat % 64 ≠ 0 ∨ d % 64 ≠ 0 then .error kMisaligned else .ok d

/-- R349. -/
def State.cxsave (s : State) (ea : Word) : State :=
  if statPriv s.th.stat = 0 then s.trap kIllegal
  else match s.checkFrame ea .write with
    | .error k => s.trapAt k ea 1
    | .ok d => s.await .quiet fun s => s.await (.release 5) fun s =>
      s.needSpan ea d true 1 256 (pieces d 256) (d / 4096) fun s =>
        let t := { s.th with batch := { s.th.batch with opened := 0, live := 0 } }
        ((s.portPut d (t.frame (nextPc t.pc t.lineCount))).setTh t).advance
/-- R349. -/
def execCxsave (a : Field) (s : State) : Out := issue s (s.cxsave (s.reg a))

/-- R349: word `n` of a frame's bytes. -/
def frameWord (b : List Byte) (n : Nat) : Word := BitVec.ofNat 64 (leNat ((b.drop (8 * n)).take 8))
/-- R348, R86: the reserved bits of a frame. -/
def frameOk (b : List Byte) : Bool :=
  let w := frameWord b
  bits (w 1) 63 24 == 0 && bits (w 1) 18 16 == 0 && bits (w 1) 11 10 == 0 && bits (w 1) 4 2 == 0 &&
  bits (w 6) 31 24 == 0 && decide (bits (w 6) 19 16 ≤ 8) && decide (bits (w 6) 23 20 ≤ 8) &&
  bits (w 7) 63 32 == 0 && w 10 == 0 && w 11 == 0 && w 28 == 0 && w 29 == 0 && w 30 == 0 && w 31 == 0
/-- R345: how a faulter is known while its thread is in a frame. -/
def repeatKey (kid gid : BitVec 32) (lin : Word) : Nat := (kid.toNat * 2 ^ 32 + gid.toNat) * 2 ^ 64 + lin.toNat

/-- R349: every field of a frame loaded; PRIV is not raised, M and CP stay. -/
def Thread.loadFrame (t : Thread) (b : List Byte) : Thread :=
  let w := frameWord b
  let low (n : Nat) : BitVec 32 := (w n).truncate 32
  let high (n : Nat) : BitVec 32 := (w n).extractLsb' 32 32
  let st := setBits (setStat (setStat (w 1) 5 (statM t.stat)) 6 (statCP t.stat)) 1 0 (min (statPriv (w 1)) (statPriv t.stat))
  { t.finish (w 0) none with
    stat := st, lin := w 2, plin := w 3, kid := low 4, gid := high 4, tidx := low 5, w := high 5
    tm := (w 6).truncate 16
    fa := (w 6).extractLsb' 16 4
    fb := (w 6).extractLsb' 20 4
    sa := high 6
    sb := low 7
    cptTime := w 8
    cptPtr := w 9
    g := slotNumbers.foldl (fun (v : Vector Word 16) (i : Fin 16) => v.set i (w (12 + i.val))) t.g
    lent := t.lent && statPriv st != 0 }

/-- R349: a frame at a DVA is read and loaded. -/
def State.loadFrame (s : State) (ea : Word) (d : Nat) : State :=
  s.await .acks fun s => s.needSpan ea d false 0 256 (pieces d 256) (d / 4096) fun s =>
    let b := s.portBytes d 256
    let kid : BitVec 32 := (frameWord b 4).truncate 32
    if !frameOk b ∨ !s.kernels.any (fun k => k.ctx == s.th.ctx && k.kid == kid && !k.done) then s.trapAt kBadFrame ea 0
    else
      let t := s.th.loadFrame b
      let key := repeatKey t.kid t.gid t.lin
      let x := s.context t.ctx
      let n := (mapGet x.repeats key).getD (0, 0)
      let s1 := s.acquire.setTh { t with faultCount := n.1, fetchCount := n.2 }
      if (mapGet x.repeats key).isSome then s1.setContext t.ctx { x with repeats := mapDel x.repeats key } else s1
/-- R349. -/
def State.cxload (s : State) (ea : Word) : State :=
  if statPriv s.th.stat = 0 then s.trap kIllegal
  else match s.checkFrame ea .read with
    | .error k => s.trapAt k ea 0
    | .ok d => s.loadFrame ea d
/-- R349. -/
def execCxload (a : Field) (s : State) : Out := issue s (s.cxload (s.reg a))

/-! ### trap, eret, wfi (R365 to R367) -/

/-- R365: kind TRAP; the frame's PC names the next instruction. -/
def execTrap (d a : Field) (n : BitVec 16) (s : State) : Out :=
  issue s (s.takeTrap s.cur s.slot
    { kind := kTrap, ea := n.zeroExtend 64, dva := s.reg a, dst := d, resume := some (nextPc s.th.pc s.th.lineCount) })
/-- R366. -/
def execEret (s : State) : Out :=
  issue s (if statPriv s.th.stat = 0 ∨ (s.kernelOf s.th).desc.upcall = 0 then s.trap kIllegal
    else s.loadFrame (BitVec.ofNat 64 (s.lendArea s.cur s.slot)) (s.lendArea s.cur s.slot))
/-- R367. -/
def execWfi (s : State) : Out :=
  issue s (if statPriv s.th.stat = 0 then s.trap kIllegal else s.await .work State.advance)

/-! ### Translations and code lines (R72, R350) -/

/-- R350: a cached entry of a context is removed by a `tlbinv` of an address, or of all. -/
def TlbEntry.named (e : TlbEntry) (x : Nat) (dva : Option Nat) : Bool :=
  e.ctx == x && (match dva with | none => true | some d => e.page == d / 2 ^ e.shift)
/-- R350: the entries removed from every port. -/
def State.dropTranslations (s : State) (x : Nat) (dva : Option Nat) (leaves : Bool) : State :=
  { s with clusters := s.clusters.map (fun p => (p.1, { p.2 with
      tlb := if leaves then p.2.tlb.filter (fun e => !e.named x dva) else p.2.tlb
      nonleaf := p.2.nonleaf.filter (fun e => !e.named x dva) })) }
/-- R350. -/
def State.tlbinv (s : State) (v : Word) : State :=
  if statPriv s.th.stat ≠ 2 then s.trap kIllegal
  else if s.th.stage = 2 then s.await (.performed s.th.aux.toNat) State.advance
  else s.await .acks fun s =>
    let s1 := s.dropTranslations s.th.ctx (if bits v 63 57 ≠ 0 then none else some v.toNat) true
    let s2 := s1.setTh { s1.th with stage := 2, aux := BitVec.ofNat 64 s1.nextId }
    s2.await (.performed s1.nextId) State.advance
/-- R350. -/
def execTlbinv (a : Field) (s : State) : Out := issue s (s.tlbinv (s.reg a))
/-- R350. -/
def execPtsync (s : State) : Out :=
  issue s (if statPriv s.th.stat ≠ 2 then s.trap kIllegal
    else s.await .acks fun s => (s.dropTranslations s.th.ctx none false).advance)

/-- R72: a line leaves the instruction caches of the clusters on which a context holds slots. -/
def State.dropCode (s : State) (x line : Nat) : State :=
  { s with clusters := s.clusters.map (fun p => (p.1, { p.2 with
      icache := p.2.icache.filter (fun e => !(e.1 == x && e.2.1 == line)) })) }
/-- R72. -/
def State.cflush (s : State) (ea : Word) : State :=
  let a := ea.toNat / 64 * 64
  match checkFetch s.th (BitVec.ofNat 64 a) with
  | .error k => s.trapAt k (BitVec.ofNat 64 a) 3
  | .ok d => s.needPage (BitVec.ofNat 64 a) d false 3 fun _ => s.await .acks fun s => (s.dropCode s.th.ctx (d / 64)).advance
/-- R72. -/
def execCflush (a : Field) (s : State) : Out := issue s (s.cflush (s.reg a))

/-- R51, R66, R67: a line has come: it is kept in the cluster's cache, checked as a whole, and held by the thread of the slot. -/
def State.lineCame (s : State) (c : Nat) (i : Fin 16) (a d : Nat) (l : Line) (fill : Bool) : State :=
  match s.threadAt c i with
  | none => s
  | some t =>
    let k := s.cluster (clusterOf c)
    let s1 := if fill then s.setCluster (clusterOf c) { k with icache := (t.ctx, d / 64, l) :: k.icache } else s
    if l.ok (t.pc &&& 63).toNat then s1.setSlot c i (some { t with held := some (a, l), fetchCount := 0 })
    else s1.takeTrap c i { kind := kIllegalLine, access := 3 }
/-- R65, R122, R136, R343, R372: the fetch that a thread waits for ends: its page is translated, and the line read at its home: 64 bytes from
the translation of its first byte, kept under its DVA divided by 64 (log 52). -/
def State.fetchDone (s : State) (c : Nat) (i : Fin 16) : State :=
  match s.threadAt c i with
  | none => s
  | some t =>
    if t.st ≠ .parked .fetch ∨ t.held.isSome then s
    else
      let a := t.pc.toNat / 64 * 64
      let cl := clusterOf c
      let read (s : State) (d : Nat) (h : Home) : State :=
        let s1 := if !h.remote && s.poison.contains (h.addr / 64) then { s with agenda := .micro (.ecc (h.addr / 64)) :: s.agenda } else s
        if s.reachable h then s1.lineCame c i a d (BitVec.ofNat 512 (s.homeRead h 64)) true
        else if s.pathLost h.at_ then s.takeTrap c i { kind := 6, ea := BitVec.ofNat 64 a, dva := BitVec.ofNat 64 d, access := 3, fetch := true }
        else s
      match checkFetch t (BitVec.ofNat 64 a) with
      | .error k => s.takeTrap c i { kind := k, ea := BitVec.ofNat 64 a, access := 3 }
      | .ok d => match s.hit cl t.ctx d false with
        | some h => read s d h
        | none =>
          let r := s.portWalk cl t.ctx d
          match s.judge t.ctx d false false r.2 with
          | .ok sh e h => read (s.fill cl t.ctx d r.1 (some (sh, e))) d h
          | .moving => s.fill cl t.ctx d r.1 none
          | .fault k l => (s.fill cl t.ctx d r.1 none).takeTrap c i
              { kind := k, ea := BitVec.ofNat 64 a, dva := BitVec.ofNat 64 d, access := 3, level := l, fetch := true }
/-- R122. -/
def execLineFetch (core slot : Nat) (s : State) : Out := .next (s.fetchDone core (Fin.ofNat 16 slot))

/-! ### brk and tmark (R394) -/

/-- R394. -/
def execBrk (code : BitVec 4) (s : State) : Out :=
  issue s (
    (if (s.core s.cur).stopEn then s.stopCore s.cur s.slot.val code.toNat s.th.pc 0
     else s.appendIf s.th.ctx (some 3) (recordHead 7 0 s.time)
       (BitVec.ofNat 64 ((s.slotEntity s.cur s.slot.val).toNat + code.toNat * 2 ^ 40)) s.th.pc 0).advance)
/-- R394. -/
def execTmark (a : Field) (code : BitVec 16) (s : State) : Out :=
  issue s (s.appendIf s.th.ctx (some 4) (recordHead 8 0 s.time)
    (BitVec.ofNat 64 ((s.slotEntity s.cur s.slot.val).toNat + code.toNat * 2 ^ 40)) (s.reg a) 0).advance

end Sys2Proof.Machine
end

