-- ==== Sys2Proof/Machine/Copy.lean ====
section
/-! DEFINITION. Copy commands (R281 to R293), publish (R172, R294), and the steps of the copy engines (R286 to R289). -/

namespace Sys2Proof.Machine

/-- A change applied to the thread with a number, wherever it is: slot, save record, packet, queue or ring. -/
def State.touch (s : State) (uid : Nat) (f : Thread → Thread) : State :=
  let g (t : Thread) : Thread := if t.uid = uid then f t else t
  let core (k : CoreState) : CoreState :=
    { k with arrivals := k.arrivals.map g, spill := k.spill.map g, slots := mapSlots g k.slots }
  { s with
    cores := s.cores.map (fun p => (p.1, core p.2))
    transit := s.transit.map (fun p => { p with thread := g p.thread })
    contexts := s.contexts.map (fun p => (p.1, { p.2 with saved := p.2.saved.map (fun q => (q.1, core q.2)) })) }

/-! ### Engines and blocks (R281 to R284) -/

/-- R281: the engine of a core. -/
def engineOf (c : Nat) : Nat := c / 8 % 128 % 16
/-- An engine of a die. -/
def State.engine (s : State) (d e : Nat) : Engine := ((s.dies.toList.getD d {}).engines.toList).getD e {}
/-- The state with an engine set. -/
def State.setEngine (s : State) (d e : Nat) (v : Engine) : State :=
  let k := s.dies[d % 4]'(Nat.mod_lt _ (by decide))
  let k1 : Die := { k with engines := k.engines.set (e % 16) v (Nat.mod_lt _ (by decide)) }
  { s with dies := s.dies.set (d % 4) k1 (Nat.mod_lt _ (by decide)) }

/-- A signed 64-bit number. -/
def signed (v : Nat) : Int := (BitVec.ofNat 64 v).toInt
/-- R282: the fields of a block. -/
def Block.parse (b : List Byte) : Block :=
  let f (o n : Nat) : Nat := leNat ((b.drop o).take n)
  { serial := f 0 2
    mb := (f 2 1).testBit 0
    cb := (f 2 1).testBit 1
    n := nbits (f 2 1) 3 2
    shd := (f 2 1).testBit 4
    nrcv := f 3 1
    len := f 4 4
    src := BitVec.ofNat 64 (f 8 8)
    dst := BitVec.ofNat 64 (f 16 8)
    nrow := f 24 4
    sstr := signed (f 32 8)
    dstr := signed (f 40 8)
    list := BitVec.ofNat 64 (f 48 8)
    tag := BitVec.ofNat 64 (f 56 8) }

/-- R283: the lowest byte of the rows of a range, and one past the highest, from its base. -/
def rowSpan (stride : Int) (nrow len : Nat) : Int × Int :=
  let z := ((nrow : Int) - 1) * stride
  (min 0 z, max 0 z + len)

/-- R284: a malformed block; `buf` is buffer n of the issuing core. -/
def Block.bad (p : Block) (op : CopyOp) (raw : List Byte) (buf : CircBuf) : Bool :=
  let cf := (raw.getD 2 0).toNat
  let sp := rowSpan p.dstr p.nrow p.len
  decide (cf / 32 ≠ 0) || decide (leNat ((raw.drop 28).take 4) ≠ 0) || p.tag.getLsbD 63 ||
  decide (p.len % 4 ≠ 0 ∨ p.len < 4 ∨ p.len > 0x100000 ∨ p.nrow = 0 ∨ p.nrow > 65536) ||
  decide (p.sstr % 4 ≠ 0 ∨ p.dstr % 4 ≠ 0) ||
  ((p.list != 0) == (op == .cpy)) ||
  (if op = .cpmc then decide (p.nrcv = 0 ∨ p.nrcv > 16) || decide (p.dst.toNat ≥ 2 ^ 18) else p.nrcv != 0) ||
  (p.cb && (op == .cpsx || (p.dst != 0 && op != .cpmc))) ||
  (p.shd && (p.cb || op == .cpmc)) ||
  (p.cb && (op == .cpy || op == .cpgx) && (!buf.en || decide (sp.1 < 0 ∨ sp.2 > buf.slotBytes)))

/-- R285: the range of the rows from a base address, checked through the thread's segment registers. -/
def State.checkRows (s : State) (t : Thread) (ea : Word) (stride : Int) (nrow len : Nat) (r : Right) : Option Nat :=
  let sp := rowSpan stride nrow len
  let lo := (ea.toNat : Int) + sp.1
  let n := (sp.2 - sp.1).toNat
  if lo < 0 ∨ lo + n > 2 ^ 64 then some kSegLimit
  else match s.checkSpan t (BitVec.ofInt 64 lo) n r with
    | .error k => some k
    | .ok (.device _) => none
    | .ok (.store c o) =>
      if (List.range (n / 2 ^ 18 + 2)).all (fun k => decide (c * 2 ^ 18 + o + n ≤ (c + k) * 2 ^ 18) || s.coreOk t.ctx (c + k)) then none
      else some kSegLimit

/-! ### Batches (R290 to R292) -/

/-- R291: the open batch closed; it stays outstanding while it holds a command that has not completed. -/
def BatchTracker.close (b : BatchTracker) : BatchTracker :=
  if b.opened = 0 then b
  else { opened := 0, number := b.number + 1, live := 0, closed := if b.live = 0 then b.closed else b.closed ++ [(b.number, b.live)] }
/-- R290: a command of a batch has completed. -/
def BatchTracker.complete (b : BatchTracker) (n : Nat) : BatchTracker :=
  if n = b.number then { b with live := b.live - 1 }
  else { b with closed := (b.closed.map (fun p => if p.1 = n then (p.1, p.2 - 1) else p)).filter (fun p => p.2 != 0) }
/-- R291: `cpclose`, written before the rest of an instruction. -/
def State.closeBatch (s : State) (k : State → State) : State :=
  let b := s.th.batch
  if b.opened ≠ 0 ∧ b.live ≠ 0 then
    s.await .batchRoom fun s => k (s.setTh { s.th with batch := s.th.batch.close })
  else k (s.setTh { s.th with batch := b.close })
/-- R291. -/
def execCpclose (s : State) : Out := issue s (s.closeBatch State.advance)
/-- R263, R292: the end of a `cpwait` that was blocked, on its batches or in its close. -/
def State.batchWaited (s : State) (n : Nat) : State :=
  match s.th.blocked with
  | some (.batchRoom, _) => s.waited .batchRoom s.th.batchTag
  | _ => s.waited (.batch n) s.th.batchTag
/-- R292. -/
def execCpwait (n : Field) (s : State) : Out :=
  issue s (s.closeBatch fun s => s.await (.batch n.toNat) fun s => ((s.batchWaited n.toNat).acquire).advance)

/-! ### Issue (R285) -/

/-- R285: the check of a block's address: its DVA, or the kind that traps. -/
def State.checkBlock (s : State) (t : Thread) (ea : Word) : Except Nat Nat :=
  match s.checkGlobal t ea 64 .read with
  | .error k => .error k
  | .ok d => if ea.toNat % 64 ≠ 0 ∨ d % 64 ≠ 0 then .error kMisaligned else .ok d

/-- A segment address again, from the segment and the DVA. -/
def Thread.eaOf (t : Thread) (seg dva : Nat) : Word :=
  BitVec.ofNat 64 (seg % 8 * 2 ^ 61 + (dva - (t.kb[seg % 8]'(Nat.mod_lt _ (by decide))).toNat))
/-- R285: a command up to its engine. A full batch is closed when the command is accepted; its issue waits until it can be (R291). The
commands of a cluster reach its engine in the order of channel 0 (R18, R281). -/
def State.copyIssue (s : State) (op : CopyOp) (ea : Word) (y : BitVec 12) : State :=
  let code := match op with | .cpy => 0 | .cpgx => 1 | .cpsx => 2 | .cpmc => 3
  if s.th.stage = 2 then (if s.th.granted then s.advance else s.park .engine)
  else match s.checkBlock s.th ea with
    | .error k => s.trapAt k ea 0
    | .ok d => s.sync y fun s =>
      let s := s.issueSync y
      let go (s : State) : State := s.await (.release 5) fun s =>
        let t := s.th
        ({ s with nextId := s.nextId + 1 }.setTh { t with
          stage := 2, aux := BitVec.ofNat 64 ((d * 8 + (segIndex ea).val) * 4 + code), granted := false, sent := s.nextId }).park .engine
      if s.th.batch.opened = 64 ∧ s.th.batch.live ≠ 0 then s.await .batchRoom go else go s
/-- R285. -/
def execCpy (a : Field) (sync : BitVec 12) (s : State) : Out := issue s (s.copyIssue .cpy (s.reg a) sync)
/-- R285. -/
def execCpgx (a : Field) (sync : BitVec 12) (s : State) : Out := issue s (s.copyIssue .cpgx (s.reg a) sync)
/-- R285. -/
def execCpsx (a : Field) (sync : BitVec 12) (s : State) : Out := issue s (s.copyIssue .cpsx (s.reg a) sync)
/-- R285, R288. -/
def execCpmc (a : Field) (sync : BitVec 12) (s : State) : Out := issue s (s.copyIssue .cpmc (s.reg a) sync)

/-- R293: cached blocks dropped from the engines of a die. -/
def State.dropBlocks (s : State) (d x : Nat) (addr : Option Nat) : State :=
  (List.range 16).foldl (fun (r : State) e =>
    let v := r.engine d e
    r.setEngine d e { v with cache := v.cache.filter (fun b =>
      !(b.1 == x && (match addr with | some a => b.2.1 == a | none => true))) }) s
/-- R293: the removal of blocks, for which the thread is Parked; it is done by the next cycle (log 70). -/
def State.removeBlocks (s : State) (addr : Option Nat) : State :=
  if s.th.stage = 1 then s.advance
  else ((s.dropBlocks (dieOf s.cur) s.th.ctx addr).stage 1).park (.applying s.cycle)
/-- R293. -/
def execCpinval (a : Field) (s : State) : Out :=
  issue s (match s.checkBlock s.th (s.reg a) with
    | .error k => s.trapAt k (s.reg a) 0
    | .ok d => s.removeBlocks (some d))
/-- R293. -/
def execCpinvalAll (s : State) : Out := issue s (s.removeBlocks none)

/-! ### Acceptance (R285, R286) -/

/-- R286: the block that the engine uses: a cached copy under the serial that memory holds now, or a fresh read. -/
def State.blockFor (s : State) (d e x addr : Nat) (raw : List Byte) : State × List Byte :=
  let v := s.engine d e
  let ser := leNat (raw.take 2)
  let r := s.choose
  match (if r.2 then v.cache.find? (fun b => b.1 == x && b.2.1 == addr && b.2.2.1 == ser) else none) with
  | some b => (r.1, b.2.2.2)
  | none =>
    let old := v.cache.filter (fun b => !(b.1 == x && b.2.1 == addr && b.2.2.1 == ser))
    (r.1.setEngine d e { v with cache := (x, addr, ser, raw) :: old }, raw)

/-- R285: the checks of a block by its command, for the issuing thread: the kind that traps, with the lowest address of the range that
fails and the access (log 58). -/
def State.checkCommand (s : State) (c : Nat) (t : Thread) (op : CopyOp) (p : Block) (raw : List Byte) : Option (Nat × Word × Nat) :=
  let low (ea : Word) (stride : Int) : Word := ea + BitVec.ofInt 64 (rowSpan stride p.nrow p.len).1
  if p.bad op raw ((s.core c).buf p.n) then some (kBadCopy, 0, 0)
  else
    let src := if op = .cpgx then none else s.checkRows t p.src p.sstr p.nrow p.len .read
    let dst := if op = .cpsx ∨ op = .cpmc ∨ p.cb then none else s.checkRows t p.dst p.dstr p.nrow p.len .write
    match src with
    | some k => some (k, low p.src p.sstr, 0)
    | none => dst.map (fun k => (k, low p.dst p.dstr, 1))

/-- The command that a code names. -/
def copyOp (n : Nat) : CopyOp := match n with | 0 => .cpy | 1 => .cpgx | 2 => .cpsx | _ => .cpmc

/-- R18: a thread's command waits at its engine, at a place in the order of channel 0; one whose block's page is not there yet, or is
moving, waits on. -/
def State.sentBefore (s : State) (t u : Thread) : Bool :=
  u.st == .parked .engine && !u.granted && !u.hold && decide (u.sent < t.sent) &&
    (match s.agentXlat u.ctx (u.aux.toNat / 32) false false with
      | .moving => false
      | .fault k _ => !s.resolvable u.ctx k (u.aux.toNat / 32)
      | .ok .. => true)
/-- R18, R281: a command of a thread of the same cluster waits ahead of a thread's. -/
def State.overtakes (s : State) (c : Nat) (t : Thread) : Bool :=
  (coresOf (clusterOf c)).any (fun q => slotNumbers.any (fun i => match s.threadAt q i with
    | some u => s.sentBefore t u
    | none => false))
/-- R285, R286: the engine of a waiting thread takes its block, and accepts the command or traps: a command that traps leaves nothing
behind (R7). A fault on the block's page that Bobbin can resolve parks the command until it has; a block that no path leads to is waited
for, at most until LINK_DOWN (R372). -/
def State.copyTake (s : State) (c : Nat) (i : Fin 16) : State :=
  match s.threadAt c i with
  | none => s
  | some t =>
    let d := dieOf c
    let e := engineOf c
    if t.st ≠ .parked .engine ∨ t.granted ∨ t.hold ∨ (s.engine d e).commands.length ≥ 64 ∨ s.overtakes c t then s
    else
      let addr := t.aux.toNat / 32
      let ea := t.eaOf (t.aux.toNat / 4) addr
      let op := copyOp (t.aux.toNat % 4)
      match s.agentXlat t.ctx addr false false with
      | .moving => s
      | .fault k l =>
        if s.resolvable t.ctx k addr then s
        else s.takeTrap c i { kind := k, ea := ea, dva := BitVec.ofNat 64 addr, level := l }
      | .ok _ _ h =>
        if !s.reachable h then
          if s.pathLost h.at_ then s.takeTrap c i { kind := 6, ea := ea, dva := BitVec.ofNat 64 addr } else s
        else
        let s := s.meetEcc h 64
        let r := s.blockFor d e t.ctx addr (leBytes (s.homeRead h 64) 64)
        let p := Block.parse r.2
        let s1 := r.1
        match s1.checkCommand c t op p r.2 with
        | some (k, a, acc) => { s with free := s1.free }.takeTrap c i { kind := k, ea := a, access := acc }
        | none =>
          let b := if t.batch.opened = 64 then t.batch.close else t.batch
          let cmd : Command :=
            { id := s1.nextId, op := op, block := p, uid := t.uid, ctx := t.ctx, core := c, kid := t.kid, tidx := t.tidx
              kb := t.kb, kd := t.kd, batch := some b.number, dep := t.taken, tag := s1.tagOf c i t }
          let v := s1.engine d e
          let s2 := { s1 with nextId := s1.nextId + 1 }.setEngine d e { v with commands := v.commands ++ [cmd] }
          let k := s2.kernelAt t.ctx t.kid
          (s2.setKernel { k with copies := k.copies + 1 }).setSlot c i (some { t with
            granted := true
            batch := { b with opened := b.opened + 1, live := b.live + 1 } })
/-- R285. -/
def execCopyAccept (core slot : Nat) (s : State) : Out := .next (s.copyTake core (Fin.ofNat 16 slot))

/-! ### What an engine reads and writes (R171, R283, R287, R294, R402, R405) -/

/-- Why an engine does not go on with a command: an error, a wait, or a translation fault that Bobbin is to resolve. -/
inductive EngineStop where
  | error | wait
  | fault (kind level dva : Nat)
  deriving DecidableEq, Repr

/-- R294, R402: the home of a byte for a command, or why it does not go on. -/
def State.engineAt (s : State) (x dva : Nat) (write shadow : Bool) : Except EngineStop Home :=
  match s.engineHome x dva write shadow with
  | .ok h => .ok h
  | .error true => .error .error
  | .error false => match s.agentXlat x dva write shadow with
    | .fault k l => .error (.fault k l dva)
    | _ => .error .wait
/-- A byte's place further on; a local address runs on into the next core's store. -/
def Place.add (p : Place) (n : Nat) : Place :=
  match p with
  | .device d => .device (d + n)
  | .store c o => .store (c + (o + n) / 2 ^ 18) ((o + n) % 2 ^ 18)
/-- The place of a byte within its aligned 4-byte word. -/
def Place.lane (p : Place) : Nat := match p with | .device d => d % 4 | .store _ o => o % 4
/-- A byte read by an engine (log 60). -/
def State.engineByte (s : State) (x : Nat) : Place → Except EngineStop Byte
  | .device d => match s.engineAt x d false false with
    | .ok h => .ok (BitVec.ofNat 8 (s.homeRead h 1))
    | .error e => .error e
  | .store c o => .ok ((s.coreFor x c).ls.read o)
/-- R172: an access in flight touches a byte: one translated before a swap may be bound to what is a shadow now. -/
def State.awaited (s : State) (h : Home) : Bool :=
  s.flight.any (fun a => a.remote == h.remote && (!a.remote || a.home == h.at_) && decide (a.addr ≤ h.addr ∧ h.addr < a.addr + a.size))
/-- A byte written by an engine; none is written to a shadow while an access in flight would see it (R172). -/
def State.engineStore (s : State) (x : Nat) (shadow : Bool) (b : Byte) : Place → Except EngineStop State
  | .device d => match s.engineAt x d true shadow with
    | .ok h => if shadow && s.awaited h then .error .wait else .ok (s.homePut x h [b])
    | .error e => .error e
  | .store c o => if shadow then .error .error
    else .ok (s.setCoreFor x c { s.coreFor x c with ls := (s.coreFor x c).ls.write o b })
/-- `n` bytes read by an engine from a place on. -/
def State.engineBytes (s : State) (x : Nat) (p : Place) : Nat → Except EngineStop (List Byte)
  | 0 => .ok []
  | n + 1 => match s.engineByte x p, s.engineBytes x (p.add 1) n with
    | .ok b, .ok r => .ok (b :: r)
    | .error e, _ => .error e
    | .ok _, .error e => .error e

/-- R285, R287: a range through the command's snapshot, of `n` bytes that the context holds. -/
def State.cmdRange (s : State) (k : Command) (ea : Int) (n : Nat) (r : Right) : Option Place :=
  if ea < 0 ∨ ea + n > 2 ^ 64 then none
  else match s.checkSpan { ctx := k.ctx, kb := k.kb, kd := k.kd } (BitVec.ofInt 64 ea) n r with
    | .error _ => none
    | .ok (.device d) => some (.device d)
    | .ok (.store c o) => if s.holds k.ctx c && s.holds k.ctx (c + (o + n - 1) / 2 ^ 18) then some (.store c o) else none
/-- R283: the same for a row, which must lie in one local store. -/
def State.cmdPlace (s : State) (k : Command) (ea : Int) (n : Nat) (r : Right) : Option Place :=
  match s.cmdRange k ea n r with
  | some (.store c o) =>
    if o + n > 2 ^ 18 ∨ (r = .write ∧ listClosed (s.coreFor k.ctx c) o n) then none else some (.store c o)
  | p => p

/-- Index `r` of a command's list, or the row itself. -/
def Command.index (k : Command) (op : CopyOp) (r : Nat) : Nat := if k.op = op then (k.list.getD []).getD r 0 else r
/-- R283: the source of a row. -/
def State.rowSrc (s : State) (k : Command) (r : Nat) : Option Place :=
  s.cmdPlace k ((k.block.src.toNat : Int) + k.index .cpgx r * k.block.sstr) k.block.len .read
/-- R283, R288, R289: where a row lands on a core, at an offset from a base; none past the store or in a closed list area. -/
def State.landing (s : State) (k : Command) (c : Nat) (off : Int) : Option Place :=
  if off < 0 ∨ off + k.block.len > 2 ^ 18 ∨ !s.holds k.ctx c ∨ listClosed (s.coreFor k.ctx c) off.toNat k.block.len then none
  else some (.store c off.toNat)
/-- R288: the MCBASE of a landing: the register's value at the command's first write there. -/
def State.landingBase (s : State) (k : Command) (j c : Nat) : Nat := (mapGet k.bases j).getD (s.coreFor k.ctx c).mcbase
/-- R283: the destinations of a row. -/
def State.rowDst (s : State) (k : Command) (r : Nat) : Option (List Place) :=
  let p := k.block
  let rel : Int := k.index .cpsx r * p.dstr
  if k.op = .cpmc then
    (k.list.getD []).zipIdx.mapM (fun (c, j) =>
      let b := (s.coreFor k.ctx c).buf p.n
      let off : Int := (p.dst.toNat : Int) + rel
      if p.cb then
        (if off < 0 ∨ off + p.len > b.slotBytes then none
         else s.landing k c ((b.slotAt ((mapGet k.taken j).getD 0) : Int) + off))
      else s.landing k c ((s.landingBase k j c : Int) + off))
  else if p.cb then
    (s.landing k k.core ((((s.coreFor k.ctx k.core).buf p.n).slotAt ((mapGet k.taken 0).getD 0) : Int) + rel)).map ([·])
  else (s.cmdPlace k ((p.dst.toNat : Int) + rel) p.len .write).map ([·])

/-! ### The steps of a command (R287 to R289) -/

/-- R288: a receiver of a `cpmc`. -/
def State.receiverOk (s : State) (k : Command) (c : Nat) : Bool := dieOf c == dieOf k.core && s.coreOk k.ctx c && s.holds k.ctx c
/-- The list of a command, read once. -/
def State.readList (s : State) (k : Command) : Except EngineStop Command :=
  if k.op = .cpy ∨ k.list.isSome then .ok k
  else
    let w := if k.op = .cpmc then 2 else 4
    let n := if k.op = .cpmc then k.block.nrcv else k.block.nrow
    match s.cmdRange k k.block.list.toNat (w * n) .read with
    | none => .error .error
    | some p => match s.engineBytes k.ctx p (w * n) with
      | .error e => .error e
      | .ok bs => .ok { k with list := some ((List.range n).map (fun i => leNat ((bs.drop (w * i)).take w))) }
/-- The landing cores of a command with their number. -/
def Command.landings (k : Command) : List (Nat × Nat) :=
  if k.op = .cpmc then (k.list.getD []).zipIdx.map (fun (c, j) => (j, c)) else [(0, k.core)]

/-- R289: the buffer slot of one landing; none where it is ready for the first write. A core that holds its requests is waited for (R401,
log 73). -/
def State.prepareOne (s : State) (k : Command) (j c : Nat) : State × Command × Option EngineStop :=
  let q := s.coreFor k.ctx c
  if !k.block.cb ∨ (mapGet k.taken j).isSome then (s, k, none)
  else if s.holding c then (s, k, some .wait)
  else
    let b := q.buf k.block.n
    if !b.en then (s, k, some .error)
    else if b.mayTake (.command k.id) s.cycle then
      (s.setCoreFor k.ctx c (q.setBuf k.block.n (b.take (.command k.id))), { k with taken := mapPut k.taken j b.tail }, none)
    else (s.setCoreFor k.ctx c (q.setBuf k.block.n (b.enqueue (.command k.id))), k, some .wait)
/-- R402: the fault on which a command is parked is still there. -/
def State.faultStands (s : State) (k : Command) : Option EngineStop :=
  match k.fault with
  | none => none
  | some (kind, level, dva) => match s.agentXlat k.ctx dva false false with
    | .fault q _ => if q = kind then (if s.resolvable k.ctx kind dva then some (.fault kind level dva) else some .error) else none
    | _ => none
/-- R288, R289, R402: a command made ready for its first write. A bad receiver ends it. -/
def State.prepare (s : State) (k : Command) : State × Command × Option EngineStop :=
  match s.faultStands k with
  | some e => (s, k, some e)
  | none => match s.readList k with
    | .error e => (s, k, some e)
    | .ok k1 =>
      if k.op = .cpmc ∧ !(k1.list.getD []).all (s.receiverOk k1) then (s, k1, some .error)
      else k1.landings.foldl (fun (r : State × Command × Option EngineStop) p =>
        match r.2.2 with
        | none => r.1.prepareOne r.2.1 p.1 p.2
        | some _ => r) (s, k1, none)

/-- R171: the bytes of a row that lie in its aligned word `w`, where the row starts at a lane: from the first to one past the last. -/
def wordSpan (lane len w : Nat) : Nat × Nat := (4 * w - lane, min len (4 * w + 4 - lane))
/-- Two places are one byte: the same place, or pages of one frame (log 51). -/
def State.sameByte (s : State) (x : Nat) (shadow : Bool) (p q : Place) : Bool :=
  p == q || (match p, q with
    | .device a, .device b => a % 4096 == b % 4096 && (match s.engineHome x a true shadow, s.engineHome x b true shadow with
      | .ok h, .ok g => h.remote == g.remote && h.addr == g.addr && (!h.remote || h.at_ == g.at_)
      | _, _ => false)
    | _, _ => false)
/-- R283: a byte of a destination that a higher row of the command has already written. -/
def State.covered (s : State) (k : Command) (r : Nat) (p : Place) : Bool :=
  k.done.any (fun d => decide (d.1 > r) && (match s.rowDst k d.1 with
    | some l => l.any (fun q =>
        let sp := wordSpan q.lane k.block.len d.2
        (List.range (sp.2 - sp.1)).any (fun i => s.sameByte k.ctx k.block.shd (q.add (sp.1 + i)) p))
    | none => false))
/-- Bytes of a row written to one destination, but for bytes of higher rows. -/
def State.putWord (s : State) (k : Command) (r : Nat) (bs : List Byte) (p : Place) : Except EngineStop State :=
  bs.zipIdx.foldl (fun (q : Except EngineStop State) b => match q with
    | .error e => .error e
    | .ok s => if s.covered k r (p.add b.2) then .ok s else s.engineStore k.ctx k.block.shd b.1 (p.add b.2)) (.ok s)
/-- The key of a source word that has been read. -/
def wordKey (r i : Nat) : Nat := r * 2 ^ 20 + i
/-- R171, R288: source words of a row read whole, each once. -/
def State.fetchWords (s : State) (k : Command) (r : Nat) (p : Place) (l : List Nat) : Except EngineStop Command :=
  l.foldl (fun (q : Except EngineStop Command) i => match q with
    | .error e => .error e
    | .ok k =>
      if (mapGet k.words (wordKey r i)).isSome then .ok k
      else
        let sp := wordSpan p.lane k.block.len i
        match s.engineBytes k.ctx (p.add sp.1) (sp.2 - sp.1) with
        | .error e => .error e
        | .ok bs => .ok { k with words := mapPut k.words (wordKey r i) bs }) (.ok k)
/-- A byte of a row, of a source word that has been read. -/
def Command.byte (k : Command) (lane r n : Nat) : Byte :=
  let i := (n + lane) / 4
  ((mapGet k.words (wordKey r i)).getD []).getD (n - (wordSpan lane k.block.len i).1) 0
/-- R354: an engine has read some bytes. -/
def State.placeMeets (s : State) (x : Nat) (p : Place) (n : Nat) : State :=
  match p with | .device d => s.agentMeets x d n | .store _ _ => s
/-- R401, log 73: a place on a core whose interface holds what it accepts. -/
def State.heldPlace (s : State) : Place → Bool
  | .store c _ => s.holding c
  | .device _ => false
/-- R171: one aligned destination word of a row, with the source words that it needs, read and written in one step, at every
destination of the row (log 55). -/
def State.moveWord (s : State) (k : Command) (r w : Nat) : Except EngineStop (State × Command) :=
  match s.rowSrc k r, s.rowDst k r with
  | some p, some l =>
    if l.any s.heldPlace then .error .wait
    else
    let spans := (l.map (fun d => wordSpan d.lane k.block.len w)).filter (fun sp => decide (sp.1 < sp.2))
    let need := spans.flatMap (fun sp => (List.range ((sp.2 - 1 + p.lane) / 4 + 1)).filter (fun i => decide ((sp.1 + p.lane) / 4 ≤ i)))
    match s.fetchWords k r p need with
    | .error e => .error e
    | .ok k1 => match l.foldl (fun (q : Except EngineStop State) d => match q with
          | .ok s =>
            let sp := wordSpan d.lane k.block.len w
            s.putWord k r ((List.range (sp.2 - sp.1)).map (fun i => k1.byte p.lane r (sp.1 + i))) (d.add sp.1)
          | .error e => .error e) (.ok (spans.foldl (fun (s : State) sp => s.placeMeets k.ctx (p.add sp.1) (sp.2 - sp.1)) s)) with
      | .ok s1 => .ok (s1, { k1 with
          done := k.done ++ [(r, w)]
          words := if l.all (fun d => d.lane == p.lane) then k.words else k1.words
          bases := (l.zip k.landings).foldl (fun m q =>
            let sp := wordSpan q.1.lane k.block.len w
            if sp.1 < sp.2 then mapPut m q.2.1 (s.landingBase k q.2.1 q.2.2) else m) k.bases })
      | .error e => .error e
  | _, _ => .error .error
/-- R171: the words of a row. -/
def Block.wordCount (p : Block) : Nat := p.len / 4 + 1

/-- The engine's commands with one of them set. -/
def State.setCommand (s : State) (d e n : Nat) (k : Command) : State :=
  let v := s.engine d e
  s.setEngine d e { v with commands := listSet v.commands n k }
/-- R285, R289, R402: a command that has met a stop: in error, parked on a fault, or waiting. -/
def Command.stopped (k : Command) : EngineStop → Command
  | .error => { k with err := true }
  | .wait => { k with fault := none }
  | .fault kind level dva => { k with fault := some (kind, level, dva) }

/-- The row's word that lies in the aligned word of a place, if the row starts at another place of the same space. -/
def wordIn (a : Place) (len : Nat) (q : Place) : Option Nat :=
  let at_ (x y : Nat) : Option Nat := if y / 4 ≤ x / 4 ∧ x / 4 - y / 4 ≤ len / 4 then some (x / 4 - y / 4) else none
  match a, q with
  | .device x, .device y => at_ x y
  | .store c x, .store d y => if c = d then at_ x y else none
  | _, _ => none
/-- R171: the words of other rows that share an aligned destination word with one that its own row fills in part. -/
def State.sharers (s : State) (k : Command) (r w : Nat) : List (Nat × Nat) :=
  match s.rowDst k r with
  | none => []
  | some l =>
    let part := l.filter (fun d => let sp := wordSpan d.lane k.block.len w; decide (sp.1 < sp.2 ∧ sp.2 < sp.1 + 4))
    if part.isEmpty then []
    else (List.range k.block.nrow).flatMap (fun q =>
      if q = r then []
      else ((match s.rowDst k q with
        | some m => (l.zip m).filterMap (fun (z : Place × Place) => if part.contains z.1 then
            wordIn (z.1.add (wordSpan z.1.lane k.block.len w).1) k.block.len z.2 else none)
        | none => []).eraseDups.map (fun v => (q, v))).filter (fun v => !k.done.contains v))
/-- R171, R177: a word of a row, and those of other rows that lie in the same aligned word with it, in one step. -/
def State.moveGroup (s : State) (k : Command) (r w : Nat) : Except EngineStop (State × Command) :=
  (s.sharers k r w).foldl (fun (q : Except EngineStop (State × Command)) v => match q with
    | .ok (s1, k1) => s1.moveWord k1 v.1 v.2
    | e => e) (s.moveWord k r w)
/-- A word of a command that the engine performs now (R171). -/
def State.copyWord (s : State) (d e n r w : Nat) : State :=
  match (s.engine d e).commands[n]? with
  | none => s
  | some k =>
    if k.delivered.isSome ∨ k.err ∨ k.done.contains (r, w) ∨ r ≥ k.block.nrow ∨ w ≥ k.block.wordCount then s
    else match s.prepare k with
      | (s1, k1, some e') => s1.setCommand d e n (k1.stopped e')
      | (s1, k1, none) => match s1.moveGroup k1 r w with
        | .ok (s2, k2) => s2.setCommand d e n { k2 with fault := none }
        | .error e' => s1.setCommand d e n (k1.stopped e')

/-- R289: the words of a command that are left, in row order, up to a stop. -/
def State.moveAll (s : State) (k : Command) : State × Command × Option EngineStop :=
  (List.range k.block.nrow).foldl (fun (q : State × Command × Option EngineStop) r =>
    (List.range k.block.wordCount).foldl (fun (q : State × Command × Option EngineStop) w => match q with
      | (s, k, none) =>
        if k.done.contains (r, w) then (s, k, none)
        else match s.moveGroup k r w with
          | .ok (s1, k1) => (s1, k1, none)
          | .error e => (s, k, some e)
      | q => q) q) (s, k, none)

/-- R289: the mailbox entry of a completion. -/
def Command.mail (k : Command) (tag : Tag) : Mail :=
  { d := setStat k.block.tag 63 k.err
    tt := if k.op = .cpmc then 0xFFFFFFFF else k.tidx
    ktag := k.kid.truncate 12
    kind := 1
    sender := BitVec.ofNat 12 k.core
    tag := tag }
/-- R289, R405: the buffer slots that a command holds become Filled, those of a saved core when it is restored, and its mailbox entries are sent. -/
def State.copyDeliver (s : State) (k : Command) (tag : Tag) : State :=
  (k.landings.filter (fun p => k.op != .cpmc || s.receiverOk k p.2)).foldl (fun (s : State) p =>
    let s1 := match mapGet k.taken p.1 with
      | some n => s.setCoreFor k.ctx p.2
        (let q := s.coreFor k.ctx p.2
         let b := q.buf k.block.n
         q.setBuf k.block.n (if (mapGet (s.context k.ctx).saved p.2).isSome then { b with fills := b.fills ++ [(n, tag)] } else b.filled n tag))
      | none => s
    if k.block.mb then s1.deliverMail k.ctx p.2 (k.mail tag) else s1) s
/-- R289: every delivery can be seen: no entry is held back, no core of the command is saved. -/
def State.copySeen (s : State) (k : Command) : Bool :=
  (match k.delivered with | some c => decide (c < s.cycle) | none => false) &&
  k.landings.all (fun p => (!k.block.mb && !k.block.cb) ||
    ((mapGet (s.context k.ctx).saved p.2).isNone && (s.core p.2).held.all (fun m => { m with tag := {} } != k.mail {})))

/-- R292: a completion ends a thread's wait for batches: OB falls to what the wait asks for. -/
def Thread.batchEnds (t : Thread) (b : BatchTracker) : Bool :=
  match t.st with
  | .parked (.batch n) => decide (n < t.batch.closed.length ∧ b.closed.length ≤ n)
  | .parked .batchRoom => decide (16 ≤ t.batch.closed.length ∧ b.closed.length < 16)
  | _ => false
/-- R290, R292: a command of a thread's batch has completed; the one that ends a wait is named to it. -/
def Thread.batchDone (t : Thread) (n : Option Nat) (tag : Tag) : Thread :=
  let b := match n with | some n => t.batch.complete n | none => t.batch
  { t with batch := b, batchTag := if t.batchEnds b then some tag else t.batchTag }
/-- R285, R289: the end of a command: its slot, its batch, its kernel. -/
def State.copyEnd (s : State) (k : Command) (tag : Tag) : State :=
  let s1 := s.touch k.uid (fun t => (t.depEnd k.dep tag).batchDone k.batch tag)
  match s1.kernel k.ctx k.kid with
  | some q => s1.setKernel { q with copies := q.copies - 1 }
  | none => s1

/-- R289: the words that are left are performed and the deliveries made; when they can be seen the command ends. The answer names
the packet that ends with it. -/
def State.copyDone (s : State) (d e n : Nat) : State × Option (Nat × Nat × Bool) :=
  match (s.engine d e).commands[n]? with
  | none => (s, none)
  | some k =>
    let tag := s.agentTag (s.entity d 1 e 0) k.tag
    if k.delivered.isSome then
      if s.copySeen k then
        let v := s.engine d e
        ((s.setEngine d e { v with commands := listDel v.commands n }).copyEnd k tag, k.packet.map (fun (p : Nat × Nat) => (p.1, p.2, k.err)))
      else (s, none)
    else
      let r := if k.err then (s, k, some .error) else match s.prepare k with
        | (s1, k1, none) => s1.moveAll k1
        | r => r
      match r with
      | (s1, k1, some .wait) => (s1.setCommand d e n (k1.stopped .wait), none)
      | (s1, k1, some (.fault kind level dva)) => (s1.setCommand d e n (k1.stopped (.fault kind level dva)), none)
      | (s1, k1, v) =>
        let k2 := { k1 with err := v.isSome, delivered := some s1.cycle, fault := none }
        ((s1.copyDeliver k2 tag).setCommand d e n k2, none)

/-! ### publish (R172, R294) -/

/-- R294: `publish` up to its swap. -/
def State.publish (s : State) (ea : Word) (scope : Nat) (y : BitVec 12) : State :=
  if s.th.stage = 2 then (if s.th.granted then s.advance else s.park .publish)
  else if kdKind (s.th.kd[segIndex ea]) ≠ 1 then s.trapAt kSegRights ea 1
  else match s.check s.th ea 4 .write false with
    | .error k => s.trapAt k ea 1
    | .ok (.store _ _) => s.trapAt kSegRights ea 1
    | .ok (.device dva) => s.needPage ea dva true 1 fun _ =>
      match tlbHit (s.cluster (clusterOf s.cur)) s.th.ctx dva true with
      | some e =>
        if !ptePP e.entry then s.trapAt kBadPublish ea 1
        else (((s.issueSync y).setTh { (s.issueSync y).th with
          stage := 2, aux := BitVec.ofNat 64 (scope * 4096 + pteRgn e.entry) })).park .publish
      | none => s
/-- R294. -/
def execPublish (a : Field) (scope : BitVec 3) (sync : BitVec 12) (s : State) : Out :=
  issue s (s.sync sync fun s => s.publish (s.reg a) scope.toNat sync)

/-- R340: the publish-pair region of a page of a context, whatever else its leaf says. -/
def State.regionAt (s : State) (x dva : Nat) : Option Nat :=
  match (walkFrom s.mem (fun _ _ => none) dva 4 (s.context x).root).2 with
  | .leaf _ _ e => if ptePP e then some (pteRgn e) else none
  | .fault _ _ => none
/-- R172: a command's destination is the shadow of a region; a command whose list cannot be read yet may have it. -/
def State.shadows (s : State) (k : Command) (rgn : Nat) : Bool :=
  k.block.shd && (match s.readList k with
    | .error _ => true
    | .ok k1 => (List.range k.block.nrow).any (fun r => match s.rowDst k1 r with
      | some [.device d] => (List.range (pieces d k.block.len)).any (fun i => s.regionAt k.ctx (max d ((d / 4096 + i) * 4096)) == some rgn)
      | _ => false))
/-- R172, R173: the swap takes effect once the thread's commands to the region's shadow have completed and its release conditions hold
at the named scope. What is translated from then on acquires (R170): no constant cache keeps a line. -/
def State.swap (s : State) (c : Nat) (i : Fin 16) : State :=
  match s.threadAt c i with
  | none => s
  | some t =>
    if t.st ≠ .parked .publish ∨ t.granted ∨ t.hold ∨ !s.releasable c t (t.aux.toNat / 4096) ∨
        s.dies.toList.any (fun d => d.engines.toList.any (fun e => e.commands.any (fun k => k.uid == t.uid && s.shadows k (t.aux.toNat % 4096)))) then s
    else
      let x := s.context t.ctx
      let rgn := t.aux.toNat % 4096
      let s1 : State := { s with clusters := s.clusters.map (fun p => (p.1, { p.2 with ccache := [] })) }
      (s1.setContext t.ctx { x with sel := mapPut x.sel rgn (!(mapGet x.sel rgn).getD false) }).setSlot c i
        (some { t with granted := true })
/-- R172. -/
def execPublishSwap (core slot : Nat) (s : State) : Out :=
  .next (s.swap core (Fin.ofNat 16 slot))

end Sys2Proof.Machine
end

