-- ==== Sys2Proof/Machine/Ray.lean ====
section
/-! DEFINITION. What passes a ray (R320 to R324): the box test, TRITEST, the splat evaluation and the k-buffer, all in exact
arithmetic with the roundings that the rules name; and `vrtri` (R331). -/

namespace Sys2Proof.Machine

/-- Three components. -/
structure V3 where
  x : FVal
  y : FVal
  z : FVal
  deriving DecidableEq, Repr

/-- A component by its axis. -/
def V3.at_ (v : V3) (k : Nat) : FVal := match k with | 0 => v.x | 1 => v.y | _ => v.z
/-- An FP32 value at an offset of a store. -/
def Memory.fp (m : Memory) (a : Nat) : FVal := fp32.decode (m.num a 4)
/-- Three of them. -/
def Memory.v3 (m : Memory) (a : Nat) : V3 := ⟨m.fp a, m.fp (a + 4), m.fp (a + 8)⟩
/-- A finite value. -/
def FVal.isFin : FVal → Bool | .fin _ _ _ => true | _ => false
def V3.isFin (v : V3) : Bool := v.x.isFin && v.y.isFin && v.z.isFin
/-- x − y, exact. -/
def FVal.minus (x y : FVal) : FVal := FVal.sum 0 [x, y.negate]
/-- The sign of a value that is not NaN: −1, 0 or 1. -/
def FVal.sgn (x : FVal) : Int := if x.isZero then 0 else if x.neg then -1 else 1
/-- Rounded to nearest, ties to even, as a value; none where the result is not finite (R324). -/
def Fmt.near (f : Fmt) (x : FVal) : Option FVal :=
  let r := f.decode (f.round 0 false x)
  if r.isFin then some r else none
/-- The same as an encoding; a zero of an exact zero is +0 (R322, R324). -/
def Fmt.nearBits (f : Fmt) (x : FVal) : Option Nat :=
  if x.isZero then some 0 else if (f.near x).isSome then some (f.round 0 false x) else none
/-- A difference rounded component by component. -/
def V3.less (a b : V3) : Option V3 := do
  let x ← fp32.near (a.x.minus b.x)
  let y ← fp32.near (a.y.minus b.y)
  let z ← fp32.near (a.z.minus b.z)
  return ⟨x, y, z⟩

/-! ### TRITEST (R324) -/

/-- The magnitude order of two finite values. -/
def FVal.magLt (x y : FVal) : Bool :=
  match x, y with
  | .fin _ m e, .fin _ m' e' => (FVal.fin false m e).lt (.fin false m' e')
  | _, _ => false
/-- The axis with the largest |d[k]|, on a tie the higher axis. -/
def V3.major (d : V3) : Nat :=
  if d.z.magLt d.x ∨ d.z.magLt d.y then (if d.y.magLt d.x then 0 else 1) else 2
/-- A vertex sheared along a direction. -/
def shear (o p : V3) (kx ky kz : Nat) (sx sy sz : FVal) : Option V3 := do
  let q ← p.less o
  let x ← fp32.near ((q.at_ kx).minus (sx.mul (q.at_ kz)))
  let y ← fp32.near ((q.at_ ky).minus (sy.mul (q.at_ kz)))
  let z ← fp32.near (sz.mul (q.at_ kz))
  return ⟨x, y, z⟩
/-- The rounded edge function x·y' − x'·y. -/
def edgeFn (a b : V3) : Option FVal := fp64.near (FVal.sum 0 [a.x.mul b.y, (a.y.mul b.x).negate])
/-- The rule on an edge function's sign, and on zero, for the edge from `a` to `b`. -/
def insideEdge (s : Int) (e : FVal) (a b : V3) : Bool :=
  let ex := b.x.minus a.x
  let ey := b.y.minus a.y
  decide (s * e.sgn > 0) ||
    (e.isZero && (decide (s * ey.sgn > 0) || (decide (ey.sgn = 0) && decide (s * ex.sgn < 0))))

/-- TRITEST: the encodings of t, u and v of a hit. -/
def triTest (o d p0 p1 p2 : V3) : Option (Nat × Nat × Nat) := do
  guard (o.isFin && d.isFin && p0.isFin && p1.isFin && p2.isFin)
  let kz := d.major
  let dz := d.at_ kz
  guard !dz.isZero
  let k1 := (kz + 1) % 3
  let k2 := (kz + 2) % 3
  let kx := if dz.neg then k2 else k1
  let ky := if dz.neg then k1 else k2
  let sx ← fp32.near ((d.at_ kx).div dz)
  let sy ← fp32.near ((d.at_ ky).div dz)
  let sz ← fp32.near ((FVal.fin false 1 0).div dz)
  let a ← shear o p0 kx ky kz sx sy sz
  let b ← shear o p1 kx ky kz sx sy sz
  let c ← shear o p2 kx ky kz sx sy sz
  let u ← edgeFn c b
  let v ← edgeFn a c
  let w ← edgeFn b a
  let det ← fp64.near (FVal.sum 0 [u, v, w])
  guard !det.isZero
  let s := det.sgn
  guard (insideEdge s u b c && insideEdge s v c a && insideEdge s w a b)
  let t ← fp64.near (FVal.sum 0 [u.mul a.z, v.mul b.z, w.mul c.z])
  let t' ← fp32.nearBits (t.div det)
  let u' ← fp32.nearBits (v.div det)
  let v' ← fp32.nearBits (w.div det)
  return (t', u', v')

/-- lo ≤ t ≤ hi; false where one of them is NaN (R42). -/
def FVal.between (t lo hi : FVal) : Bool :=
  !lo.isNan && !hi.isNan && !t.isNan && !(t.lt lo) && !(hi.lt t)

/-! ### The box test (R320) -/

/-- A finite value as an integer multiple of 2⁻¹⁶⁵. -/
def FVal.fixed (x : FVal) : Int := x.scaled (-165)
/-- A bound of an interval of reals: a fraction with a positive denominator; none where that end is open. -/
abbrev Bound := Option (Int × Nat)
/-- a ≤ b for two bounds, where an open end bounds nothing. -/
def boundLe (a b : Bound) : Bool :=
  match a, b with
  | some (p, q), some (p', q') => decide (p * q' ≤ p' * q)
  | _, _ => true
/-- What one axis leaves of τ: none where nothing is left; `n` is the direction, `lo` and `hi` the box less the origin (scaled). -/
def slab (n : Int) (lo hi : Option Int) : Option (Bound × Bound) :=
  if n = 0 then
    if lo.all (fun a => decide (a ≤ 0)) && hi.all (fun a => decide (0 ≤ a)) then some (none, none) else none
  else if n > 0 then some (lo.map (fun a => (a, n.toNat)), hi.map (fun a => (a, n.toNat)))
  else some (hi.map (fun a => (-a, (-n).toNat)), lo.map (fun a => (-a, (-n).toNat)))

/-- R320: the box test of a ray against a box (six FP32 values: minima, then maxima); an infinite bound
leaves its end open. -/
def boxTest (o d : V3) (tmin tmax : FVal) (bmin bmax : V3) : Bool :=
  if !o.isFin || !d.isFin || tmin.isNan || tmax.isNan || tmin.isInf false || tmax.isInf true then false
  else
    let mags := ([bmin.x, bmin.y, bmin.z, bmax.x, bmax.y, bmax.z, o.x, o.y, o.z].filter FVal.isFin).map
      (fun x => (x.fixed).natAbs)
    let m := mags.foldl max 0
    let one : Nat := 2 ^ 165
    -- ε and δ are multiples of 2⁻¹⁶⁵, since every finite FP32 value is one of 2⁻¹⁴⁹
    let eps : Int := ((one + m) / 2 ^ 16 : Nat)
    let mag (x : FVal) : Nat := if x.isFin then (x.fixed).natAbs else 0
    let delta : Int := ((one + mag tmin + mag tmax) / 2 ^ 16 : Nat)
    let axis (k : Nat) : Option (Bound × Bound) :=
      let lo := if (bmin.at_ k).isFin then some ((bmin.at_ k).fixed - eps - (o.at_ k).fixed) else none
      let hi := if (bmax.at_ k).isFin then some ((bmax.at_ k).fixed + eps - (o.at_ k).fixed) else none
      slab ((d.at_ k).fixed) lo hi
    match axis 0, axis 1, axis 2 with
    | some x, some y, some z =>
      let t : Bound × Bound :=
        (if tmin.isFin then some (tmin.fixed - delta, one) else none, if tmax.isFin then some (tmax.fixed + delta, one) else none)
      let bs := [x, y, z, t]
      bs.all (fun l => bs.all (fun u => boundLe l.1 u.2))
    | _, _, _ => false

/-! ### The splat (R322, R323) -/

/-- The exact quadratic form a'Nb of a symmetric N given as xx, xy, xz, yy, yz, zz. -/
def quadForm (n : List FVal) (a b : V3) : FVal :=
  let g (i : Nat) : FVal := n.getD i .nan
  let t (e x y : FVal) : FVal := e.mul (x.mul y)
  FVal.sum 0 [t (g 0) a.x b.x, t (g 1) a.x b.y, t (g 2) a.x b.z, t (g 1) a.y b.x, t (g 3) a.y b.y, t (g 4) a.y b.z,
    t (g 2) a.z b.x, t (g 4) a.z b.y, t (g 5) a.z b.z]

/-- A finite value as a fraction. -/
def FVal.frac : FVal → Int × Nat
  | .fin s m e =>
    let k : Int := if s then -(m : Int) else m
    if e ≥ 0 then (k * 2 ^ e.toNat, 1) else (k, 2 ^ (-e).toNat)
  | _ => (0, 1)

/-- An enclosure of e^x · 2^p for x = num/den < 2^8, by the series of x/2^8 squared eight times. -/
def encloseExp (p num den : Nat) : Nat × Nat :=
  let y := num * 2 ^ p / (256 * den)
  let fuel := p / 4 + 60
  let lo := expTerms p y fuel 0 (2 ^ p)
  let hi := expTerms p (y + 1) fuel 0 (2 ^ p) + 3 * fuel
  let sq (r : Nat × Nat) : Nat × Nat := (r.1 * r.1 / 2 ^ p, r.2 * r.2 / 2 ^ p + 1)
  sq (sq (sq (sq (sq (sq (sq (sq (lo, hi))))))))

/-- ⌊256·α·e^(−x)⌋ for α = an/ad and x = num/den > 0, to a precision that the exact value needs. -/
def alphaFloor (an ad num den : Nat) : List Nat → Nat
  | [] => 0
  | p :: r =>
    let e := encloseExp p num den
    let lo := 256 * an * 2 ^ p / (ad * e.2)
    let hi := 256 * an * 2 ^ p / (ad * e.1)
    if lo = hi then lo else match r with | [] => lo | _ => alphaFloor an ad num den r

/-- R322: the alpha code, from α₀ and the exact q = qn/qd ≥ 0. -/
def alphaCode (alpha : FVal) (qn qd : Nat) : Nat :=
  let a := alpha.frac
  if a.1 ≤ 0 then 0
  else if qn = 0 then min 255 (256 * a.1.toNat / a.2)
  else if qn ≥ 400 * qd then 0
  else min 255 (alphaFloor a.1.toNat a.2 qn (2 * qd) [128, 512, 2048, 8192])

/-- R322: a contribution (t's encoding and a8) of a splat's 40 bytes at a place, for a ray. -/
def splatTest (o d : V3) (tmin tmax : FVal) (prim : Memory) : Option (Nat × Nat) := do
  let mu := prim.v3 0
  let n := (List.range 6).map (fun i => prim.fp (12 + 4 * i))
  let alpha := prim.fp 36
  guard (mu.isFin && n.all FVal.isFin && alpha.isFin && o.isFin && d.isFin)
  let d3 ← mu.less o
  let a ← fp64.near (quadForm n d d)
  let b ← fp64.near (quadForm n d d3)
  let c ← fp64.near (quadForm n d3 d3)
  guard (decide (a.sgn > 0))
  let tb := if (b.div a).isZero then 0 else fp32.round 0 false (b.div a)
  let fa := a.frac
  let fb := b.frac
  let fc := c.frac
  -- q = c − b²/a, over one denominator
  let num : Int := fc.1 * (fb.2 * fb.2 : Nat) * fa.1 - fb.1 * fb.1 * fa.2 * fc.2
  let den : Nat := fc.2 * fb.2 * fb.2 * fa.1.toNat
  let a8 := alphaCode alpha (max 0 num).toNat den
  guard (a8 ≠ 0 && (fp32.decode tb).between tmin tmax)
  return (tb, a8)

/-- The least k with 2^k ≥ n. -/
def clog2 (n : Nat) : Nat := if n ≤ 1 then 0 else Nat.log2 (n - 1) + 1
/-- R323: the table Q: round-half-up of −65,536·log2(1 − a/256). -/
def depthOfCode (a : Nat) : Nat := (1048577 - clog2 ((256 - a) ^ 131072)) / 2

/-- An entry of a k-buffer: t's encoding, id, alpha code. -/
abbrev KEntry := Nat × Nat × Nat
/-- R323: the order of keys (t, id). -/
def keyLt (a b : KEntry) : Bool :=
  let x := fp32.decode a.1
  let y := fp32.decode b.1
  x.lt y || (!(y.lt x) && decide (a.2.1 < b.2.1))
/-- A contribution put in its place by rising key. -/
def insertKey (n : KEntry) : List KEntry → List KEntry
  | [] => [n]
  | e :: r => if keyLt n e then n :: e :: r else e :: insertKey n r
/-- R323: an empty entry. -/
def emptyId : Nat := 0xFFFFFFFF
/-- R323: a contribution to a k-buffer of four: the entries after, and the one that is pushed out. -/
def pushKey (es : List KEntry) (n : KEntry) : List KEntry × Option KEntry :=
  let used := es.filter (fun e => e.2.1 != emptyId)
  let free := es.filter (fun e => e.2.1 == emptyId)
  let all := insertKey n used
  if free.isEmpty then (all.take 4, all[4]?) else (all ++ free.drop 1, none)

/-! ### A primitive against a record (R321 to R323) -/

/-- The k-buffer of a record. -/
def readKeys (m : Memory) (r : Nat) : List KEntry :=
  (List.range 4).map (fun i => (m.num (r + 64 + 16 * i) 4, m.num (r + 68 + 16 * i) 4, m.num (r + 72 + 16 * i) 4))
/-- A k-buffer written. -/
def writeKeys (m : Memory) (r : Nat) (es : List KEntry) : Memory :=
  es.zipIdx.foldl (fun m e =>
    ((m.putNum (r + 64 + 16 * e.2) 4 e.1.1).putNum (r + 68 + 16 * e.2) 4 e.1.2.1).putNum (r + 72 + 16 * e.2) 4 e.1.2.2) m

/-- R321: a triangle's 40 bytes against the record at `r`: a hit that replaces the current one. -/
def hitTri (m : Memory) (r seg : Nat) (prim : Memory) : Memory :=
  let flags := prim.num 36 4
  let id := seg * 2 ^ 16 + flags % 2 ^ 16
  let tmin := m.fp (r + 12)
  let best := m.fp (r + 28)
  if flags.testBit 16 then m
  else match triTest (m.v3 r) (m.v3 (r + 16)) (prim.v3 0) (prim.v3 12) (prim.v3 24) with
    | none => m
    | some (t, u, v) =>
      let tv := fp32.decode t
      if tv.between tmin best && (tv.lt best || decide (id < m.num (r + 32) 4)) then
        (((m.putNum (r + 28) 4 t).putNum (r + 32) 4 id).putNum (r + 36) 4 u).putNum (r + 40) 4 v
      else m

/-- R322, R323: a splat's 44 bytes against the record at `r`. -/
def hitSplat (m : Memory) (r seg : Nat) (prim : Memory) : Memory :=
  match splatTest (m.v3 r) (m.v3 (r + 16)) (m.fp (r + 12)) (m.fp (r + 28)) prim with
  | none => m
  | some (t, a8) =>
    let k := pushKey (readKeys m r) (t, seg * 2 ^ 16 + prim.num 40 4 % 2 ^ 16, a8)
    let m1 := writeKeys m r k.1
    match k.2 with
    | some e => m1.putNum (r + 56) 4 (min 0xFFFFFFFF (m1.num (r + 56) 4 + depthOfCode (e.2.2 % 256)))
    | none => m1

/-! ### vrtri (R331) -/

/-- R331: the checks of the triangle's address: its offset in the issuing core's store, or the kind that traps. -/
def State.checkTriangle (s : State) (ea : Word) : Except Nat Nat :=
  if kdKind (s.th.kd[segIndex ea]) ≠ 2 then .error kSegRights
  else match s.checkSpan s.th ea 40 .read with
    | .error k => .error k
    | .ok (.device _) => .error kSegRights
    | .ok (.store c o) =>
      if c ≠ s.cur ∨ o + 40 > 2 ^ 18 then .error kVecRemote else if ea.toNat % 4 ≠ 0 then .error kMisaligned else .ok o

/-- `n` words of the issuing core's store read whole. -/
def State.lsWords (s : State) (off : Nat) : Nat → State × List Nat
  | 0 => (s, [])
  | n + 1 =>
    let r := s.lsRead off 4
    let q := r.1.lsWords (off + 4) n
    (q.1, r.2 :: q.2)

/-- R331: the four results of one element. -/
def rayElem (o d : V3) (tmin tmax : FVal) (p : List FVal) : List (BitVec 32) :=
  let v (i : Nat) : V3 := ⟨p.getD i .nan, p.getD (i + 1) .nan, p.getD (i + 2) .nan⟩
  match triTest o d (v 0) (v 3) (v 6) with
  | some (t, a, b) =>
    if (fp32.decode t).between tmin tmax then [BitVec.ofNat 32 t, BitVec.ofNat 32 a, BitVec.ofNat 32 b, 1] else [0x7F800000, 0, 0, 0]
  | none => [0x7F800000, 0, 0, 0]

/-- R331. -/
def State.vrtri (s : State) (x : BitVec 4) (d o r : Field) (ea : Word) : State :=
  match s.checkTriangle ea with
  | .error k => s.trapAt k ea 0
  | .ok off =>
    let q := s.lsWords off 10
    let p := q.2.map fp32.decode
    let f (g : Field) (i : Nat) (e : Nat) : FVal := fp32.decode (s.velem (g + BitVec.ofNat 5 i) e).toNat
    let v3 (g : Field) (e : Nat) : V3 := ⟨f g 0 e, f g 1 e, f g 2 e⟩
    let res := (s.activeX x).map (fun e => (e, rayElem (v3 o e) (v3 r e) (f o 3 e) (f r 3 e) p))
    (q.1.watch ea 40 false).vfinish true ((List.range 4).map (fun i =>
      ((vreg d).val + i, res.map (fun w => (w.1, w.2.getD i 0)))))
/-- R331. -/
def execVrtri (x : BitVec 4) (d o r t : Field) (s : State) : Out := issue s (s.vrtri x d o r (s.reg t))

end Sys2Proof.Machine
end

