-- ==== Sys2Proof/Machine/Signal.lean ====
section
/-! DEFINITION. Signal words (R229, R230), reads by agents outside the cores, the end of a packet (R270), the replay log (R398). -/

namespace Sys2Proof.Machine

/-- `n` blocks of 8 bytes at a DVA, read by an agent: false where it has to wait for Bobbin, true where it cannot be read. -/
def State.fetchBytes (s : State) (x dva : Nat) : Nat → Except Bool (List Byte)
  | 0 => .ok []
  | n + 1 => match s.engineHome x dva false false with
    | .error e => .error e
    | .ok h => match s.fetchBytes x (dva + 8) n with
      | .error e => .error e
      | .ok r => .ok (leBytes (s.homeRead h 8) 8 ++ r)

/-- A field of `n` bytes at an offset of some bytes (R5). -/
def bytesNum (b : List Byte) (o n : Nat) : Nat := leNat ((b.drop o).take n)
/-- Bytes [lo, hi) are all zero. -/
def zeroSpan (b : List Byte) (lo hi : Nat) : Bool := ((b.drop lo).take (hi - lo)).all (· == 0)

/-- The state with a queue set. -/
def State.setQueue (s : State) (q : Nat) (k : Queue) : State := { s with queues := mapPut s.queues q k }
/-- R230, R270: a started packet of a queue ends with a code. -/
def State.endPacket (s : State) (q idx code : Nat) : State :=
  match mapGet s.queues q with
  | none => s
  | some k => match mapGet k.started idx with
    | none => s
    | some csig => (s.signal k.ctx csig code).setQueue q { k with started := mapDel k.started idx }

/-- The state with a die set. -/
def State.setDie (s : State) (d : Nat) (v : Die) : State := { s with dies := s.dies.set (d % 4) v (Nat.mod_lt _ (by decide)) }
/-- A die. -/
def State.die (s : State) (d : Nat) : Die := s.dies[d % 4]'(Nat.mod_lt _ (by decide))
/-- The state with a carousel set. -/
def State.setCar (s : State) (d k : Nat) (c : Carousel) : State :=
  s.setDie d { s.die d with cars := (s.die d).cars.set (k % 4) c (Nat.mod_lt _ (by decide)) }
/-- A change applied to the threads in the cores of a die. -/
def State.mapLiveCores (s : State) (d : Nat) (f : Thread → Thread) : State :=
  { s with cores := s.cores.map (fun p => if dieOf p.1 = d then (p.1, { p.2 with slots := mapSlots f p.2.slots }) else p) }

end Sys2Proof.Machine
end

