-- ==== Sys2Proof/Machine/Carousel.lean ====
section
/-! DEFINITION. Segments and carousels (R297 to R311), deliveries to the Intersection Engines (R318 to R325, R332, R333), and
the carousel instructions (R312 to R315, R327 to R330). -/

namespace Sys2Proof.Machine

/-! ### Segments (R297 to R299, R307) -/

/-- R297: CRC-32C of some bytes (log 10). -/
def crcBits : Nat → Nat → Nat
  | 0, c => c
  | n + 1, c => crcBits n (if c % 2 = 1 then (c / 2) ^^^ 0x82F63B78 else c / 2)
def crc32c (bs : List Byte) : Nat := (bs.foldl (fun c b => crcBits 8 (c ^^^ b.toNat)) 0xFFFFFFFF) ^^^ 0xFFFFFFFF

/-- R298: the payload length that a header's KIND, COUNT and WFMT call for; none for a K that `bload` refuses (R221). -/
def payloadLen (h : List Byte) : Option Nat :=
  let count := bytesNum h 4 4
  match bytesNum h 0 1 with
  | 1 => if count = 0 then none else some (40 * count)
  | 2 => if count = 0 then none else some (44 * count)
  | 3 =>
    let f := bytesNum h 1 1
    let fb : BitVec 4 := BitVec.ofNat 4 f
    if f > 8 ∨ count = 0 ∨ count % 8 ≠ 0 ∨ count > kMax fb ∨ (fb = 8 ∧ count % 64 ≠ 0) then none
    else some (16 * count * fmtBits fb / 8 + (if fb = 8 then 128 * ((count + 255) / 256) else 0))
  | _ => none
/-- R299: a valid header. -/
def headerOk (h : List Byte) : Bool :=
  let kind := bytesNum h 0 1
  let f (i : Nat) : FVal := fp32.decode (bytesNum h (16 + 4 * i) 4)
  let plen := bytesNum h 12 4
  decide (bytesNum h 2 2 ≠ 0xFFFF) && (payloadLen h == some plen) && decide (1 ≤ plen ∧ plen ≤ 65536) && zeroSpan h 44 64 &&
  (if kind = 3 then zeroSpan h 16 40
   else zeroSpan h 1 2 && (List.range 6).all (fun i => !(f i).isNan) && (List.range 3).all (fun i => !((f (i + 3)).lt (f i))))

/-- R307: a segment read whole: header and payload; false where the sequencer has to wait, true where it cannot be read. -/
def State.readSegment (s : State) (x dva : Nat) : Except Bool (List Byte × List Byte) :=
  match s.fetchBytes x dva 8 with
  | .error e => .error e
  | .ok h =>
    if !headerOk h then .error true
    else match s.fetchBytes x (dva + 64) ((bytesNum h 12 4 + 7) / 8) with
      | .error e => .error e
      | .ok p => .ok (h, p.take (bytesNum h 12 4))

/-! ### Subscriptions (R303, R319) -/

/-- The clusters of a die, by their IX. -/
def State.dieClusters (s : State) (d : Nat) : List (Nat × Cluster) := s.clusters.filter (fun p => ixDie p.1 == d)
/-- R303, R305: a subscription to a segment that takes part in no delivery and was registered in an earlier cycle. -/
def Sub.counts (b : Sub) (now car seg : Nat) : Bool :=
  b.car == car && b.seg == seg && b.opened.isNone && decide (b.since < now)
/-- R305, R308: a subscription takes part in a delivery of its segment that opens now: a ray's if it counts, a weight target's always. -/
def Sub.joins (b : Sub) (now car seg : Nat) : Bool :=
  b.counts now car seg || (b.ray.isNone && b.car == car && b.seg == seg && decide (b.since < now))
/-- A subscription takes part in a delivery. -/
def Sub.takes (b : Sub) (id : Nat) : Bool := b.opened == some id || b.more.contains id
/-- A subscription enters a delivery: now, or, for a weight target, after those that it still waits for (R308). -/
def Sub.enter (b : Sub) (id : Nat) : Sub :=
  if b.opened.isNone then { b with opened := some id, boxed := none } else { b with more := b.more ++ [id] }
/-- A subscription leaves a delivery, and its next one follows. -/
def Sub.leave (b : Sub) (id : Nat) : Sub :=
  if b.opened = some id then { b with opened := b.more.head?, more := b.more.drop 1, boxed := none }
  else { b with more := b.more.filter (· != id) }
/-- R308: a weight target receives each delivery when it comes: one that still waits for a re-delivery takes it after this one. -/
def Sub.bring (b : Sub) (id : Nat) : Sub :=
  if b.more.contains id then { b with opened := some id, more := b.opened.toList ++ b.more.filter (· != id), boxed := none } else b
/-- R303: subs(e) > 0. -/
def State.hasSubs (s : State) (d car seg : Nat) : Bool := (s.dieClusters d).any (fun p => p.2.subs.any (fun b => b.counts s.cycle car seg))
/-- R333: ascending logical core, then ascending ray, then target. -/
def Sub.before (a b : Sub) : Bool :=
  decide (a.core < b.core) || (a.core == b.core &&
    (decide (a.ray.getD 0 < b.ray.getD 0) || (a.ray == b.ray && decide (a.target < b.target))))
def insertSub (b : Sub) : List Sub → List Sub
  | [] => [b]
  | c :: r => if b.before c then b :: c :: r else c :: insertSub b r
def sortSubs (l : List Sub) : List Sub := l.foldr insertSub []

/-- R306, R309: the subscriptions of a context on a cluster are out of reach: it is being saved there, or is saved. -/
def State.ixSaved (s : State) (x cl : Nat) : Bool :=
  (s.context x).saving.contains cl || (s.context x).saved.any (fun p => clusterOf p.1 == cl)
/-- A change applied to the subscriptions of a cluster. -/
def State.mapSubs (s : State) (cl : Nat) (f : Sub → Sub) : State :=
  s.setCluster cl { s.cluster cl with subs := (s.cluster cl).subs.map f }
/-- A subscription removed. -/
def State.dropSub (s : State) (b : Sub) : State :=
  s.setCluster (s.ixOf b.core) { s.cluster (s.ixOf b.core) with subs := (s.cluster (s.ixOf b.core)).subs.filter (· != b) }
/-- R317, R319: the pending count of a ray: its unserved subscriptions. -/
def State.pendingOf (s : State) (x c r : Nat) : Nat :=
  ((s.cluster (s.ixOf c)).subs.filter (fun b => b.core == c && b.ctx == x && b.ray == some r)).length
/-- R316: the record of a ray. -/
def Pool.record (p : Pool) (r : Nat) : Nat := p.base + (if p.splat then 128 else 64) * r
/-- What names a subscription to the `crunsub` that waits for it. -/
def Sub.key (b : Sub) : Nat := b.seg + b.car * 2 ^ 16 + b.target * 2 ^ 18 + b.ray.elim 0 (fun r => (r + 1) * 2 ^ 24)
/-- A `crunsub` that waits for a subscription goes on. -/
def State.wakeUnsub (s : State) (b : Sub) : State :=
  let k := s.coreFor b.ctx b.core
  s.setCoreFor b.ctx b.core { k with slots := mapSlots (fun t =>
    if t.st = .parked .applied ∧ t.aux.toNat = b.key then { t with granted := true } else t) k.slots }

/-- R319, R325: a ray subscription is served: both counts fall, an error is marked, and a count that reaches 0 posts a completion, unless
the kernel that declared the pool has completed. -/
def State.serveRay (s : State) (b : Sub) (err : Bool) : State :=
  match b.ray with
  | none => s.dropSub b
  | some r =>
    let s1 := s.dropSub b
    let n := s1.pendingOf b.ctx b.core r
    let k := s1.coreFor b.ctx b.core
    let a := k.pool.record r
    let flags := (k.ls.num (a + 46) 2) ||| err.toNat ||| (if n = 0 then 2 else 0)
    let s2 := s1.setCoreFor b.ctx b.core { k with ls := (k.ls.putNum (a + 44) 2 n).putNum (a + 46) 2 flags }
    let s3 := if n ≠ 0 ∨ (s.kernelAt b.ctx k.pool.kid).done ∨ (s.kernel b.ctx k.pool.kid).isNone then s2
      else s2.deliverMail b.ctx b.core
        { d := BitVec.ofNat 64 (r % 2 ^ 16 + flags % 2 * 2 ^ 16)
          tt := k.pool.tidx
          ktag := k.pool.kid.truncate 12
          kind := 3
          sender := BitVec.ofNat 12 b.core
          tag := s.agentTag (s.entity (dieOf b.core) 3 (s.ixOf b.core) 0) b.tag }
    s3.wakeUnsub b

/-- R302, R307: the ray subscriptions of a die that a test selects pass with their error flag set, in ascending order; the weight
subscriptions among them end if asked. -/
def State.passAll (s : State) (d : Nat) (f : Sub → Bool) (weights : Bool) : State :=
  (sortSubs ((s.dieClusters d).flatMap (fun p => p.2.subs.filter f))).foldl (fun (s : State) b =>
    match b.ray with
    | some _ => s.serveRay b true
    | none => if weights then (s.dropSub b).wakeUnsub b else s) s

/-! ### Slots and laps (R303 to R305, R332) -/

/-- R300: an Idle carousel runs again. -/
def State.carWake (s : State) (d k : Nat) : State :=
  if (s.car d k).st = .idle then s.setCar d k { s.car d k with st := .running } else s
/-- The entry of a segment in the schedule. -/
def Carousel.entryOf (c : Carousel) (seg : Nat) : Option Nat := (c.sched.zipIdx.find? (fun p => p.1.seg == seg)).map (·.2)
/-- R314: promotions leave the queue; their instructions complete. -/
def State.endPromos (s : State) (d k : Nat) (ps : List Promo) : State :=
  ps.foldl (fun (s : State) p => p.deps.foldl (fun (s : State) e =>
    s.touch e.1 (fun t => t.depEnd (some e.2.1) (s.agentTag (s.entity d 2 k 0) e.2.2))) s) s

/-- What the next slot delivers. -/
inductive Pick where
  /-- R309: a re-delivery to a cluster -/
  | again (cluster idx : Nat)
  /-- an entry, after some promotions are popped; an express one leaves the regular pointer where it is -/
  | entry (pops : Nat) (express : Bool) (idx : Nat)
  /-- the lap boundary -/
  | lap (pops : Nat)
  deriving DecidableEq, Repr

/-- R309: the re-delivery that is pending for a carousel, if a subscription waits for it. -/
def State.pendingAgain (s : State) (d k : Nat) : Option (Nat × IxJob) :=
  (s.dieClusters d).findSome? (fun p => (p.2.redeliver.find? (fun j =>
    j.car == k && p.2.subs.any (fun b => b.takes j.delivery && !s.ixSaved b.ctx (clusterOf b.core)))).map (fun j => (p.1, j)))
/-- R303: an entry that is not BAD and has subscribers. -/
def State.deliverable (s : State) (d k : Nat) (c : Carousel) (i : Nat) : Bool :=
  match c.sched[i]? with
  | some e => !e.bad && s.hasSubs d k e.seg
  | none => false
/-- R303: the regular scan from the pointer on. -/
def State.regular (s : State) (d k : Nat) (c : Carousel) : Option Nat :=
  ((List.range c.sched.length).drop c.p).find? (s.deliverable d k c)
/-- R303, R309: the choice of the next slot. A re-delivery takes an express slot and no other (log 49). -/
def State.pick (s : State) (d k : Nat) : Pick :=
  let c := s.car d k
  let queue := c.promo.takeWhile (fun z => decide (z.since < s.cycle))
  let hit := queue.zipIdx.findSome? (fun z => match c.entryOf z.1.seg with
    | some i => if s.deliverable d k c i then some (z.2, i) else none
    | none => none)
  let again : Option Pick := match s.pendingAgain d k with
    | some (cl, j) => (c.entryOf j.seg).map (fun i => Pick.again cl i)
    | none => none
  let rest (pops : Nat) : Pick := match s.regular d k c with
    | some i => .entry pops false i
    | none => .lap pops
  if (c.s + 1) % c.k ≠ 0 then rest 0
  else match again with
    | some a => a
    | none => match hit with
      | some (n, i) => .entry (n + 1) true i
      | none => rest queue.length
/-- The schedule entry that a choice needs read. -/
def Pick.index : Pick → Option Nat | .again _ i => some i | .entry _ _ i => some i | .lap _ => none

/-- An entry of a schedule set. -/
def State.setEntry (s : State) (d k i : Nat) (e : SchedEntry) : State :=
  s.setCar d k { s.car d k with sched := listSet (s.car d k).sched i e }
/-- R307: a second failure of an entry's read marks it BAD. -/
def State.markBad (s : State) (d k i : Nat) : State :=
  let c := s.car d k
  match c.sched[i]? with
  | none => s
  | some e =>
    (s.setCar d k { c with sched := listSet c.sched i { e with bad := true, failed := 0 }, badid := e.seg }).passAll d
      (fun b => b.car == k && b.seg == e.seg) false
/-- R307: the sequencer reads the segment of the next slot. -/
def State.segRead (s : State) (d k : Nat) : State :=
  let c := s.car d k
  match (s.pick d k).index with
  | none => s
  | some i => match c.sched[i]? with
    | none => s
    | some e =>
      if decide (c.st ≠ .running) || (match c.read with | some r => r.1 == i | none => false) then s
      else match s.readSegment c.ctx e.dva with
        | .error false => s
        | r =>
          let s := s.agentMeets c.ctx e.dva (64 + e.plen)
          let good := match r with
            | .ok (h, p) => decide (bytesNum h 0 1 = e.kind ∧ bytesNum h 2 2 = e.seg ∧ bytesNum h 12 4 = e.plen) &&
                crc32c p == bytesNum h 40 4
            | .error _ => false
          match good, r with
          | true, .ok (h, p) => (s.setCar d k { c with read := some (i, h, p) }).setEntry d k i { e with failed := 0 }
          | _, _ => if e.failed ≠ 0 then s.markBad d k i else s.setEntry d k i { e with failed := 1 }
/-- R307. -/
def execSegmentRead (die car : Nat) (s : State) : Out := .next (s.segRead die car)

/-! ### Swapping the layers of a weight set (R335, R339) -/

/-- R335: a layer's word and ADM. -/
def layerDva (gate j : Nat) : Nat := gate + 16 + 16 * j
/-- R335: LV and PASS of a layer; false where its page is not there yet, or moves (R353), and 0 where it never will be. -/
def State.layerWord (s : State) (x gate j : Nat) : Except Bool Nat :=
  match s.engineHome x (layerDva gate j) false false with
  | .ok h => if s.updates.any (fun u => u.ctx == x) then .error false else .ok (s.homeRead h 8)
  | .error e => if e then .ok 0 else .error false
/-- The loads with one of them changed. -/
def State.setLoad (s : State) (l : WeightLoad) : State :=
  { s with loads := s.loads.map (fun m => if m.queue = l.queue ∧ m.packet = l.packet then l else m) }
/-- The segments of a shard as they lie at DST: DVA and header; true where a header is not that of a WEIGHT segment, false where one
cannot be read yet. -/
def State.walkShard (s : State) (x dst len : Nat) : Nat → Nat → Except Bool (List (Nat × List Byte))
  | 0, _ => .ok []
  | n + 1, off =>
    if off ≥ len then .ok []
    else match s.fetchBytes x (dst + off) 8 with
      | .error e => .error e
      | .ok h =>
        if dst % 64 ≠ 0 ∨ !headerOk h ∨ bytesNum h 0 1 ≠ 3 then .error true
        else match s.walkShard x dst len n (off + (64 + bytesNum h 12 4 + 63) / 64 * 64) with
          | .error e => .error e
          | .ok r => .ok ((dst + off, h) :: r)
/-- The segments of a shard. -/
def State.segmentsOf (s : State) (x : Nat) (h : Shard) : Except Bool (List (Nat × List Byte)) := s.walkShard x h.dst h.len (h.len / 64) 0
/-- R339: the layers that every request under the replaced version has passed. -/
def State.passedLayers (s : State) (l : WeightLoad) : List Nat :=
  match l.replacing with
  | some (v, n) => (List.range l.nlayer).filter (fun j => match s.layerWord l.ctx l.gate j with
    | .ok w => w == n * 2 ^ 32 + v
    | .error _ => false)
  | none => []
/-- R339: the dies on which a load's carousel runs for its partition. -/
def State.swapDies (s : State) (l : WeightLoad) : List Nat :=
  (List.range 4).filter (fun d => let c := s.car d l.car
    c.st != .off && c.st != .stopping && c.partition == (s.context l.ctx).partition)
/-- R339: one layer swapped on a die: the schedule entries of its segments name the new copies. -/
def State.swapLayer (s : State) (l : WeightLoad) (d j : Nat) : State :=
  ((l.shards.filter (fun h => h.layer == j)).flatMap (·.segs)).foldl
    (fun (s : State) g => match (s.car d l.car).entryOf g.1 with
      | none => s
      | some i => match (s.car d l.car).sched[i]? with
        | some e => if e.kind = 3 then
            s.setEntry d l.car i { e with dva := g.2.1, plen := g.2.2, bad := false, failed := 0 } else s
        | none => s) s
/-- R339: at a lap boundary of a die's carousel every layer that may be swapped is, in ascending order. -/
def State.swapLayers (s : State) (d k : Nat) : State :=
  s.loads.foldl (fun (s : State) l =>
    if l.car ≠ k ∨ !(s.swapDies l).contains d then s
    else
      let js := (s.passedLayers l).filter (fun j => !l.swapping.contains (j, d))
      (js.foldl (fun (s : State) j => s.swapLayer l d j) s).setLoad { l with swapping := l.swapping ++ js.map (fun j => (j, d)) }) s

/-- R339, R353: a lap boundary at which a layer word of a replacement cannot be read yet waits for it. -/
def State.gateWaits (s : State) (d k : Nat) : Bool :=
  s.loads.any (fun l => l.car == k && l.replacing.isSome && (s.swapDies l).contains d &&
    (List.range l.nlayer).any (fun j => match s.layerWord l.ctx l.gate j with | .error _ => true | .ok _ => false))
/-- R304: what waits for a lap boundary takes effect, in packet order. -/
def State.applyCmd (s : State) (d k : Nat) : CarCmd → State
  | .replace i dva plen q idx =>
    let c := s.car d k
    match c.sched[i]? with
    | some e => (s.setCar d k { c with sched := listSet c.sched i { e with dva := dva, plen := plen, bad := false, failed := 0 } }).endPacket q idx 0
    | none => s.endPacket q idx 0
  | .period n q idx => (s.setCar d k { s.car d k with k := n, s := 0 }).endPacket q idx 0
/-- R315: a lap has passed: the `crlap.w`s that wait for it take the new LAPN, beside their L0, and the sequencer's tag; one that is saved
looks again when it is restored. -/
def State.endLap (s : State) (d k lapn : Nat) : State :=
  s.mapLiveCores d (fun t => match t.st with
    | .parked (.lap j l0) =>
      if j = k ∧ l0 ≠ lapn ∧ !t.granted ∧ !t.refused then { t with
        granted := true
        aux := BitVec.ofNat 64 (l0 + lapn * 2 ^ 24)
        tag := some { ent := s.entity d 2 k 0, time := BitVec.ofNat 64 s.time } }
      else t
    | _ => t)
/-- R304: a lap boundary. A carousel whose subscribers came too late for this lap keeps running. -/
def State.lapBoundary (s : State) (d k : Nat) : State :=
  let c := s.car d k
  let s1 := (c.cmds.foldl (fun (s : State) m => s.applyCmd d k m) (s.setCar d k { c with cmds := [], read := none })).swapLayers d k
  let c1 := s1.car d k
  let want := c1.promo.any (fun z => decide (z.since ≥ s.cycle)) || (s1.pendingAgain d k).isSome || c1.sched.any (fun e =>
    !e.bad && (s1.dieClusters d).any (fun p => p.2.subs.any (fun b => b.car == k && b.seg == e.seg && b.opened.isNone)))
  let lapn := (c1.lapn + 1) % 2 ^ 24
  (s1.setCar d k { c1 with
    lapn := lapn
    p := 0
    openedSince := false
    lapTime := BitVec.ofNat 64 s.time
    st := if !c1.openedSince && !want then .idle else c1.st }).endLap d k lapn

/-- R305, R306: a slot opens: the subscriptions that take part are marked, and the delivery is on its way. -/
def State.openEntry (s : State) (d k i : Nat) (h p : List Byte) : State :=
  let c := s.car d k
  match c.sched[i]? with
  | none => s
  | some e =>
    let id := s.nextId
    let cls := ((s.dieClusters d).filter (fun q => q.2.subs.any (fun b => b.joins s.cycle k e.seg))).map (·.1)
    let s1 := cls.foldl (fun (r : State) cl => r.mapSubs cl (fun b =>
      if b.joins s.cycle k e.seg then b.enter id else b)) { s with nextId := id + 1 }
    let job : IxJob := { delivery := id, car := k, seg := e.seg, kind := e.kind, dva := e.dva, header := h, payload := p }
    let v := s1.die d
    s1.setDie d { v with deliveries := v.deliveries ++ [{ id := id, job := job, clusters := cls }] }
/-- R309, R326: the re-delivery to a cluster: from the saved primitive, or from the first where the entry's segment has changed. -/
def State.openAgain (s : State) (d cl i : Nat) (h p : List Byte) (j : IxJob) : State :=
  let e := (s.car d j.car).sched[i]?
  let dva := (e.map (·.dva)).getD j.dva
  let same := decide (dva = j.dva)
  let job : IxJob := { j with
    dva := dva, header := h, payload := p, next := bif same then j.next else 0, ray := bif same then j.ray else 0, begun := true }
  let k := s.cluster cl
  let s1 := s.setCluster cl { k with
    redeliver := k.redeliver.filter (fun r => r.delivery != j.delivery)
    subs := k.subs.map (fun b =>
      if dva ≠ j.dva ∧ b.opened = some j.delivery ∧ b.ray.isSome then { b with boxed := none } else b) }
  let v := s1.die d
  s1.setDie d { v with deliveries := v.deliveries ++ [{ id := j.delivery, job := job, clusters := [cl] }] }

/-- R306: some cluster buffer of the die is full. -/
def State.bufferFull (s : State) (d : Nat) : Bool := (s.dieClusters d).any (fun p => decide (p.2.buffer.length ≥ 4))
/-- R303, R332: the next slot of a carousel opens, or its scan passes a lap boundary. -/
def State.slotOpen (s : State) (d k : Nat) : State :=
  let c := s.car d k
  if c.st ≠ .running ∨ s.bufferFull d then s
  else match s.pick d k with
    | .lap n => if s.gateWaits d k then s
      else ((s.setCar d k { c with promo := c.promo.drop n }).lapBoundary d k).endPromos d k (c.promo.take n)
    | q => match c.read, q.index with
      | some (i, h, p), some j =>
        if i ≠ j then s
        else
          let opened (c : Carousel) : Carousel := { c with s := c.s + 1, openedSince := true, read := none }
          match q with
          | .again cl _ => match s.pendingAgain d k with
            | some (_, job) => (s.setCar d k (opened c)).openAgain d cl i h p job
            | none => s
          | .entry n express _ =>
            let c1 := { opened c with promo := c.promo.drop n, p := if express then c.p else i + 1 }
            ((s.openEntry d k i h p).setCar d k c1).endPromos d k (c.promo.take n)
          | .lap _ => s
      | _, _ => s
/-- R303. -/
def execSlotOpen (die car : Nat) (s : State) : Out := .next (s.slotOpen die car)

/-! ### Stopping (R300, R302) -/

/-- A delivery of a carousel is on its way or in a buffer. -/
def State.outstanding (s : State) (d k : Nat) : Bool :=
  (s.die d).deliveries.any (fun v => v.job.car == k) || (s.dieClusters d).any (fun p => p.2.buffer.any (fun j => j.car == k))
/-- R302: a Stopping carousel whose last delivery is done becomes Off. -/
def State.carSettle (s : State) (d k : Nat) : State :=
  let c := s.car d k
  if c.st ≠ .stopping ∨ s.outstanding d k then s
  else
    let s1 := ((s.setCar d k {}).passAll d (fun b => b.car == k) true).endPromos d k c.promo
    let s2 := s1.mapLiveCores d (fun t => match t.st with
      | .parked (.lap j _) => if j = k ∧ !t.granted then { t with refused := true } else t
      | _ => t)
    let s3 := c.cmds.foldl (fun (s : State) m => match m with
      | .replace _ _ _ q idx => s.endPacket q idx 7
      | .period _ q idx => s.endPacket q idx 7) s2
    match c.stopPacket with
    | some (q, idx) => s3.endPacket q idx 0
    | none => s3
/-- R300: a carousel stops as STOP does. -/
def State.carStop (s : State) (d k : Nat) (packet : Option (Nat × Nat)) : State :=
  (s.setCar d k { s.car d k with st := .stopping, stopPacket := packet, read := none }).carSettle d k

/-! ### Deliveries (R306, R308, R309) -/

/-- R306: a delivery reaches a cluster: it takes an entry of the buffer, unless every subscription that takes part belongs to a
saved context. A re-delivery (R309) that finds its context being saved is pending again, at its cursor. -/
def State.deliverTo (s : State) (d n cl : Nat) : State :=
  let v := s.die d
  match v.deliveries[n]? with
  | none => s
  | some q =>
    let earlier := (v.deliveries.take n).any (fun w => w.job.car == q.job.car && w.clusters.contains cl)
    if !q.clusters.contains cl ∨ earlier ∨ s.bufferFull d then s
    else
      let left := q.clusters.filter (· != cl)
      let s1 := s.setDie d { v with
        deliveries := if left.isEmpty then listDel v.deliveries n else listSet v.deliveries n { q with clusters := left } }
      let away (b : Sub) : Bool := b.takes q.id && s.ixSaved b.ctx (clusterOf b.core)
      let back := q.job.begun && (s.cluster cl).subs.any away
      let s2 := if back then s1 else s1.mapSubs cl (fun b => if away b then b.leave q.id else b)
      let k := s2.cluster cl
      let s3 := if back then s2.setCluster cl { k with redeliver := k.redeliver ++ [q.job] }
        else if k.subs.any (·.takes q.id) then s2.setCluster cl { k with buffer := k.buffer ++ [q.job] } else s2
      s3.carSettle d q.job.car
/-- R306. -/
def execDelivery (die k cluster : Nat) (s : State) : Out := .next (s.deliverTo die k cluster)

/-- R308: a weight delivery to one subscription: it ends, it has landed, or it waits. -/
def State.deliverWeight (s : State) (j : IxJob) (b : Sub) : State :=
  let k := s.coreFor b.ctx b.core
  let bytes := j.header ++ j.payload
  let lf := BitVec.ofNat 4 (bytesNum j.header 1 1)
  let count := bytesNum j.header 4 4
  let landed (s : State) : State := s.mapSubs (s.ixOf b.core) (fun c => if c = b then { b with boxed := some true } else c)
  if b.target = 4 then
    let me := Producer.delivery j.delivery
    if !k.latch.hasRoom me then s.setCoreFor b.ctx b.core { k with latch := k.latch.wait me }
    else
      let n := 16 * count * fmtBits lf / 8
      landed (s.setCoreFor b.ctx b.core { k with
        latch := k.latch.join me (.delivery count lf (j.payload.take n) (j.payload.drop n)) })
  else
    let q := k.buf b.target
    let me := Producer.delivery j.delivery
    if !q.en ∨ bytes.length > q.slotBytes ∨ listClosed k (q.slotAt q.tail) bytes.length then
      (s.setCoreFor b.ctx b.core (k.setBuf b.target (q.leave me))).dropSub b
    else if !q.mayTake me s.cycle then s.setCoreFor b.ctx b.core (k.setBuf b.target (q.enqueue me))
    else
      let tag := s.agentTag (s.entity (dieOf b.core) 2 b.car 0) b.tag
      landed (s.setCoreFor b.ctx b.core
        ({ k with ls := k.ls.put (q.slotAt q.tail) bytes }.setBuf b.target ((q.take me).filled q.tail tag)))
/-- R307: a delivery to a latch has landed once its bytes have left the latch queue. -/
def State.latchLanded (s : State) (b : Sub) : Bool :=
  let l := (s.coreFor b.ctx b.core).latch
  let mine (q : LatchJob) : Bool := match q with | .delivery .. => true | _ => false
  b.target != 4 || (!l.queue.any mine && !(match l.fill with | some q => mine q | none => false))

/-- R320: the box test of a subscription's ray. -/
def State.boxOf (s : State) (j : IxJob) (b : Sub) (r : Nat) : Bool :=
  let k := s.coreFor b.ctx b.core
  let a := k.pool.record r
  let box (i : Nat) : FVal := fp32.decode (bytesNum j.header (16 + 4 * i) 4)
  boxTest (k.ls.v3 a) (k.ls.v3 (a + 16)) (k.ls.fp (a + 12)) (k.ls.fp (a + 28)) ⟨box 0, box 1, box 2⟩ ⟨box 3, box 4, box 5⟩
/-- R320: a subscription's ray tested against `n` primitives from `first` on. -/
def State.testRay (s : State) (j : IxJob) (b : Sub) (r first n : Nat) : State :=
  let k := s.coreFor b.ctx b.core
  let a := k.pool.record r
  let size := if j.kind = 2 then 44 else 40
  let ls := (List.range n).foldl (fun (m : Memory) i =>
    let prim := Memory.put [] 0 ((j.payload.drop (size * (first + i))).take size)
    if j.kind = 2 then hitSplat m a j.seg prim else hitTri m a j.seg prim) k.ls
  s.setCoreFor b.ctx b.core { k with ls := ls }

/-- R325: a core that the IX serves has more completions queued than the IX holds: the IX stands still. -/
def State.ixStopped (s : State) (cl : Nat) : Bool :=
  s.cores.any (fun p => decide ((p.2.held.filter (fun m => m.kind == 3)).length > 16) && s.ixOf p.1 == cl)
/-- The first entry of a cluster's buffer is done. -/
def State.freeEntry (s : State) (cl : Nat) (j : IxJob) : State :=
  let k := s.cluster cl
  let s1 := k.subs.foldl (fun (s : State) b => if b.takes j.delivery then s.wakeUnsub b else s)
    (s.setCluster cl { k with
      buffer := k.buffer.drop 1
      subs := k.subs.map (·.leave j.delivery) })
  s1.carSettle (ixDie cl) j.car

/-- R320, R333: a ray's place in the order in which a batch takes the rays. -/
def Sub.rayKey (b : Sub) : Nat := b.core * 2 ^ 12 + b.ray.getD 0
/-- R320: one batch of at most 64 tests of the rays whose box test passed: 64 rays or fewer against as many primitives as that allows,
or, of more rays, the next 64 against one primitive (log 63). The answer names the rays that have then seen the last primitive. -/
def State.testBatch (s : State) (j : IxJob) (live : List Sub) : State × List Sub × IxJob :=
  let left := live.filter (fun b => decide (j.ray ≤ b.rayKey))
  let now := left.take 64
  let n := if left.length = live.length then min (bytesNum j.header 4 4 - j.next) (max 1 (64 / max 1 live.length)) else 1
  let s1 := now.foldl (fun (s : State) b => match b.ray with
    | some r => s.testRay j b r j.next n
    | none => s) s
  (s1, if j.next + n ≥ bytesNum j.header 4 4 then now else [], match left.drop 64 with
    | b :: _ => { j with ray := b.rayKey, begun := true }
    | [] => { j with ray := 0, next := j.next + n, begun := true })
/-- R320, R333: one batch of the delivery at the head of a cluster's buffer. One that a save finds not begun is discarded there for the
saved context (R306, R326). -/
def State.ixBatch (s : State) (cl : Nat) (j : IxJob) (rest : List IxJob) : State :=
  let s := (if j.begun then s else s.mapSubs cl (fun b => if b.takes j.delivery && s.ixSaved b.ctx (clusterOf b.core) then b.leave j.delivery else b)).mapSubs cl
    (·.bring j.delivery)
  let part := sortSubs ((s.cluster cl).subs.filter (fun b => b.opened == some j.delivery))
  if part.isEmpty then s.freeEntry cl j
  else if j.kind = 3 then
    let s1 := part.foldl (fun (s : State) b => if b.boxed.isSome then s else s.deliverWeight j b)
      (s.setCluster cl { s.cluster cl with buffer := { j with begun := true } :: rest })
    let left := (s1.cluster cl).subs.filter (fun b => b.opened == some j.delivery)
    if left.all (fun b => b.boxed.isSome && s1.latchLanded b) then s1.freeEntry cl j else s1
  else
    let marked := part.map (fun b => match b.boxed, b.ray with
      | none, some r => { b with boxed := some (s.boxOf j b r) }
      | _, _ => b)
    let s1 := s.setCluster cl { s.cluster cl with
      subs := (s.cluster cl).subs.map (fun b => (marked.find? (fun c => { c with boxed := b.boxed } == b)).getD b) }
    let live := marked.filter (fun b => b.boxed == some true)
    let r := s1.testBatch j live
    let seen (b : Sub) : Bool := b.boxed == some false || r.2.1.contains b
    let s2 := (marked.filter seen).foldl (fun (s : State) b => s.serveRay b false) r.1
    if marked.all seen then s2.freeEntry cl j
    else s2.setCluster cl { s2.cluster cl with buffer := r.2.2 :: rest }
/-- R320, R325; an IX whose batch would write the store of a core that holds its requests waits (R401, log 73). -/
def State.primitiveBatch (s : State) (cl : Nat) : State :=
  match (s.cluster cl).buffer with
  | [] => s
  | j :: rest =>
    if s.ixStopped cl || (s.cluster cl).subs.any (fun b => b.takes j.delivery && s.holding b.core) then s else s.ixBatch cl j rest
/-- R320. -/
def execPrimitiveBatch (cluster : Nat) (s : State) : Out := .next (s.primitiveBatch cluster)

/-! ### The carousel instructions (R312 to R315, R327 to R330) -/

/-- R312: the checks of a name: the carousel, the SEGID and the entry, or the kind that traps. -/
def State.checkName (s : State) (name : Word) : Except Nat (Nat × Nat × SchedEntry) :=
  if bits name 63 18 ≠ 0 then .error kBadSegment
  else
    let c := s.car (dieOf s.cur) (bits name 17 16)
    if c.st = .off ∨ c.st = .stopping ∨ c.partition ≠ (s.context s.th.ctx).partition then .error kBadCarousel
    else match c.sched.find? (fun e => e.seg == bits name 15 0) with
      | some e => .ok (bits name 17 16, bits name 15 0, e)
      | none => .error kBadSegment

/-- R313, R326: an IX has begun the delivery that a subscription takes part in. -/
def State.begun (s : State) (b : Sub) : Bool :=
  let k := s.cluster (s.ixOf b.core)
  let mine (j : IxJob) : Bool := j.begun && b.takes j.delivery
  (s.context b.ctx).savedIx.any (fun p => p.1 == clusterOf b.core && mine p.2) || k.buffer.any mine || k.redeliver.any mine || (s.die (dieOf b.core)).deliveries.any (fun v => mine v.job)

/-- R89: what an instruction asks of a sequencer or of an IX is applied in a cycle after the one of its issue, and its thread is Parked
until then; the instruction's checks are made at both (log 35). -/
def State.applied (s : State) (y : BitVec 12) (k : State → State) : State :=
  if s.th.stage = 3 then k s else ((s.issueSync y).stage 3).park (.applying s.cycle)
/-- R313. -/
def State.crskip (s : State) (name : Word) (y : BitVec 12) : State :=
  match s.checkName name with
  | .error k => s.trap k
  | .ok (car, seg, _) => s.applied y fun s1 =>
    let mine := (s1.dieClusters (dieOf s.cur)).flatMap (fun p =>
      p.2.subs.filter (fun b => b.car == car && b.seg == seg && b.ctx == s.th.ctx && b.ray.isSome && !s1.begun b))
    ((sortSubs mine).foldl (fun (s : State) b => s.serveRay b false) s1).complete y
/-- R313. -/
def execCrskip (a : Field) (sync : BitVec 12) (s : State) : Out := issue s (s.sync sync fun s => s.crskip (s.reg a) sync)

/-- R314. -/
def State.crpromote (s : State) (name : Word) (y : BitVec 12) : State :=
  match s.checkName name with
  | .error k => s.trap k
  | .ok (car, seg, _) =>
    let d := dieOf s.cur
    s.applied y fun s =>
      let c := s.car d car
      let deps := match syncDep y with | some q => [(s.th.uid, q, s.selfTag)] | none => []
      if c.promo.any (fun p => p.seg == seg) then
        (s.setCar d car { c with
          promo := c.promo.map (fun p => if p.seg = seg then { p with deps := p.deps ++ deps } else p) }).advance
      else s.await (.promoRoom car) fun s =>
        ((s.setCar d car { c with promo := c.promo ++ [{ seg := seg, since := s.cycle, deps := deps }] }).carWake d car).advance
/-- R314. -/
def execCrpromote (a : Field) (sync : BitVec 12) (s : State) : Out := issue s (s.sync sync fun s => s.crpromote (s.reg a) sync)

/-- R312, R315: the checks of `crlap`. -/
def State.checkLap (s : State) (n : Word) : Option Nat :=
  let c := s.car (dieOf s.cur) n.toNat
  if bits n 63 2 ≠ 0 ∨ c.st = .off ∨ c.st = .stopping ∨ c.partition ≠ (s.context s.th.ctx).partition then none else some n.toNat
/-- R315. -/
def execCrlap (d a : Field) (sync : BitVec 12) (s : State) : Out :=
  issue s (s.sync sync fun s => match s.checkLap (s.reg a) with
    | none => s.trap kBadCarousel
    | some k => ((s.issueSync sync).setReg d (BitVec.ofNat 64 (s.car (dieOf s.cur) k).lapn)).complete sync)
/-- R315. -/
def State.crlapW (s : State) (d : Field) (n : Word) (y : BitVec 12) : State :=
  let die := dieOf s.cur
  let wait (s : State) : State :=
    let k := n.toNat % 4
    let w := Wait.lap k (s.th.aux.toNat % 2 ^ 24)
    s.await w fun s =>
      let t := s.th
      let s1 := s.waited w (some (t.tag.getD { ent := s.entity die 2 k 0, time := (s.car die k).lapTime }))
      (s1.setReg d (if t.granted then t.aux >>> 24 else if t.refused then 0xFFFFFFFFFFFFFFFF
        else BitVec.ofNat 64 (s.car die k).lapn)).complete y
  if s.th.stage = 2 then wait s
  else match s.checkLap n with
    | none => s.trap kBadCarousel
    | some k =>
      let s1 := (s.issueSync y).stage 2
      wait (s1.setTh { s1.th with aux := BitVec.ofNat 64 (s.car die k).lapn })
/-- R315. -/
def execCrlapW (d a : Field) (sync : BitVec 12) (s : State) : Out := issue s (s.sync sync fun s => s.crlapW d (s.reg a) sync)

/-- R328. -/
def State.crpool (s : State) (splat : Bool) (ea c l : Word) (y : BitVec 12) : State :=
  let k := s.core s.cur
  let size := if splat then 128 else 64
  if !(s.subsOf s.cur).isEmpty then s.trap kPoolBusy
  else if c = 0 then s.applied y fun s => (s.setCore s.cur { s.core s.cur with pool := { k.pool with valid := false } }).complete y
  else if c.toNat > 2048 then s.trap kBadPool
  else if !kdW (s.th.kd[segIndex ea]) then s.trapAt kSegRights ea 1
  else match s.checkOwn s.cur s.th ea (c.toNat * size) with
    | .error e => s.trapAt e ea 1
    | .ok base =>
      if bits l 63 18 ≠ 0 ∨ l.toNat % 64 ≠ 0 ∨ l.toNat + 0xA000 > 0x40000 ∨
          (l.toNat < base + c.toNat * size ∧ base < l.toNat + 0xA000) then s.trap kBadPool
      else s.applied y fun s =>
        let k := s.core s.cur
        let p : Pool :=
          { valid := true, splat := splat, count := c.toNat, list := l.toNat, base := base, tidx := s.th.tidx, kid := s.th.kid }
        let ls := (List.range c.toNat).foldl (fun (m : Memory) i => m.putNum (base + size * i + 44) 4 0) (k.ls.clear l.toNat 0xA000)
        (s.setCore s.cur { k with pool := p, ls := ls }).complete y
/-- R328. -/
def execCrpool (kind : BitVec 1) (a b l : Field) (sync : BitVec 12) (s : State) : Out :=
  issue s (s.sync sync fun s => s.crpool (kind == 1) (s.reg a) (s.reg b) (s.reg l) sync)

/-- R329: the subscription that an instruction names, after its checks. -/
def State.checkSub (s : State) (x : BitVec 4) (ray name : Word) : Except Nat Sub :=
  match s.checkName name with
  | .error k => .error k
  | .ok (car, seg, e) =>
    let k := s.core s.cur
    let target := (x.extractLsb' 1 3).toNat
    let sub : Sub := { core := s.cur, ray := none, car := car, seg := seg, ctx := s.th.ctx, since := s.cycle, tag := s.selfTag }
    if x.getLsbD 0 then
      if e.kind ≠ 3 then .error kBadSegment
      else if target < 4 ∧ !(k.buf target).en then .error kBadBuffer
      else .ok { sub with target := target }
    else if !k.pool.valid ∨ ray.toNat ≥ k.pool.count then .error kBadPool
    else if e.kind ≠ (if k.pool.splat then 2 else 1) then .error kBadSegment
    else .ok { sub with ray := some ray.toNat }
/-- R319: the same pair is subscribed. -/
def State.subscribed (s : State) (b : Sub) : Option Sub :=
  (s.cluster (s.ixOf b.core)).subs.find? (fun c =>
    c.core == b.core && c.ctx == b.ctx && c.ray == b.ray && c.target == b.target && c.car == b.car && c.seg == b.seg)
/-- R329, R330: dst receives the pending count of a ray, and the instruction completes. -/
def State.countTo (s : State) (b : Sub) (d : Field) (y : BitVec 12) : State :=
  (match b.ray with
    | some r => s.setReg d (BitVec.ofNat 64 (s.pendingOf b.ctx b.core r))
    | none => s).complete y

/-- R307: a ray's subscription to an entry that is BAD passes at once, with its error flag set. -/
def State.passBad (s : State) (b : Sub) : State :=
  if b.ray.isSome ∧ (s.car (dieOf b.core) b.car).sched.any (fun e => e.seg == b.seg && e.bad) then s.serveRay b true else s
/-- R329: a subscription is registered. -/
def State.register (s : State) (b : Sub) : State :=
  let cl := s.ixOf b.core
  let s1 := s.setCluster cl { s.cluster cl with subs := (s.cluster cl).subs ++ [b] }
  let s2 := match b.ray with
    | none => s1
    | some r =>
      let k := s1.core b.core
      let a := k.pool.record r
      let n := s1.pendingOf b.ctx b.core r
      let flags := k.ls.num (a + 46) 2
      let flags := if n = 1 then flags &&& 0xFFFD else flags
      s1.setCore b.core { k with ls := (k.ls.putNum (a + 44) 2 n).putNum (a + 46) 2 flags }
  (s2.carWake (dieOf b.core) b.car).passBad b
/-- R329: dst is the pending count, or 0 for a weight subscription. -/
def State.subCount (s : State) (b : Sub) (d : Field) (y : BitVec 12) : State :=
  (if b.ray.isNone then s.setReg d 0 else s).countTo b d y
/-- R329. -/
def State.crsub (s : State) (x : BitVec 4) (d : Field) (ray name : Word) (y : BitVec 12) : State :=
  match s.checkSub x ray name with
  | .error k => s.trap k
  | .ok b =>
    if (s.subscribed b).isSome then (s.issueSync y).subCount b d y
    else if decide ((s.subsOf s.cur).length ≥ 4096) ||
        (match b.ray with | some r => decide (s.pendingOf b.ctx b.core r ≥ 65535) | none => false) then
      s.trap kSubFull
    else s.applied y fun s => (s.register b).subCount b d y
/-- R329. -/
def execCrsub (x : BitVec 4) (d a b : Field) (sync : BitVec 12) (s : State) : Out :=
  issue s (s.sync sync fun s => s.crsub x d (s.reg a) (s.reg b) sync)

/-- R330: the removal of a subscription: at once if its delivery has not begun, else once that has been tested to its end. -/
def State.unsub (s : State) (b : Sub) (d : Field) (y : BitVec 12) : State :=
  match s.subscribed b with
  | none => s.countTo b d y
  | some c =>
    if s.begun c then (s.setTh { s.th with stage := 2, granted := false, aux := BitVec.ofNat 64 c.key }).park .applied
    else (match c.ray with | some _ => s.serveRay c false | none => s.dropSub c).countTo b d y
/-- R330. -/
def State.crunsub (s : State) (x : BitVec 4) (d : Field) (ray name : Word) (y : BitVec 12) : State :=
  if s.th.stage = 2 then
    if !s.th.granted then s.park .applied
    else s.unsub
      { core := s.cur, ray := if x.getLsbD 0 then none else some ray.toNat,
        target := if x.getLsbD 0 then (x.extractLsb' 1 3).toNat else 0,
        car := bits name 17 16, seg := bits name 15 0, ctx := s.th.ctx } d y
  else match s.checkSub x ray name with
    | .error k => s.trap k
    | .ok b => s.applied y fun s => s.unsub b d y
/-- R330. -/
def execCrunsub (x : BitVec 4) (d a b : Field) (sync : BitVec 12) (s : State) : Out :=
  issue s (s.sync sync fun s => s.crunsub x d (s.reg a) (s.reg b) sync)

end Sys2Proof.Machine
end

