-- ==== Sys2Proof/Machine/Kill.lean ====
section
/-! DEFINITION. The ends of kernels, sessions and contexts: OUTSIG (R230, R234), END records (R386), the abort of a gang member
(R237) and the kill of a context (R177, R362). -/

namespace Sys2Proof.Machine

/-- R386: a session ends with an END record. -/
def State.endSession (s : State) (x flags : Nat) : State :=
  match s.sessionHead x with
  | some (_, h) =>
    let s1 := (s.append x [recordHead 15 flags s.time, 0, BitVec.ofNat 64 (h / 2 ^ 40), 0] true).1
    s1.setContext x { s1.context x with session := none }
  | none => s.setContext x { s.context x with session := none }

/-- R230, R259: a kernel ends with a code: its OUTSIG is updated, its mailbox entries are discarded, and it is live no more. -/
def State.endKernel (s : State) (k : Kernel) (code : Nat) : State :=
  ((s.signal k.ctx k.desc.outsig code).setKernel { k with done := true }).dropMail k.ctx (·.ofKernel k.kid)
/-- R276: the kernels that complete with a root. -/
def State.familyOf (s : State) (k : Kernel) : List Kernel :=
  s.kernels.filter (fun j => j.ctx == k.ctx && !j.done && (j.kid == k.kid || j.root == some k.kid))

/-- A change applied to every core, saved or not (R405). -/
def State.mapCores (s : State) (f : CoreState → CoreState) : State :=
  { s with
    cores := s.cores.map (fun p => (p.1, f p.2))
    contexts := s.contexts.map (fun p => (p.1, { p.2 with saved := p.2.saved.map (fun q => (q.1, f q.2)) })) }
/-- The threads of a core, in its slots and on their way into one. -/
def CoreState.threads (k : CoreState) : List Thread :=
  k.slots.toList.filterMap id ++ k.arrivals ++ k.spill ++
    k.deque.filterMap (fun e => match e with | .clone t => some t | .task _ => none)
/-- Of the places of the first items of a list, those of the items that a test keeps. -/
def keepAt {α : Type} (f : α → Bool) (l : List α) (at_ : List Nat) : List Nat := ((l.zip at_).filter (fun p => f p.1)).map (·.2)
/-- A core without the threads that a test selects, what they wait in, and the `mop`s that they run. -/
def CoreState.without (k : CoreState) (f : Nat → BitVec 32 → Bool) : CoreState :=
  let gone := k.threads.filter (fun t => f t.ctx t.kid)
  let uids := gone.map (·.uid)
  let mops := (gone.filter (fun t => match t.mop with | some m => m.started | none => false)).length
  ({ k with
    slots := slotNumbers.foldl (fun (v : Vector (Option Thread) 16) (i : Fin 16) => match k.slots[i] with
      | some t => if f t.ctx t.kid then v.set i none else v
      | none => v) k.slots
    arrivals := k.arrivals.filter (fun t => !f t.ctx t.kid)
    spill := k.spill.filter (fun t => !f t.ctx t.kid)
    spillAt := keepAt (fun (t : Thread) => !f t.ctx t.kid) k.spill k.spillAt
    deque := k.deque.filter (fun e => !f e.owner.1 e.owner.2)
    dequeAt := keepAt (fun (e : DequeEntry) => !f e.owner.1 e.owner.2) k.deque k.dequeAt
    faulters := k.faulters.filter (fun r => !(match k.ctx with | some x => f x r.kid | none => false))
    cb := k.cb |> vmap (fun b => { b with waiters := b.waiters.filter (fun p => match p with
      | .thread u => !uids.contains u
      | _ => true) })
    latch := { k.latch with
      rdr := k.latch.rdr - mops
      queue := k.latch.queue.filter (fun j => match j with | .mop u => !uids.contains u | _ => true)
      room := k.latch.room.filter (fun p => match p with | .thread u => !uids.contains u | _ => true) } } : CoreState).trimDeque

/-- R177, R237: the threads of the kernels that a test selects stop where they are: the accesses and messages that have not reached
their homes are discarded, their copy commands stop. -/
def State.stopThreads (s : State) (f : Nat → BitVec 32 → Bool) : State :=
  let all := (s.cores.flatMap (fun p => p.2.threads)) ++ s.transit.map (·.thread) ++
    s.contexts.flatMap (fun p => p.2.saved.flatMap (fun q => q.2.threads))
  let uids := (all.filter (fun t => f t.ctx t.kid)).map (·.uid)
  let ids := s.dies.toList.flatMap (fun d => d.engines.toList.flatMap (fun e =>
    (e.commands.filter (fun k => f k.ctx k.kid)).map (·.id)))
  let s1 := s.mapCores (fun k =>
    let k1 := k.without f
    { k1 with cb := k1.cb |> vmap (fun b => { b with waiters := b.waiters.filter (fun p => match p with
      | .command n => !ids.contains n
      | _ => true) }) })
  { s1 with
    flight := s1.flight.filter (fun a => !uids.contains a.uid)
    msgs := s1.msgs.filter (fun m => !uids.contains m.uid)
    transit := s1.transit.filter (fun p => !f p.thread.ctx p.thread.kid)
    dies := s1.dies |> vmap (fun d => { d with engines := d.engines |> vmap (fun e =>
      { e with commands := e.commands.filter (fun k => !f k.ctx k.kid) }) }) }

/-- R237: a byte of a kernel's outputs is undefined: a free value (log 5), in a page that moves once it has moved; what a page that is not there
will hold is Bobbin's to say (log 75). No address reaches past the end of its space (R135). -/
def State.scramble (s : State) (x addr : Nat) (local_ : Bool) : State :=
  let r := s.freeWord
  let b : Byte := r.2.truncate 8
  let s1 := r.1
  if addr ≥ (if local_ then 2 ^ 30 else 2 ^ 57) then s
  else if local_ then
    if s1.holds x (addr / 2 ^ 18) then
      s1.setCoreFor x (addr / 2 ^ 18) (let k := s1.coreFor x (addr / 2 ^ 18); { k with ls := k.ls.write (addr % 2 ^ 18) b })
    else s1
  else match s1.agentXlat x addr true false with
    | .ok _ _ h => s1.homePut x h [b]
    | .moving => s1.agentWrite x addr 1 b.toNat
    | .fault _ _ => s1
/-- R237: the bytes reachable through the segment-table entries with W or A. -/
def State.scrambleOutputs (s : State) (k : Kernel) : State :=
  depNumbers.foldl (fun (s : State) (i : Fin 8) =>
    let kd := k.desc.kd[i]
    if (kdKind kd = 1 ∨ kdKind kd = 2) ∧ (kdW kd ∨ kdA kd) then
      (List.range (kdLimit kd + 1)).foldl (fun (s : State) n =>
        s.scramble k.ctx ((k.desc.kb[i]).toNat + n) (kdKind kd == 2)) s
    else s) s
/-- R237: a gang member aborts: its part stops, a graph's nodes with it, its outputs are undefined, and OUTSIG carries GANG_ABORT. -/
def State.abortKernel (s : State) (k : Kernel) : State :=
  let s1 := match k.gang with
    | some g => s.tell k.ctx k.queue k.packet g (.gangAbort s.gscTag)
    | none => s
  let fam := s.familyOf k
  let s2 := fam.foldl State.scrambleOutputs (s1.stopThreads (fun x kid => x == k.ctx && fam.any (fun j => j.kid == kid)))
  (fam.foldl (fun (s : State) j => s.endKernel { j with live := 0, copies := 0, next := j.n } 4) s2).endPacket k.queue k.packet 0

/-- The carousels of the package, by die and number. -/
def carousels : List (Nat × Nat) := (List.range 4).flatMap (fun d => (List.range 4).map (fun k => (d, k)))
/-- R319: the subscriptions of a context are gone; deliveries that no one waits for leave the buffers. -/
def State.dropSubs (s : State) (x : Nat) : State :=
  let s1 := { s with clusters := s.clusters.map (fun p =>
    let subs := p.2.subs.filter (fun b => b.ctx != x)
    let live (j : IxJob) : Bool := subs.any (·.takes j.delivery)
    (p.1, { p.2 with
      subs := subs
      buffer := p.2.buffer.filter live
      redeliver := p.2.redeliver.filter live
      icache := p.2.icache.filter (fun e => e.1 != x)
      tlb := p.2.tlb.filter (fun e => e.ctx != x)
      nonleaf := p.2.nonleaf.filter (fun e => e.ctx != x) })) }
  carousels.foldl (fun (s : State) c => s.carSettle c.1 c.2) s1

/-- R177, R357, R362: a context is killed. -/
def State.kill (s : State) (x : Nat) : State :=
  let c := s.context x
  if (mapGet s.contexts x).isNone ∨ c.st = .killed ∨ c.st = .destroyed then s
  else
    let s1 := (s.kernels.filter (fun k => k.ctx == x && !k.done)).foldl (fun (s : State) k => s.endKernel k 5) s
    let s2 := (s1.launches.filter (fun l => l.ctx == x)).foldl (fun (s : State) l =>
      l.nodes.foldl (fun (s : State) n => s.signal x n.1.outsig 5)
        (match l.desc with | some d => s.signal x d.outsig 5 | none => s)) s1
    let s3 := (s2.stopThreads (fun y _ => y == x)).endSession x 2
    let s4 := (carousels.filter (fun p => (s3.car p.1 p.2).ctx == x &&
        ((s3.car p.1 p.2).st == .running || (s3.car p.1 p.2).st == .idle))).foldl
      (fun (s : State) p => s.carStop p.1 p.2 none) s3
    let s5 := s4.dropSubs x
    let c5 := s5.context x
    { s5 with
      cores := s5.cores.map (fun p => if p.2.ctx = some x then (p.1, { p.2.fresh none with remapStep := 0, remapTarget := none }) else p)
      contexts := mapPut s5.contexts x { c5 with st := .killed, saving := [], saveSince := [], resumeAsked := [], saved := [], savedIx := [], repeats := [] }
      queues := s5.queues.map (fun p => if p.2.ctx = x then (p.1, { p.2 with st := .destroyed, started := [] }) else p)
      msgs := s5.msgs.map (fun m => if (s5.core m.dst).ctx = some x then { m with held := false } else m)
      launches := s5.launches.filter (fun l => l.ctx != x)
      kernels := s5.kernels.filter (fun k => k.ctx != x)
      groups := s5.groups.filter (fun g => g.ctx != x)
      loads := s5.loads.filter (fun l => l.ctx != x)
      dies := s5.dies |> vmap (fun d => { d with engines := d.engines |> vmap (fun e =>
        { e with cache := e.cache.filter (fun b => b.1 != x) }) })
      package := { s5.package with hostOut := s5.package.hostOut ++ [.contextKilled x] } }

end Sys2Proof.Machine
end

