-- ==== Sys2Proof/Machine/Front.lean ====
section
/-! DEFINITION. The front end and the dispatcher: command queues and their packets (R266 to R273), launches, seeding and completion
(R227 to R237, R274 to R276), and what CAROUSEL, COPY, SIGNAL, BARRIER_AND and TRACE packets do. -/

namespace Sys2Proof.Machine

/-! ### Starting a packet (R267 to R272) -/

/-- R271: what a packet's bytes break, whatever the memory holds. -/
def packetBad (b : List Byte) (owned : Nat → Bool) : Bool :=
  let f := bytesNum b
  let al (o n : Nat) : Bool := f o 8 % n == 0
  decide (f 0 1 > 7 ∨ f 1 1 > 1) || !zeroSpan b 2 8 ||
  (match f 0 1 with
    | 0 => !zeroSpan b 8 64
    | 1 => !zeroSpan b 22 24 || !zeroSpan b 34 64 || !al 8 64 || !al 24 8 || decide (f 21 1 = 0 ∨ f 21 1 > 32) ||
        !(List.range (f 21 1)).all (fun i => owned (f 20 1 + i)) ||
        (decide (f 24 8 ≠ 0) && decide (f 32 2 = 0 ∨ f 32 2 > 256))
    | 4 => !zeroSpan b 17 24 || !zeroSpan b 40 64 || !al 8 8 || !al 32 8 || decide (f 16 1 > 2)
    | 5 => !(List.range 7).all (fun i => al (8 + 8 * i) 8)
    | _ => !zeroSpan b 24 64 || !al 8 64 || !al 16 8)
/-- R270: the signal word that a packet's end updates; a packet of no type names none. -/
def packetSig (b : List Byte) : Nat :=
  match bytesNum b 0 1 with
  | 0 => 0
  | 1 => 0
  | 4 => bytesNum b 32 8
  | 5 => bytesNum b 8 8
  | n => if n > 7 then 0 else bytesNum b 16 8

/-- R271: a queue stops, and its owner is told. -/
def State.stopQueue (s : State) (q dva reason : Nat) : State :=
  match mapGet s.queues q with
  | none => s
  | some k => { s.setQueue q { k with st := .stopped } with
      package := { s.package with hostOut := s.package.hostOut ++ [.queueStopped q dva reason] } }
/-- R267: WI lies outside what the ring can hold. -/
def Queue.overrun (k : Queue) : Bool := decide (k.wi < k.ri ∨ k.wi > k.ri + k.size)
/-- R267. -/
def State.writeIndex (s : State) (q wi : Nat) : State :=
  match mapGet s.queues q with
  | none => s
  | some k =>
    let k1 := { k with wi := wi % 2 ^ 64 }
    let s1 := s.setQueue q k1
    if k.st = .destroyed then s
    else if k.st = .active ∧ k1.overrun then s1.stopQueue q k.ring 2
    else s1
/-- R267. -/
def execWriteIndex (q wi : Nat) (s : State) : Out := .next ((s.logged 2 0 (leBytes wi 8)).writeIndex q wi)

/-- R357: a context whose queues start packets. -/
def CtxState.starts : CtxState → Bool | .created => true | .active => true | .preempted => true | _ => false
/-- R232, R268, R272: the front end may look at the packet at RI. -/
def State.mayStart (s : State) (q : Nat) (k : Queue) : Bool :=
  k.st == .active && (s.context k.ctx).st.starts && decide (k.ri < k.wi) && k.holding.isNone &&
  !s.launches.any (fun l => l.ctx == k.ctx && l.queue == q && l.waiting)
/-- The DVA of a packet (R266). -/
def Queue.packetAt (k : Queue) (i : Nat) : Nat := k.ring + 64 * (i % k.size)

/-- R267, R270 to R272: a packet that a test selects starts. `ready` says that what it needs is there; `act` is the rest, on a
state in which RI has passed it. A malformed packet stops the queue; one that cannot be read ends the context (R347). Its words are read at one
moment (log 88). -/
def State.startPacket (s : State) (q : Nat) (mine : List Byte → Bool) (ready : Queue → List Byte → Bool)
    (act : Queue → Nat → List Byte → State → State) : State :=
  match mapGet s.queues q with
  | none => s
  | some k =>
    if k.st = .active ∧ k.overrun then s.stopQueue q k.ring 2
    else if !s.mayStart q k then s
    else match s.fetchBytes k.ctx (k.packetAt k.ri) 8 with
      | .error false => s
      | .error true => s.kill k.ctx
      | .ok b =>
        if packetBad b (fun n => (s.slicesOf k.ctx).contains n) then s.stopQueue q (k.packetAt k.ri) 1
        else
          let bar := (bytesNum b 1 1 == 1) || (bytesNum b 0 1 == 1 && bytesNum b 16 4 == 0)
          if !mine b ∨ (bar ∧ !k.started.isEmpty) ∨ !ready k b then s
          else
            let k1 := { k with ri := k.ri + 1, started := mapPut k.started k.ri (packetSig b) }
            let c := s.context k.ctx
            let s1 := (s.setQueue q k1).setContext k.ctx (if c.st = .created then { c with st := .active } else c)
            act k1 k.ri b ((s1.agentMeets k.ctx (k.packetAt k.ri) 64).agentWrite k.ctx k.riDva 8 k1.ri)
/-- A packet of a type. -/
def isType (n : Nat) (b : List Byte) : Bool := bytesNum b 0 1 == n

/-- R270. -/
def execNopPacket (q : Nat) (s : State) : Out :=
  .next (s.startPacket q (isType 0) (fun _ _ => true) fun _ i _ s => s.endPacket q i 0)

/-! ### Signals (R270) -/

/-- R229: the signal word at a DVA, of whatever alignment; one whose page never translates is never read, and one at a home in another package is
read whether or not a link is up (log 83). -/
def State.sigAt (s : State) (x dva : Nat) : Option Nat := s.agentRead x dva 8
/-- R229: every named word reads COUNT 0. -/
def State.sigsDone (s : State) (x : Nat) (l : List Nat) : Bool :=
  l.all (fun a => match s.sigAt x a with | some w => sigCount w == 0 | none => false)
/-- R270: one of the words carries ERR. -/
def State.sigsErr (s : State) (x : Nat) (l : List Nat) : Bool :=
  l.any (fun a => match s.sigAt x a with | some w => sigErr w | none => false)
/-- R272: the packet that holds the head ends once its words read 0. -/
def State.endHolding (s : State) (q : Nat) (barrier : Bool) : State :=
  match mapGet s.queues q with
  | none => s
  | some k => match k.holding with
    | none => s
    | some (i, b, l) =>
      if b ≠ barrier ∨ !s.sigsDone k.ctx l then s
      else (s.setQueue q { k with holding := none }).endPacket q i (if barrier && s.sigsErr k.ctx l then 3 else 0)
/-- R272: a head-holding packet starts, and ends at once if it can. -/
def State.hold (s : State) (q i : Nat) (barrier : Bool) (l : List Nat) : State :=
  match mapGet s.queues q with
  | none => s
  | some k => (s.setQueue q { k with holding := some (i, barrier, l) }).endHolding q barrier
/-- A head-holding packet: its start, or its end. -/
def State.holdStep (s : State) (q : Nat) (barrier : Bool) (mine : List Byte → Bool) (l : List Byte → List Nat) : State :=
  match mapGet s.queues q with
  | none => s
  | some k => match k.holding with
    | some _ => s.endHolding q barrier
    | none => s.startPacket q mine (fun _ _ => true) fun _ i b s => s.hold q i barrier (l b)
/-- R270. -/
def execSignalWait (q : Nat) (s : State) : Out :=
  .next (s.holdStep q false (fun b => isType 4 b && bytesNum b 16 1 == 0) (fun b => [bytesNum b 8 8]))
/-- R270: of BARRIER_AND's six words, 0 names none. -/
def barrierWords (b : List Byte) : List Nat := ((List.range 6).map (fun i => bytesNum b (16 + 8 * i) 8)).filter (· != 0)
/-- R270. -/
def execBarrierAnd (q : Nat) (s : State) : Out := .next (s.holdStep q true (isType 5) barrierWords)
/-- R270. -/
def execSignalStore (q : Nat) (s : State) : Out :=
  .next (s.startPacket q (fun b => isType 4 b && bytesNum b 16 1 == 1) (fun _ _ => true) fun k i b s =>
    (s.agentWrite k.ctx (bytesNum b 8 8) 8 (bytesNum b 24 8)).endPacket q i 0)
/-- R270. -/
def execSignalDecrement (q : Nat) (s : State) : Out :=
  .next (s.startPacket q (fun b => isType 4 b && bytesNum b 16 1 == 2) (fun _ _ => true) fun k i b s =>
    (s.update ⟨k.ctx, bytesNum b 8 8, .signal 0⟩).endPacket q i 0)

/-! ### The launch descriptor (R227, R228) -/

/-- R227: a descriptor from its 256 bytes. -/
def Desc.parse (b : List Byte) : Desc :=
  let f := bytesNum b
  { entry := BitVec.ofNat 64 (f 0 8)
    seeds := (List.range (f 32 1 % 4)).map (fun i => BitVec.ofNat 64 (f (8 + 8 * i) 8))
    quota := if f 33 1 % 32 = 0 then 16 else f 33 1 % 32
    cls := f 34 1 % 4
    domain := f 34 1 / 4 % 4
    priv := (f 34 1).testBit 4
    prio := f 35 1 % 16
    fa := BitVec.ofNat 4 (f 36 1)
    fb := BitVec.ofNat 4 (f 36 1 / 16)
    sa := BitVec.ofNat 32 (f 40 4)
    sb := BitVec.ofNat 32 (f 44 4)
    gsize := f 48 4
    plimit := f 52 4
    upcall := BitVec.ofNat 64 (f 56 8)
    rseed := BitVec.ofNat 64 (f 64 8)
    insig := f 72 8
    outsig := f 80 8
    gangn := f 88 2
    gto := f 92 4
    kb := depNumbers.foldl (fun (v : Vector Word 8) (i : Fin 8) => v.set i (BitVec.ofNat 64 (f (128 + 16 * i.val) 8))) (Vector.replicate 8 0)
    kd := depNumbers.foldl (fun (v : Vector Word 8) (i : Fin 8) => v.set i (BitVec.ofNat 64 (f (136 + 16 * i.val) 8))) (Vector.replicate 8 0) }
/-- R228: a descriptor breaks the table, its gang apart; the alignment of INSIG, OUTSIG and GLIST is not in it (logs 83, 84). -/
def descBad (b : List Byte) (runtime : Bool) : Bool :=
  let f := bytesNum b
  let d := Desc.parse b
  decide (f 32 1 > 3 ∨ f 33 1 > 16 ∨ f 34 1 > 31 ∨ d.cls = 3 ∨ f 35 1 > 15 ∨ d.fa.toNat > 8 ∨ d.fb.toNat > 8) ||
  !zeroSpan b 37 40 || !zeroSpan b 90 92 || !zeroSpan b 104 128 ||
  d.kd.toList.any kdMalformed || decide (d.plimit ≠ 0 ∧ d.plimit < d.gsize) || (d.priv && !runtime) ||
  decide (d.gangn ≥ 2 ∧ d.gto = 0)
/-- R227: the gang member list of a descriptor. -/
def State.readGang (s : State) (x dva : Nat) : Nat → Except Bool (List Nat)
  | 0 => .ok []
  | n + 1 => match s.engineHome x dva false false with
    | .error e => .error e
    | .ok h => match s.readGang x (dva + 4) n with
      | .error e => .error e
      | .ok r => .ok (s.homeRead h 4 :: r)
/-- R227: strictly ascending package numbers. -/
def ascending : List Nat → Bool
  | a :: b :: r => decide (a < b) && ascending (b :: r)
  | _ => true
/-- R227, R228: a descriptor read whole with its gang: false where the dispatcher has to wait, true where it is malformed. -/
def State.readDesc (s : State) (x dva : Nat) (runtime : Bool) : Except Bool Desc :=
  match s.fetchBytes x dva 32 with
  | .error e => .error e
  | .ok b =>
    let d := Desc.parse b
    if descBad b runtime then .error true
    else if d.gangn < 2 then .ok d
    else match s.readGang x (bytesNum b 96 8) d.gangn with
      | .error e => .error e
      | .ok l =>
        if ascending l ∧ l.all (fun p => decide (p < 2 ^ 18)) ∧ l.contains s.package.pkg.toNat then .ok { d with glist := l } else .error true
/-- R230: the OUTSIG of a descriptor that can be read. -/
def State.outsigAt (s : State) (x dva : Nat) : Nat := (s.agentRead x (dva + 80) 8).getD 0

/-! ### Launches (R229, R231 to R233) -/

/-- R236: the gang of a descriptor. -/
def Desc.gang (d : Desc) : Option Gang := if d.gangn ≥ 2 then some { members := d.glist } else none
/-- R230, R236: a launch ends before it is accepted. -/
def State.failLaunch (s : State) (l : Launch) (outsig code : Nat) : State :=
  let s1 := match l.gang with
    | some g => s.tell l.ctx l.queue l.packet g (.gangAbort s.gscTag)
    | none => s
  ({ (s1.signal l.ctx outsig code) with
    launches := s1.launches.filter (fun m => m.queue != l.queue || m.packet != l.packet) }).endPacket l.queue l.packet 0
/-- R227: the LAUNCH packet's descriptor is there, or never will be. -/
def State.descReady (s : State) (k : Queue) (b : List Byte) : Bool :=
  match s.readDesc k.ctx (bytesNum b 8 8) k.runtime with | .error false => false | _ => true
/-- R227. -/
def State.launch (s : State) (q : Nat) : State :=
  s.startPacket q (isType 1) s.descReady fun k i b s =>
    let f := bytesNum b
    let s := s.agentMeets k.ctx (f 8 8) 256
    let l : Launch :=
      { ctx := k.ctx, queue := q, packet := i, n := f 16 4, slice0 := f 20 1, nslice := f 21 1, graph := f 24 8, nnode := f 32 2
        desc := none }
    match s.readDesc k.ctx (f 8 8) k.runtime with
    | .ok d => { s with launches := s.launches ++ [{ l with desc := some d, gang := d.gang }] }
    | .error _ =>
      -- a malformed member of a gang tells the others, where its list can be read
      let g := match s.fetchBytes k.ctx (f 8 8) 32 with
        | .ok d => match s.readGang k.ctx (bytesNum d 96 8) (bytesNum d 88 2) with
          | .ok m => if m.length ≥ 2 then some { members := m : Gang } else none
          | .error _ => none
        | .error _ => none
      s.failLaunch { l with gang := g } (s.outsigAt k.ctx (f 8 8)) 2
/-- R227. -/
def execLaunch (q : Nat) (s : State) : Out := .next (s.launch q)

/-- R227, R231: the cores of a placement set, in ascending order. -/
def State.eligibleCores (s : State) (slice0 nslice : Nat) : List Nat :=
  ((List.range nslice).flatMap (fun j =>
    (List.range (8 * sliceSize s.package)).map (fun i =>
      (slice0 + j) / 8 * 1024 + (slice0 + j) % 8 * sliceSize s.package * 8 + i))).filter s.namesCore
/-- R232: the slots that a launch may take on a core now, held back by other waiting launches, in the order of their acceptance (log 85), or not
free. -/
def State.slotsFor (s : State) (l : Launch) (quota c : Nat) : Nat :=
  let others := (s.launches.filter (fun m => m.waiting && (m.queue != l.queue || m.packet != l.packet) &&
    decide (m.accepted < l.accepted ∧ m.slice0 ≤ s.sliceOf c ∧ s.sliceOf c < m.slice0 + m.nslice))).map
      (fun m => (m.desc.map (·.quota)).getD 0)
  if (s.core c).stopped || !s.openTo c l.ctx || s.savedHere l.ctx c then 0
  else min quota (s.freeCount c - others.sum)
/-- R231: the first wave. -/
def State.firstWave (s : State) (k : Kernel) (l : Launch) (es : List Nat) : State :=
  (List.range k.desc.quota).foldl (fun (s : State) _ => es.foldl (fun (s : State) c =>
    let q := s.kernelAt k.ctx k.kid
    if q.next ≥ q.n ∨ s.slotsFor l 16 c = 0 then s
    else match s.freeSlot c with
      | some i => s.seedNext q c i
      | none => s) s) s
/-- R231: the threads of a weakly parallel launch, as tasks on the deques of E. -/
def State.pushTasks (s : State) (k : Kernel) (es : List Nat) : State :=
  (List.range k.n).foldl (fun (s : State) t =>
    let c := es.getD (t % es.length) 0
    let w := k.newThread t
    let e : Task :=
      { pc := w.pc, a1 := w.g[1], a2 := w.g[2], a3 := w.g[3], a4 := w.g[4], lin := w.lin, plin := w.plin, kid := w.kid, gid := w.gid
        stat := w.stat, sa := w.sa, sb := w.sb, fa := w.fa, fb := w.fb, ctx := w.ctx }
    (s.handOver c k.ctx).pushDeque c (.task e))
    (s.setKernel { k with next := k.n })
/-- R231: the cores of E whose deques a weakly parallel launch finds: those that no other context holds and no save keeps (log 42). -/
def State.taskCores (s : State) (x : Nat) (es : List Nat) : List Nat := es.filter (fun c => s.openTo c x && !s.savedHere x c)

/-- R274: a node table entry: its kernel's descriptor and its node; false where the dispatcher has to wait, true where it is
malformed. -/
def State.readNode (s : State) (l : Launch) (i : Nat) : Except Bool (Desc × Node) :=
  match s.fetchBytes l.ctx (l.graph + 32 * i) 4 with
  | .error e => .error e
  | .ok b =>
    let f := bytesNum b
    let v : Node := { pool := f 8 8, rsize := f 16 2, depth := f 20 1, records := List.replicate (f 18 2) .free }
    if f 8 8 % 64 ≠ 0 ∨ f 16 2 % 16 ≠ 0 ∨ f 16 2 < 16 ∨ f 16 2 > 4096 ∨ f 18 2 = 0 ∨ f 20 1 = 0 ∨ !zeroSpan b 21 32 ∨ f 0 8 % 64 ≠ 0 then .error true
    else match s.readDesc l.ctx (f 0 8) ((mapGet s.queues l.queue).map (·.runtime) == some true) with
      | .ok d => if d.cls = 1 then .error true else .ok (d, v)
      | .error e => .error e
/-- R274: the node table of a launch, from entry `i` on. -/
def State.readNodes (s : State) (l : Launch) (i : Nat) : Nat → Except Bool (List (Desc × Node))
  | 0 => .ok []
  | n + 1 => match s.readNode l i with
    | .error e => .error e
    | .ok v => match s.readNodes l (i + 1) n with
      | .error e => .error e
      | .ok r => .ok (v :: r)
/-- R231, R259: `n` KIDs in increasing order, none with the bits [11:0] of a kernel that is live. -/
def kidsFrom (live : List (BitVec 12)) : Nat → Nat → BitVec 32 → List (BitVec 32)
  | 0, _, _ => []
  | _, 0, _ => []
  | fuel + 1, n + 1, k =>
    if live.contains (k.truncate 12) then kidsFrom live fuel (n + 1) (k + 1) else k :: kidsFrom (k.truncate 12 :: live) fuel n (k + 1)
/-- R259: the bits [11:0] of the KIDs of a context's kernels that are live, a launch's that waits for slots among them. -/
def State.liveTags (s : State) (x : Nat) : List (BitVec 12) :=
  (s.kernels.filter (fun k => k.ctx == x && !k.done)).map (fun k => k.kid.truncate 12) ++
  (s.launches.filter (fun l => l.ctx == x && l.waiting)).flatMap (fun l =>
    l.kid.truncate 12 :: l.nodes.map (fun n => n.2.kid.truncate 12))
/-- R231, R274: an accepted launch takes its KID, and each node the next. -/
def Launch.accept (l : Launch) (kids : List (BitVec 32)) (nodes : List (Desc × Node)) (place : Nat) : Launch :=
  { l with kid := kids.headD 0, accepted := place, nodes := (nodes.zip (kids.drop 1)).map (fun p => (p.1.1, { p.1.2 with kid := p.2 })) }

/-- R231, R274: the kernels of an accepted launch: the root, then one per node. -/
def kernelsOf (l : Launch) (d : Desc) (now : Nat) : List Kernel :=
  let root : Kernel :=
    { ctx := l.ctx
      kid := l.kid
      queue := l.queue
      packet := l.packet
      desc := d
      n := l.n
      live := l.n
      slice0 := l.slice0
      nslice := l.nslice
      accepted := l.accepted
      nodes := l.nodes.map (·.2)
      gang := l.gang.map (fun g => { g with start := some now }) }
  root :: l.nodes.zipIdx.map (fun p =>
    { ctx := l.ctx
      kid := p.1.2.kid
      queue := l.queue
      packet := l.packet
      desc := p.1.1
      n := p.1.2.records.length
      next := p.1.2.records.length
      slice0 := l.slice0
      nslice := l.nslice
      accepted := l.accepted
      root := some l.kid
      node := some p.2 })

/-! ### Completion (R234 to R236, R276) -/

/-- R230, R276: the updates of a completed kernel, or graph; its records are gone. -/
def State.completeKernel (s : State) (k : Kernel) : State :=
  let fam := s.familyOf k
  let s1 := (fam.foldl (fun (s : State) j => s.endKernel j 0) s).endPacket k.queue k.packet 0
  let mine (x : Nat) (kid : BitVec 32) : Bool := x == k.ctx && fam.any (fun j => j.kid == kid)
  { s1 with
    kernels := s1.kernels.filter (fun j => !mine j.ctx j.kid)
    groups := s1.groups.filter (fun g => !mine g.ctx g.kid) }
/-- R236: every other member's done message is here. -/
def Gang.allDone (g : Gang) (me : Nat) : Bool := g.members.all (fun p => p == me || g.dones.contains p)
/-- R236: another member's acknowledgement is missing. -/
def Gang.missing (g : Gang) (me : Nat) : Bool := !g.members.all (fun p => p == me || g.acks.contains p)
/-- R236: the time within which the acknowledgements count is over, and one is missing. -/
def Gang.failed (g : Gang) (me gto now : Nat) : Bool :=
  g.missing me && (match g.start with | some t => decide (now ≥ t + gto) | none => false)
/-- R234, R276: nothing of a kernel, or of a graph, is left. -/
def State.spent (s : State) (k : Kernel) : Bool :=
  !k.done && k.root.isNone && (s.familyOf k).all (fun j => j.live == 0 && j.copies == 0)
/-- R234, R236: a kernel completes in this cycle, or, as a gang member, says that its own part has. -/
def State.completable (s : State) (k : Kernel) : Bool :=
  s.spent k && (match k.gang with
    | none => true
    | some g => !g.selfDone || (g.allDone s.package.pkg.toNat && !g.failed s.package.pkg.toNat k.desc.gto s.cycle))
/-- R234, R236, R276: a kernel completes when nothing of it is left; a gang member then waits for the others. -/
def State.tryComplete (s : State) (k : Kernel) : State :=
  if !s.completable k then s
  else match k.gang with
    | none => s.completeKernel k
    | some g =>
      let me := s.package.pkg.toNat
      let s1 := if g.selfDone then s
        else (s.setKernel { k with gang := some { g with selfDone := true } }).tell k.ctx k.queue k.packet g (.gangDone s.gscTag)
      if g.allDone me && !g.failed me k.desc.gto s.cycle then s1.completeKernel k else s1
/-- R234. -/
def execKernelCompletion (k : Nat) (s : State) : Out :=
  .next (match s.kernels[k]? with | some j => s.tryComplete j | none => s)

/-- R231, R236: an accepted launch starts: its kernels come to be, the instruction caches of E are emptied, its threads are seeded. -/
def State.seedLaunch (s : State) (l : Launch) (d : Desc) : State :=
  let es := s.eligibleCores l.slice0 l.nslice
  let ks := kernelsOf l d s.cycle
  let s1 : State := { s with
    kernels := s.kernels ++ ks
    launches := s.launches.filter (fun m => m.queue != l.queue || m.packet != l.packet)
    clusters := s.clusters.map (fun p => if es.any (fun c => clusterOf c == p.1) then (p.1, { p.2 with icache := [] }) else p) }
  let s2 := match l.gang with | some g => s1.tell l.ctx l.queue l.packet g (.gangAck s.gscTag) | none => s1
  let k := s2.kernelAt l.ctx l.kid
  if l.n = 0 then s2.tryComplete k
  else if d.cls = 2 then s2.pushTasks k (s.taskCores l.ctx es)
  else s2.firstWave k l es
/-- R232: a concurrent launch finds room for all its threads. -/
def State.roomFor (s : State) (l : Launch) (d : Desc) : Bool :=
  decide (l.n ≤ ((s.eligibleCores l.slice0 l.nslice).map (s.slotsFor l d.quota)).sum)
/-- R231, R232: a launch goes on: its tests, its acceptance, its seeding. -/
def State.launchStep (s : State) (l : Launch) : State :=
  match l.desc with
  | none => s
  | some d =>
    if (s.context l.ctx).st ≠ .active then s
    else if l.waiting then (if s.roomFor l d then s.seedLaunch l d else s)
    else if d.insig ≠ 0 ∧ !s.sigsDone l.ctx [d.insig] then s
    else if d.insig ≠ 0 ∧ s.sigsErr l.ctx [d.insig] then s.failLaunch l d.outsig 3
    else
      let e := (s.eligibleCores l.slice0 l.nslice).length
      if l.n ≠ 0 ∧ ((d.cls = 1 ∧ l.n > d.quota * e) ∨ (d.cls ≠ 1 ∧ e = 0)) then s.failLaunch l d.outsig 1
      else if d.cls = 2 ∧ l.n ≠ 0 ∧ (s.taskCores l.ctx (s.eligibleCores l.slice0 l.nslice)).isEmpty then s
      else match (if l.graph = 0 then .ok [] else s.readNodes l 0 l.nnode) with
        | .error true => s.failLaunch l d.outsig 2
        | .error false => s
        | .ok ns =>
          let c := s.context l.ctx
          let kids := kidsFrom (s.liveTags l.ctx) (4096 + ns.length) (ns.length + 1) c.nextKid
          let l1 := l.accept kids ns s.nextId
          let s1 := { s with nextId := s.nextId + 1 }.setContext l.ctx { c with nextKid := kids.getLastD 0 + 1 }
          if kids.length ≤ ns.length then s
          else if d.cls = 1 ∧ l.n ≠ 0 ∧ !s1.roomFor l1 d then
            { s1 with launches := s1.launches.map (fun m =>
              if m.queue = l.queue ∧ m.packet = l.packet then { l1 with waiting := true } else m) }
          else s1.seedLaunch l1 d
/-- R231. -/
def execLaunchReady (k : Nat) (s : State) : Out :=
  .next (match s.launches[k]? with | some l => s.launchStep l | none => s)

/-! ### Gangs (R236, R237, R256) -/

/-- A gang by its place: the kernels first, then the launches that are not seeded yet. -/
def State.onGang (s : State) (k : Nat) (f : Kernel → Gang → State) (g : Launch → Gang → State) : State :=
  match s.kernels[k]? with
  | some j => match j.gang with
    | some a => if j.done then s else f j a
    | none => s
  | none => match s.launches[k - s.kernels.length]? with
    | some l => match l.gang with
      | some a => g l a
      | none => s
    | none => s
/-- The gang of a launch changed. -/
def State.setLaunch (s : State) (l : Launch) (g : Gang) : State :=
  { s with launches := s.launches.map (fun m => if m.queue = l.queue ∧ m.packet = l.packet then { m with gang := some g } else m) }
/-- R236: the gang's time is up. -/
def Gang.late (g : Gang) (gto now : Nat) : Bool := match g.start with | some t => decide (now > t + gto) | none => false
/-- R373: a message of another package can come: over the links where there is a path, or over Ethernet (R369). -/
def State.hears (s : State) (pkg : Nat) : Bool := s.pathTo pkg || decide (s.package.linkup.toNat / 2 ^ 20 ≠ 0)
/-- R373, R398: a message of another package comes, if one can. -/
def State.linkMsg (s : State) (pkg : Nat) (data : List Byte) (f : State → State) : State :=
  if s.hears pkg then f (s.logged 4 0 data) else s
/-- R236: an acknowledgement; one that comes after the timeout is ignored. -/
def execGangAck (k pkg : Nat) (s : State) : Out :=
  .next (s.linkMsg pkg ([0] ++ leBytes pkg 4) fun s => s.onGang k
    (fun j g => if g.late j.desc.gto s.cycle then s else s.setKernel { j with gang := some { g with acks := g.acks ++ [pkg] } })
    (fun l g => s.setLaunch l { g with acks := g.acks ++ [pkg] }))
/-- R237: a launch that has not been seeded aborts, a graph with its nodes: its outputs are undefined, and it ends with GANG_ABORT. -/
def State.abortLaunch (s : State) (l : Launch) : State :=
  match l.desc with
  | none => s.failLaunch l 0 4
  | some d =>
    let fam := d :: l.nodes.map (·.1)
    let s1 := fam.foldl (fun (s : State) e => s.scrambleOutputs { ctx := l.ctx, kid := 0, desc := e }) s
    (l.nodes.foldl (fun (s : State) n => s.signal l.ctx n.1.outsig 4) s1).failLaunch l d.outsig 4
/-- R236, R237: an abort message. -/
def execGangAbort (k pkg : Nat) (s : State) : Out :=
  .next (s.linkMsg pkg ([1] ++ leBytes pkg 4) fun s => s.onGang k (fun j g => if g.members.contains pkg then s.abortKernel j else s)
    (fun l g => if g.members.contains pkg then s.abortLaunch l else s))
/-- R236: the timeout. -/
def execGangTimeout (k : Nat) (s : State) : Out :=
  .next (s.onGang k
    (fun j g => if g.failed s.package.pkg.toNat j.desc.gto s.cycle then s.abortKernel j else s)
    (fun _ _ => s))
/-- R236: a done message. -/
def execGangDone (k pkg : Nat) (s : State) : Out :=
  .next (s.linkMsg pkg ([2] ++ leBytes pkg 4) fun s => s.onGang k
    (fun j g =>
      let j1 := { j with gang := some { g with dones := g.dones ++ [pkg] } }
      (s.setKernel j1).tryComplete j1)
    (fun l g => s.setLaunch l { g with dones := g.dones ++ [pkg] }))
/-- R263, R371: the participant that a member's next phase message names. -/
def State.gangTag (s : State) (k pkg : Nat) (tag : Tag) : State :=
  s.onGang k
    (fun j g => s.setKernel { j with gang := some { g with tags := mapPut g.tags pkg tag } })
    (fun l g => s.setLaunch l { g with tags := mapPut g.tags pkg tag })
/-- R256, R373: a member has completed so many phases; its messages come in the order in which it sent them, so a lower count says nothing
new. -/
def Gang.reach (g : Gang) (pkg phase : Nat) : Gang :=
  if g.passed pkg (BitVec.ofNat 32 phase) then g else { g with phases := mapPut g.phases pkg phase }
/-- R256, R263, R371: another member has completed phases of the kernel's barrier locally; the message carries the tag of the
participant whose arrival completed the last. -/
def execGangPhase (k pkg phase : Nat) (s : State) : Out :=
  .next (s.linkMsg pkg ([3] ++ leBytes pkg 4 ++ leBytes phase 4) fun s => s.onGang k
    (fun j g => s.checkKernel { j with gang := some (g.reach pkg phase) } ((mapGet g.tags pkg).getD {}))
    (fun l g => s.setLaunch l (g.reach pkg phase)))

/-! ### CAROUSEL packets (R301, R302) -/

/-- R301: a command block is malformed. -/
def carBlockBad (b : List Byte) : Bool :=
  let f := bytesNum b
  let op := f 0 1
  decide (op > 3 ∨ f 1 1 > 3 ∨ f 2 1 > 3) || !zeroSpan b 24 64 ||
  ((op == 0 || op == 3) && decide (f 3 1 = 1 ∨ f 3 1 > 16)) ||
  (op == 0 && decide (f 4 2 = 0 ∨ f 4 2 > 4096 ∨ f 8 8 % 8 ≠ 0))
/-- R301: the period of a block. -/
def carPeriod (b : List Byte) : Nat := if bytesNum b 3 1 = 0 then 8 else bytesNum b 3 1
/-- R302: a header read for the schedule: its entry; true where it is invalid, false where the front end has to wait. -/
def State.readEntry (s : State) (x dva : Nat) : Except Bool SchedEntry :=
  if dva % 64 ≠ 0 then .error true
  else match s.fetchBytes x dva 8 with
    | .error e => .error e
    | .ok h => if headerOk h then .ok { dva := dva, seg := bytesNum h 2 2, kind := bytesNum h 0 1, plen := bytesNum h 12 4 } else .error true
/-- R302: a schedule of `n` entries. -/
def State.readSchedule (s : State) (x dva : Nat) : Nat → Except Bool (List SchedEntry)
  | 0 => .ok []
  | n + 1 => match s.engineHome x dva false false with
    | .error e => .error e
    | .ok h => match s.readEntry x (s.homeRead h 8), s.readSchedule x (dva + 8) n with
      | .ok e, .ok r => if r.any (fun q => q.seg == e.seg) then .error true else .ok (e :: r)
      | .error a, .error b => .error (a || b)
      | .error e, .ok _ => .error e
      | .ok _, .error e => .error e
/-- R302: the effect of a well-formed block, and the code with which its packet ends; none where it ends later. -/
def State.carCommand (s : State) (x q i : Nat) (b : List Byte) : State × Option Nat :=
  let f := bytesNum b
  let d := f 1 1
  let n := f 2 1
  let c := s.car d n
  let gone := c.st = .off ∨ c.st = .stopping ∨ c.partition ≠ (s.context x).partition
  match f 0 1 with
  | 0 =>
    if c.st ≠ .off then (s, some 7)
    else match s.readSchedule x (f 8 8) (f 4 2) with
      | .ok l => (s.setCar d n { st := .running, partition := (s.context x).partition, ctx := x, k := carPeriod b, sched := l }, some 0)
      | .error _ => (s, some 8)
  | 1 => if gone then (s, some 7) else (s.carStop d n (some (q, i)), none)
  | 2 =>
    if gone then (s, some 7)
    else match c.sched[f 6 2]? with
      | none => (s, some 2)
      | some old => match s.readEntry x (f 16 8) with
        | .ok e =>
          if e.kind ≠ old.kind ∨ e.seg ≠ old.seg then (s, some 8)
          else (s.setCar d n { c with cmds := c.cmds ++ [.replace (f 6 2) (f 16 8) e.plen q i] }, none)
        | .error _ => (s, some 8)
  | _ =>
    if gone then (s, some 7) else (s.setCar d n { c with cmds := c.cmds ++ [.period (carPeriod b) q i] }, none)
/-- What a CAROUSEL packet needs is there, or never will be. -/
def State.carReady (s : State) (op : Nat) (k : Queue) (p : List Byte) : Bool :=
  match s.fetchBytes k.ctx (bytesNum p 8 8) 8 with
  | .error e => e
  | .ok b =>
    carBlockBad b || (bytesNum b 0 1 == op &&
      (match op with
        | 0 => match s.readSchedule k.ctx (bytesNum b 8 8) (bytesNum b 4 2) with | .error false => false | _ => true
        | 2 => match s.readEntry k.ctx (bytesNum b 16 8) with | .error false => false | _ => true
        | _ => true))
/-- R301, R302: a CAROUSEL packet whose block has an OP. -/
def State.carPacket (s : State) (q op : Nat) : State :=
  s.startPacket q (isType 3) (s.carReady op) fun k i p s =>
    let s := s.agentMeets k.ctx (bytesNum p 8 8) 64
    match s.fetchBytes k.ctx (bytesNum p 8 8) 8 with
    | .error _ => s.endPacket q i 2
    | .ok b =>
      if carBlockBad b then s.endPacket q i 2
      else
        let r := s.carCommand k.ctx q i b
        match r.2 with
        | some code => r.1.endPacket q i code
        | none => r.1
/-- R302. -/
def execCarouselStart (q : Nat) (s : State) : Out := .next (s.carPacket q 0)
/-- R302. -/
def execCarouselStop (q : Nat) (s : State) : Out := .next (s.carPacket q 1)
/-- R302. -/
def execCarouselReplace (q : Nat) (s : State) : Out := .next (s.carPacket q 2)
/-- R302. -/
def execCarouselPeriod (q : Nat) (s : State) : Out := .next (s.carPacket q 3)

/-! ### COPY packets (R270, R289) -/

/-- R270: the segment through which a COPY packet's addresses pass: all of the context's GLOBAL memory (log 29). -/
def packetKd : Word := 0x71FFFFFFFFFFFFFF
/-- The block of a COPY packet can be read or never will be, and the engine has room. -/
def State.copyReady (s : State) (k : Queue) (p : List Byte) : Bool :=
  decide ((s.engine 0 0).commands.length < 64) &&
  (match s.fetchBytes k.ctx (bytesNum p 8 8) 8 with | .error e => e | .ok _ => true)
/-- R270: a COPY packet issues a `cpy` of its own; a block that asks for a mailbox entry or a buffer is malformed (log 29). -/
def State.copyPacket (s : State) (q : Nat) : State :=
  s.startPacket q (isType 2) s.copyReady fun k i p s =>
    let s := s.agentMeets k.ctx (bytesNum p 8 8) 64
    match s.fetchBytes k.ctx (bytesNum p 8 8) 8 with
    | .error _ => s.endPacket q i 2
    | .ok b =>
      let blk := Block.parse b
      if blk.bad .cpy b {} || blk.mb || blk.cb then s.endPacket q i 2
      else
        let cmd : Command :=
          { id := s.nextId, op := .cpy, block := blk, uid := 0, ctx := k.ctx, core := 0, kid := 0, tidx := 0
            kb := Vector.replicate 8 0, kd := Vector.replicate 8 packetKd, packet := some (q, i) }
        let v := s.engine 0 0
        { s with nextId := s.nextId + 1 }.setEngine 0 0 { v with commands := v.commands ++ [cmd] }
/-- R270. -/
def execCopyPacket (q : Nat) (s : State) : Out := .next (s.copyPacket q)
/-- R289: the end of a copy command; the code that a COPY packet's failed command ends with is free (log 5). -/
def State.copyFinish (s : State) (d e n : Nat) : State :=
  let r := s.copyDone d e n
  match r.2 with
  | none => r.1
  | some (q, i, false) => r.1.endPacket q i 0
  | some (q, i, true) => r.1.freeWord.1.endPacket q i (128 + r.1.freeWord.2.toNat % 128)
/-- R289. -/
def execCopyCompletion (die eng k : Nat) (s : State) : Out := .next (s.copyFinish die eng k)

/-! ### TRACE packets (R385, R386) -/

/-- R385: a session block is malformed. -/
def traceBad (b : List Byte) : Bool :=
  let f := bytesNum b
  let size := f 16 8
  if f 0 1 = 1 then !zeroSpan b 1 64
  else decide (f 0 1 ≠ 0 ∨ f 1 1 > 31 ∨ (f 2 1 ≠ 0 ∧ (f 2 1 < 10 ∨ f 2 1 > 30)) ∨ f 8 8 % 4096 ≠ 0 ∨ size < 4096 ∨ size > 2 ^ 37 ∨
    size ≠ 2 ^ Nat.log2 size ∨ f 24 8 % 8 ≠ 0) || !zeroSpan b 3 8 || !zeroSpan b 32 64
/-- The block of a TRACE packet can be read or never will be, and has the OP. -/
def State.traceReady (s : State) (op : Nat) (k : Queue) (p : List Byte) : Bool :=
  match s.fetchBytes k.ctx (bytesNum p 8 8) 8 with
  | .error e => e
  | .ok b => traceBad b || bytesNum b 0 1 == op
/-- R386: a TRACE packet whose block has an OP. -/
def State.tracePacket (s : State) (q op : Nat) : State :=
  s.startPacket q (isType 7) (s.traceReady op) fun k i p s =>
    let s := s.agentMeets k.ctx (bytesNum p 8 8) 64
    match s.fetchBytes k.ctx (bytesNum p 8 8) 8 with
    | .error _ => s.endPacket q i 2
    | .ok b =>
      let f := bytesNum b
      if traceBad b then s.endPacket q i 2
      else if op = 1 then (if (s.context k.ctx).session.isSome then s.endSession k.ctx 0 else s).endPacket q i 0
      else if (s.context k.ctx).session.isSome then s.endPacket q i 12
      else
        let ses : Session :=
          { ring := f 8 8, size := f 16 8, head := f 24 8, src := BitVec.ofNat 8 (f 1 1), per := f 2 1, queue := q, start := s.cycle }
        ((s.agentWrite k.ctx (f 24 8) 8 0).setContext k.ctx { s.context k.ctx with session := some ses }).endPacket q i 0
/-- R386. -/
def execTraceOpen (q : Nat) (s : State) : Out := .next (s.tracePacket q 0)
/-- R386. -/
def execTraceClose (q : Nat) (s : State) : Out := .next (s.tracePacket q 1)

/-! ### Queues (R266, R268, R273) -/

/-- R273: a discarded packet: its CSIG, or its descriptor's OUTSIG, carries RESET. None where the page that names it is not there yet. -/
def State.discard (s : State) (k : Queue) (i : Nat) : Option State :=
  match s.fetchBytes k.ctx (k.packetAt i) 8 with
  | .error e => if e then some s else none
  | .ok b =>
    if !isType 1 b then some (s.signal k.ctx (packetSig b) 6)
    else match s.fetchBytes k.ctx (bytesNum b 8 8 + 80) 1 with
      | .error e => if e then some s else none
      | .ok w => some (s.signal k.ctx (bytesNum w 0 8) 6)
/-- R273: a queue-level reset goes on: once every packet is discarded, RI is W0, and the trace sessions of the queue's packets end. -/
def State.resetOn (s : State) (q : Nat) : State :=
  match mapGet s.queues q with
  | none => s
  | some k =>
    if k.st ≠ .resetting then s
    else
      let r := k.discards.foldl (fun (p : State × List Nat) i => match p.1.discard k i with
        | some t => (t, p.2)
        | none => (p.1, p.2 ++ [i])) (s, [])
      if !r.2.isEmpty then r.1.setQueue q { k with discards := r.2 }
      else
        let s2 := (r.1.setQueue q { k with discards := [], ri := k.resetTo, st := .active }).agentWrite k.ctx k.riDva 8 k.resetTo
        match (s2.context k.ctx).session with
        | some ses => if ses.queue = q then s2.endSession k.ctx 1 else s2
        | none => s2
/-- R273: the resets that wait, tried again. -/
def State.retryResets (s : State) : State := (s.queues.map (·.1)).foldl State.resetOn s
/-- R273: the steps of a queue-level reset. -/
def State.queueReset (s : State) (q : Nat) : State :=
  match mapGet s.queues q with
  | none => s
  | some k =>
    if k.st ≠ .active ∧ k.st ≠ .stopped then s
    else
      (s.setQueue q { k with st := .resetting, discards := (List.range (k.wi - k.ri)).map (k.ri + ·), resetTo := k.wi }).resetOn q

end Sys2Proof.Machine
end

