-- ==== Sys2Proof/Machine/Weights.lean ====
section
/-! DEFINITION. Weight sets (R334 to R339): the manifest, the shards, the load barrier, the gate table, and replacement in place. -/

namespace Sys2Proof.Machine

/-! ### The manifest (R334, R335) -/

/-- R334: the fields of a manifest's header. -/
def manifestBad (b : List Byte) : Bool :=
  let f := bytesNum b
  decide (f 0 4 = 0 ∨ f 4 2 = 0 ∨ f 4 2 > 256 ∨ f 6 2 = 0 ∨ f 6 2 > 4096 ∨ f 8 1 > 1 ∨ f 10 1 > 3 ∨ f 12 4 = 0 ∨ f 16 8 % 64 ≠ 0) ||
  !zeroSpan b 11 12 || !zeroSpan b 24 56
/-- R334: the fields of a shard entry. -/
def shardBad (b : List Byte) (nlayer : Nat) : Bool :=
  let f := bytesNum b
  decide (f 0 4 ≥ 2 ^ 18 ∨ (f 4 4 ≥ 2 ^ 18 ∧ f 4 4 ≠ 0xFFFFFFFF) ∨ f 8 8 / 2 ^ 62 > 1 ∨ f 16 4 % 64 ≠ 0 ∨ f 16 4 < 64 ∨ f 28 2 ≥ nlayer) ||
  !zeroSpan b 30 32
/-- The bytes of a manifest: header, entries, signature. -/
def State.readManifest (s : State) (x dva : Nat) : Except Bool (List Byte) :=
  match s.fetchBytes x dva 8 with
  | .error e => .error e
  | .ok h => if manifestBad h then .ok h else s.fetchBytes x dva (20 + 10 * bytesNum h 6 2)
/-- Shard entry `i` of a manifest. -/
def manifestEntry (b : List Byte) (i : Nat) : List Byte := (b.drop (64 + 80 * i)).take 80
/-- R334, R337: a manifest is signed, well formed, and newer than every layer that it replaces. -/
def State.manifestOk (s : State) (x : Nat) (b : List Byte) : Bool :=
  let f := bytesNum b
  let n := f 6 2
  !manifestBad b && (List.range n).all (fun i => !shardBad (manifestEntry b i) (f 4 2)) &&
  Config.partitionVerify (BitVec.ofNat 8 (f 9 1)) (Config.sha384 (b.take 56 ++ (b.drop 64).take (80 * n))) ((b.drop (64 + 80 * n)).take 96) &&
  (f 8 1 == 0 || (List.range (f 4 2)).all (fun j => match s.layerWord x (f 16 8) j with
    | .ok w => decide (f 0 4 > w % 2 ^ 32)
    | .error _ => false))

/-- R337, R353: the layer words of a manifest in replace mode can be read. -/
def State.manifestReady (s : State) (x : Nat) (b : List Byte) : Bool :=
  let f := bytesNum b
  manifestBad b || f 8 1 == 0 ||
    (List.range (f 4 2)).all (fun j => match s.layerWord x (f 16 8) j with | .ok _ => true | .error _ => false)
/-- R337: the shards that this package fetches, each with its index in the manifest. -/
def State.ownShards (s : State) (b : List Byte) : List Shard :=
  ((List.range (bytesNum b 6 2)).filter (fun i => bytesNum (manifestEntry b i) 0 4 == s.package.pkg.toNat)).map (fun i =>
    let e := manifestEntry b i
    { index := i, repl := bytesNum e 4 4, len := bytesNum e 16 4, dst := bytesNum e 20 8, layer := bytesNum e 28 2
      digest := (e.drop 32).take 48, since := s.cycle })
/-- R337: the load gang. -/
def gangOf (b : List Byte) : List Nat :=
  (List.range (bytesNum b 6 2)).foldl (fun l i =>
    let p := bytesNum (manifestEntry b i) 0 4
    if l.contains p then l else l ++ [p]) []

/-! ### Loading (R337) -/

/-- A load is over. -/
def State.dropLoad (s : State) (l : WeightLoad) : State :=
  { s with loads := s.loads.filter (fun m => m.queue != l.queue || m.packet != l.packet) }
/-- R334: STATUS. -/
def State.writeStatus (s : State) (l : WeightLoad) (failed : Option Nat) : State :=
  s.agentWrite l.ctx (l.manifest + 56) 8 (match failed with
    | some i => 2 ^ 63 + 2 ^ 62 + i % 2 ^ 16 * 2 ^ 32
    | none => 2 ^ 63 + l.version)
/-- R335: a layer's word written whole: PASS 0 and a version. -/
def State.writeLayer (s : State) (l : WeightLoad) (j : Nat) : State := s.agentWrite l.ctx (layerDva l.gate j) 8 l.version
/-- R339, step 1: ADM is swapped in one step at its home, once its page is there; a replacement begins. -/
def State.startReplace (s : State) (l : WeightLoad) : State :=
  match s.updateHome l.ctx l.gate with
  | .ok h =>
    if s.updates.any (fun u => u.ctx == l.ctx) then s.setLoad { l with through := true }
    else
      let adm := s.homeRead h 8
      (s.homeWrite l.ctx h 8 (l.version * 2 ^ 32)).setLoad { l with through := true, replacing := some (adm / 2 ^ 32, adm % 2 ^ 32) }
  | .error _ => s.setLoad { l with through := true }
/-- R338, R339: the barrier completes once every package has arrived, or, with a failure, when its time is over. -/
def State.loadDone (s : State) (l : WeightLoad) : State :=
  match l.arrived with
  | none => s.setLoad l
  | some mine =>
    let others := l.gang.filter (· != s.package.pkg.toNat)
    let all := others.all (fun p => (mapGet l.peers p).isSome)
    let fails := (mine :: others.map (fun p => (mapGet l.peers p).getD none)).filterMap id
    match fails with
    | a :: r =>
      if !all ∧ s.cycle < l.start + l.lto then s.setLoad l
      else ((s.writeStatus l (some (r.foldl min a))).dropLoad l).endPacket l.queue l.packet 9
    | [] =>
      if !all then s.setLoad l
      else if l.replaceMode then s.startReplace l
      else
        let s1 := (List.range l.nlayer).foldl (fun (s : State) j => s.writeLayer l j) s
        (((s1.agentWrite l.ctx l.gate 8 (l.version * 2 ^ 32)).writeStatus l none).dropLoad l).endPacket l.queue l.packet 0
/-- R337: the package arrives at the load barrier, which may complete with that (R338). -/
def State.arriveLoad (s : State) (l : WeightLoad) (failed : Option Nat) : State :=
  let l1 := { l with arrived := some failed }
  ((s.setLoad l1).tell l.ctx l.queue l.packet { members := l.gang } (.loadArrive failed s.gscTag)).loadDone l1
/-- R337: a shard with its segments, as their headers say; an error where it has failed or a header is wrong, false where one cannot be read
yet: a write at its DST may still wait for its page. -/
def State.shardSegs (s : State) (x : Nat) (h : Shard) : Except Bool (List (Nat × Nat × Nat)) :=
  if h.failed then .error true
  else if s.updates.any (fun u => u.ctx == x) then .error false
  else match s.segmentsOf x h with
    | .ok r => .ok (r.map (fun g => (bytesNum g.2 2 2, g.1, bytesNum g.2 12 4)))
    | .error e => .error e
/-- R337: once every shard has come or failed, the headers are checked and the package arrives. -/
def State.settleLoad (s : State) (l : WeightLoad) : State :=
  if l.arrived.isSome ∨ !l.shards.all (fun h => h.ok || h.failed) ∨
      l.shards.any (fun h => match s.shardSegs l.ctx h with | .error false => true | _ => false) then s.setLoad l
  else s.arriveLoad
    { l with shards := l.shards.map (fun h => match s.shardSegs l.ctx h with | .ok g => { h with segs := g } | .error _ => h) }
    ((l.shards.find? (fun h => match s.shardSegs l.ctx h with | .error _ => true | .ok _ => false)).map (·.index))

/-- R337: a WEIGHTLOAD starts. -/
def State.weightload (s : State) (q : Nat) : State :=
  s.startPacket q (isType 6)
    (fun k p => match s.readManifest k.ctx (bytesNum p 8 8) with | .error e => e | .ok b => s.manifestReady k.ctx b)
    fun k i p s =>
      match s.readManifest k.ctx (bytesNum p 8 8) with
      | .error _ => s.endPacket q i 10
      | .ok b =>
        let f := bytesNum b
        let s := s.agentMeets k.ctx (bytesNum p 8 8) b.length
        if !s.manifestOk k.ctx b then s.endPacket q i 10
        else if s.loads.any (fun l => l.ctx == k.ctx && l.gate == f 16 8) then s.endPacket q i 11
        else
          let l : WeightLoad :=
            { ctx := k.ctx, queue := q, packet := i, manifest := bytesNum p 8 8, version := f 0 4, nlayer := f 4 2
              replaceMode := f 8 1 == 1, car := f 10 1, lto := f 12 4, gate := f 16 8, gang := gangOf b, start := s.cycle
              shards := s.ownShards b }
          { s with loads := s.loads ++ [l] }.settleLoad l
/-- R337. -/
def execWeightload (q : Nat) (s : State) : Out := .next (s.weightload q)

/-- R337: an attempt for a shard has failed: three more from SRC, then one from the replica. -/
def Shard.fail (h : Shard) (now : Nat) : Shard :=
  let last := if h.repl = 0xFFFFFFFF then 3 else 4
  if h.tries ≥ last then { h with failed := true } else { h with tries := h.tries + 1, since := now }
/-- A shard of a load changed. -/
def WeightLoad.setShard (l : WeightLoad) (n : Nat) (h : Shard) : WeightLoad := { l with shards := listSet l.shards n h }
/-- R337: a shard's bytes come: they are written at DST, and their digest is checked. -/
def State.shardCame (s : State) (n k : Nat) (bytes : List Byte) : State :=
  match s.loads[n]? with
  | none => s
  | some l => match l.shards[k]? with
    | none => s
    | some h =>
      if h.ok ∨ h.failed ∨ l.arrived.isSome ∨ 4 * (s.cycle - h.since) > l.lto then s
      else if bytes.length ≠ h.len then s.settleLoad (l.setShard k (h.fail s.cycle))
      else
        let s1 := s.agentPut l.ctx h.dst (toWords (h.len / 8) bytes)
        s1.settleLoad (l.setShard k (if Config.sha384 bytes = h.digest then { h with ok := true } else h.fail s.cycle))
/-- R337. -/
def execShardArrival (load shard : Nat) (bytes : List Byte) (s : State) : Out := .next ((s.logged 3 0 bytes).shardCame load shard bytes)
/-- R337: an attempt fails after LTO/4 cycles. -/
def State.shardLate (s : State) (n k : Nat) : State :=
  match s.loads[n]? with
  | none => s
  | some l => match l.shards[k]? with
    | none => s
    | some h =>
      if h.ok ∨ h.failed ∨ l.arrived.isSome ∨ 4 * (s.cycle - h.since) < l.lto then s
      else s.settleLoad (l.setShard k (h.fail s.cycle))
/-- R337. -/
def execShardTimeout (load shard : Nat) (s : State) : Out := .next (s.shardLate load shard)
/-! ### The barrier and the replacement (R338, R339) -/

/-- R337, R338: what a package has reported at the barrier: an arrival, or, later, that its time is over; the lowest index stays. -/
def report (m : List (Nat × Option Nat)) (p : Nat × Option Nat) : List (Nat × Option Nat) :=
  match mapGet m p.1, p.2 with
  | none, r => mapPut m p.1 r
  | some none, r => mapPut m p.1 r
  | some (some a), some b => mapPut m p.1 (some (min a b))
  | some (some _), none => m
/-- R338, R373: other packages' arrivals at the load barrier. -/
def execLoadBarrier (load : Nat) (peers : List (Nat × Option Nat)) (s : State) : Out :=
  .next (match s.loads[load]? with
    | some l => if l.through then s
      else
        let heard := peers.filter (fun p => s.hears p.1)
        (heard.foldl (fun (s : State) p => s.logged 4 0 ([4] ++ leBytes p.1 4 ++ leBytes (p.2.getD 0xFFFFFFFF) 4)) s).loadDone
          { l with peers := heard.foldl report l.peers }
    | none => s)
/-- R337: LTO cycles have passed and the barrier has not completed: the package arrives as failed, and the load ends with that (R338). -/
def State.loadLate (s : State) (n : Nat) : State :=
  match s.loads[n]? with
  | none => s
  | some l =>
    if l.through ∨ s.cycle < l.start + l.lto then s
    else match l.arrived with
      | some (some _) => s.loadDone l
      | _ => s.arriveLoad l (some 0xFFFF)
/-- R337. -/
def execLoadBarrierTimeout (load : Nat) (s : State) : Out := .next (s.loadLate load)

/-- R339: a step of a replacement: a layer that has been swapped on every die that has its carousel takes its new word; when every layer
reads w the load ends. A load whose shards are there and that has not arrived yet does so, and one whose ADM could not be swapped yet
swaps it. -/
def State.replaceStep (s : State) (n : Nat) : State :=
  match s.loads[n]? with
  | none => s
  | some l =>
    if l.replacing.isNone then (if l.through then s.startReplace l else if l.arrived.isNone then s.settleLoad l else s)
    else if (List.range l.nlayer).all (fun j => match s.layerWord l.ctx l.gate j with
        | .ok w => w % 2 ^ 32 == l.version
        | .error _ => false) then
      ((s.writeStatus l none).dropLoad l).endPacket l.queue l.packet 0
    else ((s.passedLayers l).filter (fun j => (s.swapDies l).all (fun d => l.swapping.contains (j, d)))).foldl
      (fun (s : State) j => s.writeLayer l j) s
/-- R339. -/
def execWeightReplace (load : Nat) (s : State) : Out := .next (s.replaceStep load)

end Sys2Proof.Machine
end

