-- ==== Sys2Proof/Machine/Context.lean ====
section
/-! DEFINITION. Fault records, the upcall and the wake (R345 to R347, R363, R364), the services of `trap` (R380), chunks (R103,
R241), pre-emption and resume (R186, R358 to R360, R405), thermal migration and sparing (R361, R384, R399, R400), containment
and scrubbing (R354, R362). -/

namespace Sys2Proof.Machine

/-- R177, R357, R362: a containment cause: the context named, and no other, is Faulted, and its threads stop; once containment is done, at
the end of the cycle, it is Killed. -/
def State.contain (s : State) (x : Nat) : State :=
  if (s.context x).st = .active ∨ (s.context x).st = .preempted then
    let s1 := s.stopThreads (fun y _ => y == x)
    s1.setContext x { s1.context x with st := .faulted }
  else s
/-- R357: the containment of a Faulted context is done. -/
def State.contained (s : State) (x : Nat) : State := if (s.context x).st = .faulted then s.kill x else s

/-! ### Fault records and lending (R345 to R347) -/

/-- R363: the kinds that are translation faults. -/
def isTranslation (kind : Nat) : Bool := decide (1 ≤ kind ∧ kind ≤ 6)
/-- R345: how often the access of a fault has faulted before: the fetch of a line, or its instruction's own. -/
def Thread.faultsBefore (t : Thread) (f : FaultInfo) : Nat := if f.fetch then t.fetchCount else t.faultCount
/-- R345: one more fault of that access. -/
def Thread.countFault (t : Thread) (f : FaultInfo) : Thread :=
  if f.fetch then { t with fetchCount := t.fetchCount + 1 } else { t with faultCount := t.faultCount + 1 }
/-- R345: the fault record, 32 words. -/
def faultRecordWords (c : Nat) (i : Fin 16) (t : Thread) (f : FaultInfo) : List Word :=
  let n := if isTranslation f.kind then t.faultsBefore f else 0
  let w (v : Nat) : Word := BitVec.ofNat 64 v
  [t.pc, f.ea, f.dva,
    w (f.kind + f.access * 2 ^ 8 + f.level * 2 ^ 16 + (if n = 0 then 0 else 2 ^ 24) + min n 65535 * 2 ^ 32),
    t.lin, w (t.tidx.toNat + t.kid.toNat * 2 ^ 32), w (c + i.val * 2 ^ 16), 0] ++ List.replicate 24 0
/-- R345, log 11: the service area of a slot: a physical address in Bobbin's own memory. -/
def State.serviceArea (s : State) (c : Nat) (i : Fin 16) : Nat := s.package.areaBase + 512 * (16 * c + i.val)
/-- R345: frame at +0 and record at +256, in the lending area or in the service area. -/
def State.writeFault (s : State) (c : Nat) (i : Fin 16) (t : Thread) (f : FaultInfo) : State :=
  let ws := t.frame (f.resume.getD t.pc) ++ faultRecordWords c i t f
  if (s.kernelOf t).desc.upcall = 0 then s.firmPut (s.serviceArea c i) (ws.flatMap (fun w => leBytes w.toNat 8))
  else s.agentPut t.ctx (s.lendArea c i) ws
/-- R347: Bobbin cannot resolve a fault. -/
def State.hopeless (s : State) (x : Nat) (f : FaultInfo) : Bool :=
  f.kind == 3 || f.kind == 4 || f.kind == 5 || (f.kind == 1 && !(s.context x).inRange f.dva.toNat)

/-- R347: the thread that a lent slot runs. -/
def State.lendThread (s : State) (c : Nat) (i : Fin 16) (t : Thread) : Thread :=
  let a := s.lendArea c i
  { t.finish (s.kernelOf t).desc.upcall none with
    st := .running
    stat := setBits t.stat 1 0 1
    g := (t.g.set 1 (BitVec.ofNat 64 (a + 256))).set 2 (BitVec.ofNat 64 a)
    fault := none
    lent := true }
/-- R345, R347, R390: the slot is lent; a translation fault is kept for its wake. -/
def State.lend (s : State) (c : Nat) (i : Fin 16) (t : Thread) (f : FaultInfo) : State :=
  let s1 := s.setSlot c i (some (s.lendThread c i t))
  if !isTranslation f.kind then s1
  else
    let k := s1.core c
    let rec_ : Faulter := { slot := i.val, kind := f.kind, dva := f.dva, tidx := t.tidx, kid := t.kid, frame := s.lendArea c i,
                            tag := s.tagOf c i t }
    let s2 := s1.setCore c { k with faulters := k.faulters ++ [rec_] }
    let x := s2.context t.ctx
    let u := t.countFault f
    s2.setContext t.ctx { x with repeats := mapPut x.repeats (repeatKey t.kid t.gid t.lin) (u.faultCount, u.fetchCount) }

/-- R370, R372: the results of a thread whose accesses another package has refused, or that wait for a path to it: they have not been performed. -/
def State.stranded (s : State) (t : Thread) : List Pending :=
  t.pending.filter (fun p => s.flight.any (fun a => a.uid == t.uid && a.stranded && a.result == some p.seq))
/-- R208, R345: the record may be written: the beats are over, earlier results have landed and every slot reads zero; the results of accesses
that are not performed before the wake cannot land first (log 31). -/
def State.recordable (s : State) (t : Thread) (f : FaultInfo) : Bool :=
  let left := s.stranded t
  !t.hold && !f.recorded && t.beats.isNone && t.pending.length == left.length &&
    depNumbers.all (fun k => (t.dep[k]).toNat == (left.filter (fun p => p.dep == some k)).length)

/-- R347: the thread after a wake: Running, to replay the instruction; one that had issued an acquire waits for its value first (R166). -/
def Thread.awaken (t : Thread) : Thread :=
  let u := match t.fault with | some f => t.countFault f | none => t
  { u with st := (match t.fault.bind (·.back) with | some n => .parked (.landing n) | none => .running), fault := none }
/-- R370, R372: the accesses of a thread for which a fault was raised go on after its wake. -/
def State.unstrand (s : State) (uid : Nat) : State :=
  if s.flight.any (fun a => a.uid == uid && a.stranded) then
    { s with flight := s.flight.map (fun a => if a.uid = uid then { a with stranded := false } else a) }
  else s
/-- R347: the wake of the faulter of a lent slot: an entry of KIND 2. -/
def State.wakeLent (s : State) (x c : Nat) (r : Faulter) : State :=
  let k := s.coreFor x c
  let s1 := match k.slots.toList[r.slot]? with | some (some t) => s.unstrand t.uid | _ => s
  (s1.setCoreFor x c { k with faulters := k.faulters.erase r }).deliverMail x c
    { d := BitVec.ofNat 64 r.frame, tt := r.tidx, ktag := r.kid.truncate 12, kind := 2, sender := BitVec.ofNat 12 c
      tag := s.agentTag (s.entity 0 4 0 0) r.tag }
/-- R347: a wake that came before frame and record were written takes effect for a lent slot as for an idle one. -/
def State.lendWoken (s : State) (c : Nat) (i : Fin 16) (t : Thread) (f : FaultInfo) : State :=
  let s1 := s.lend c i t f
  if !f.woken then s1
  else match (s1.core c).faulters.getLast? with
    | some r => s1.wakeLent t.ctx c r
    | none => s1

/-- R345, R347, R364: frame and record are written, and the slot is lent, left idle, or its context killed. -/
def State.recordFault (s : State) (c : Nat) (i : Fin 16) : State :=
  match s.threadAt c i with
  | none => s
  | some t => match t.fault with
    | none => s
    | some f =>
      if t.st ≠ .faulted ∨ !s.recordable t f then s
      else
        let s1 := s.writeFault c i t f
        if s1.hopeless t.ctx f then s1.contain t.ctx
        else if statPriv t.stat = 0 ∧ (s.kernelOf t).desc.upcall ≠ 0 then s1.lendWoken c i t f
        else if isTranslation f.kind ∨ f.kind = kTrap then
          s1.setSlot c i (some (if f.woken then t.awaken else { t with fault := some { f with recorded := true } }))
        else s1.contain t.ctx
/-- R345. -/
def execFaultRecord (core slot : Nat) (s : State) : Out := .next (s.recordFault core (Fin.ofNat 16 slot))

/-! ### Wakes and services (R347, R351, R380) -/

/-- A record of a slot of a core belongs to a faulter that Bobbin may wake: a Faulted thread, or the faulter of a lent slot. -/
def CoreState.faultIn (k : CoreState) (i : Fin 16) : Bool :=
  (match k.slots[i] with | some t => t.fault.isSome | none => false) || k.faulters.any (fun r => r.slot == i.val)
/-- The context whose fault in a slot of a core Bobbin serves: the one that runs there, or one that is saved there. -/
def State.faultCtx (s : State) (c : Nat) (i : Fin 16) : Option Nat :=
  ((s.core c).ctx.toList ++ (s.contexts.filter (fun p => (mapGet p.2.saved c).isSome)).map (·.1)).find?
    (fun x => (s.coreFor x c).faultIn i)
/-- R56, R57: a register written for a thread of a core that is not issuing. -/
def CoreState.putReg (k : CoreState) (i : Fin 16) (f : Field) (v : Word) : CoreState :=
  let n : BitVec 4 := f.extractLsb' 0 4
  if f.getLsbD 4 then (if n = 14 ∨ n = 15 then k else { k with shared := k.shared.set n.toNat v n.isLt })
  else k.updSlot i (fun t => { t with g := t.g.set n.toNat v n.isLt })
/-- R365: Bobbin has served the `trap` of a slot: dst is written and the thread goes on at the next instruction. -/
def State.answerTrap (s : State) (c : Nat) (i : Fin 16) (ok : Nat → Bool) (v : State → Nat → Nat) : State :=
  match s.threadAt c i with
  | none => s
  | some t => match t.fault with
    | none => s
    | some f =>
      if f.kind ≠ kTrap ∨ !f.recorded ∨ t.hold ∨ !ok f.ea.toNat then s
      else
        let s1 := s.setSlot c i (some { t.finish (f.resume.getD t.pc) none with st := .running, fault := none })
        s1.setCore c ((s1.core c).putReg i f.dst (BitVec.ofNat 64 (v s t.ctx)))
/-- R380: service 0. -/
def execVersion (core slot : Nat) (s : State) : Out :=
  .next (s.answerTrap core (Fin.ofNat 16 slot) (· == 0) (fun s _ => s.package.version.toNat))
/-- R380: service 1. -/
def execGracePeriod (core slot : Nat) (s : State) : Out :=
  .next (s.answerTrap core (Fin.ofNat 16 slot) (· == 1) (fun s x => (s.context x).grace))
/-- R380: service 2. -/
def execRetiredClusters (core slot : Nat) (s : State) : Out :=
  .next (s.answerTrap core (Fin.ofNat 16 slot) (· == 2)
    (fun s _ => (s.package.retired.filter (fun cl => cl / 128 == core / 1024)).length))

/-- R347, R350: Bobbin's stores of page-table entries. -/
def State.storeEntries (s : State) (l : List (Nat × Word)) : State :=
  l.foldl (fun (s : State) p => s.firmPut p.1 (leBytes p.2.toNat 8)) s
/-- R347: the wake of a Faulted thread: at once if its record is written, else once it is. -/
def State.wakeThread (s : State) (x c : Nat) (i : Fin 16) (t : Thread) (f : FaultInfo) : State :=
  let saved := (mapGet (s.context x).saved c).isSome
  if !isTranslation f.kind then s.answerTrap c i (fun n => decide (n ≥ 3)) (fun _ _ => 2 ^ 64 - 1)
  else
    let t1 := if f.recorded && !saved then t.awaken else { t with fault := some { f with woken := true } }
    (s.unstrand t.uid).setCoreFor x c ((s.coreFor x c).updSlot i (fun _ => t1))
/-- R343, R347: the fault at a DVA of a context is there no more. -/
def State.faultGone (s : State) (x kind dva access : Nat) : Bool :=
  match s.agentXlat x dva (access == 1 || access == 2 || access == 5) false with
  | .ok _ _ h => kind != 6 || s.reachable h
  | .moving => true
  | .fault _ _ => false
/-- R347, R380: Bobbin resolves a fault of a slot and wakes the faulter; a `trap` with a service number that no service has
is answered with all ones. Of several faulters of a lent slot, and a Faulted thread that runs in it, the first whose fault is there no
more is woken, else the first (log 72). -/
def State.wake (s : State) (c : Nat) (i : Fin 16) (ptes : List (Nat × Word)) : State :=
  match s.faultCtx c i with
  | none => s
  | some x =>
    let k := s.coreFor x c
    let s1 := s.storeEntries ptes
    let mine := k.faulters.filter (fun r => r.slot == i.val)
    let own := match k.slots[i] with | some t => t.fault.map (fun f => (t, f)) | none => none
    let gone (t : Thread) (f : FaultInfo) : Bool := !isTranslation f.kind || s1.faultGone t.ctx f.kind f.dva.toNat f.access
    match mine.find? (fun r => s1.faultGone x r.kind r.dva.toNat 0), own, mine.head? with
    | some r, _, _ => s1.wakeLent x c r
    | none, some (t, f), r => match r with
      | some r => if gone t f then s1.wakeThread x c i t f else s1.wakeLent x c r
      | none => s1.wakeThread x c i t f
    | none, none, some r => s1.wakeLent x c r
    | none, none, none => s
/-- R347. -/
def execWake (core slot : Nat) (ptes : List (Nat × BitVec 64)) (s : State) : Out :=
  .next (s.wake core (Fin.ofNat 16 slot) ptes)

/-- R347: the period for a LINK_DOWN fault has passed: the context is killed. -/
def State.holdExpired (s : State) (c : Nat) (i : Fin 16) : State :=
  match s.faultCtx c i with
  | none => s
  | some x =>
    let k := s.coreFor x c
    if k.faulters.any (fun r => r.slot == i.val && r.kind == 6) ||
        (match k.slots[i] with
          | some t => (match t.fault with | some f => f.kind == 6 && !f.woken | none => false)
          | none => false) then s.contain x
    else s
/-- R347. -/
def execFaultHoldExpiry (core slot : Nat) (s : State) : Out := .next (s.holdExpired core (Fin.ofNat 16 slot))

/-! ### Chunks (R103, R241) -/

/-- R103: the thread in transit that waits for a chunk of a core's spill ring. -/
def State.ringWaiter (s : State) (c : Nat) : Option Packet :=
  s.transit.find? (fun p => p.dst == c && (match mapGet (s.context p.thread.ctx).saved c with
    | some q => !q.ringRoom
    | none => !s.seatable c && !(s.core c).spillRoom))
/-- R103, R241: the next chunk that Bobbin has (log 11). -/
def State.newChunk (s : State) : State := { s with package := { s.package with chunkNext := s.package.chunkNext + 65536 } }
/-- R103, R241: Bobbin allocates a chunk, or kills the context that needed it. What waited for one in the deque is written there. -/
def State.chunk (s : State) (c : Nat) (deque ok : Bool) : State :=
  let a := s.package.chunkNext
  if deque then
    let k := s.core c
    if k.dequeAt.length + 32 ≥ k.deque.length ∨ (freePlace k.dequeChunks k.dequeAt).isSome then s
    else if ok then
      (List.range 128).foldl (fun (s : State) _ => s.spillDeque c) (s.newChunk.setCore c { k with dequeChunks := k.dequeChunks ++ [a] })
    else match k.deque.getLast? with | some e => s.contain e.owner.1 | none => s
  else match s.ringWaiter c with
    | none => s
    | some p =>
      let k := s.coreFor p.thread.ctx c
      if ok then s.newChunk.setCoreFor p.thread.ctx c { k with spillChunks := k.spillChunks ++ [a] }
      else s.contain p.thread.ctx
/-- R103, R241. -/
def execChunkAllocation (core : Nat) (deque ok : Bool) (s : State) : Out := .next (s.chunk core deque ok)

/-! ### Pre-emption (R186, R358) -/

/-- The cores of a cluster that a context holds. -/
def State.coresHeld (s : State) (x cl : Nat) : List Nat := (coresOf cl).filter (fun c => (s.core c).ctx == some x)
/-- R358, R361, R393: every thread but a Running one is saved at once, and in a stopped core every thread. -/
def CoreState.holdIdle (k : CoreState) : CoreState :=
  { k with slots := mapSlots (fun t => if t.st = .running ∧ !k.stopped then t else { t with hold := true }) k.slots }
/-- R93, R190: every thread is held, its results have landed, and its beats are over. -/
def CoreState.allSaved (k : CoreState) : Bool :=
  k.slots.toList.all (fun o => match o with
    | some t => t.hold && t.pending.isEmpty && t.beats.isNone
    | none => true)
/-- R226: no fill and no pass round is in progress on the latch. -/
def Latch.atRest (l : Latch) : Bool := l.fill.isNone && l.coming.isNone && l.st != .passing
/-- R93, R190, R225, R361: a core's record may be saved. -/
def CoreState.quiet (k : CoreState) : Bool := k.allSaved && k.latch.atRest
/-- R66, R68, R105, R244, R277, R280, R314, R349: the instructions that a thread restarts when it is pre-empted while Parked in them. -/
def restarts : Instr → Bool
  | .mig .. | .fork .. | .nqput .. | .cbput .. | .cbwait .. | .cbrel .. | .crpromote .. | .cxsave .. | .cxload .. | .cflush .. => true
  | _ => false
/-- An instruction that has made no effect is begun anew when its Parked thread is restored. -/
def Thread.restart (t : Thread) : Thread :=
  match t.st, t.held with
  | .parked _, some (_, l) => match Line.decodeAt l (t.pc &&& 63).toNat with
    | .ok i =>
      if restarts i then
        { t with
          st := .parked .results, stage := 0, aux := 0, granted := false, refused := false, latched := none, vdata := none
          blocked := none, walk := none, taken := none
          dep := (match t.taken with | some k => depDown t.dep k | none => t.dep) }
      else t
    | .error _ => t
  | _, _ => t
/-- R90, R280, R296, R358: every thread of a core that may be saved now is; one that waited in a queue, and begins its instruction anew when it
is restored, leaves the queue. -/
def State.holdCore (s : State) (c : Nat) : State :=
  let s1 := slotNumbers.foldl (fun (s : State) (i : Fin 16) => match s.threadAt c i with
    | some t => if t.hold ∨ (t.st = .running ∧ !(s.core c).stopped) ∨ t.restart = t then s else s.leaveQueues c t.uid
    | none => s) s
  if (s1.core c).holdIdle = s1.core c then s1 else s1.setCore c (s1.core c).holdIdle
/-- R186, R209, R210: the strips of a claim that a save keeps: those that are not under recall, or, in matrix mode, all. -/
def State.keptStrips (s : State) (c : Nat) (i : Fin 16) (t : Thread) : List Nat :=
  if statM t.stat then t.claim.strips else t.claim.strips.filter (fun q => !s.recalled c i q)
/-- R66: a thread that leaves its physical core drops its held line; the instruction in progress goes on as it was read, and its
successor is fetched again. -/
def Thread.dropLine (t : Thread) : Thread :=
  if t.latched.isSome then { t with refetch := true } else { t with held := none, refetch := false }
/-- R66, R186, R358: a thread as it is saved: strips under recall are dropped, and so is the held line. -/
def State.savedThread (s : State) (c : Nat) (i : Fin 16) (t : Thread) : Thread :=
  let keep := s.keptStrips c i t
  { (if keep.length = t.claim.strips.length then t else t.reclaim t.claim.req keep).restart.dropLine with feCount := 0 }
/-- R358, R360: a core's record. Copy commands still wait for its buffers' slots and threads for its latch queue; a delivery that waited
begins anew (R309). -/
def State.savedCore (s : State) (c : Nat) : CoreState :=
  let k := s.core c
  { k with
    slots := slotNumbers.foldl (fun (v : Vector (Option Thread) 16) (i : Fin 16) => match k.slots[i] with
      | some t => v.set i (some (s.savedThread c i t))
      | none => v) k.slots
    cb := k.cb |> vmap (fun b => { b with waiters := b.waiters.filter (fun p => match p with | .command _ => true | _ => false) })
    latch := { k.latch with room := k.latch.room.filter (fun p => match p with | .thread _ => true | _ => false) } }
/-- R99: the g registers that the record of a queued thread holds. -/
def Thread.carried (t : Thread) : BitVec 16 := if slotNumbers.all (fun i => t.tm.getLsbD i.val || t.g[i] == 0) then t.tm else 0xFFFF
/-- R103: a record of the chunks that is free, in a new chunk where none is. -/
def State.newPlace (s : State) (chunks used : List Nat) : State × List Nat × Nat :=
  match freePlace chunks used with
  | some a => (s, chunks, a)
  | none => (s.newChunk, chunks ++ [s.package.chunkNext], s.package.chunkNext)
/-- R358: the entries of the arrival queue are written ahead of the spill ring's. -/
def State.writeArrivals (s : State) (k : CoreState) : State × CoreState :=
  k.arrivals.foldr (fun t r =>
    let p := r.1.newPlace r.2.spillChunks r.2.spillAt
    (p.1.firmPut p.2.2 (t.packetBytes t.carried),
      { r.2 with spillChunks := p.2.1, spill := t :: r.2.spill, spillAt := p.2.2 :: r.2.spillAt })) (s, { k with arrivals := [] })
/-- R358: the hardware entries of the deque are written to its spill. -/
def State.writeDeque (s : State) (k : CoreState) : State × CoreState :=
  (k.deque.drop k.dequeAt.length).foldl (fun r e =>
    let p := r.1.newPlace r.2.dequeChunks r.2.dequeAt
    (p.1.firmPut p.2.2 e.bytes, { r.2 with dequeChunks := p.2.1, dequeAt := r.2.dequeAt ++ [p.2.2] })) (s, k)
/-- R392, R395: debug registers and counters stay with the logical core. -/
def CoreState.keepDebug (k from_ : CoreState) : CoreState :=
  { k with
    last := from_.last, lastIssue := from_.lastIssue, lastTurn := from_.lastTurn, served := from_.served, pick := from_.pick
    bp := from_.bp, wpa := from_.wpa, wpc := from_.wpc, stopEn := from_.stopEn, pmc := from_.pmc, pmsel := from_.pmsel
    wraps := from_.wraps, selWas := from_.selWas
    remapStep := from_.remapStep, remapTarget := from_.remapTarget }

/-- R308, R326: a delivery still has something to bring to a subscription: tests for a ray, its bytes for a weight target. -/
def Sub.unmet (b : Sub) (id : Nat) : Bool := b.takes id && (b.ray.isSome || b.boxed.isNone || b.opened != some id)
/-- R326: the subscriptions of an IX that a test selects leave their deliveries. One that has begun, or is a re-delivery on its way, is
kept at its cursor as a job of its own; others are discarded untested. -/
def State.detach (s : State) (ix : Nat) (f : Sub → Bool) : State × List IxJob :=
  let k := s.cluster ix
  let mine (j : IxJob) : Bool := j.begun && k.subs.any (fun b => f b && b.unmet j.delivery)
  let sent := ((s.die (ixDie ix)).deliveries.filter (fun v => v.clusters.contains ix)).map (·.job)
  let jobs := ((k.buffer ++ sent ++ k.redeliver).filter mine).zipIdx
  let id := s.nextId
  let subs := k.subs.map (fun b =>
    if !f b then b
    else
      let ids := (jobs.filter (fun j => b.unmet j.1.delivery)).map (fun j => id + j.2)
      { b with opened := ids.head?, more := ids.drop 1, boxed := if b.ray.isSome ∧ ids ≠ [] then b.boxed else none })
  let live (j : IxJob) : Bool := subs.any (fun b => b.takes j.delivery)
  let s0 : State := { s with nextId := id + jobs.length + 1 }
  let s1 := s0.setCluster ix { k with subs := subs, buffer := k.buffer.filter live, redeliver := k.redeliver.filter live }
  (([0, 1, 2, 3] : List Nat).foldl (fun (s : State) n => s.carSettle (ixDie ix) n) s1, jobs.map (fun j => { j.1 with delivery := id + j.2 }))
/-- R309: jobs become pending re-deliveries of the IX where subscriptions wait for them; their carousels run (R300). -/
def State.redeliver (s : State) (l : List IxJob) : State :=
  l.foldl (fun (s : State) j => match s.clusters.find? (fun p => p.2.subs.any (fun b => b.takes j.delivery)) with
    | some (ix, k) => (s.setCluster ix { k with redeliver := k.redeliver ++ [j] }).carWake (ixDie ix) j.car
    | none => s) s
/-- The IXs that serve a cluster's cores (R400). -/
def State.ixsOf (s : State) (cl : Nat) : List Nat := ((coresOf cl).map s.ixOf).eraseDups
/-- R326: the IXs of a cluster's cores as a context is saved there. -/
def State.saveIx (s : State) (x cl : Nat) : State :=
  (s.ixsOf cl).foldl (fun (s : State) ix =>
    let r := s.detach ix (fun b => b.ctx == x && clusterOf b.core == cl)
    r.1.setContext x { r.1.context x with savedIx := (r.1.context x).savedIx ++ r.2.map (fun j => (cl, j)) }) s
/-- R400: subscriptions of cores that lie elsewhere now go to the IX that serves them there. -/
def State.seatSubs (s : State) : State :=
  (s.clusters.map (·.1)).foldl (fun (s : State) ix =>
    let gone (b : Sub) : Bool := s.ixOf b.core != ix
    if !(s.cluster ix).subs.any gone then s
    else
      let r := s.detach ix gone
      let subs := (r.1.cluster ix).subs.filter gone
      let s1 := r.1.setCluster ix { r.1.cluster ix with subs := (r.1.cluster ix).subs.filter (fun b => !gone b) }
      (subs.foldl (fun (s : State) b => s.setCluster (s.ixOf b.core)
        { s.cluster (s.ixOf b.core) with subs := (s.cluster (s.ixOf b.core)).subs ++ [b] }) s1).redeliver r.2) s

/-- R358: the cores that a context holds on a cluster are saved; saved threads leave the queues for node records. -/
def State.saveCluster (s : State) (x cl : Nat) : State :=
  let cs := s.coresHeld x cl
  let uids := cs.flatMap (fun c => ((s.core c).slots.toList.filterMap id).map (·.uid))
  let s1 := s.saveIx x cl
  let s2 := cs.foldl (fun (r : State) c =>
    let p := r.writeArrivals (s.savedCore c)
    let q := p.1.writeDeque p.2
    (q.1.setContext x { q.1.context x with saved := mapPut (q.1.context x).saved c q.2 }).setCore c
      ((({} : CoreState)).keepDebug (r.core c))) s1
  let s3 : State := { s2 with kernels := s2.kernels.map (fun k => { k with
    nodes := k.nodes.map (fun v => { v with waiters := v.waiters.filter (fun u => !uids.contains u) }) }) }
  let y := s3.context x
  s3.setContext x { y with
    saving := y.saving.filter (· != cl), saveSince := mapDel y.saveSince cl
    st := if s3.cores.any (fun p => p.2.ctx == some x) then y.st else .preempted }

/-! ### Resume (R186, R358, R405) -/

/-- R180, R186: the pairs that a saved core's threads hold are free. -/
def State.pairsFree (s : State) (c : Nat) (k : CoreState) : Bool :=
  slotNumbers.all (fun i => match k.slots[i] with
    | some t => t.claim.strips.all (fun q => !s.pairHeld (clusterOf c) q (homeWin i) none &&
        (s.threadAt (8 * clusterOf c + q / 4) (homeSlot q (homeWin i))).isNone)
    | none => true)
/-- R101, R358: the arrival queue fills from the ring again. -/
def CoreState.refill : Nat → CoreState → CoreState
  | 0, k => k
  | n + 1, k => match k.spill with
    | [] => k
    | t :: r => if k.arrivals.length < 16 then CoreState.refill n { k with arrivals := k.arrivals ++ [t], spill := r, spillAt := k.spillAt.drop 1 } else k
/-- R315: a `crlap.w` that is restored looks again: its carousel may be Off. -/
def State.lapAgain (s : State) (c : Nat) (t : Thread) : Thread :=
  match t.st with
  | .parked (.lap k _) => if (s.car (dieOf c) k).st = .off then { t with refused := true } else t
  | _ => t
/-- R347, R358: a thread as it is restored; a wake that has come takes effect. -/
def Thread.restored (t : Thread) : Thread :=
  let t1 := { t with hold := false }
  match t.fault with
  | some f => if f.woken && f.recorded then t1.awaken else t1
  | none => t1
/-- R358, R360, R393, R405: a core restored: it runs, its buffers' fills take effect, its deque's bottom entries are in hardware, its `mop`s have
used no cycle since, and held mailbox entries are placed. -/
def State.restoreCore (s : State) (x c : Nat) (k : CoreState) : State :=
  let k1 : CoreState := { (k.keepDebug (s.core c)) with stopped := false, slots := mapSlots (fun t => s.lapAgain c t.restored) k.slots }
  let k2 := (((CoreState.refill 16 (k1.fillBufs s.time)).trimDeque).mopsFrom s.cycle).settleMail s.cycle
  (s.setContext x { s.context x with saved := mapDel (s.context x).saved c }).setCore c k2
/-- R309, R326: the interrupted deliveries of a cluster become pending re-deliveries. R300: a carousel that subscriptions of the
cluster wait for runs again. -/
def State.restoreIx (s : State) (x cl : Nat) : State :=
  let y := s.context x
  let s1 := (s.setContext x { y with savedIx := y.savedIx.filter (fun p => p.1 != cl) }).redeliver
    ((y.savedIx.filter (fun p => p.1 == cl)).map (·.2))
  let subs := (s.ixsOf cl).flatMap (fun ix => (s.cluster ix).subs.filter (fun b => b.ctx == x && clusterOf b.core == cl))
  subs.foldl (fun (s : State) b => s.carWake (dieOf b.core) b.car) s1
/-- R186, R358: a cluster of a Pre-empted context is resumed, once its cores and pairs are free. -/
def State.resumeCluster (s : State) (x cl : Nat) : State :=
  let y := s.context x
  let mine := y.saved.filter (fun p => clusterOf p.1 == cl)
  if y.st ≠ .preempted ∨ !mine.all (fun p => (s.core p.1).ctx.isNone && s.namesCore p.1 && s.pairsFree p.1 p.2) then s
  else
    let s1 := mine.foldl (fun (s : State) p => s.restoreCore x p.1 p.2) s
    let s2 := s1.restoreIx x cl
    let y2 := s2.context x
    s2.setContext x { y2 with
      st := if y2.saved.isEmpty then .active else .preempted
      resumeAsked := y2.resumeAsked.filter (· != cl) }
/-- R358: a request to resume; one made while the save is in progress, between two clusters' saves too, is held. -/
def State.resume (s : State) (x cl : Nat) : State :=
  let y := s.context x
  if y.st = .active ∧ (!y.saving.isEmpty ∨ !y.saved.isEmpty) ∧ !y.resumeAsked.contains cl then
    s.setContext x { y with resumeAsked := y.resumeAsked ++ [cl] }
  else s.resumeCluster x cl
/-- R358. -/
def execResume (ctx cluster : Nat) (s : State) : Out := .next (s.resume ctx cluster)

/-- R358, R361: a pre-emption of a context on a cluster: first the request, then, once every thread there is held and quiet, the
save; a request to resume that was held is then served. A remap in progress comes first. -/
def State.preempt (s : State) (x cl : Nat) : State :=
  let y := s.context x
  if (mapGet s.contexts x).isNone ∨ y.st ≠ .active then s
  else
    let s1 := if y.saving.contains cl then s
      else s.setContext x { y with saving := y.saving ++ [cl], saveSince := mapPut y.saveSince cl s.cycle }
    let cs := s1.coresHeld x cl
    if cs.any (fun c => decide ((s1.core c).remapStep ≠ 0 ∧ (s1.core c).remapStep ≠ 4)) then s1
    else
      let s2 := cs.foldl (fun (s : State) c => s.holdCore c) s1
      if cs.all (fun c => (s2.core c).quiet) then
        let s3 := s2.saveCluster x cl
        if (s3.context x).st = .preempted then
          (s3.context x).resumeAsked.foldl (fun (s : State) n => s.resumeCluster x n) s3
        else s3
      else s2
/-- R358. -/
def execPreEmption (ctx cluster : Nat) (s : State) : Out := .next (s.preempt ctx cluster)
/-- R358: a Running thread that has reached no group boundary within the grace period is stopped. -/
def State.graceOver (s : State) (c : Nat) (i : Fin 16) : State :=
  match s.threadAt c i with
  | none => s
  | some t =>
    let y := s.context t.ctx
    match mapGet y.saveSince (clusterOf c) with
    | none => s
    | some since => if t.st = .running ∧ s.cycle ≥ since + y.grace then s.setSlot c i (some { t with hold := true }) else s
/-- R358. -/
def execGraceExpiry (core slot : Nat) (s : State) : Out := .next (s.graceOver core (Fin.ofNat 16 slot))

/-! ### Remaps (R361, R399, R400) -/

/-- The physical cores of a die, and those that back a logical core. -/
def dieCores (d : Nat) : List Nat := (List.range 640).map (1024 * d + ·)
def State.backing (s : State) (d : Nat) : List Nat := ((dieCores d).filter s.namesCore).map s.pcore
/-- A physical core's temperature as read (°C). -/
def State.sensor (s : State) (p : Nat) : Int := (mapGet s.package.sensors p).getD 0
/-- R399: the target of a thermal remap; a core that another remap moves to is not free. -/
def State.coolest (s : State) (d : Nat) : Option Nat :=
  let used := s.backing d ++ s.cores.filterMap (·.2.remapTarget) ++ s.package.sparing.flatMap (fun p => coresOf p.2)
  ((dieCores d).filter (fun p => !used.contains p && !s.package.fused.contains (p / 8) && !s.package.failed.contains (p / 8))).foldl
    (fun (r : Option Nat) p => match r with
      | none => some p
      | some q => if s.sensor p < s.sensor q then some p else some q) none
/-- R361: the remap's next step. -/
def CoreState.remapTo (k : CoreState) (n : Nat) : CoreState := { k with remapStep := n }
/-- R400: the strips that a core's threads hold outside its block are dropped where the target lies in another cluster. -/
def State.leaveBlock (s : State) (c : Nat) : State :=
  if (s.core c).remapTarget.getD 0 / 8 = s.pcore c / 8 then s
  else s.setCore c { s.core c with slots := mapSlots (fun t =>
    let keep := t.claim.strips.filter (fun q => q / 4 == c % 8)
    if keep.length = t.claim.strips.length then t else t.reclaim t.claim.req keep) (s.core c).slots }
/-- R361, step 2: a thread of another core holds a strip of a core's block. -/
def State.blockHeld (s : State) (c : Nat) : Bool :=
  (coresOf (clusterOf c)).any (fun o => o != c && (s.core o).slots.toList.any (fun t => match t with
    | some t => t.claim.strips.any (fun q => q / 4 == c % 8)
    | none => false))
/-- R66, R361, R401, steps 4 and 6: a core's record is on its new physical core: its threads go on, fetching their lines again, and the
requests that the old one had accepted are performed there. -/
def State.goOn (s : State) (c : Nat) : State :=
  let k := s.core c
  let k1 : CoreState := { k with
    slots := mapSlots (fun t => { t.restart.dropLine with hold := false }) k.slots, stopped := false, remapStep := 0, remapTarget := none }
  (s.setCore c ((k1.mopsFrom s.cycle).settleMail s.cycle)).serveHeld c
/-- R361, R399, R400, steps 4 to 6: the core-map entry is rewritten, the sensor is the target's, and the IX that of its cluster. -/
def State.moveCore (s : State) (c target : Nat) : State :=
  ({ s with package := { s.package with
      coreMap := mapPut s.package.coreMap c target, crossed := s.package.crossed.filter (· != c) } } : State).seatSubs.goOn c
/-- A core's own entry of the core map removed: it lies in its cluster again. -/
def State.unmap (s : State) (c : Nat) : State := { s with package := { s.package with coreMap := mapDel s.package.coreMap c } }
/-- R361, R384: a cluster lies in its spare: its eight cores move together. -/
def State.moveCluster (s : State) (cl q : Nat) : State :=
  let s1 := (coresOf cl).foldl (fun (s : State) c => s.unmap c) s
  let s2 : State := { s1 with package := { s1.package with
    baseMap := mapPut s1.package.baseMap cl q, sparing := mapDel s1.package.sparing cl
    crossed := s1.package.crossed.filter (fun c => clusterOf c != cl) } }
  (coresOf cl).foldl (fun (s : State) c => s.goOn c) s2.seatSubs
/-- A core's context is being saved on its cluster. -/
def State.beingSaved (s : State) (c : Nat) : Bool :=
  match (s.core c).ctx with | some x => (s.context x).saving.contains (clusterOf c) | none => false
/-- R361, step 1: a remap of a core to a target begins, or waits until a pre-emption is over. -/
def State.startRemap (s : State) (c target : Nat) : State :=
  let s1 := if s.beingSaved c then s else s.holdCore c
  s1.setCore c { s1.core c with remapStep := if s.beingSaved c then 4 else 1, remapTarget := some target }
/-- R361, R384: the place of a core in the spare to which its cluster is remapped as a whole. -/
def State.spareTarget (s : State) (c : Nat) : Option Nat := (mapGet s.package.sparing (clusterOf c)).map (fun q => 8 * q + c % 8)
/-- R361: the steps of a remap, one condition a step: 4 the request waits for a pre-emption, 1 the threads are saved, 2 strips of the block
are recalled, 3 the interface holds the requests that it accepts; then the record moves, once no fill or pass round is in progress. The
cores of a cluster that is spared take the last step together, and their strips stay among them. -/
def State.thermal (s : State) (c : Nat) : State :=
  if !s.namesCore c then s
  else match (s.core c).remapStep, s.spareTarget c with
    | 0, some p => s.startRemap c p
    | 0, none =>
      if !s.package.crossed.contains c then s
      else
        let s1 : State := { s with package := { s.package with crossed := s.package.crossed.filter (· != c) } }
        (match s1.coolest (dieOf c) with | some p => s1.startRemap c p | none => s1)
    | 4, _ => if s.beingSaved c then s else (s.holdCore c).setCore c (((s.holdCore c).core c).remapTo 1)
    | 1, q =>
      let s1 := s.holdCore c
      if !(s1.core c).allSaved then s1
      else
        let s2 := s1.setCore c ((s1.core c).remapTo 2)
        if q.isSome then s2 else s2.leaveBlock c
    | 2, q =>
      let s1 := s.holdCore c
      if !(s1.core c).allSaved ∨ (q.isNone ∧ s1.blockHeld c) then s1 else s1.setCore c ((s1.core c).remapTo 3)
    | _, q =>
      let s1 := s.holdCore c
      match mapGet s1.package.sparing (clusterOf c) with
      | some p => if (coresOf (clusterOf c)).all (fun o => s1.holding o && (s1.core o).quiet) then s1.moveCluster (clusterOf c) p else s1
      | none => if q.isSome || !(s1.core c).quiet then s1 else s1.moveCore c ((s1.core c).remapTarget.getD (s1.pcore c))
/-- R361, R399: a physical core's sensor reads; one that reaches the threshold calls for a remap of the core that it backs. -/
def State.sense (s : State) (p : Nat) (deg : Int) : State :=
  let s1 : State := { s with package := { s.package with sensors := mapPut s.package.sensors p deg } }
  if s.sensor p < s.package.threshold ∧ s.package.threshold ≤ deg then
    { s1 with package := { s1.package with
        crossed := s1.package.crossed ++ (dieCores (p / 1024)).filter (fun c => s.namesCore c && s.pcore c == p) } }
  else s1
/-- R361. -/
def execThermalMigration (core : Nat) (s : State) : Out := .next (s.thermal core)

/-! ### Sparing and containment (R362, R384) -/

/-- R384: the lowest-numbered spare physical cluster of a die. -/
def State.spareOf (s : State) (d : Nat) : Option Nat :=
  let used := (s.backing d ++ s.cores.filterMap (·.2.remapTarget)).map (· / 8) ++ s.package.sparing.map (·.2)
  ((List.range 80).map (128 * d + ·)).find? (fun p => !used.contains p && !s.package.fused.contains p && !s.package.failed.contains p)
/-- R362: the contexts that hold a slot of some cores are contained; a core whose context holds none there keeps its record (log 39). -/
def State.killOn (s : State) (l : List Nat) : State :=
  l.foldl (fun (s : State) c => match (s.core c).ctx with
    | some x => if (s.core c).slots.toList.any (·.isSome) then s.contain x else s
    | none => s) s
/-- R361, R384: firmware decides to spare a cluster that runs: its eight cores are remapped together to the lowest spare of the die. -/
def State.spareCluster (s : State) (cl : Nat) : State :=
  match s.spareOf (cl / 128) with
  | none => s
  | some q =>
    if !s.namesCore (8 * cl) ∨ (mapGet s.package.sparing cl).isSome then s
    else { s with package := { s.package with sparing := mapPut s.package.sparing cl q } }
/-- R399: a core that had been remapped into a cluster that has failed lies in its own cluster again, or, if another core has its place
there, in the coolest free one (log 65). -/
def State.rehome (s : State) (c : Nat) : State :=
  let s1 := s.unmap c
  if (dieCores (dieOf c)).any (fun o => o != c && s1.namesCore o && s1.pcore o == s1.pcore c) then
    match s1.coolest (dieOf c) with
    | some p => { s1 with package := { s1.package with coreMap := mapPut s1.package.coreMap c p } }
    | none => s1
  else s1
/-- R361, R384: a core of a spared cluster: one that another physical cluster holds is remapped to its place in the spare in the steps of
R361, its threads saved at their group boundaries; the others lie there at once. -/
def State.spareCore (s : State) (p q c : Nat) : State :=
  let k := s.core c
  if s.pcore c / 8 = p ∨ k.ctx.isNone then s.unmap c
  else
    if k.remapStep ≠ 0 then s.setCore c { k with remapTarget := some (8 * q + c % 8) } else s.startRemap c (8 * q + c % 8)
/-- R20, R362, R384: the physical cluster behind a logical one fails: the contexts that hold a core there are killed, its leaf leaves
the live-uplink masks, and the logical cluster is spared or, where no spare is left, retired (log 65). -/
def State.clusterFails (s : State) (cl : Nat) : State :=
  let p := s.pcluster cl
  let hit := (dieCores (cl / 128)).filter (fun c => s.namesCore c && s.pcore c / 8 == p)
  let s1 := s.killOn hit
  let s2 : State := { s1 with package := { s1.package with
    failed := s1.package.failed ++ [p], deadLeaves := s1.package.deadLeaves ++ [leafName (p / 128) (clusterLeaf (p % 128))]
    sparing := mapDel s1.package.sparing cl } }
  let s3 := (hit.filter (fun c => clusterOf c != cl)).foldl (fun (s : State) c => s.rehome c)
    (s2.setCluster cl { s2.cluster cl with failedPolls := 0 })
  match s3.spareOf (cl / 128) with
  | some q =>
    let s4 := (coresOf cl).foldl (fun (s : State) c => s.spareCore p q c) s3
    ({ s4 with package := { s4.package with baseMap := mapPut s4.package.baseMap cl q } } : State).seatSubs
  | none =>
    let s4 := (coresOf cl).foldl (fun (s : State) c => s.unmap c) (s3.killOn (coresOf cl))
    ({ s4 with package := { s4.package with retired := s4.package.retired ++ [cl] } } : State).seatSubs
/-- R384: the last poll of a CLC is less than 2²⁰ cycles old. -/
def Cluster.polledLately (k : Cluster) (now : Nat) : Bool := match k.polledAt with | some n => decide (now < n + 2 ^ 20) | none => false
/-- R384: a poll of a CLC, 2²⁰ cycles after the one before it; two failed polls in a row are a failure. -/
def State.poll (s : State) (cl : Nat) (ok : Bool) : State :=
  let k := s.cluster cl
  let k1 := { k with polledAt := some s.cycle }
  if cl ≥ 512 ∨ cl % 128 ≥ enabled s.package ∨ s.package.retired.contains cl ∨ k.polledLately s.cycle then s
  else if ok then s.setCluster cl { k1 with failedPolls := 0 }
  else if k.failedPolls = 0 then s.setCluster cl { k1 with failedPolls := 1 }
  else (s.setCluster cl k1).clusterFails cl
/-- R384. -/
def execClcPoll (cluster : Nat) (ok : Bool) (s : State) : Out := .next (s.poll cluster ok)

/-- R20, R362: a lost request that was not acknowledged within 65,536 cycles is sent again by its source interface; one whose destination
has failed is not: its issuer's context is contained (log 74). -/
def execRequestResend (msg : Nat) (s : State) : Out :=
  match s.msgs[msg]? with
  | some m =>
    if !m.lost ∨ s.cycle < m.since + 65536 then .next s
    else if s.package.deadLeaves.contains m.dstLeaf then .next (({ s with msgs := listDel s.msgs msg } : State).contain m.ctx)
    else .next { s with msgs := listSet s.msgs msg { m with lost := false, since := s.cycle } }
  | none => .next s
/-- R362. -/
def execContainment (ctx _cause : Nat) (s : State) : Out := .next (s.contain ctx)

/-- R354: the contexts that an owner tag names. -/
def State.ownerOf (s : State) (otag : Nat) : Option Nat :=
  (s.contexts.find? (fun p => p.2.otag.toNat == otag && p.2.st != .killed && p.2.st != .destroyed)).map (·.1)
/-- R354: the owner of the word at a local address, or of a line of device memory. -/
def State.owner (s : State) (local_ : Bool) (addr : Nat) : Option Nat :=
  if local_ then (s.core (addr / 2 ^ 18)).ctx
  else match mapGet s.lineTags (addr / 64) with | some o => s.ownerOf o.1 | none => none
/-- R362: the context that owns a poisoned line is contained when a read meets it. -/
def State.eccLine (s : State) (line : Nat) : State :=
  match s.owner false (line * 64) with | some x => s.contain x | none => s
/-- R354, R362, R397: an ECC error that the scrubber finds: corrected and logged, or poisoned and contained. -/
def State.scrub (s : State) (local_ : Bool) (addr : Nat) (correctable : Bool) : State :=
  match s.owner local_ addr with
  | none => if correctable ∨ local_ then s else { s with poison := addr / 64 :: s.poison.filter (· != addr / 64) }
  | some x =>
    if correctable then
      let ent := if local_ then s.slotEntity (addr / 2 ^ 18) 0 else s.entity (((mapGet s.lineTags (addr / 64)).map (·.2)).getD 0) 9 0 0
      s.appendIf x none (recordHead 5 0 s.time) ent (BitVec.ofNat 64 addr) 0
    else
      let s1 := if local_ then s else { s with poison := addr / 64 :: s.poison.filter (· != addr / 64) }
      s1.contain x
/-- R354. -/
def execScrub (local_ : Bool) (addr : Nat) (correctable : Bool) (s : State) : Out := .next (s.scrub local_ addr correctable)

end Sys2Proof.Machine
end

