-- ==== Sys2Proof/Machine/Firmware.lean ====
section
/-! DEFINITION. Boot and measurement (R375 to R377), Bobbin's requests (R379), live replacement (R382), the ends of contexts and
queues (R268, R357). -/

namespace Sys2Proof.Machine

/-- A request's status, on the host interface. -/
def State.answer (s : State) (code : Nat) (ok : Bool) : State :=
  { s with package := { s.package with hostOut := s.package.hostOut ++ [.status code ok] } }
/-- R379, R398: a request comes: it is logged in logging mode, and fails while no Bobbin runs. -/
def State.request (s : State) (code : Nat) (ok : State → Bool) (f : State → State) : State :=
  let s1 := s.logged 2 0 [BitVec.ofNat 8 code]
  if s1.package.running && ok s1 then (f s1).answer code true else s1.answer code false

/-! ### Boot (R375, R376) -/

/-- R375: an extend of MEAS. -/
def State.extend (s : State) (digest : List Byte) : State :=
  { s with package := { s.package with
      meas := Config.sha384 (s.package.meas ++ digest), extends_ := s.package.extends_ + 1 } }
/-- R375, R9: the package as reset leaves it before the ROM's steps. What is outside the ROM's reach stays: the part, device
memory, the sensors, the clock's oscillator, the links, and the model's own counters. -/
def State.atReset (s : State) (seed : BitVec 256) : State :=
  let p := s.package
  { State.reset with
    package := { form := p.form, partMap := p.partMap, baseMap := p.partMap, fused := p.fused, sensors := p.sensors, threshold := p.threshold, deadLeaves := fusedLeaves p.fused, pkg := p.pkg,
                 domain := p.domain, linkup := p.linkup, linkLost := p.linkLost, time := { acc := p.time.acc },
                 logging := p.logging, replay := p.replay, hostOut := p.hostOut, linkOut := p.linkOut,
                 areaBase := p.areaBase, lendBase := p.lendBase, bootSeed := seed }
    cycle := s.cycle
    agenda := s.agenda
    free := s.free
    nextUid := s.nextUid
    nextId := s.nextId
    mem := s.mem
    rmem := s.rmem
    poison := s.poison
    lineTags := s.lineTags
    replayLog := s.replayLog }
/-- R375, R382, log 11: an image is loaded into reserved memory, at the next address that is free there. -/
def State.loadImage (s : State) (image : List Byte) : State :=
  let s1 := s.firmPut s.package.imageNext image
  { s1 with package := { s1.package with imageNext := s1.package.imageNext + (image.length + 63) / 64 * 64 } }
/-- R398: the seed that the boot draws: the entropy source's, or, in replay mode, the log's. -/
def State.drawn (s : State) (seed : BitVec 256) : BitVec 256 :=
  if s.package.replay = some true then
    (s.replayLog.findSome? (fun e => match e.what with | .draw v => some v | _ => none)).getD seed
  else seed
/-- R375, R398: the boot ROM. The version that the image carries is a free value (log 5). -/
def State.boot (s : State) (draw : BitVec 256) (image sig : List Byte) : State :=
  let seed := s.drawn draw
  let at_ := ({} : Package).imageNext
  let s1 := ((s.atReset seed).logged 1 0 (leBytes seed.toNat 32)).loadImage image
  let digest := Config.sha384 image
  if s1.package.replay = some false then s1
  else if Config.vendorVerify digest sig then
    let r := (s1.logged 0 0 digest).freeWord
    let s2 := r.1.extend digest
    { s2 with package := { s2.package with running := true, sysCores := [(0, at_)], version := r.2.truncate 32 } }
  else { s1 with package := { s1.package with hostOut := s1.package.hostOut ++ [.bootFailed] } }
/-- R375. -/
def execReset (seed : BitVec 256) (image sig : List Byte) (s : State) : Out := .next (s.boot seed image sig)

/-! ### Partitions and contexts (R355, R357, R379, R383) -/

/-- No two are equal. -/
def distinct : List Nat → Bool
  | [] => true
  | a :: r => !r.contains a && distinct r
/-- R355, R383: what a new partition asks for is free. -/
def State.partitionFree (s : State) (p : Nat) (slices heads encoders : List Nat) : Bool :=
  decide (p < 16) && (mapGet s.partitions p).isNone && decide (1 ≤ slices.length) && decide (slices.length ≤ 32) &&
  distinct slices && distinct heads && distinct encoders && slices.all (fun q => decide (q < 32)) &&
  s.partitions.all (fun r => slices.all (fun q => !r.2.slices.contains q) && heads.all (fun q => !r.2.heads.contains q) &&
    encoders.all (fun q => !r.2.encoders.contains q))
/-- R376, R379. -/
def State.addPartition (s : State) (p : Nat) (slices heads encoders : List Nat) (image : List Byte) : State :=
  let digest := Config.sha384 image
  let s1 := s.extend digest
  { s1 with partitions := mapPut s1.partitions p { slices := slices, heads := heads, encoders := encoders, digest := digest } }
/-- R379: request 1. -/
def execCreatePartition (p : Nat) (slices heads encoders : List Nat) (image : List Byte) (s : State) : Out :=
  .next (s.request 1 (fun s => s.partitionFree p slices heads encoders) (fun s => s.addPartition p slices heads encoders image))

/-- R379: the contexts of a partition. -/
def State.contextsOf (s : State) (p : Nat) : List Nat := (s.contexts.filter (fun c => c.2.partition == p)).map (·.1)
/-- R354, R379: the lines that some owner tags own read zero, belong to nobody, and are poisoned no more. -/
def State.clearLines (s : State) (tags : List Nat) : State :=
  let gone := (s.lineTags.filter (fun t => tags.contains t.2.1)).map (·.1)
  { s with
    mem := s.mem.filter (fun b => !gone.contains (b.1 / 64))
    lineTags := s.lineTags.filter (fun t => !tags.contains t.2.1)
    poison := s.poison.filter (fun l => !gone.contains l) }
/-- R355: a range of device memory, of whole lines, is in no partition's share. -/
def State.shareFree (s : State) (lo hi : Nat) : Bool :=
  decide (lo < hi ∧ hi ≤ 2 ^ 41 ∧ lo % 64 = 0 ∧ hi % 64 = 0) &&
  s.partitions.all (fun q => q.2.share.all (fun r => decide (hi ≤ r.1 ∨ r.2 ≤ lo)))
/-- R355, R379: Bobbin gives a partition a range of device memory (log 78). -/
def State.giveShare (s : State) (p lo hi : Nat) : State :=
  match mapGet s.partitions p with
  | some q => if s.shareFree lo hi then { s with partitions := mapPut s.partitions p { q with share := q.share ++ [(lo, hi)] } } else s
  | none => s
/-- R354, R379: a partition's share of memory reads zero, whoever wrote it, belongs to nobody, and is poisoned no more. -/
def State.clearShare (s : State) (share : List (Nat × Nat)) : State :=
  let mine (a : Nat) : Bool := share.any (fun r => decide (r.1 ≤ a ∧ a < r.2))
  { s with
    mem := s.mem.filter (fun b => !mine b.1)
    lineTags := s.lineTags.filter (fun t => !mine (64 * t.1))
    poison := s.poison.filter (fun l => !mine (64 * l)) }
/-- R379: every context is killed, then the resources are free and the memory is clear. -/
def State.endPartition (s : State) (p : Nat) : State :=
  let xs := s.contextsOf p
  let s1 := xs.foldl (fun (s : State) x => s.kill x) s
  let s2 := (s1.clearLines (xs.map (fun x => (s1.context x).otag.toNat))).clearShare (((mapGet s1.partitions p).map (·.share)).getD [])
  { s2 with partitions := mapDel s2.partitions p }
/-- R379: request 2. -/
def execDestroyPartition (p : Nat) (s : State) : Out :=
  .next (s.request 2 (fun s => (mapGet s.partitions p).isSome) (fun s => s.endPartition p))

/-- R357, R379: a context with its page-table root, under the next number, which is its owner tag too (log 11). -/
def State.addContext (s : State) (p root : Nat) : State :=
  { s with
    nextId := s.nextId + 1
    contexts := mapPut s.contexts s.nextId { partition := p, root := root, otag := BitVec.ofNat 13 s.nextId } }
/-- R379: request 3. -/
def execCreateContext (p root : Nat) (s : State) : Out :=
  .next (s.request 3 (fun s => (mapGet s.partitions p).isSome && decide (root % 4096 = 0)) (fun s => s.addContext p root))
/-- R357, R379: request 7: the owner asks Bobbin to kill a context. -/
def execKillContext (ctx : Nat) (s : State) : Out :=
  .next (s.request 7 (fun s => (s.context ctx).st == .active || (s.context ctx).st == .preempted) (fun s => s.kill ctx))
/-- R357: a Created or Killed context is destroyed; its queues are too. -/
def State.destroyCtx (s : State) (x : Nat) : State :=
  let y := s.context x
  if (mapGet s.contexts x).isNone ∨ (y.st ≠ .created ∧ y.st ≠ .killed) then s
  else { s.setContext x { y with st := .destroyed } with
    queues := s.queues.map (fun p => if p.2.ctx = x then (p.1, { p.2 with st := .destroyed, started := [] }) else p) }
/-- R357. -/
def execDestroyContext (ctx : Nat) (s : State) : Out := .next (s.destroyCtx ctx)

/-! ### Queues (R266, R268, R273, R379) -/

/-- R266: a ring size: a power of two from 16 to 65,536. -/
def ringSize (n : Nat) : Bool := decide (16 ≤ n ∧ n ≤ 65536 ∧ n = 2 ^ Nat.log2 n)
/-- R266, R379: a queue under the next number; RI starts at 0. -/
def State.addQueue (s : State) (x ring size ri : Nat) (runtime : Bool) : State :=
  let s1 : State := { s with
    nextId := s.nextId + 1
    queues := mapPut s.queues s.nextId { ctx := x, ring := ring, size := size, riDva := ri, runtime := runtime } }
  s1.agentWrite x ri 8 0
/-- R379: request 4. -/
def execCreateQueue (ctx ring size ri : Nat) (runtime : Bool) (s : State) : Out :=
  .next (s.request 4
    (fun s => (mapGet s.contexts ctx).isSome && (s.context ctx).st != .killed && (s.context ctx).st != .destroyed &&
      decide (ring % 4096 = 0) && ringSize size && decide (ri % 8 = 0))
    (fun s => s.addQueue ctx ring size ri runtime))
/-- The state of a queue; one that does not exist is destroyed. -/
def State.queueState (s : State) (q : Nat) : QueueState := ((mapGet s.queues q).map (·.st)).getD .destroyed
/-- The state of a queue changed. -/
def State.setQueueState (s : State) (q : Nat) (st : QueueState) : State :=
  match mapGet s.queues q with | some k => s.setQueue q { k with st := st } | none => s
/-- R268, R379: request 5: Stopped to Active. -/
def execResumeQueue (q : Nat) (s : State) : Out :=
  .next (s.request 5 (fun s => s.queueState q == .stopped) (fun s => s.setQueueState q .active))
/-- R273, R379: request 6. -/
def execResetQueue (q : Nat) (s : State) : Out :=
  .next (s.request 6 (fun s => s.queueState q == .active || s.queueState q == .stopped) (fun s => s.queueReset q))
/-- R268. -/
def execDestroyQueue (q : Nat) (s : State) : Out := .next (s.setQueueState q .destroyed)

/-! ### The quote and live replacement (R377, R379, R382) -/

/-- R377: bytes 0 to 143 of a quote. -/
def State.quoteBody (s : State) (p : Nat) (nonce : BitVec 256) : List Byte :=
  let k := s.package
  k.meas ++ leBytes k.extends_ 4 ++ leBytes (k.pkg.toNat + k.domain.toNat * 2 ^ 18) 4 ++ leBytes nonce.toNat 32 ++
  leBytes k.version.toNat 4 ++ leBytes p 4 ++ ((mapGet s.partitions p).map (·.digest)).getD []
/-- R377: a quote, on the host interface. -/
def State.sendQuote (s : State) (p : Nat) (nonce : BitVec 256) : State :=
  let b := s.quoteBody p nonce
  { s with package := { s.package with
      hostOut := s.package.hostOut ++ [.quote (b ++ Config.deviceSign (Config.sha384 b))] } }
/-- R379: request 8. -/
def execQuote (p : Nat) (nonce : BitVec 256) (s : State) : Out :=
  .next (s.request 8 (fun s => (mapGet s.partitions p).isSome) (fun s => s.sendQuote p nonce))

/-- R382: an entry of the preserved-state table. -/
def tableEntry (type tag pa len : Nat) : List Byte := leBytes type 2 ++ leBytes tag 2 ++ leBytes 0 4 ++ leBytes pa 8 ++ leBytes len 16
/-- R103, R241, R382: the chunks of a core's spill ring and deque. -/
def chunkEntries (tag : Nat) (k : CoreState) : List (List Byte) := (k.spillChunks ++ k.dequeChunks).map (fun a => tableEntry 4 tag a 65536)
/-- R346, R382: the lending areas of a core's slots, in a context with an upcall. -/
def State.lendEntries (s : State) (x : Nat) (c : Nat) : List (List Byte) :=
  if s.kernels.any (fun q => q.ctx == x && q.desc.upcall != 0) then
    slotNumbers.filterMap (fun i => match s.agentXlat x (s.lendArea c i) false false with
      | .ok _ _ h => some (tableEntry 4 (s.context x).otag.toNat h.addr 512)
      | _ => none)
  else []
/-- R382: a context's spill and lending areas, those of its saved cores among them. -/
def State.areaEntries (s : State) (x : Nat) : List (List Byte) :=
  let tag := (s.context x).otag.toNat
  (s.cores.filter (fun p => p.2.ctx == some x)).flatMap (fun p => chunkEntries tag p.2 ++ s.lendEntries x p.1) ++
  (s.context x).saved.flatMap (fun p => chunkEntries tag p.2 ++ s.lendEntries x p.1)
/-- R382, log 11: what Bobbin keeps of the connection of a port, in its own memory. -/
def State.portArea (s : State) (port : Nat) : Nat := s.package.areaBase + 512 * 65536 + 2 ^ 24 + 64 * port
/-- R382: the table: page-table roots, command queues (by the physical address of their rings), the connections of the ports that are up, spill
and lending areas, Bobbin's own. -/
def State.preserved (s : State) : List (List Byte) :=
  let live := s.contexts.filter (fun p => p.2.st != .killed && p.2.st != .destroyed)
  live.map (fun p => tableEntry 1 p.2.otag.toNat p.2.root 4096) ++
  (s.queues.filter (fun p => p.2.st != .destroyed)).map (fun p =>
    let pa := match s.agentXlat p.2.ctx p.2.ring false false with | .ok _ _ h => h.addr | _ => 0
    tableEntry 2 (s.context p.2.ctx).otag.toNat pa (64 * p.2.size)) ++
  (((List.range 22).filter (fun p => s.package.linkup.getLsbD p)).map (fun p => tableEntry 3 0 (s.portArea p) 64)) ++
  live.flatMap (fun p => s.areaEntries p.1) ++
  [tableEntry 4 0 s.package.areaBase (512 * 65536)]
/-- R382, log 11: where the table is written: behind the service areas. -/
def State.tableAt (s : State) : Nat := s.package.areaBase + 512 * 65536
/-- R382: the steps of a replacement whose image has been verified; every system core goes on in it. -/
def State.replaceBobbin (s : State) (image : List Byte) (version : BitVec 32) : State :=
  let es := s.preserved
  let at_ := s.package.imageNext
  let s1 := ((s.loadImage image).extend (Config.sha384 image)).firmPut s.tableAt (leBytes es.length 64 ++ es.flatten)
  { s1 with package := { s1.package with version := version, sysCores := (List.range 8).map (fun c => (c, at_)) } }
/-- R379: request 9. -/
def execLiveUpdate (image sig : List Byte) (version : BitVec 32) (s : State) : Out :=
  .next (s.request 9 (fun _ => Config.vendorVerify (Config.sha384 image) sig) (fun s => s.replaceBobbin image version))

end Sys2Proof.Machine
end

