-- ==== Sys2Proof/Machine/Links.lean ====
section
/-! DEFINITION. Links and failed parts of the network (R20, R369, R372), the package time counter (R374, R397), sampling (R391)
and the overflow of a counter (R395, R396). -/

namespace Sys2Proof.Machine

/-! ### Links -/

/-- R372: a flit that fails its CRC is retried on its port: nothing that a program can observe changes. -/
def execFlitRetry (_port : Nat) (s : State) : Out := .next s
/-- R369: a bit of LINKUP. -/
def setLink (l : BitVec 22) (port : Nat) (up : Bool) : BitVec 22 :=
  if port < 18 ∨ port = 20 ∨ port = 21 then (if up then l ||| ((1 : BitVec 22) <<< port) else l &&& ~~~((1 : BitVec 22) <<< port)) else l
/-- R369, R372: a port goes down; the cycle in which the last Logrim link is lost is kept. -/
def State.portGoes (s : State) (port : Nat) (up : Bool) : State :=
  let s1 : State := { s with package := { s.package with linkup := setLink s.package.linkup port up } }
  if s.linked && !s1.linked then { s1 with package := { s1.package with linkLost := s.cycle } } else s1
/-- R372. -/
def execPortDown (port : Nat) (s : State) : Out := .next (s.portGoes port false)
/-- R369. -/
def execPortTrained (port : Nat) (s : State) : Out := .next (s.portGoes port true)

/-- R345: the access code of what an access does. -/
def AccessOp.code : AccessOp → Nat | .load => 0 | .store => 1 | .amo _ => 2
/-- R370, R372: an access in flight raises a fault at its thread, at an instruction that it has not begun. The access itself has not been
performed: it is performed, as those of the thread that a test selects are, after the wake (log 31). A thread that waits for an acquire's value
waits for it again after the wake (R166). -/
def State.farFault (s : State) (a : Access) (kind level : Nat) (also : Access → Bool) : State :=
  match s.locate a.uid with
  | none => s
  | some (c, i) => match s.threadAt c i with
    | none => s
    | some t =>
      if t.fault.isSome ∨ t.stage ≠ 0 ∨ t.mop.isSome ∨ t.fe.isSome ∨ t.hold then s
      else
        let back := match t.st with | .parked (.landing n) => some n | _ => none
        let s1 := (s.leaveQueues c t.uid).takeTrap c i
          { kind := kind, ea := a.ea, dva := BitVec.ofNat 64 a.dva, access := a.op.code, level := level, back := back }
        let s2 : State := { s1 with flight := s1.flight.map (fun b => if b.uid = a.uid ∧ also b then { b with stranded := true } else b) }
        match s2.threadAt c i with
        | some u => if back.isSome then s2.setSlot c i (some { u with latched := t.latched }) else s2
        | none => s2
/-- R372: an access that has waited for a path for 2²⁰ cycles raises LINK_DOWN. -/
def State.linkFault (s : State) (k : Nat) : State :=
  match s.flight[k]? with
  | none => s
  | some a =>
    if !a.remote ∨ a.stranded ∨ s.pathTo a.home ∨ !s.pathLost a.home then s
    else s.farFault a 6 0 (fun b => b.remote && !s.pathTo b.home)
/-- R370: the package of an access's home has refused it: the fault of R343 that its tables give is reported back. -/
def State.farRefusal (s : State) (k kind level : Nat) : State :=
  match s.nextAt k with
  | none => s
  | some a => if !a.remote ∨ kind = 0 ∨ kind > 5 ∨ level > 4 then s else s.farFault a kind level (· == a)
/-- R372. -/
def execLinkDown (k : Nat) (s : State) : Out := .next (s.linkFault k)

/-- R8, R15: a leaf's name is that of a memory slice of a die. -/
def isSlice (leaf : Nat) : Bool := decide (leaf < 4 * 148 ∧ 80 ≤ leaf % 148 ∧ leaf % 148 < 144)
/-- R8, R15, R20: a slice, named by its leaf (148 d + 80 + n for slice n of die d), or a switch fails: it leaves the live-uplink masks. -/
def execSliceOrSwitchFailure (leaf : Nat) (switch : Bool) (s : State) : Out :=
  .next (if !switch && !isSlice leaf then s
    else if switch then { s with package := { s.package with deadSwitches := s.package.deadSwitches ++ [leaf] } }
    else { s with package := { s.package with deadLeaves := s.package.deadLeaves ++ [leaf] } })

/-! ### TIME (R374, R397) -/

/-- R397: a CORRECTION record in every Open session. -/
def State.correction (s : State) (flags : Nat) (offset rate : Int) : State :=
  s.contexts.foldl (fun (r : State) p =>
    r.appendIf p.1 none (recordHead 4 flags s.time) (BitVec.ofInt 64 offset) ((BitVec.ofInt 32 rate).zeroExtend 64) 0) s
/-- R374: the rates with which an offset may be absorbed. -/
def slewOk (offset rate : Int) : Bool :=
  decide (-8388 ≤ rate ∧ rate ≤ 8388) && (if offset < 0 then decide (rate < 0) else decide (rate > 0))
/-- R374: a correction: a step forward of up to 2¹⁶ units, else a slew; what an earlier slew has left to absorb is absorbed with it. -/
def State.correct (s : State) (offset rate : Int) : State :=
  let t := s.package.time
  if offset = 0 then s
  else if 0 < offset ∧ offset ≤ 65536 then
    ({ s with package := { s.package with time := { t with acc := t.acc + offset.toNat * 2 ^ 24 } } } : State).correction 1 offset 0
  else if slewOk (t.slew + offset * 2 ^ 24) rate then
    ({ s with package := { s.package with time := { t with rate := rate, slew := t.slew + offset * 2 ^ 24 } } } : State).correction 0 offset rate
  else s
/-- R374, R398. -/
def execTimeCorrection (offset rate : Int) (s : State) : Out :=
  .next ((s.logged 3 0 (leBytes (BitVec.ofInt 64 offset).toNat 8 ++ leBytes (BitVec.ofInt 32 rate).toNat 4)).correct offset rate)
/-- R374: the clock's advance by one cycle: 4 units, and the slew's share. -/
def TimeCounter.tick (t : TimeCounter) : TimeCounter :=
  let d : Int := if t.slew = 0 then 0
    else if t.rate < 0 then (if t.slew < 4 * t.rate then 4 * t.rate else t.slew)
    else (if t.slew > 4 * t.rate then 4 * t.rate else t.slew)
  { t with acc := ((t.acc : Int) + 4 * 2 ^ 24 + d).toNat, slew := t.slew - d }
/-- R374: the offset is absorbed: the nominal rate again. -/
def State.absorbed (s : State) : State :=
  let t := s.package.time
  if t.slew = 0 ∧ t.rate ≠ 0 then
    ({ s with package := { s.package with time := { t with rate := 0 } } } : State).correction 0 0 0
  else s
/-- R374. -/
def execOffsetAbsorbed (s : State) : Out := .next s.absorbed

/-! ### Samples (R391) -/

/-- R391: the entries of a core's threads after the line of the last full PC of the record. -/
def sampleSlots (x : Nat) : List (Option Thread) → Option Nat → List Byte × Option Nat
  | [], last => ([], last)
  | none :: r, last => sampleSlots x r last
  | some t :: r, last =>
    if t.ctx ≠ x then sampleSlots x r last
    else
      let line := t.pc.toNat / 64
      let same := last = some line
      let b := if same then [BitVec.ofNat 8 (t.st.code + 4), BitVec.ofNat 8 (t.pc.toNat % 64)]
        else BitVec.ofNat 8 t.st.code :: leBytes t.pc.toNat 8
      let q := sampleSlots x r (some line)
      (b ++ q.1, q.2)
/-- R391: the mask of a core. -/
def sampleMask (x : Nat) (k : CoreState) : Nat :=
  slotNumbers.foldl (fun m (i : Fin 16) => match k.slots[i] with
    | some t => if t.ctx = x then m + 2 ^ i.val else m
    | none => m) 0
/-- R391: the body of a die's record, before its padding. -/
def State.sampleBody (s : State) (x : Nat) : List Nat → Option Nat → List Byte
  | [], _ => []
  | c :: r, last =>
    let k := s.core c
    if k.ctx ≠ some x then [0, 0] ++ s.sampleBody x r last
    else
      let q := sampleSlots x k.slots.toList last
      leBytes (sampleMask x k) 2 ++ q.1 ++ s.sampleBody x r q.2
/-- R388, R391: a die's SAMPLE record. -/
def State.sampleDie (s : State) (x d n : Nat) : State :=
  let b := s.sampleBody x ((List.range (8 * enabled s.package)).map (1024 * d + ·)) none
  let units := (b.length + 31) / 32
  (s.append x ([recordHead 3 0 s.time, BitVec.ofNat 64 ((s.entity d 9 0 0).toNat + units * 2 ^ 40), BitVec.ofNat 64 n, 0] ++
    toWords (4 * units) b) false).1
/-- R391: a sampling pulse, when it is due. -/
def State.sample (s : State) (x : Nat) : State :=
  match (s.context x).session with
  | none => s
  | some ss =>
    if !ss.src.getLsbD 1 ∨ ss.per = 0 ∨ s.cycle < ss.start + (ss.samples + 1) * 2 ^ ss.per then s
    else
      let s1 := ([0, 1, 2, 3] : List Nat).foldl (fun (s : State) d => s.sampleDie x d ss.samples) s
      s1.setContext x { s1.context x with session := (s1.context x).session.map (fun q => { q with samples := q.samples + 1 }) }
/-- R391. -/
def execSamplingPulse (ctx : Nat) (s : State) : Out := .next (s.sample ctx)

/-! ### Counters (R395, R396) -/

/-- R395, R396: a counter that what this cycle has brought makes overflow does so in this cycle. -/
def State.overflow (s : State) (c : Nat) (n : Fin 4) : State :=
  let mine (o : Nat × Fin 4 × BitVec 8 × Nat) : Bool := o.1 == c && o.2.1 == n
  let due := ((s.owed.filter mine).map (·.2.2.2)).sum
  match (s.owed.filter mine).head? with
  | some o =>
    if bits ((s.core c).pmc[n]) 47 0 + due ≥ 2 ^ 48 then
      ({ s with owed := s.owed.filter (fun o => !mine o) } : State).bump c n o.2.2.1 due
    else s
  | none => s
/-- R395. -/
def execPmcOverflow (core n : Nat) (s : State) : Out := .next (s.overflow core (Fin.ofNat 4 n))

end Sys2Proof.Machine
end

