-- ==== Sys2Proof/Machine/Dispatch.lean ====
section
/-! DEFINITION. The meaning of each instruction and of each step of hardware: one call per constructor. -/

namespace Sys2Proof.Machine

def exec (i : Instr) (s : State) : Host.Outcome State Fault Refusal :=
  match i with
  | .nop => Sys2Proof.Machine.execNop s
  | .add d a b => Sys2Proof.Machine.execAdd d a b s
  | .sub d a b => Sys2Proof.Machine.execSub d a b s
  | .mul d a b => Sys2Proof.Machine.execMul d a b s
  | .mulh d a b => Sys2Proof.Machine.execMulh d a b s
  | .mulhu d a b => Sys2Proof.Machine.execMulhu d a b s
  | .div d a b => Sys2Proof.Machine.execDiv d a b s
  | .divu d a b => Sys2Proof.Machine.execDivu d a b s
  | .rem d a b => Sys2Proof.Machine.execRem d a b s
  | .remu d a b => Sys2Proof.Machine.execRemu d a b s
  | .andR d a b => Sys2Proof.Machine.execAndR d a b s
  | .orR d a b => Sys2Proof.Machine.execOrR d a b s
  | .xorR d a b => Sys2Proof.Machine.execXorR d a b s
  | .sll d a b => Sys2Proof.Machine.execSll d a b s
  | .srl d a b => Sys2Proof.Machine.execSrl d a b s
  | .sra d a b => Sys2Proof.Machine.execSra d a b s
  | .slt d a b => Sys2Proof.Machine.execSlt d a b s
  | .sltu d a b => Sys2Proof.Machine.execSltu d a b s
  | .minR d a b => Sys2Proof.Machine.execMinR d a b s
  | .maxR d a b => Sys2Proof.Machine.execMaxR d a b s
  | .minu d a b => Sys2Proof.Machine.execMinu d a b s
  | .maxu d a b => Sys2Proof.Machine.execMaxu d a b s
  | .clz d a => Sys2Proof.Machine.execClz d a s
  | .ctz d a => Sys2Proof.Machine.execCtz d a s
  | .popc d a => Sys2Proof.Machine.execPopc d a s
  | .mov d a => Sys2Proof.Machine.execMov d a s
  | .addi d a imm => Sys2Proof.Machine.execAddi d a imm s
  | .andi d a imm => Sys2Proof.Machine.execAndi d a imm s
  | .ori d a imm => Sys2Proof.Machine.execOri d a imm s
  | .xori d a imm => Sys2Proof.Machine.execXori d a imm s
  | .slti d a imm => Sys2Proof.Machine.execSlti d a imm s
  | .slli d a sh => Sys2Proof.Machine.execSlli d a sh s
  | .srli d a sh => Sys2Proof.Machine.execSrli d a sh s
  | .srai d a sh => Sys2Proof.Machine.execSrai d a sh s
  | .li d imm => Sys2Proof.Machine.execLi d imm s
  | .liL d imm => Sys2Proof.Machine.execLiL d imm s
  | .sel d a b c => Sys2Proof.Machine.execSel d a b c s
  | .ext d a pos len1 => Sys2Proof.Machine.execExt d a pos len1 s
  | .ins d a b pos len1 => Sys2Proof.Machine.execIns d a b pos len1 s
  | .beq a b idx off => Sys2Proof.Machine.execBeq a b idx off s
  | .bne a b idx off => Sys2Proof.Machine.execBne a b idx off s
  | .blt a b idx off => Sys2Proof.Machine.execBlt a b idx off s
  | .bge a b idx off => Sys2Proof.Machine.execBge a b idx off s
  | .bltu a b idx off => Sys2Proof.Machine.execBltu a b idx off s
  | .bgeu a b idx off => Sys2Proof.Machine.execBgeu a b idx off s
  | .j idx off => Sys2Proof.Machine.execJ idx off s
  | .jal l idx off => Sys2Proof.Machine.execJal l idx off s
  | .jr a => Sys2Proof.Machine.execJr a s
  | .jalr d a => Sys2Proof.Machine.execJalr d a s
  | .fadd f d a b => Sys2Proof.Machine.execFadd f d a b s
  | .fsub f d a b => Sys2Proof.Machine.execFsub f d a b s
  | .fmul f d a b => Sys2Proof.Machine.execFmul f d a b s
  | .fdiv f d a b => Sys2Proof.Machine.execFdiv f d a b s
  | .fsqrt f d a => Sys2Proof.Machine.execFsqrt f d a s
  | .fmin f d a b => Sys2Proof.Machine.execFmin f d a b s
  | .fmax f d a b => Sys2Proof.Machine.execFmax f d a b s
  | .fcmp pred f d a b => Sys2Proof.Machine.execFcmp pred f d a b s
  | .fclass f d a => Sys2Proof.Machine.execFclass f d a s
  | .fsgn op f d a b => Sys2Proof.Machine.execFsgn op f d a b s
  | .ffma f d a b c => Sys2Proof.Machine.execFfma f d a b c s
  | .fcvt x d a => Sys2Proof.Machine.execFcvt x d a s
  | .ld size d a os off => Sys2Proof.Machine.execLd size d a os off s
  | .st size os a b off => Sys2Proof.Machine.execSt size os a b off s
  | .ldfe size d a os off => Sys2Proof.Machine.execLdfe size d a os off s
  | .stfe os a b off => Sys2Proof.Machine.execStfe os a b off s
  | .ldff size d a os off => Sys2Proof.Machine.execLdff size d a os off s
  | .feset st a off => Sys2Proof.Machine.execFeset st a off s
  | .amoAdd size d a b os => Sys2Proof.Machine.execAmoAdd size d a b os s
  | .amoAnd size d a b os => Sys2Proof.Machine.execAmoAnd size d a b os s
  | .amoOr size d a b os => Sys2Proof.Machine.execAmoOr size d a b os s
  | .amoXor size d a b os => Sys2Proof.Machine.execAmoXor size d a b os s
  | .amoMin size d a b os => Sys2Proof.Machine.execAmoMin size d a b os s
  | .amoMax size d a b os => Sys2Proof.Machine.execAmoMax size d a b os s
  | .amoMinu size d a b os => Sys2Proof.Machine.execAmoMinu size d a b os s
  | .amoMaxu size d a b os => Sys2Proof.Machine.execAmoMaxu size d a b os s
  | .amoSwap size d a b os => Sys2Proof.Machine.execAmoSwap size d a b os s
  | .amoCas size d a b c os sync => Sys2Proof.Machine.execAmoCas size d a b c os sync s
  | .amoFadd size d a b os => Sys2Proof.Machine.execAmoFadd size d a b os s
  | .fence o scope => Sys2Proof.Machine.execFence o scope s
  | .lea x d a b off => Sys2Proof.Machine.execLea x d a b off s
  | .segq q d a => Sys2Proof.Machine.execSegq q d a s
  | .mig a => Sys2Proof.Machine.execMig a s
  | .tmask x d a imm => Sys2Proof.Machine.execTmask x d a imm s
  | .fork jn a b idx off => Sys2Proof.Machine.execFork jn a b idx off s
  | .join a => Sys2Proof.Machine.execJoin a s
  | .yield => Sys2Proof.Machine.execYield s
  | .halt => Sys2Proof.Machine.execHalt s
  | .resamp d a => Sys2Proof.Machine.execResamp d a s
  | .wset a => Sys2Proof.Machine.execWset a s
  | .barArrive kind d a b => Sys2Proof.Machine.execBarArrive kind d a b s
  | .barWait kind a b => Sys2Proof.Machine.execBarWait kind a b s
  | .barSync kind a b => Sys2Proof.Machine.execBarSync kind a b s
  | .msend any t c v => Sys2Proof.Machine.execMsend any t c v s
  | .mwait own => Sys2Proof.Machine.execMwait own s
  | .mpop own d m => Sys2Proof.Machine.execMpop own d m s
  | .cbwait n d => Sys2Proof.Machine.execCbwait n d s
  | .cbrel n => Sys2Proof.Machine.execCbrel n s
  | .cbput n d a => Sys2Proof.Machine.execCbput n d a s
  | .dwait wait => Sys2Proof.Machine.execDwait wait s
  | .nqput d a b => Sys2Proof.Machine.execNqput d a b s
  | .nqdone a => Sys2Proof.Machine.execNqdone a s
  | .cxsave a => Sys2Proof.Machine.execCxsave a s
  | .cxload a => Sys2Proof.Machine.execCxload a s
  | .stepmark d a => Sys2Proof.Machine.execStepmark d a s
  | .vclaim d a => Sys2Proof.Machine.execVclaim d a s
  | .vrenew d => Sys2Proof.Machine.execVrenew d s
  | .vfree => Sys2Proof.Machine.execVfree s
  | .vlen d => Sys2Proof.Machine.execVlen d s
  | .mmode m => Sys2Proof.Machine.execMmode m s
  | .vld x d a b off => Sys2Proof.Machine.execVld x d a b off s
  | .vst x d a b off => Sys2Proof.Machine.execVst x d a b off s
  | .vldx x d a b off => Sys2Proof.Machine.execVldx x d a b off s
  | .vstx x d a b off => Sys2Proof.Machine.execVstx x d a b off s
  | .vadd x d a b => Sys2Proof.Machine.execVadd x d a b s
  | .vsub x d a b => Sys2Proof.Machine.execVsub x d a b s
  | .vmul x d a b => Sys2Proof.Machine.execVmul x d a b s
  | .vmin x d a b => Sys2Proof.Machine.execVmin x d a b s
  | .vmax x d a b => Sys2Proof.Machine.execVmax x d a b s
  | .vabs x d a => Sys2Proof.Machine.execVabs x d a s
  | .vneg x d a => Sys2Proof.Machine.execVneg x d a s
  | .vand x d a b => Sys2Proof.Machine.execVand x d a b s
  | .vor x d a b => Sys2Proof.Machine.execVor x d a b s
  | .vxor x d a b => Sys2Proof.Machine.execVxor x d a b s
  | .vshl x d a b => Sys2Proof.Machine.execVshl x d a b s
  | .vshr x d a b => Sys2Proof.Machine.execVshr x d a b s
  | .vsra x d a b => Sys2Proof.Machine.execVsra x d a b s
  | .vfadd x d a b => Sys2Proof.Machine.execVfadd x d a b s
  | .vfsub x d a b => Sys2Proof.Machine.execVfsub x d a b s
  | .vfmul x d a b => Sys2Proof.Machine.execVfmul x d a b s
  | .vffma x d a b c => Sys2Proof.Machine.execVffma x d a b c s
  | .vfmin x d a b => Sys2Proof.Machine.execVfmin x d a b s
  | .vfmax x d a b => Sys2Proof.Machine.execVfmax x d a b s
  | .vfdiv x d a b => Sys2Proof.Machine.execVfdiv x d a b s
  | .vcvt x d a c => Sys2Proof.Machine.execVcvt x d a c s
  | .vcmp cond p a b => Sys2Proof.Machine.execVcmp cond p a b s
  | .vsel k d a b => Sys2Proof.Machine.execVsel k d a b s
  | .vpand d a b => Sys2Proof.Machine.execVpand d a b s
  | .vpor d a b => Sys2Proof.Machine.execVpor d a b s
  | .vpnot d a => Sys2Proof.Machine.execVpnot d a s
  | .vredadd x d a => Sys2Proof.Machine.execVredadd x d a s
  | .vredmin x d a => Sys2Proof.Machine.execVredmin x d a s
  | .vredmax x d a => Sys2Proof.Machine.execVredmax x d a s
  | .vbcast x d a => Sys2Proof.Machine.execVbcast x d a s
  | .vslide x d a b k => Sys2Proof.Machine.execVslide x d a b k s
  | .vperm x d a b => Sys2Proof.Machine.execVperm x d a b s
  | .vexp2 p d a => Sys2Proof.Machine.execVexp2 p d a s
  | .vlog2 p d a => Sys2Proof.Machine.execVlog2 p d a s
  | .vrcp p d a => Sys2Proof.Machine.execVrcp p d a s
  | .vrsq p d a => Sys2Proof.Machine.execVrsq p d a s
  | .vsqrt p d a => Sys2Proof.Machine.execVsqrt p d a s
  | .vsinpi p d a => Sys2Proof.Machine.execVsinpi p d a s
  | .vcospi p d a => Sys2Proof.Machine.execVcospi p d a s
  | .vrtri x d o r t => Sys2Proof.Machine.execVrtri x d o r t s
  | .mop t a sync => Sys2Proof.Machine.execMop t a sync s
  | .bload a b sync => Sys2Proof.Machine.execBload a b sync s
  | .bpass sync => Sys2Proof.Machine.execBpass sync s
  | .bpassDrop sync => Sys2Proof.Machine.execBpassDrop sync s
  | .mzero t => Sys2Proof.Machine.execMzero t s
  | .tbset a b => Sys2Proof.Machine.execTbset a b s
  | .fmtset a => Sys2Proof.Machine.execFmtset a s
  | .sclset a b => Sys2Proof.Machine.execSclset a b s
  | .crpool kind a b l sync => Sys2Proof.Machine.execCrpool kind a b l sync s
  | .crsub x d a b sync => Sys2Proof.Machine.execCrsub x d a b sync s
  | .crunsub x d a b sync => Sys2Proof.Machine.execCrunsub x d a b sync s
  | .crskip a sync => Sys2Proof.Machine.execCrskip a sync s
  | .crpromote a sync => Sys2Proof.Machine.execCrpromote a sync s
  | .crlap d a sync => Sys2Proof.Machine.execCrlap d a sync s
  | .crlapW d a sync => Sys2Proof.Machine.execCrlapW d a sync s
  | .cpy a sync => Sys2Proof.Machine.execCpy a sync s
  | .cpgx a sync => Sys2Proof.Machine.execCpgx a sync s
  | .cpsx a sync => Sys2Proof.Machine.execCpsx a sync s
  | .cpmc a sync => Sys2Proof.Machine.execCpmc a sync s
  | .cpclose => Sys2Proof.Machine.execCpclose s
  | .cpwait n => Sys2Proof.Machine.execCpwait n s
  | .cpinval a => Sys2Proof.Machine.execCpinval a s
  | .cpinvalAll => Sys2Proof.Machine.execCpinvalAll s
  | .publish a scope sync => Sys2Proof.Machine.execPublish a scope sync s
  | .trap d a n => Sys2Proof.Machine.execTrap d a n s
  | .eret => Sys2Proof.Machine.execEret s
  | .wfi => Sys2Proof.Machine.execWfi s
  | .ptsync => Sys2Proof.Machine.execPtsync s
  | .rdsys d num => Sys2Proof.Machine.execRdsys d num s
  | .wrsys num a => Sys2Proof.Machine.execWrsys num a s
  | .wrsysStat a => Sys2Proof.Machine.execWrsysStat a s
  | .wrsysTm a => Sys2Proof.Machine.execWrsysTm a s
  | .wrsysSegment n kd a => Sys2Proof.Machine.execWrsysSegment n kd a s
  | .wrsysWin m a => Sys2Proof.Machine.execWrsysWin m a s
  | .wrsysCb n a => Sys2Proof.Machine.execWrsysCb n a s
  | .wrsysMcbase a => Sys2Proof.Machine.execWrsysMcbase a s
  | .wrsysPmsel n a => Sys2Proof.Machine.execWrsysPmsel n a s
  | .wrsysPmc n a => Sys2Proof.Machine.execWrsysPmc n a s
  | .brk code => Sys2Proof.Machine.execBrk code s
  | .tmark a code => Sys2Proof.Machine.execTmark a code s
  | .tlbinv a => Sys2Proof.Machine.execTlbinv a s
  | .cflush a => Sys2Proof.Machine.execCflush a s
  | .pendingBeat => Sys2Proof.Machine.execPendingBeat s
  | .dbgctlStop core => Sys2Proof.Machine.execDbgctlStop core s
  | .dbgctlResume core => Sys2Proof.Machine.execDbgctlResume core s
  | .lineFetch core slot => Sys2Proof.Machine.execLineFetch core slot s
  | .resultLanding core slot k => Sys2Proof.Machine.execResultLanding core slot k s
  | .acknowledgement msg => Sys2Proof.Machine.execAcknowledgement msg s
  | .negativeAcknowledgement msg => Sys2Proof.Machine.execNegativeAcknowledgement msg s
  | .remoteRequest msg => Sys2Proof.Machine.execRemoteRequest msg s
  | .pageWalk core slot => Sys2Proof.Machine.execPageWalk core slot s
  | .faultRecord core slot => Sys2Proof.Machine.execFaultRecord core slot s
  | .wake core slot ptes => Sys2Proof.Machine.execWake core slot ptes s
  | .faultHoldExpiry core slot => Sys2Proof.Machine.execFaultHoldExpiry core slot s
  | .migrationPack core slot => Sys2Proof.Machine.execMigrationPack core slot s
  | .arrival k => Sys2Proof.Machine.execArrival k s
  | .chunkAllocation core deque ok => Sys2Proof.Machine.execChunkAllocation core deque ok s
  | .slotOffer core => Sys2Proof.Machine.execSlotOffer core s
  | .feRecheckRound core word => Sys2Proof.Machine.execFeRecheckRound core word s
  | .feTimeout core slot => Sys2Proof.Machine.execFeTimeout core slot s
  | .requestResend msg => Sys2Proof.Machine.execRequestResend msg s
  | .mailboxArrival msg => Sys2Proof.Machine.execMailboxArrival msg s
  | .latchQueueStart core => Sys2Proof.Machine.execLatchQueueStart core s
  | .fillComplete core => Sys2Proof.Machine.execFillComplete core s
  | .passRound cluster => Sys2Proof.Machine.execPassRound cluster s
  | .mopComplete core slot => Sys2Proof.Machine.execMopComplete core slot s
  | .resampleComplete grp => Sys2Proof.Machine.execResampleComplete grp s
  | .copyAccept core slot => Sys2Proof.Machine.execCopyAccept core slot s
  | .copyCompletion die eng k => Sys2Proof.Machine.execCopyCompletion die eng k s
  | .publishSwap core slot => Sys2Proof.Machine.execPublishSwap core slot s
  | .writeIndex q wi => Sys2Proof.Machine.execWriteIndex q wi s
  | .nopPacket q => Sys2Proof.Machine.execNopPacket q s
  | .launch q => Sys2Proof.Machine.execLaunch q s
  | .launchReady k => Sys2Proof.Machine.execLaunchReady k s
  | .kernelCompletion k => Sys2Proof.Machine.execKernelCompletion k s
  | .copyPacket q => Sys2Proof.Machine.execCopyPacket q s
  | .signalWait q => Sys2Proof.Machine.execSignalWait q s
  | .signalStore q => Sys2Proof.Machine.execSignalStore q s
  | .signalDecrement q => Sys2Proof.Machine.execSignalDecrement q s
  | .barrierAnd q => Sys2Proof.Machine.execBarrierAnd q s
  | .carouselStart q => Sys2Proof.Machine.execCarouselStart q s
  | .carouselStop q => Sys2Proof.Machine.execCarouselStop q s
  | .carouselReplace q => Sys2Proof.Machine.execCarouselReplace q s
  | .carouselPeriod q => Sys2Proof.Machine.execCarouselPeriod q s
  | .segmentRead die car => Sys2Proof.Machine.execSegmentRead die car s
  | .slotOpen die car => Sys2Proof.Machine.execSlotOpen die car s
  | .delivery die k cluster => Sys2Proof.Machine.execDelivery die k cluster s
  | .primitiveBatch cluster => Sys2Proof.Machine.execPrimitiveBatch cluster s
  | .weightload q => Sys2Proof.Machine.execWeightload q s
  | .shardTimeout load shard => Sys2Proof.Machine.execShardTimeout load shard s
  | .loadBarrierTimeout load => Sys2Proof.Machine.execLoadBarrierTimeout load s
  | .loadBarrier load peers => Sys2Proof.Machine.execLoadBarrier load peers s
  | .weightReplace load => Sys2Proof.Machine.execWeightReplace load s
  | .traceOpen q => Sys2Proof.Machine.execTraceOpen q s
  | .traceClose q => Sys2Proof.Machine.execTraceClose q s
  | .gangAck k pkg => Sys2Proof.Machine.execGangAck k pkg s
  | .gangAbort k pkg => Sys2Proof.Machine.execGangAbort k pkg s
  | .gangTimeout k => Sys2Proof.Machine.execGangTimeout k s
  | .gangDone k pkg => Sys2Proof.Machine.execGangDone k pkg s
  | .gangPhase k pkg phase => Sys2Proof.Machine.execGangPhase k pkg phase s
  | .preEmption ctx cluster => Sys2Proof.Machine.execPreEmption ctx cluster s
  | .graceExpiry core slot => Sys2Proof.Machine.execGraceExpiry core slot s
  | .resume ctx cluster => Sys2Proof.Machine.execResume ctx cluster s
  | .thermalMigration core => Sys2Proof.Machine.execThermalMigration core s
  | .clcPoll cluster ok => Sys2Proof.Machine.execClcPoll cluster ok s
  | .containment ctx cause => Sys2Proof.Machine.execContainment ctx cause s
  | .scrub loc addr correctable => Sys2Proof.Machine.execScrub loc addr correctable s
  | .timeCorrection offset rate => Sys2Proof.Machine.execTimeCorrection offset rate s
  | .samplingPulse ctx => Sys2Proof.Machine.execSamplingPulse ctx s
  | .pmcOverflow core n => Sys2Proof.Machine.execPmcOverflow core n s
  | .flitRetry port => Sys2Proof.Machine.execFlitRetry port s
  | .portDown port => Sys2Proof.Machine.execPortDown port s
  | .linkDown k => Sys2Proof.Machine.execLinkDown k s
  | .reset seed image sig => Sys2Proof.Machine.execReset seed image sig s
  | .createPartition p slices heads encoders image => Sys2Proof.Machine.execCreatePartition p slices heads encoders image s
  | .destroyPartition p => Sys2Proof.Machine.execDestroyPartition p s
  | .createContext p root => Sys2Proof.Machine.execCreateContext p root s
  | .createQueue ctx ring size ri runtime => Sys2Proof.Machine.execCreateQueue ctx ring size ri runtime s
  | .resumeQueue q => Sys2Proof.Machine.execResumeQueue q s
  | .resetQueue q => Sys2Proof.Machine.execResetQueue q s
  | .killContext ctx => Sys2Proof.Machine.execKillContext ctx s
  | .quote p nonce => Sys2Proof.Machine.execQuote p nonce s
  | .liveUpdate image sig version => Sys2Proof.Machine.execLiveUpdate image sig version s
  | .version core slot => Sys2Proof.Machine.execVersion core slot s
  | .gracePeriod core slot => Sys2Proof.Machine.execGracePeriod core slot s
  | .retiredClusters core slot => Sys2Proof.Machine.execRetiredClusters core slot s
  | .memorySliceAccess k => Sys2Proof.Machine.execMemorySliceAccess k s
  | .destroyContext ctx => Sys2Proof.Machine.execDestroyContext ctx s
  | .destroyQueue q => Sys2Proof.Machine.execDestroyQueue q s
  | .portTrained port => Sys2Proof.Machine.execPortTrained port s
  | .offsetAbsorbed => Sys2Proof.Machine.execOffsetAbsorbed s
  | .sliceOrSwitchFailure leaf switch => Sys2Proof.Machine.execSliceOrSwitchFailure leaf switch s
  | .shardArrival load shard bytes => Sys2Proof.Machine.execShardArrival load shard bytes s

end Sys2Proof.Machine
end

