-- ==== Sys2Proof/Machine/Micro.lean ====
section
/-! DEFINITION. The agenda's steps that no row of the opcode table names (log 1): the host's and Bobbin's stores, caches that lose a
line (R67, R137), the part (R1, R9), sensors, Bobbin's records of a context, lost messages (R20), errors met (R354). -/

namespace Sys2Proof.Machine

/-- R9, R11: the base map of a part: logical cluster l of a die is backed by the l-th enabled physical cluster. -/
def partMap (form : OrderingCode) (on : List Nat) : List (Nat × Nat) :=
  ([0, 1, 2, 3] : List Nat).flatMap (fun d =>
    ((List.range 80).filter (fun c => on.contains (128 * d + c))).zipIdx.map (fun p => (128 * d + p.2, 128 * d + p.1)))
  |>.filter (fun p => decide (p.1 % 128 < enabled { form := form }))
/-- R1: every die of a part has the enabled clusters of its ordering code, and none of them is fused off. -/
def partOk (form : OrderingCode) (on fused : List Nat) : Bool :=
  ([0, 1, 2, 3] : List Nat).all (fun d =>
    ((List.range 80).filter (fun c => on.contains (128 * d + c))).length == enabled { form := form }) &&
  on.all (fun c => !fused.contains c)

/-- The step of a micro item. -/
def State.micro (s : State) : Micro → State
  | .copyWord d e k r w => s.copyWord d e k r w
  | .store pa bytes => (s.logged 2 0 bytes).firmPut pa bytes
  | .remoteStore a bytes => { s with rmem := s.rmem.put a bytes }
  | .dropCode cl line => s.setCluster cl { s.cluster cl with icache := (s.cluster cl).icache.filter (fun e => e.2.1 != line) }
  | .dropConst cl line => s.setCluster cl { s.cluster cl with ccache := (s.cluster cl).ccache.filter (fun e => e.1 != line) }
  | .sensor core deg => s.sense core deg
  | .threshold deg => { s with package := { s.package with threshold := deg } }
  | .spare cl => s.spareCluster cl
  | .grace x n => s.setContext x { s.context x with grace := n }
  | .mapRange x lo hi => s.setContext x { s.context x with ranges := (s.context x).ranges ++ [(lo, hi)] }
  | .aperture x i dom base => s.setContext x { s.context x with
      apertures := if i < 2048 ∧ dom < 432 ∧ base % 2 ^ 30 = 0 ∧ base < 2 ^ 41 then (i, dom, base) :: (s.context x).apertures.filter (fun a => a.1 != i)
        else (s.context x).apertures }
  | .number p dom => if dom < 432 ∧ p < 2 ^ 18 then
      { s with package := { s.package with pkg := BitVec.ofNat 18 p, domain := BitVec.ofNat 10 dom } } else s
  | .share p lo hi => s.giveShare p lo hi
  | .refuse k kind level => s.farRefusal k kind level
  | .part form on fused =>
    if s.package.running ∨ !partOk form on fused then s
    else { s with package := { s.package with
      form := form, partMap := partMap form on, baseMap := partMap form on, fused := fused
      deadLeaves := fusedLeaves fused } }
  | .sendLost k => match s.msgs[k]? with
    | some m => if m.held then s else { s with msgs := listSet s.msgs k { m with lost := true } }
    | none => s
  | .path p up =>
    { s with package := { s.package with
      lostPaths := if up then mapDel s.package.lostPaths p else if (mapGet s.package.lostPaths p).isSome then s.package.lostPaths
        else mapPut s.package.lostPaths p s.cycle } }
  | .ecc line => s.eccLine line
  | .mopSteps c i n => s.mopRun c (Fin.ofNat 16 i) n false
  | .gangTag k pkg tag => s.gangTag k pkg tag
  | .logging => if s.package.running then s else { s with package := { s.package with logging := true } }
  | .replay form on fused log =>
    if s.package.running then s
    else { s with
      replayLog := log
      package := { s.package with
        replay := some (decide (form = s.package.form ∧ partMap form on = s.package.partMap ∧ fused = s.package.fused)) } }

end Sys2Proof.Machine
end

