-- ==== Sys2Proof/Machine/Turn.lean ====
section
/-! DEFINITION. A core's turn (R91): re-check rounds (R147), waits that end (R89), fetch (R51, R65, R122), the waits before issue
(R60, R93), the choice of a slot, breakpoints (R393), pending beats (R189, R190), bundles (R61, R62, R69); the order of
the steps of one cycle (log 50), and the default order where the agenda is empty (log 1). -/

namespace Sys2Proof.Machine

/-! ### Before issue -/

/-- R89, R90, R393: the wait of a slot's thread that is resolved, unless the thread is held for a save; in a stopped core, only the
wait of an instruction that has issued is. -/
def State.wakes (s : State) (c : Nat) (t : Thread) : Option Wait :=
  match t.st with
  | .parked w => if !t.hold && (t.latched.isSome || !(s.core c).stopped) && s.resolved c t w then some w else none
  | _ => none
/-- R263: the edge of a blocked wait for dependency slots, recorded as the last of them reads zero (R60, R95): such a wait then blocks
its thread no more. -/
def State.depEdge (s : State) (c : Nat) (i : Fin 16) (t : Thread) : State :=
  match t.blocked with
  | some (.depZero _, since) =>
    let s1 := if since < s.cycle then s.edge c i since t.depTag else s
    match s1.threadAt c i with | some u => s1.setSlot c i (some { u with blocked := none }) | none => s1
  | _ => s
/-- R89: a wait of a slot's thread that is resolved ends. -/
def State.wakeSlot (s : State) (c : Nat) (i : Fin 16) : State :=
  match s.threadAt c i with
  | none => s
  | some t => match s.wakes c t with
    | none => s
    | some w =>
      let s1 := match w with | .depZero _ => s.depEdge c i t | _ => s
      match s1.threadAt c i with | some u => s1.setSlot c i (some { u with st := .running }) | none => s1

/-- R91: a thread that may issue. -/
def Thread.runnable (t : Thread) : Bool := !t.hold && (t.st == .running || t.st == .seeded)
/-- R190, R208: a thread whose turns are for its pending beats alone: one that waits for them, is held for a save, or is Faulted. -/
def Thread.beatsOnly (t : Thread) : Bool :=
  t.beats.isSome && (t.hold || (match t.st with
    | .parked .vector | .parked .migrate | .parked .drained | .faulted => true
    | _ => false))
/-- R91: a thread that its slot may take a turn for. -/
def Thread.eligible (t : Thread) : Bool := t.runnable || t.beatsOnly
/-- R51, R65, R67, R122, R136: a thread without its line looks in the instruction cache of its cluster; a miss parks it. -/
def State.seekLine (s : State) : State :=
  let t := s.th
  let a := t.pc.toNat / 64 * 64
  match checkFetch t (BitVec.ofNat 64 a) with
  | .error k => s.trapAt k (BitVec.ofNat 64 a) 3
  | .ok d => match (s.cluster (clusterOf s.cur)).icache.find? (fun e => e.1 == t.ctx && e.2.1 == d / 64) with
    | some (_, _, l) => s.lineCame s.cur s.slot a d l false
    | none => s.parkBefore .fetch

/-- R61: the bundle that begins at an instruction of a line. -/
inductive Bundle where
  | one | two | illegal
  deriving DecidableEq, Repr

/-- R61: opcodes that may come first in a pair, and second. -/
def firstOp (op : BitVec 8) : Bool := decide (op.toNat ≤ 0x3F ∨ (0x50 ≤ op.toNat ∧ op.toNat ≤ 0x8F))
def vectorOp (op : BitVec 8) : Bool := decide (0xB5 ≤ op.toNat ∧ op.toNat ≤ 0xDA)
/-- R61. -/
def bundleAt (l : Line) (n : Nat) : Bundle :=
  let h := Line.head l n
  let h2 := Line.head l (n + 1)
  if !(headMarks h).p then .one
  else if decide (n < Line.count l) && firstOp (headOp h) && vectorOp (headOp h2) && !(headMarks h2).p then .two else .illegal

/-- R59: the opcodes whose tail ends in a sync tail that is waited for before issue. -/
def syncOp (op : BitVec 8) : Bool :=
  let n := op.toNat
  decide (n = 0x7F ∨ n = 0xDA ∨ (0xE0 ≤ n ∧ n ≤ 0xE2) ∨ (0xE8 ≤ n ∧ n ≤ 0xED) ∨ (0xF0 ≤ n ∧ n ≤ 0xF3) ∨ n = 0xF7)
/-- R219, R221, R285: an instruction whose own checks, which come before the wait for its sync tail, make it trap. -/
def State.trapsFirst (s : State) (c : Nat) (t : Thread) (i : Instr) : Bool :=
  let reg (f : Field) : Word := (⟨t.g, (s.core c).shared⟩ : Sources).reg c f
  match i with
  | .mop _ _ _ => t.mopCheck.isSome
  | .bload a b _ => match s.bloadCheck c t (reg a) (reg b) with | .ok _ => false | .error _ => true
  | .cpy a _ | .cpgx a _ | .cpsx a _ | .cpmc a _ => match s.checkBlock t (reg a) with | .ok _ => false | .error _ => true
  | _ => false
/-- R60: the sync tail of the instruction at an index that it is to wait for, if it has one and is well formed. -/
def State.syncAt (s : State) (c : Nat) (t : Thread) (l : Line) (n : Nat) : Option (BitVec 12) :=
  if syncOp (headOp (Line.head l n)) then
    match Line.decodeAt l n with
    | .ok i => if s.trapsFirst c t i then none else some ((Line.tail l n).truncate 12)
    | .error _ => none
  else none
/-- R176: the scope of a `fence` that is the first member of a pair. -/
def fenceFirst (l : Line) (n : Nat) : Option Nat :=
  match bundleAt l n, Line.decodeAt l n with
  | .two, .ok (.fence _ scope) => some scope.toNat
  | _, _ => none
/-- R60, R91, R93, R176: the wait that a bundle meets before it issues. -/
def State.early (s : State) (t : Thread) (l : Line) (n : Nat) : Option Wait :=
  let two := bundleAt l n == .two
  let tails := (s.syncAt s.cur t l n).toList ++ (if two then (s.syncAt s.cur t l (n + 1)).toList else [])
  if ((headMarks (Line.head l n)).s || (two && (headMarks (Line.head l (n + 1))).s)) && !t.pending.isEmpty then some .results
  else match tails.find? (fun y => !t.depsZero (syncWait y)) with
    | some y => some (.depZero (syncWait y))
    | none => match tails.find? (fun y => syncSe y && t.dep[syncSet y] == 15) with
      | some y => some (.depRoom (syncSet y).val)
      | none => match fenceFirst l n with
        | some scope => if s.releasable s.cur t scope then none else some (.release scope)
        | none => none
/-- R91: a runnable thread fetches its line, and is Parked from the cycle in which a wait before issue is known. -/
def State.readySlot (s : State) (i : Fin 16) : State :=
  let s := { s with slot := i }
  match s.thread with
  | none => s
  | some t =>
    if !t.runnable then s
    else
      let s1 := if t.held.isSome then s else s.seekLine
      let u := s1.th
      if !u.runnable ∨ u.stage ≠ 0 then s1
      else match u.held with
        | none => s1
        | some (_, l) => match s1.early u l (u.pc &&& 63).toNat with
          | some w => s1.parkBefore w
          | none => s1

/-! ### Issue -/

/-- A change applied to a next state. -/
def mapOut (f : State → State) : Out → Out
  | .next s => .next (f s)
  | .fault k => .fault k
  | .refused r => .refused r
/-- A meaning run on a next state. -/
def bindOut (f : State → Out) : Out → Out
  | .next s => f s
  | .fault k => .fault k
  | .refused r => .refused r

/-- The bundle's snapshot dropped. -/
def State.unlatch (s : State) : State := { s with bundle := none }
/-- R62: an instruction alone; one that waited after its issue reads what it read then. -/
def State.issueOne (s : State) (l : Line) (n : Nat) : Out :=
  match Line.decodeAt l n with
  | .error _ => .next (s.trap kIllegal)
  | .ok i => mapOut State.unlatch (exec i { s with bundle := s.th.latched })

/-- R62, R145: after the first member has been replayed, its pair's second member is not run again; the replayed one may still
hold its thread until an acquire's value lands (R166). -/
def State.skipSecond (s : State) (pc : Word) : State :=
  match s.thread with
  | some t => if t.pc = pc + 1 then s.setTh { t.advance with blocked := t.blocked } else s
  | none => s
/-- R62, R166: a first member that acquires holds its thread until its value lands; the second member still reads the registers as
they were before either wrote. -/
def State.keepSources (s : State) (pc : Word) (src : Sources) : State :=
  match s.thread with
  | some u => if u.pc = pc + 1 then s.setTh { u with latched := some src } else s
  | none => s
/-- R145: the thread that waits to migrate, with what its vector member has left behind; a vector member that parks or traps
makes the whole bundle issue again. -/
def State.rejoin (s : State) (u : Thread) (src : Sources) : State :=
  match s.thread with
  | none => s
  | some v => match v.st with
    | .running => s.setTh { v with
        st := u.st, pc := u.pc, stage := u.stage, aux := u.aux, replay := u.replay, latched := u.latched, blocked := u.blocked }
    | .parked _ => s.setTh { v with pc := u.pc, latched := some src }
    | _ => s.setTh { v with pc := u.pc }
/-- R62, R69, R145: a pair: both read before either writes; the second issues once the first has completed or waits to migrate. -/
def State.issueTwo (s : State) (l : Line) (n : Nat) : Out :=
  match Line.decodeAt l n with
  | .error _ => .next (s.trap kIllegal)
  | .ok i => match Line.decodeAt l (n + 1) with
    | .error _ => mapOut State.unlatch (exec i { s with bundle := s.th.latched })
    | .ok j =>
      let t := s.th
      let src := t.latched.getD ⟨t.g, (s.core s.cur).shared⟩
      bindOut (fun s1 =>
        if t.replay.isSome then .next (s1.skipSecond t.pc).unlatch
        else match s1.thread with
          | none => .next s1.unlatch
          | some u =>
            if u.st = .running ∧ u.pc = t.pc + 1 then mapOut State.unlatch (exec j s1)
            else if u.st = .parked .migrate ∧ u.pc = t.pc then
              mapOut (fun s2 => (s2.rejoin u src).unlatch) (exec j (s1.setTh { u with
                st := .running, pc := t.pc + 1, stage := 0, aux := 0, replay := none, latched := none, blocked := none }))
            else .next (s1.keepSources t.pc src).unlatch)
        (exec i { s with bundle := some src })

/-- R393: the breakpoint that names a PC. -/
def breakAt (k : CoreState) (pc : Word) : Option (Fin 4) :=
  ([0, 1, 2, 3] : List (Fin 4)).find? (fun n => (k.bp[n] &&& 63) != 0 && k.bp[n] == pc)

/-- R91: the slot has made its turn in this cycle. -/
def State.mark (s : State) : State :=
  let k := s.core s.cur
  s.setCore s.cur { k with last := s.slot.val, lastIssue := k.lastIssue.set s.slot (some s.cycle) }
/-- R189: a bundle with a vector instruction; `mop` and `mzero` are none (log 71). -/
def bundleVector (l : Line) (n : Nat) : Bool :=
  vectorOp (headOp (Line.head l n)) || (bundleAt l n == .two && vectorOp (headOp (Line.head l (n + 1))))
/-- R61, R69, R91: the bundle of the current slot's thread issues. -/
def State.issueBundle (s : State) (l : Line) (n : Nat) : Out :=
  match bundleAt l n with
  | .illegal => .next (s.trap kIllegal)
  | .one => s.issueOne l n
  | .two => s.issueTwo l n
/-- R189: a pending beat of the current slot's thread. -/
def State.beatTurn (s : State) (t : Thread) : State := (s.mark.setTh t.beat).lendBlocks s.cur s.slot
/-- R213: a turn with a beat of R189 lends blocks; that of an `mzero` does not (log 71). -/
def State.lendIf (s : State) (b : Bool) : State := if b then s.lendBlocks s.cur s.slot else s
/-- R91, R189, R190, R393: the turn of the current slot's thread. -/
def State.turnOf (s : State) (t : Thread) : Out :=
  if !t.eligible then .next s
  else if t.beatsOnly then .next (s.beatTurn t)
  else match t.held with
    | none => .next s
    | some (_, l) =>
      let n := (t.pc &&& 63).toNat
      match (if t.skipBreak then none else breakAt (s.core s.cur) t.pc) with
      | some b => .next ((s.setTh { t with skipBreak := true }).stopCore s.cur s.slot.val (16 + b.val) t.pc 0)
      | none =>
        if t.beats.isSome && bundleVector l n then .next ((s.beatTurn t).count s.cur 4 1)
        else (((s.mark.setTh { t.beat with st := .running }).count s.cur 2 1).lendIf (t.beats.isSome || bundleVector l n)).issueBundle l n

/-- R91: the slot that takes the turn: the lowest above the last one that can, else the lowest. -/
def State.candidate (s : State) (c : Nat) : Option (Fin 16) :=
  let k := s.core c
  let can (i : Fin 16) : Bool := match k.slots[i] with | some t => t.eligible | none => false
  match slotNumbers.find? (fun i => decide (i.val > k.last) && can i) with
  | some i => some i
  | none => slotNumbers.find? can
/-- R91: the slot's previous issue was at least eight cycles ago. -/
def State.spaced (s : State) (c : Nat) (i : Fin 16) : Bool :=
  match (s.core c).lastIssue[i] with | some n => decide (s.cycle ≥ n + 8) | none => true
/-- R89, R91: an instruction that has issued and whose wait is over goes on without another turn, with the operands it read at
issue; a bundle with a vector instruction waits for pending beats (R189). -/
def State.resumeSlot (s : State) (i : Fin 16) : State :=
  let s := { s with slot := i }
  match s.thread with
  | none => s
  | some t => match t.held with
    | none => s
    | some (_, l) =>
      let n := (t.pc &&& 63).toNat
      if t.runnable && t.latched.isSome && !(t.beats.isSome && bundleVector l n) then
        (match s.issueBundle l n with | .next u => u | _ => s)
      else s
/-- R89, R91: what a slot does besides its turn: a wait that is over ends and its instruction is completed; in a core that runs, a line
is fetched, and a wait that comes before issue is met. -/
def State.tendSlot (s : State) (c : Nat) (i : Fin 16) : State :=
  let s1 := (({ s with cur := c } : State).wakeSlot c i).resumeSlot i
  if (s1.core c).stopped then s1 else s1.readySlot i
/-- R189, R393: the slot of a stopped core whose beat is next: beats that have begun go on, and leave the rotation as it is. -/
def State.stoppedBeat (s : State) (c : Nat) : Option (Fin 16) :=
  slotNumbers.find? (fun i => (match s.threadAt c i with | some t => t.beats.isSome | none => false) && s.spaced c i)
/-- R91: the slot whose turn this cycle is, and whether the cycle is an idle bubble: the core as it would be with every slot tended to
has the candidate. -/
def State.choice (s : State) (c : Nat) : Option (Fin 16) × Bool :=
  let d := slotNumbers.foldl (fun (r : State) i => r.tendSlot c i) s
  if (s.core c).stopped then (s.stoppedBeat c, false)
  else match d.candidate c with
    | none => (none, false)
    | some i => if d.spaced c i then (some i, false) else (none, true)
/-- R91: a core begins a cycle: it chooses the slot whose turn it is. -/
def State.beginTurn (s : State) (c : Nat) : State :=
  let p := s.choice c
  let s1 := s.setCore c { s.core c with lastTurn := some s.cycle, served := 0, pick := p.1 }
  if p.2 then s1.count c 3 1 else s1
/-- R393: a beat in a stopped core. -/
def State.stoppedTurn (s : State) (c : Nat) (i : Fin 16) : State :=
  let k := s.core c
  if s.th.beats.isSome then
    ((s.setCore c { k with lastIssue := k.lastIssue.set i (some s.cycle) }).setTh s.th.beat).lendBlocks c i
  else s
/-- R88, R91: what a slot of a core does in this cycle: its waits that are over, and its turn, if the cycle is its own. Slots do it one
after another, so that of two writes to a shared register the higher slot's is kept. -/
def State.serveSlot (s : State) (c : Nat) (i : Fin 16) : Out :=
  let own := decide ((s.core c).pick = some i)
  let s0 := s.setCore c { s.core c with served := i.val + 1 }
  let s1 : State := { s0.tendSlot c i with slot := i }
  if !own then .next s1
  else match s1.thread with
    | none => .next s1
    | some t => if (s1.core c).stopped then .next (s1.stoppedTurn c i) else s1.turnOf t

/-! ### The clock, waits that end anywhere, and the agenda -/

/-- R374, R395, R396: a cycle passes: cycles are counted, and what the events of the cycle have added to the counters is added. -/
def State.tick (s : State) : State :=
  let s1 := s.cores.foldl (fun (s : State) p => s.count p.1 1 1) s
  { s1 with cycle := s1.cycle + 1, phase := 0, package := { s1.package with time := s1.package.time.tick } }.payOwed
/-- R230, R273: what hardware agents could not write or read yet, for want of a page or a link, is tried again. -/
def State.retry (s : State) : State := (if s.updates.isEmpty then s else s.retryUpdates).retryResets
/-- What follows every step. -/
def State.settle (s : State) : State := s.retry.answerZeros none

/-- The next state of an outcome, or the state itself. -/
def outState (s : State) : Out → State
  | .next t => t
  | _ => s
/-! ### The order of the steps of one cycle (log 50)

Every step has a place in its cycle: requests to save threads (R90), threads that enter slots (R101, R180, R231, R241), what the
slots of each core write and issue, in ascending order of core and slot (R88, R91, R92, R182), with a re-check round before them all
(R147), the interfaces and agents outside the cores (R138, R296), deliveries (R296), threads that leave and records that end (R96, R234, R265), and the ends of what others did
not answer in time (R236); samples, corrections and the END of a session are recorded after the records of threads (R387). -/

/-- A class of the order, and a place in it. -/
def placeIn (cls key : Nat) : Nat := cls * 2 ^ 44 + min key (2 ^ 44 - 1)
/-- The place of what a slot of a core does: its results land in program order, and what its thread does comes after them. -/
def slotPlace (c : Nat) (i sub : Nat) : Nat := placeIn 4 ((16 * c + i) * 2 ^ 20 + min sub (2 ^ 20 - 1))
/-- The place of a slot's service, and that at which a core begins. -/
def servePlace (c : Nat) (i : Nat) : Nat := slotPlace c i (2 ^ 20 - 1)
def beginPlace (c : Nat) : Nat := slotPlace c 0 0
/-- R141: the core and slot at whose place a result lands: that of the bank which takes it. -/
def State.landPlace (s : State) (c i k : Nat) : Nat :=
  match (s.threadAt c (Fin.ofNat 16 i)).bind (fun t => t.pending[k]?) with
  | some p => slotPlace (match p.dst, p.bank with | .scalar f, some b => if f.getLsbD 4 then b else c | _, _ => c) (i % 16) (k + 1)
  | none => slotPlace c (i % 16) (k + 1)
/-- R241, R242: an offer that would be a steal. -/
def State.wouldSteal (s : State) (c : Nat) : Bool := (s.core c).arrivals.isEmpty && (s.core c).deque.isEmpty && (s.seedChoice c).isNone
/-- The place of an offer that is no steal. -/
def offerPlace (c : Nat) : Nat := placeIn 2 (2 ^ 20 + c)
/-- The place of a step of hardware. -/
def State.eventPlace (s : State) : Instr → Nat
  | .preEmption _ _ => 0
  | .resume _ _ => placeIn 0 1
  | .feRecheckRound _ _ => placeIn 0 2
  | .graceExpiry _ _ => 0
  | .thermalMigration _ => 0
  | .clcPoll _ _ => 0
  | .arrival k => match s.transit[k]? with | some p => placeIn 1 (16 * p.src + p.srcSlot) | none => placeIn 1 0
  | .launchReady k => placeIn 2 k
  | .slotOffer c => if s.wouldSteal c then placeIn 3 c else offerPlace c
  | .resultLanding c i k => s.landPlace c i k
  | .copyCompletion d e _ => placeIn 5 (2 + 16 * d + e)
  | .delivery _ _ _ => placeIn 6 0
  | .primitiveBatch _ => placeIn 6 1
  | .migrationPack _ _ => placeIn 7 0
  | .resampleComplete _ => placeIn 8 8
  | .kernelCompletion k => placeIn 7 (1 + k)
  | .killContext _ => placeIn 8 6
  | .containment _ _ => placeIn 8 6
  | .resetQueue _ => placeIn 8 6
  | .gangAbort _ _ => placeIn 8 0
  | .gangTimeout _ => placeIn 8 1
  | .shardTimeout _ _ => placeIn 8 1
  | .loadBarrierTimeout _ => placeIn 8 2
  | .samplingPulse _ => placeIn 8 3
  | .timeCorrection _ _ => placeIn 8 4
  | .offsetAbsorbed => placeIn 8 4
  | .traceClose _ => placeIn 8 5
  | _ => placeIn 5 0
/-- The place of an item of the agenda. -/
def State.placeOf (s : State) : Agenda → Nat
  | .turn c => if s.phase ≤ (if (s.core c).lastTurn = some s.cycle then servePlace c 15 else beginPlace c) then servePlace c 15 else 0
  | .tick => placeIn 9 0
  | .event i => s.eventPlace i
  | .micro (.copyWord d e _ _ _) => placeIn 5 (2 + 16 * d + e)
  | .micro _ => placeIn 5 0
/-- The steps that the hardware takes by itself, each tried in turn, with their places in a cycle. -/
def State.ownSteps (s : State) : List (Nat × (State → Out)) :=
  let cores := s.cores.map (·.1)
  let agents (l : List (State → Out)) : List (Nat × (State → Out)) := l.map (fun f => (placeIn 5 0, f))
  let perSlot (f : Nat → Nat → State → Out) : List (State → Out) :=
    cores.flatMap (fun c => (List.range 16).map (fun i => f c i))
  let pending := cores.flatMap (fun c => (List.range 16).flatMap (fun i =>
    match s.threadAt c (Fin.ofNat 16 i) with
    | some t => (List.range t.pending.length).map (fun k => (s.landPlace c i k, execResultLanding c i k))
    | none => []))
  let msgs := (List.range s.msgs.length).flatMap (fun k =>
    [execRemoteRequest k, execAcknowledgement k, execNegativeAcknowledgement k, execMailboxArrival k, execRequestResend k])
  let words := (List.range 4).flatMap (fun d => (List.range 16).flatMap (fun e =>
    (((s.die d).engines.toList.getD e {}).commands.zipIdx).flatMap (fun p =>
      (s.eventPlace (.copyCompletion d e p.2), execCopyCompletion d e p.2) :: (List.range p.1.block.nrow).flatMap (fun r =>
        (List.range p.1.block.wordCount).map (fun w =>
          (s.placeOf (.micro (.copyWord d e p.2 r w)), fun s => .next (s.copyWord d e p.2 r w)))))))
  let queues := (s.queues.map (·.1)).flatMap (fun q =>
    [execNopPacket q, execLaunch q, execCopyPacket q, execSignalWait q, execSignalStore q, execSignalDecrement q, execBarrierAnd q,
     execCarouselStart q, execCarouselStop q, execCarouselReplace q, execCarouselPeriod q, execWeightload q, execTraceOpen q])
  let cars := carousels.flatMap (fun p => [execSegmentRead p.1 p.2, execSlotOpen p.1 p.2])
  let clusters := (s.clusters.map (·.1)).flatMap (fun cl => [(placeIn 6 1, execPrimitiveBatch cl), (placeIn 5 0, execPassRound cl)])
  let deliveries := (List.range 4).flatMap (fun d => ((s.die d).deliveries.zipIdx).flatMap (fun p =>
    p.1.clusters.map (fun cl => (placeIn 6 0, execDelivery d p.2 cl))))
  let loads := (s.loads.zipIdx).map (fun p => execWeightReplace p.2)
  let contexts := (s.contexts.map (·.1)).flatMap (fun x =>
    (placeIn 8 3, execSamplingPulse x) :: (s.context x).saving.map (fun cl => (0, execPreEmption x cl)))
  agents (perSlot execLineFetch ++ perSlot execPageWalk ++ (List.range s.flight.length).map (fun k => execMemorySliceAccess k)) ++
  pending ++ agents (msgs ++
  perSlot execMopComplete ++ cores.flatMap (fun c => [execLatchQueueStart c, execFillComplete c]) ++
  perSlot execFaultRecord) ++ (perSlot execMigrationPack).map (fun f => (placeIn 7 0, f)) ++
  (List.range s.transit.length).map (fun k => (s.eventPlace (.arrival k), execArrival k)) ++
  cores.flatMap (fun c => [(s.eventPlace (.slotOffer c), execSlotOffer c), (placeIn 5 0, execChunkAllocation c false true),
    (placeIn 5 0, execChunkAllocation c true true)]) ++
  (List.range s.groups.length).map (fun k => (placeIn 8 8, execResampleComplete k)) ++ agents (perSlot execCopyAccept) ++ words ++ agents (
  perSlot execPublishSwap ++ queues) ++ (List.range s.launches.length).map (fun k => (placeIn 2 k, execLaunchReady k)) ++
  agents cars ++ clusters ++ deliveries ++ agents loads ++ contexts ++
  (perSlot execGraceExpiry ++ (cores ++ s.package.sparing.flatMap (fun p => coresOf p.1)).map (fun c => execThermalMigration c)).map (fun f => (0, f)) ++
  agents (perSlot execVersion ++ perSlot execGracePeriod ++ perSlot execRetiredClusters) ++
  (placeIn 8 4, execOffsetAbsorbed) :: (s.queues.map (fun q => (placeIn 8 5, execTraceClose q.1)))
/-- The first of some steps that changes the state, with its result. -/
def State.firstChange (s : State) (l : List (Nat × (State → Out))) : Option State :=
  l.findSome? (fun f => let t := outState s (f.2 s); if t = s then none else some { t with phase := f.1 })

/-- R91: what a thread that runs has to do before its turn: its line, or a wait before issue. -/
def State.preIssue (s : State) (c : Nat) (t : Thread) : Bool :=
  t.runnable && decide (t.stage = 0) && (match t.held with
    | none => true
    | some (_, l) => (({ s with cur := c } : State).early t l (t.pc &&& 63).toNat).isSome)
/-- R89, R91: a thread for which its slot is served although the turn is not its own. -/
def State.stirs (s : State) (c : Nat) (t : Thread) : Bool :=
  (s.wakes c t).isSome || (t.runnable && t.latched.isSome) || (!(s.core c).stopped && s.preIssue c t)
/-- R91, R393: a core with something to do: a thread to issue, a beat, or a slot to serve. -/
def State.live (s : State) (c : Nat) : Bool :=
  (s.core c).slots.toList.any (fun o => match o with
    | some t => s.stirs c t || (if (s.core c).stopped then t.beats.isSome else t.eligible)
    | none => false)
/-- R91: what a core's next service in this cycle is: it begins, or a slot that its turn or its thread's state calls for. -/
def State.nextSlot (s : State) (c : Nat) : Option (Option (Fin 16)) :=
  let k := s.core c
  if k.lastTurn ≠ some s.cycle then (if s.phase ≤ beginPlace c && s.live c then some none else none)
  else (slotNumbers.find? (fun i => decide (k.served ≤ i.val) && decide (s.phase ≤ servePlace c i.val) &&
    (decide (k.pick = some i) || (match k.slots[i] with | some t => s.stirs c t | none => false)))).map some
/-- The place of such a service. -/
def nextPlace (c : Nat) : Option (Fin 16) → Nat
  | none => beginPlace c
  | some i => servePlace c i.val
/-- R91: the first service of a core's slots that must come before a place. -/
def State.dueSlot (s : State) (limit : Nat) : Option (Nat × Option (Fin 16)) :=
  s.cores.findSome? (fun p => match s.nextSlot p.1 with
    | some o => if nextPlace p.1 o < limit then some (p.1, o) else none
    | none => none)
/-- R147: the first word that is to be checked again in this cycle. -/
def State.dueRound (s : State) : Option (Nat × Nat) :=
  s.cores.findSome? (fun p => (p.2.dirty.find? (fun d => decide (d.2 < s.cycle))).map (fun d => (p.1, d.1)))
/-- R231: launch seeding would give a core a thread in this cycle. -/
def State.seedDue (s : State) (c : Nat) : Bool :=
  let k := s.core c
  !k.stopped && s.namesCore c && (s.freeSlot c).isSome && k.arrivals.isEmpty && k.deque.isEmpty &&
    decide (s.freeCount c > s.reserved c) && (s.seedChoice c).isSome
/-- R231: of the cores that qualify in one cycle, the first that is served before an offer. -/
def State.dueSeed (s : State) (limit : Nat) : Option Nat :=
  if placeIn 3 0 ≤ limit ∨ limit ≤ offerPlace 0 ∨ s.kernels.all (·.done) then none
  else (List.range 4096).find? (fun c => decide (s.phase ≤ offerPlace c) && decide (offerPlace c < limit) && s.seedDue c)
/-- R296: the engine's command or the delivery at the head of a buffer's queue takes the slot that it may take. -/
def State.takeFor (s : State) : Producer → State
  | .thread _ => s
  | .command id => (List.range 64).foldl (fun (r : State) z =>
      let v := r.engine (z / 16) (z % 16)
      match v.commands.zipIdx.find? (fun p => p.1.id == id && p.1.delivered.isNone) with
      | some (k, n) => match r.prepare k with
        | (s1, k1, some e) => s1.setCommand (z / 16) (z % 16) n (k1.stopped e)
        | (s1, k1, none) => s1.setCommand (z / 16) (z % 16) n { k1 with fault := none }
      | none => r) s
  | .delivery id => match s.clusters.find? (fun p => (p.2.buffer.head?.map (·.delivery)) == some id) with
    | some p => s.primitiveBatch p.1
    | none => s
/-- R296: the producers other than threads that take a slot in this cycle. -/
def State.dueProducer (s : State) : Option State :=
  s.cores.findSome? (fun p => p.2.cb.toList.findSome? (fun b => match b.waiters with
    | [] => none
    | q :: _ => match q with
      | .thread _ => none
      | _ => if b.mayTake q s.cycle then (let t := s.takeFor q; if t = s then none else some t) else none))
/-- R398: an item that is an arrival at the host interface, an Ethernet port or a link port, or a correction: what a replay takes from its
log. -/
def Agenda.arrives : Agenda → Bool
  | .event i => match i with
    | .writeIndex .. | .createPartition .. | .destroyPartition .. | .createContext .. | .createQueue .. | .resumeQueue .. | .resetQueue ..
    | .killContext .. | .quote .. | .liveUpdate .. | .shardArrival .. | .gangAck .. | .gangAbort .. | .gangDone .. | .gangPhase ..
    | .loadBarrier .. | .timeCorrection .. => true
    | _ => false
  | .micro (.store _ _) => true
  | _ => false
/-- R398: the entry of the log whose TIME has come in a replay, performed. -/
def State.dueReplay (s : State) : Option State :=
  if s.package.replay ≠ some true ∨ !s.package.running then none
  else match s.replayLog.zipIdx.find? (fun p => decide (p.1.time ≤ s.time) && (match p.1.what with | .draw _ => false | _ => true)) with
    | none => none
    | some (e, n) =>
      let s1 : State := { s with replayLog := listDel s.replayLog n }
      match e.what with
      | .step i => some (if (encode i).isSome then s1 else outState s1 (exec i s1))
      | .store pa bytes => some ((s1.logged 2 0 bytes).firmPut pa bytes)
      | .draw _ => some s1
/-- R234: the first kernel that completes in this cycle. -/
def State.dueKernel (s : State) : Option Kernel := s.kernels.find? s.completable
/-- R358: some cluster is being saved. -/
def State.anySaving (s : State) : Bool := s.contexts.any (fun p => !p.2.saving.isEmpty)
/-- R20, R236, R337, R357, R358, R372, R374, R391: what a deadline brings in this cycle: a request sent again, LINK_DOWN, threads held at the end of the
grace period, kernels and loads that end, samples, and the end of a containment. -/
def State.deadlines (s : State) : List (Nat × (State → Out)) :=
  (s.msgs.zipIdx).filterMap (fun p => if p.1.lost then some (placeIn 8 0, execRequestResend p.2) else none) ++
  (if s.anyLost then (List.range s.flight.length).map (fun k => (placeIn 8 0, execLinkDown k)) else []) ++
  (if s.anySaving then s.cores.flatMap (fun p => (List.range 16).map (fun i => (placeIn 8 0, execGraceExpiry p.1 i))) else []) ++
  (List.range s.kernels.length).map (fun k => (placeIn 8 1, execGangTimeout k)) ++
  (if s.package.time.rate ≠ 0 then [(placeIn 8 4, execOffsetAbsorbed)] else []) ++
  (s.loads.zipIdx).flatMap (fun p =>
    (List.range p.1.shards.length).map (fun k => (placeIn 8 1, execShardTimeout p.2 k)) ++ [(placeIn 8 2, execLoadBarrierTimeout p.2)]) ++
  s.contexts.filterMap (fun p => if p.2.session.isSome then some (placeIn 8 3, execSamplingPulse p.1) else none) ++
  s.contexts.filterMap (fun p => if p.2.st = .faulted then some (placeIn 8 6, fun s => .next (s.contained p.1)) else none)
/-- R91: a core's service. -/
def State.service (s : State) (c : Nat) (o : Option (Fin 16)) : Out :=
  let s1 : State := { s with phase := nextPlace c o }
  match o with
  | none => .next (s1.beginTurn c)
  | some i => s1.serveSlot c i
/-- What must happen in this cycle before a step at a place: re-check rounds (R147), seeding in the order of the cores (R231), turns
(R91), what a core's interface does for its own slots (R138, R139), producers whose slot is free (R296), what a replay's log brings (R398), completions (R234), and what the deadlines before it bring. -/
def State.before (s : State) (limit : Nat) : Option Out :=
  match (if decide (s.phase ≤ placeIn 0 2) && decide (placeIn 0 2 < limit) then s.dueRound else none) with
  | some (c, w) => some (.next ({ s with phase := placeIn 0 2 }.feRecheck c w))
  | none => match s.dueSeed limit with
    | some c => some (.next ({ s with phase := offerPlace c }.offer c))
    | none => match s.dueSlot limit with
      | some (c, o) => some (s.service c o)
      | none =>
        if limit ≤ placeIn 5 0 then none
        else match s.amos with
          | a :: r => some (.next ({ s with amos := r, phase := max s.phase (placeIn 5 0) }.ownAtomic a))
          | [] =>
            match (match s.dueReplay with | some t => some t | none => s.dueProducer) with
            | some t => some (.next { t with phase := max s.phase (placeIn 5 0) })
            | none => if limit < placeIn 8 0 then none
            else match s.dueKernel with
              | some k => some (.next ({ s with phase := max s.phase (placeIn 7 1) }.tryComplete k))
              | none => (s.firstChange (s.deadlines.filter (fun f => decide (f.1 < limit)))).map .next
/-- The end of a cycle: what must still happen in it, or else the clock. -/
def State.endCycle (s : State) : Out :=
  match s.before (placeIn 9 0) with
  | some o => o
  | none => .next s.tick
/-- Log 1: the default order: every core takes its turn, and a cycle passes; in every fourth cycle, and where no core has
anything to do, the hardware also takes a step of its own if it can. -/
def State.idle (s : State) : Out :=
  let due := decide (s.ownAt ≠ s.cycle) && (decide (s.cycle % 4 = 3) || !(s.cores.map (·.1)).any s.live)
  match (if due then s.firstChange (s.ownSteps.filter (fun f => decide (s.phase ≤ f.1))) else none) with
  | some t => (s.before t.phase).getD (.next { t with ownAt := s.cycle })
  | none => s.endCycle
/-- An item of the agenda. An instruction that has an encoding, and a pending beat, are issued by a core's turn alone. -/
def State.item (s : State) (a : Agenda) : Out :=
  if s.package.replay = some true ∧ s.package.running ∧ a.arrives then .next s
  else match a with
  | .turn c => match s.nextSlot c with | some (some 15) => s.serveSlot c 15 | _ => .next s
  | .tick => .next s.tick
  | .event .pendingBeat => .next s
  | .event i => if (encode i).isSome then .next s else exec i s
  | .micro m => .next (s.micro m)
/-- What comes before the agenda's first item: an item whose place in the cycle has passed waits for the next cycle. -/
def State.ahead (s : State) (a : Agenda) : Option Out :=
  if s.placeOf a < s.phase then some s.endCycle else s.before (s.placeOf a)
/-- What the next step does. -/
def State.advanceAgenda (s : State) : Out :=
  match s.agenda with
  | [] => s.idle
  | a :: r => match s.ahead a with
    | some o => o
    | none => { s with agenda := r, phase := s.placeOf a }.item a

/-! ### An instruction placed for the next step (log 2) -/

/-- The line of one instruction, held by the current slot's thread (a fresh one if the slot is empty), which takes the next
step's turn. -/
def State.placeLine (s : State) (l : Line) : State :=
  let t := s.thread.getD (({} : Thread).homeClaim s.cur s.slot)
  let u : Thread := { t with
    st := .running, pc := (t.pc >>> 6) <<< 6 ||| 1, held := some (t.pc.toNat / 64 * 64, l), pending := [], beats := none
    hold := false, skipBreak := true, fault := none, stage := 0, latched := none, replay := none, granted := false, refused := false }
  let k := s.core s.cur
  { s.setCore s.cur { k with
      slots := k.slots.set s.slot (some u), stopped := false, last := (s.slot.val + 15) % 16
      lastIssue := k.lastIssue.set s.slot none, lastTurn := some s.cycle, served := s.slot.val, pick := some s.slot } with
    agenda := [.turn s.cur], bundle := none, phase := slotPlace s.cur s.slot.val 0 }

end Sys2Proof.Machine
end

