-- ==== Sys2Proof/Machine/Step.lean ====
section
/-! DEFINITION. One step of the machine, and the placing of an instruction where the next step fetches. What a step does is in
Machine/Turn.lean. -/

namespace Sys2Proof.Machine

/-- One step: the agenda's next item, or the default order's next step; then the joins that a zero counter answers (R245). -/
def step (s : State) : Host.Outcome State Fault Refusal := mapOut State.settle s.advanceAgenda

/-- The state with an instruction, given as spec/opcode_table.json numbers its bits, where the next step fetches and runs it. -/
def State.withFetchWord (s : State) (nbits w : Nat) : State :=
  s.placeLine (Line.single (tableHead nbits w) (tableTail nbits w))

end Sys2Proof.Machine
end

