-- ==== Sys2Proof/Safety.lean ====
section
/-! DEFINITION. What the statements about the machine are written in: that an instruction completes, what a completed
instruction leaves unchanged (the frame), what taking a trap is, what the scalar instructions compute, written from the
tables of the manual, and the invariant of memory. -/

namespace Sys2Proof.Machine

/-! ### Completion and frames -/

/-- `exec` answers a next state of which `P` holds. -/
def Completes (i : Instr) (s : State) (P : State → Prop) : Prop := ∃ t, exec i s = .next t ∧ P t

/-- R57: a destination field that discards the write: s14 and s15. -/
def discards (f : Field) : Bool := f == 0x1E || f == 0x1F

/-- R56, R57: the scalar registers as they stand in the register files of the issuing thread and its core. -/
def State.file (s : State) (f : Field) : Word := Sources.reg ⟨s.th.g, (s.core s.cur).shared⟩ s.cur f

/-- The register files after a write of one destination field. -/
def written (s : State) (d : Field) (v : Word) (f : Field) : Word := if f = d ∧ discards d = false then v else s.file f

/-- Two states differ in nothing but the thread of the issuing slot and the shared registers of its core: device memory, every
local store, every other slot, every other core, the messages and accesses in flight and all the rest are the same. -/
structure OnlyThread (s t : State) : Prop where
  rest : t = { s with cores := t.cores }
  others : ∀ c, c ≠ s.cur → t.core c = s.core c
  core : t.core s.cur = { s.core s.cur with slots := (t.core s.cur).slots, shared := (t.core s.cur).shared }
  slots : ∀ i, i ≠ s.slot → t.threadAt s.cur i = s.threadAt s.cur i

/-- Two threads agree but for the PC, the registers g0 to g15, and what belongs to the instruction in progress (the held line, the
phase, the wait and the replay of R145, R345, R393). -/
def Thread.Kept (u w : Thread) : Prop :=
  w = { u with
    pc := w.pc, g := w.g, held := w.held, stage := w.stage, aux := w.aux, granted := w.granted, refused := w.refused
    latched := w.latched, blocked := w.blocked, taken := w.taken, tag := w.tag, faultCount := w.faultCount
    fetchCount := w.fetchCount, refetch := w.refetch, vdata := w.vdata, replay := w.replay, feCount := w.feCount, skipBreak := w.skipBreak }

/-- An instruction has ended: from the state `s`, with its thread as `u` but for the PC, which is `pc`, one destination field written,
and nothing else changed. -/
structure Ended (s : State) (u : Thread) (d : Field) (v : Word) (pc : Word) (t : State) : Prop where
  thread : ∃ w, t.thread = some w ∧ u.Kept w ∧ w.pc = pc ∧ w.stage = 0
  regs : ∀ f, t.file f = written s d v f
  frame : OnlyThread s t

/-- R63: the PC of the instruction after the issuing thread's. -/
def State.nextPc (s : State) : Word := Machine.nextPc s.th.pc s.th.lineCount

/-- The instruction ends with nothing written and its thread otherwise as it was, in a state that differs from the one before as
`base` does. -/
def Passed (base : State) (u : Thread) (pc : Word) (t : State) : Prop := Ended base u 0x1F 0 pc t

/-- R92, R93: the thread with one more long-latency result outstanding, known at issue, for a scalar destination. -/
def Thread.awaiting (u : Thread) (d : Field) (vals : List (Nat × Word)) (missing : Nat) (dep : Option (Fin 8)) : Thread :=
  { u with pending := u.pending ++ [{ seq := u.nextSeq, dst := .scalar d, vals := vals, missing := missing, dep := dep }], nextSeq := u.nextSeq + 1 }

/-- R6, R7: the issuing thread takes a trap of a kind on an effective address: it is Faulted at the instruction, its registers are as
they were, and nothing else has changed. -/
structure Trapped (s : State) (kind : Nat) (ea : Word) (t : State) : Prop where
  thread : ∃ u w f, s.thread = some u ∧ t.thread = some w ∧ w.st = .faulted ∧ w.fault = some f ∧ f.kind = kind ∧ f.ea = ea ∧
    w.pc = u.pc ∧ w.stat = u.stat ∧ w.pending = u.pending ∧ w.claim = u.claim ∧ w.v = u.v
  regs : ∀ f, t.file f = s.file f
  frame : OnlyThread s t

/-- R89: the issuing thread is Parked in its instruction for a reason, its registers and PC as they were. -/
structure ParkedFor (s : State) (w : Wait) (t : State) : Prop where
  thread : ∃ u v, s.thread = some u ∧ t.thread = some v ∧ v.st = .parked w ∧ v.pc = u.pc ∧ v.g = u.g ∧ v.stat = u.stat ∧
    v.pending = u.pending
  core : ∀ c, t.core c = s.core c ∨ c = s.cur
  mem : t.mem = s.mem ∧ t.rmem = s.rmem ∧ ∀ c, (t.core c).ls = (s.core c).ls

/-- No watchpoint of the issuing core watches an access (R392). -/
def State.unwatched (s : State) (ea : Word) (n : Nat) (write : Bool) : Prop :=
  watches (s.core s.cur) 0 ea n write = false ∧ watches (s.core s.cur) 1 ea n write = false

/-- The thread is about to issue an instruction from its beginning: no phase, replay or wait of an earlier attempt. -/
def State.fresh (s : State) (u : Thread) : Prop :=
  s.thread = some u ∧ u.stage = 0 ∧ u.replay = none ∧ u.granted = false ∧ u.refused = false ∧ u.blocked = none

/-- R60: a sync tail meets no wait. -/
def Thread.syncReady (u : Thread) (y : BitVec 12) : Prop :=
  u.depsZero (syncWait y) = true ∧ ¬(syncSe y = true ∧ u.dep[syncSet y] = 15)

/-- R94: the thread with the dependency slot of a sync tail counted up. -/
def Thread.counted (u : Thread) (y : BitVec 12) : Thread :=
  { u with dep := if syncSe y then depUp u.dep (syncSet y) else u.dep }
/-- R94: the thread whose instruction with a sync tail completes after a wait: its slot counts down. -/
def State.ended (s : State) (y : BitVec 12) : Thread :=
  if syncSe y then { s.th with dep := depDown s.th.dep (syncSet y) } else s.th
/-- R187: claim-present set in STAT. -/
def Thread.marked (u : Thread) : Thread := { u with stat := setStat u.stat 6 true }

/-! ### What the scalar integer instructions compute (R112 to R118, R158, R159) -/

/-- An integer kept modulo 2⁶⁴. -/
abbrev wrap (v : Int) : Word := BitVec.ofInt 64 v
/-- The positions of the bits of a word, lowest first. -/
def places : List Nat := List.range 64

/-- The destination field and the value of the scalar integer instructions, as the tables of R112, R114 to R118 and the entries of
R71, R158, R159 and R195 give them: `a` and `b` are read as integers, and a result is kept modulo 2⁶⁴. -/
def intResult (i : Instr) (s : State) : Option (Field × Word) :=
  let u (f : Field) : Nat := (s.reg f).toNat
  let z (f : Field) : Int := (s.reg f).toInt
  let sh (f : Field) : Nat := (s.reg f).toNat % 64
  match i with
  | .nop => some (0x1F, 0)
  | .add d a b => some (d, wrap (z a + z b))
  | .sub d a b => some (d, wrap (z a - z b))
  | .mul d a b => some (d, wrap (z a * z b))
  | .mulh d a b => some (d, wrap (z a * z b / 2 ^ 64))
  | .mulhu d a b => some (d, BitVec.ofNat 64 (u a * u b / 2 ^ 64))
  | .andR d a b => some (d, s.reg a &&& s.reg b)
  | .orR d a b => some (d, s.reg a ||| s.reg b)
  | .xorR d a b => some (d, s.reg a ^^^ s.reg b)
  | .sll d a b => some (d, BitVec.ofNat 64 (u a * 2 ^ sh b))
  | .srl d a b => some (d, BitVec.ofNat 64 (u a / 2 ^ sh b))
  | .sra d a b => some (d, wrap (z a / 2 ^ sh b))
  | .slt d a b => some (d, if z a < z b then 1 else 0)
  | .sltu d a b => some (d, if u a < u b then 1 else 0)
  | .minR d a b => some (d, wrap (min (z a) (z b)))
  | .maxR d a b => some (d, wrap (max (z a) (z b)))
  | .minu d a b => some (d, BitVec.ofNat 64 (min (u a) (u b)))
  | .maxu d a b => some (d, BitVec.ofNat 64 (max (u a) (u b)))
  | .clz d a => some (d, BitVec.ofNat 64 (places.reverse.takeWhile (fun k => !(s.reg a).getLsbD k)).length)
  | .ctz d a => some (d, BitVec.ofNat 64 (places.takeWhile (fun k => !(s.reg a).getLsbD k)).length)
  | .popc d a => some (d, BitVec.ofNat 64 (places.filter (fun k => (s.reg a).getLsbD k)).length)
  | .mov d a => some (d, s.reg a)
  | .addi d a imm => some (d, wrap (z a + imm.toInt))
  | .andi d a imm => some (d, s.reg a &&& imm.signExtend 64)
  | .ori d a imm => some (d, s.reg a ||| imm.signExtend 64)
  | .xori d a imm => some (d, s.reg a ^^^ imm.signExtend 64)
  | .slti d a imm => some (d, if z a < imm.toInt then 1 else 0)
  | .slli d a n => some (d, BitVec.ofNat 64 (u a * 2 ^ n.toNat))
  | .srli d a n => some (d, BitVec.ofNat 64 (u a / 2 ^ n.toNat))
  | .srai d a n => some (d, wrap (z a / 2 ^ n.toNat))
  | .li d imm => some (d, wrap imm.toInt)
  | .liL d imm => some (0#1 ++ d, imm)
  | .sel d a b c => some (d, if u c ≠ 0 then s.reg a else s.reg b)
  | .ext d a pos len1 => some (d, BitVec.ofNat 64 (u a / 2 ^ pos.toNat % 2 ^ (len1.toNat + 1)))
  | .ins d a b pos len1 =>
    let top := pos.toNat + len1.toNat + 1
    some (d, BitVec.ofNat 64 (u b % 2 ^ pos.toNat + u a % 2 ^ (len1.toNat + 1) * 2 ^ pos.toNat + u b / 2 ^ top * 2 ^ top))
  | .lea x d a b off =>
    some (d, wrap (z a + off.toInt + (if x.getLsbD 2 then z b * 2 ^ (x.toNat % 4) else 0)))
  | .segq q d a =>
    let k : Fin 8 := Fin.ofNat 8 (u a / 2 ^ 61)
    let off : Nat := u a % 2 ^ 61
    let limit : Nat := (s.th.kd[k]).toNat % 2 ^ 57
    if q = 0 then
      let left : Nat := if off ≤ limit then min (limit - off + 1) (2 ^ 57 - 1) else 0
      some (d, BitVec.ofNat 64 ((s.th.kd[k]).toNat / 2 ^ 57 * 2 ^ 57 + left))
    else some (d, BitVec.ofNat 64 ((s.th.kb[k]).toNat + off))
  | .vlen d => some (d, BitVec.ofNat 64 (16 * s.th.claim.strips.length))
  | _ => none

/-- R113: truncating division of integers. -/
def quotient (a b : Int) : Int := if a < 0 then (if b < 0 then -a / -b else -(-a / b)) else (if b < 0 then -(a / -b) else a / b)

/-- The destination and the value of the integer instructions that return late: division (R113). -/
def divResult (i : Instr) (s : State) : Option (Field × Word) :=
  let u (f : Field) : Nat := (s.reg f).toNat
  let z (f : Field) : Int := (s.reg f).toInt
  let ones : Word := 0xFFFFFFFFFFFFFFFF
  match i with
  | .div d a b => some (d, if u b = 0 then ones else if z a = -2 ^ 63 ∧ z b = -1 then s.reg a else wrap (quotient (z a) (z b)))
  | .rem d a b =>
    some (d, if u b = 0 then s.reg a else if z a = -2 ^ 63 ∧ z b = -1 then 0 else wrap (z a - z b * quotient (z a) (z b)))
  | .divu d a b => some (d, if u b = 0 then ones else BitVec.ofNat 64 (u a / u b))
  | .remu d a b => some (d, if u b = 0 then s.reg a else BitVec.ofNat 64 (u a % u b))
  | _ => none

/-! ### What the scalar floating-point instructions compute (R124 to R128) -/

/-- A finite value as a rational number. -/
def FVal.rat : FVal → ℚ
  | .fin s m e => (if s then -1 else 1) * m * (2 : ℚ) ^ e
  | _ => 0
/-- R126: the place of the one bit that `fclass` sets, from the fields of an encoding. -/
def classBit (f : Fmt) (w : Nat) : Nat :=
  let neg := w.testBit (f.exp + f.frac)
  let e := w / 2 ^ f.frac % 2 ^ f.exp
  let m := w % 2 ^ f.frac
  if e = 2 ^ f.exp - 1 then (if m ≠ 0 then 8 else if neg then 0 else 7)
  else if e ≠ 0 then (if neg then 1 else 6)
  else if m ≠ 0 then (if neg then 2 else 5)
  else if neg then 3 else 4
/-- R35, R40: a rational number rounded to an integer: to nearest, ties to even (0), toward zero (1), down (2), up (3). -/
def roundedInt (rm : Nat) (x : ℚ) : Int :=
  let lo := ⌊x⌋
  if rm = 0 then (if x - lo < 1 / 2 then lo else if x - lo > 1 / 2 then lo + 1 else if lo % 2 = 0 then lo else lo + 1)
  else if rm = 1 then (if 0 ≤ x then lo else ⌈x⌉)
  else if rm = 2 then lo
  else ⌈x⌉
/-- R40: a value as an integer from `low` to `high`: rounded, clamped under saturation, else the indefinite value. -/
def intoRange (low high indefinite : Int) (rm : Nat) (sat : Bool) (v : FVal) : Int :=
  match v with
  | .nan => indefinite
  | .inf neg => if sat then (if neg then low else high) else indefinite
  | .fin _ _ _ =>
    let k := roundedInt rm v.rat
    if low ≤ k ∧ k ≤ high then k else if sat then (if k < low then low else high) else indefinite
/-- R40, R129: a value as a signed integer of `n` bits, as its 64-bit register image. -/
def asInteger (n rm : Nat) (sat : Bool) (v : FVal) : Word := BitVec.ofInt 64 (intoRange (-2 ^ (n - 1)) (2 ^ (n - 1) - 1) (-2 ^ (n - 1)) rm sat v)
/-- R128: the table of `fcvt`: the result for X, from the operand `a`. -/
def converted (x rm : Nat) (sat : Bool) (a : Word) : Word :=
  let rnd (f : Fmt) (v : FVal) : Word := BitVec.ofNat 64 (f.round rm sat v)
  let s := fp32.decode (a.toNat % 2 ^ 32)
  let d := fp64.decode a.toNat
  let n : FVal := .fin (decide (a.toInt < 0)) a.toInt.natAbs 0
  if x = 0 then rnd fp32 d else if x = 1 then rnd fp64 s
  else if x = 2 then asInteger 64 rm sat s else if x = 3 then asInteger 64 rm sat d
  else if x = 4 then rnd fp32 n else if x = 5 then rnd fp64 n
  else if x = 6 then asInteger 32 rm sat s else if x = 7 then asInteger 32 rm sat d
  else if x = 8 then rnd fp16 s else if x = 9 then rnd fp32 (fp16.decode (a.toNat % 2 ^ 16))
  else if x = 10 then rnd bf16 s else if x = 11 then rnd fp32 (bf16.decode (a.toNat % 2 ^ 16))
  else if x = 12 then rnd e4m3 s else if x = 13 then rnd fp32 (e4m3.decode (a.toNat % 2 ^ 8))
  else if x = 14 then rnd e5m2 s else rnd fp32 (e5m2.decode (a.toNat % 2 ^ 8))
/-- R123: the value of an operand in a format. -/
def fvalue (f : BitVec 1) (w : Word) : FVal := (scalarFmt f).decode ((scalarFmt f).low w)
/-- The destination and the value of the scalar floating-point instructions that return at once: `RND` is `Fmt.round`, the exact
operations are those of `FVal` (R35 to R42). -/
def floatResult (i : Instr) (s : State) : Option (Field × Word) :=
  let x (f : BitVec 1) (r : Field) : FVal := fvalue f (s.reg r)
  let out (f : BitVec 1) (v : FVal) : Word := BitVec.ofNat 64 ((scalarFmt f).round (statRm s.th.stat) (statSat s.th.stat) v)
  let low (f : BitVec 1) (r : Field) : Nat := (scalarFmt f).low (s.reg r)
  match i with
  | .fadd f d a b => some (d, out f (FVal.sum (statRm s.th.stat) [x f a, x f b]))
  | .fsub f d a b => some (d, out f (FVal.sum (statRm s.th.stat) [x f a, (x f b).negate]))
  | .fmul f d a b => some (d, out f ((x f a).mul (x f b)))
  | .ffma f d a b c => some (d, out f (FVal.sum (statRm s.th.stat) [(x f a).mul (x f b), x f c]))
  | .fmin f d a b =>
    some (d, BitVec.ofNat 64 (if (x f a).isNan || (x f b).isNan then (scalarFmt f).nanBits
      else if (x f a).below (x f b) then low f a else low f b))
  | .fmax f d a b =>
    some (d, BitVec.ofNat 64 (if (x f a).isNan || (x f b).isNan then (scalarFmt f).nanBits
      else if (x f b).below (x f a) then low f a else low f b))
  | .fclass f d a => some (d, BitVec.ofNat 64 (2 ^ classBit (scalarFmt f) (low f a)))
  | .fsgn op f d a b =>
    let n := (scalarFmt f).exp + (scalarFmt f).frac
    let sa := (low f a).testBit n
    let sb := (low f b).testBit n
    let s := if op = 0 then sb else if op = 1 then !sb else sa != sb
    some (d, BitVec.ofNat 64 (low f a % 2 ^ n + (if s then 2 ^ n else 0)))
  | .fcvt x d a => some (d, converted x.toNat (statRm s.th.stat) (statSat s.th.stat) (s.reg a))
  | _ => none
/-- The same for those that return late (R124). -/
def lateFloat (i : Instr) (s : State) : Option (Field × Word) :=
  let x (f : BitVec 1) (r : Field) : FVal := fvalue f (s.reg r)
  let out (f : BitVec 1) (v : FVal) : Word := BitVec.ofNat 64 ((scalarFmt f).round (statRm s.th.stat) (statSat s.th.stat) v)
  match i with
  | .fdiv f d a b => some (d, out f ((x f a).div (x f b)))
  | .fsqrt f d a => some (d, out f (x f a).sqrt)
  | _ => none

/-! ### Branches and jumps (R119 to R121) -/

/-- R64: the target of an immediate branch: off17 lines from the own line, at an instruction index. -/
def State.target (s : State) (idx : Field) (off : BitVec 17) : Word :=
  BitVec.ofNat 64 ((((s.th.pc.toNat / 64 : Nat) : Int) + off.toInt) % 2 ^ 58).toNat * 64 + BitVec.ofNat 64 idx.toNat
/-- The link register and its value, and the PC after a branch or a jump. -/
def transfer (i : Instr) (s : State) : Option (Field × Word × Word) :=
  let u (f : Field) : Nat := (s.reg f).toNat
  let z (f : Field) : Int := (s.reg f).toInt
  let br (c : Bool) (idx : Field) (off : BitVec 17) : Option (Field × Word × Word) :=
    some (0x1F, 0, if c then s.target idx off else s.nextPc)
  match i with
  | .beq a b idx off => br (decide (u a = u b)) idx off
  | .bne a b idx off => br (decide (u a ≠ u b)) idx off
  | .blt a b idx off => br (decide (z a < z b)) idx off
  | .bge a b idx off => br (decide (z a ≥ z b)) idx off
  | .bltu a b idx off => br (decide (u a < u b)) idx off
  | .bgeu a b idx off => br (decide (u a ≥ u b)) idx off
  | .j idx off => br true idx off
  | .jal l idx off => some (l, s.nextPc, s.target idx off)
  | .jr a => some (0x1F, 0, s.reg a)
  | .jalr d a => some (d, s.nextPc, s.reg a)
  | _ => none

/-! ### Vectors (R189 to R206) -/

/-- R189: a vector instruction has ended at issue with its writes made, or with three beats to come and its writes kept. -/
def VectorEnded (s : State) (four : Bool) (ws : VWrites) (t : State) : Prop :=
  Passed s (if four then { s.th.marked with beats := some ⟨3, ws⟩ } else s.th.marked.vput ws) s.nextPc t

/-- R199: the operations of the integer vector instructions, on elements of a width. -/
def vectorInt (i : Instr) : Option (BitVec 4 × Field × Field × Field × (∀ w : Nat, BitVec w → BitVec w → BitVec w)) :=
  match i with
  | .vadd x d a b => some (x, d, a, b, fun _ p q => p + q)
  | .vsub x d a b => some (x, d, a, b, fun _ p q => p - q)
  | .vmul x d a b => some (x, d, a, b, fun _ p q => p * q)
  | .vmin x d a b => some (x, d, a, b, fun w p q => BitVec.ofInt w (min p.toInt q.toInt))
  | .vmax x d a b => some (x, d, a, b, fun w p q => BitVec.ofInt w (max p.toInt q.toInt))
  | .vabs x d a => some (x, d, a, a, fun w p _ => BitVec.ofInt w (p.toInt.natAbs : Int))
  | .vneg x d a => some (x, d, a, a, fun w p _ => BitVec.ofInt w (-p.toInt))
  | .vand x d a b => some (x, d, a, b, fun _ p q => p &&& q)
  | .vor x d a b => some (x, d, a, b, fun _ p q => p ||| q)
  | .vxor x d a b => some (x, d, a, b, fun _ p q => p ^^^ q)
  | .vshl x d a b => some (x, d, a, b, fun w p q => BitVec.ofNat w (p.toNat * 2 ^ (q.toNat % w)))
  | .vshr x d a b => some (x, d, a, b, fun w p q => BitVec.ofNat w (p.toNat / 2 ^ (q.toNat % w)))
  | .vsra x d a b => some (x, d, a, b, fun w p q => BitVec.ofInt w (p.toInt / 2 ^ (q.toNat % w)))
  | _ => none
/-- R200: the floating-point vector instructions, the exact operation rounded once, and whether `.e32` takes four beats. -/
def vectorFloat (i : Instr) : Option (BitVec 4 × Field × Field × Field × Bool × (Nat → FVal → FVal → FVal)) :=
  match i with
  | .vfadd x d a b => some (x, d, a, b, false, fun rm p q => FVal.sum rm [p, q])
  | .vfsub x d a b => some (x, d, a, b, false, fun rm p q => FVal.sum rm [p, q.negate])
  | .vfmul x d a b => some (x, d, a, b, false, fun _ p q => p.mul q)
  | .vfdiv x d a b => some (x, d, a, b, true, fun _ p q => p.div q)
  | _ => none

/-- R46 to R48, R207: the special functions of an FP32 encoding under saturation: `vrcp` and `vsqrt` are rounded, the others one of the
two values that bracket the true result. -/
def vectorSpecial (rm : Nat) (i : Instr) : Option (Field × Field × Field × (Bool → Nat → Nat)) :=
  match i with
  | .vexp2 p d a => some (p, d, a, exp2Value)
  | .vlog2 p d a => some (p, d, a, log2Value)
  | .vrcp p d a => some (p, d, a, fun sat w => fp32.round rm sat ((fp32.decode 0x3F800000).div (fp32.decode w)))
  | .vrsq p d a => some (p, d, a, rsqValue)
  | .vsqrt p d a => some (p, d, a, fun sat w => fp32.round rm sat (fp32.decode w).sqrt)
  | .vsinpi p d a => some (p, d, a, trigValue false)
  | .vcospi p d a => some (p, d, a, trigValue true)
  | _ => none
/-- R46: an FP32 encoding is one of the two that bracket a real number, and equals it where FP32 holds it: no finite value
lies between the two. -/
def Brackets (y : ℝ) (r : Nat) : Prop :=
  let v (w : Nat) : ℝ := ((fp32.decode w).rat : ℝ)
  let finite (w : Nat) : Prop := w < 2 ^ 32 ∧ w / 2 ^ 23 % 256 ≠ 255
  finite r ∧ (∀ w, finite w → v r < v w → y < v w) ∧ (∀ w, finite w → v w < v r → v w < y) ∧ (∀ w, finite w → v w = y → v r = y)

/-! ### Rays (R320 to R324, R331) -/

/-- R324: rounded to nearest, ties to even, as a value; none where the result is infinite or a NaN. -/
def finiteRound (f : Fmt) (x : FVal) : Option FVal :=
  match f.decode (f.round 0 false x) with
  | .fin s m e => some (.fin s m e)
  | _ => none
/-- R324: a vertex less the origin, sheared along the direction's axes kx, ky and kz. -/
def sheared (o p : V3) (kx ky kz : Nat) (sx sy sz : FVal) : Option (FVal × FVal × FVal) := do
  let q0 ← finiteRound fp32 (FVal.sum 0 [p.x, o.x.negate])
  let q1 ← finiteRound fp32 (FVal.sum 0 [p.y, o.y.negate])
  let q2 ← finiteRound fp32 (FVal.sum 0 [p.z, o.z.negate])
  let q (k : Nat) : FVal := if k = 0 then q0 else if k = 1 then q1 else q2
  let x ← finiteRound fp32 (FVal.sum 0 [q kx, (sx.mul (q kz)).negate])
  let y ← finiteRound fp32 (FVal.sum 0 [q ky, (sy.mul (q kz)).negate])
  let z ← finiteRound fp32 (sz.mul (q kz))
  return (x, y, z)
/-- R324: `inside(E)` for the edge from one sheared vertex to another, under the sign of det. -/
def inside (s : ℚ) (e : FVal) (a b : FVal × FVal × FVal) : Bool :=
  let ex := b.1.rat - a.1.rat
  let ey := b.2.1.rat - a.2.1.rat
  decide (0 < s * e.rat ∨ (e.rat = 0 ∧ (0 < s * ey ∨ (ey = 0 ∧ s * ex < 0))))
/-- R324: TRITEST: the encodings of t, u and v of a hit. -/
def tritest (o d p0 p1 p2 : V3) : Option (Nat × Nat × Nat) := do
  let comps (v : V3) : List FVal := [v.x, v.y, v.z]
  guard (([o, d, p0, p1, p2].flatMap comps).all (fun x => match x with | .fin _ _ _ => true | _ => false))
  let dk (k : Nat) : FVal := if k = 0 then d.x else if k = 1 then d.y else d.z
  let size (k : Nat) : ℚ := |(dk k).rat|
  let kz := if size 0 ≤ size 2 ∧ size 1 ≤ size 2 then 2 else if size 0 ≤ size 1 then 1 else 0
  guard (decide ((dk kz).rat ≠ 0))
  let back := decide ((dk kz).rat < 0)
  let kx := if back then (kz + 2) % 3 else (kz + 1) % 3
  let ky := if back then (kz + 1) % 3 else (kz + 2) % 3
  let sx ← finiteRound fp32 ((dk kx).div (dk kz))
  let sy ← finiteRound fp32 ((dk ky).div (dk kz))
  let sz ← finiteRound fp32 ((FVal.fin false 1 0).div (dk kz))
  let a ← sheared o p0 kx ky kz sx sy sz
  let b ← sheared o p1 kx ky kz sx sy sz
  let c ← sheared o p2 kx ky kz sx sy sz
  let edge (p q : FVal × FVal × FVal) : Option FVal := finiteRound fp64 (FVal.sum 0 [p.1.mul q.2.1, (p.2.1.mul q.1).negate])
  let u ← edge c b
  let v ← edge a c
  let w ← edge b a
  let det ← finiteRound fp64 (FVal.sum 0 [u, v, w])
  guard (decide (det.rat ≠ 0))
  let s : ℚ := if det.rat < 0 then -1 else 1
  guard (inside s u b c && inside s v c a && inside s w a b)
  let t ← finiteRound fp64 (FVal.sum 0 [u.mul a.2.2, v.mul b.2.2, w.mul c.2.2])
  let out (x : FVal) : Option Nat :=
    if x.rat = 0 then some 0
    else match fp32.decode (fp32.round 0 false (x.div det)) with | .fin _ _ _ => some (fp32.round 0 false (x.div det)) | _ => none
  let t' ← out t
  let u' ← out v
  let v' ← out w
  return (t', u', v')
/-- R42: lo ≤ t ≤ hi, false where one of them is a NaN; an infinite bound leaves its side open. -/
def within (t lo hi : FVal) : Prop := t.isNan = false ∧ lo.isNan = false ∧ hi.isNan = false ∧ t.lt lo = false ∧ hi.lt t = false
/-- R331: the four results of `vrtri` for one element. -/
def rayResults (o d : V3) (tmin tmax : FVal) (p : List FVal) (r : List (BitVec 32)) : Prop :=
  let v (i : Nat) : V3 := ⟨p.getD i .nan, p.getD (i + 1) .nan, p.getD (i + 2) .nan⟩
  (∀ t u w, tritest o d (v 0) (v 3) (v 6) = some (t, u, w) → within (fp32.decode t) tmin tmax →
    r = [BitVec.ofNat 32 t, BitVec.ofNat 32 u, BitVec.ofNat 32 w, 1]) ∧
  ((∀ t u w, tritest o d (v 0) (v 3) (v 6) = some (t, u, w) → ¬within (fp32.decode t) tmin tmax) → r = [0x7F800000, 0, 0, 0])
/-- R322: the contribution of a splat with mean `mu`, inverse covariance `n` (xx, xy, xz, yy, yz, zz) and opacity `alpha`: t's encoding and
the alpha code. -/
def splatted (o d : V3) (tmin tmax : FVal) (mu : V3) (n : List FVal) (alpha : FVal) : Option (Nat × Nat) := do
  let comps (v : V3) : List FVal := [v.x, v.y, v.z]
  guard ((comps mu ++ n ++ [alpha] ++ comps o ++ comps d).all (fun x => match x with | .fin _ _ _ => true | _ => false))
  let d0 ← finiteRound fp32 (FVal.sum 0 [mu.x, o.x.negate])
  let d1 ← finiteRound fp32 (FVal.sum 0 [mu.y, o.y.negate])
  let d2 ← finiteRound fp32 (FVal.sum 0 [mu.z, o.z.negate])
  let rows : List (List Nat) := [[0, 1, 2], [1, 3, 4], [2, 4, 5]]
  let form (p q : List FVal) : FVal := FVal.sum 0 ((List.range 3).flatMap (fun i => (List.range 3).map (fun j =>
    ((p.getD i .nan).mul (q.getD j .nan)).mul (n.getD ((rows.getD i []).getD j 9) .nan))))
  let a ← finiteRound fp64 (form (comps d) (comps d))
  let b ← finiteRound fp64 (form (comps d) [d0, d1, d2])
  let c ← finiteRound fp64 (form [d0, d1, d2] [d0, d1, d2])
  guard (decide (0 < a.rat))
  let t := if b.rat = 0 then 0 else fp32.round 0 false (b.div a)
  let q : ℚ := max 0 (c.rat - b.rat * b.rat / a.rat)
  let a8 := alphaCode alpha q.num.toNat q.den
  guard (decide (a8 ≠ 0) && !tmin.isNan && !tmax.isNan && !(fp32.decode t).lt tmin && !tmax.lt (fp32.decode t))
  return (t, a8)
/-- R320: the box test passes: some τ puts the ray inside the enlarged box. (All bounds are rational: a real τ exists exactly when a
rational one does.) -/
def boxPasses (o d : V3) (tmin tmax : FVal) (lo hi : V3) : Prop :=
  let fin (x : FVal) : Bool := match x with | .fin _ _ _ => true | _ => false
  let comps (v : V3) : List FVal := [v.x, v.y, v.z]
  let m : ℚ := ((((comps lo ++ comps hi ++ comps o).filter fin).map (fun x => |x.rat|)).foldl max 0)
  let eps : ℚ := (1 + m) / 2 ^ 16
  let del : ℚ := (1 + |tmin.rat| + |tmax.rat|) / 2 ^ 16
  (comps o).all fin = true ∧ (comps d).all fin = true ∧ tmin ≠ .nan ∧ tmax ≠ .nan ∧ tmin ≠ .inf false ∧ tmax ≠ .inf true ∧
  ∃ τ : ℚ, (fin tmin = true → tmin.rat - del ≤ τ) ∧ (fin tmax = true → τ ≤ tmax.rat + del) ∧
    ∀ q ∈ (comps o).zip ((comps d).zip ((comps lo).zip (comps hi))),
      (fin q.2.2.1 = true → q.2.2.1.rat - eps ≤ q.1.rat + τ * q.2.1.rat) ∧
      (fin q.2.2.2 = true → q.1.rat + τ * q.2.1.rat ≤ q.2.2.2.rat + eps)

/-! ### The tile (R44, R214, R215) -/

/-- R34, R214: the element of row (or column) `i` at K position `k` of an operand of `n`-bit elements, for the depth d. -/
def operandAt (m : Memory) (off n d i k : Nat) : Nat :=
  let e := 16 * d * (k / d) + d * i + k % d
  if n = 4 then (m.read (off + e / 2)).toNat / 16 ^ (e % 2) % 16 else leNat (m.bytes (off + e * (n / 8)) (n / 8))
/-- R23, R27, R32: the exact value of an element of a floating-point class. -/
def floatAt (code : BitVec 4) (w : Nat) : FVal :=
  if code = 0 then fp32.decode w else if code = 1 then bf16.decode w else if code = 2 then fp16.decode w
  else if code = 3 then e4m3.decode w else if code = 4 then e5m2.decode w
  else .fin (decide (w ≥ 8)) (([5, 16, 28, 40, 53, 69, 91, 128] : List Nat).getD (w % 8) 0) (-7)
/-- R30, R31: an element of an integer class: INT8, UINT8, or I4T through the code table. -/
def intAt (table : List Byte) (code : BitVec 4) (w : Nat) : Int :=
  if code = 6 then w else if code = 5 then (if w ≥ 128 then (w : Int) - 256 else w)
  else (let b := (table.getD w 0).toNat; if b ≥ 128 then (b : Int) - 256 else b)
/-- R44: the accumulator of row i and column j after `steps` steps (with a Q4 operand: sub-blocks) from `c` on. -/
def accumulated (o : MopOps) (i j steps : Nat) (c : BitVec 32) : BitVec 32 :=
  let a (k : Nat) : Nat := operandAt o.panel o.la (fmtBits o.fa) o.d i k
  let b (k : Nat) : Nat := operandAt o.b 0 (fmtBits o.fb) o.d j k
  let prod (k : Nat) : FVal := (floatAt o.fa (a k)).mul (floatAt o.fb (b k))
  (List.range steps).foldl (fun c m =>
    if o.ints then
      let sigma : Int := ((List.range o.d).map (fun t => intAt o.table o.fa (a (o.d * m + t)) * intAt o.table o.fb (b (o.d * m + t)))).sum
      let v := c.toInt + sigma
      BitVec.ofInt 32 (if o.sat then (if v > 2 ^ 31 - 1 then 2 ^ 31 - 1 else if v < -2 ^ 31 then -2 ^ 31 else v) else v)
    else if o.fa = 8 ∨ o.fb = 8 then
      let part := FVal.sum 0 ((List.range 64).map (fun t => prod (64 * m + t)))
      let e := 8 * (16 * (m / 4) + (if o.fa = 8 then i else j))
      let u := if o.fa = 8 then o.panel.num (o.sa + e) 4 else o.bScale.num e 4
      let q := if o.fa = 8 then o.panel.read (o.sa + e + 4 + m % 4) else o.bScale.read (e + 4 + m % 4)
      BitVec.ofNat 32 (fp32.round 0 o.sat (FVal.sum 0 [fp32.decode c.toNat, (part.mul (.fin false q.toNat 0)).mul (fp32.decode u)]))
    else
      let sigma := FVal.sum 0 ((List.range o.d).map (fun t => prod (o.d * m + t)))
      BitVec.ofNat 32 (fp32.round 0 o.sat (FVal.sum 0 [fp32.decode c.toNat, sigma]))) c

/-! ### Memory -/

/-- An access in flight that the issuing thread made: what it does, where its home is, and its size. -/
structure Access.For (a : Access) (s : State) (op : AccessOp) (h : Home) (n : Nat) : Prop where
  uid : a.uid = s.th.uid
  ctx : a.ctx = s.th.ctx
  seq : a.seq = s.nextId
  op : a.op = op
  remote : a.remote = h.remote
  home : a.home = h.at_
  addr : a.addr = h.addr
  size : a.size = n
/-- The issuing core with its local store replaced. -/
def State.withLs (s : State) (m : Memory) : State := s.setCore s.cur { s.core s.cur with ls := m }
/-- R137, R162: the constant cache of the issuing core's cluster emptied by an acquire of its thread, whose stores in flight are kept in mind
(a line filled later is older than they). -/
def State.refreshed (s : State) : State :=
  let cl := s.cluster (clusterOf s.cur)
  let stores := s.flight.any (fun a => a.uid == s.th.uid && a.op.writes)
  s.setCluster (clusterOf s.cur) { cl with ccache := [], acquired := if stores then mapPut cl.acquired s.th.uid s.nextId else cl.acquired }
/-- The issuing core's local store after a store: the bytes at the place are the value's, the lowest first, and every other byte
reads as before. -/
structure Stored (s : State) (o n v : Nat) (t : State) : Prop where
  inside : ∀ k, k < n → ((t.core s.cur).ls.read (o + k)).toNat = v / 256 ^ k % 256
  outside : ∀ x, (x < o ∨ o + n ≤ x) → (t.core s.cur).ls.read x = (s.core s.cur).ls.read x
/-- R154 to R157: the value that an atomic stores: of the old value and the operand, as integers of the access's width, or in the
floating-point format of that width. -/
def amoResult (op : AmoOp) (n old b c : Nat) (stat : Word) : Nat :=
  let m := 2 ^ (8 * n)
  let z (v : Nat) : Int := if 2 * v ≥ m then (v : Int) - m else v
  match op with
  | .add => (old + b) % m
  | .and => old &&& (b % m)
  | .or => old ||| (b % m)
  | .xor => old ^^^ (b % m)
  | .min => if z old ≤ z (b % m) then old else b % m
  | .max => if z old ≤ z (b % m) then b % m else old
  | .minu => min old (b % m)
  | .maxu => max old (b % m)
  | .swap => b % m
  | .cas => if old = b % m then c % m else old
  | .fadd =>
    let f := if n = 4 then fp32 else fp64
    f.round (statRm stat) (statSat stat) (FVal.sum (statRm stat) [f.decode old, f.decode (b % m)])
/-- R154, R157: the atomics of one operand, with what each does. -/
def amoForm (i : Instr) : Option (AmoOp × BitVec 4 × Field × Field × Field × Field) :=
  match i with
  | .amoAdd x d a b os => some (.add, x, d, a, b, os)
  | .amoAnd x d a b os => some (.and, x, d, a, b, os)
  | .amoOr x d a b os => some (.or, x, d, a, b, os)
  | .amoXor x d a b os => some (.xor, x, d, a, b, os)
  | .amoMin x d a b os => some (.min, x, d, a, b, os)
  | .amoMax x d a b os => some (.max, x, d, a, b, os)
  | .amoMinu x d a b os => some (.minu, x, d, a, b, os)
  | .amoMaxu x d a b os => some (.maxu, x, d, a, b, os)
  | .amoSwap x d a b os => some (.swap, x, d, a, b, os)
  | .amoFadd x d a b os => some (.fadd, x, d, a, b, os)
  | _ => none
/-- R138, R139: an atomic of the issuing thread on its own core's word, on its way to the core's interface. -/
def State.ownRequest (s : State) (op : AmoOp) (o n : Nat) (b c : Word) : OwnAtomic :=
  { uid := s.th.uid, ctx := s.th.ctx, core := s.cur, off := o, size := n, op := op, data := b, data2 := c, stat := s.th.stat
    result := s.th.nextSeq }
/-- R143: a request of the issuing thread to another core. -/
def State.outgoing (s : State) (c : Nat) (body : MsgBody) (g : Tag) : Msg :=
  { seq := s.nextId, src := s.cur, dst := c, srcLeaf := s.coreLeaf s.cur, dstLeaf := s.coreLeaf c, uid := s.th.uid, ctx := s.th.ctx
    body := body, since := s.cycle, tag := g }
/-- R166: the thread held until a result with a number lands, where an instruction acquires. -/
def Thread.landing (u : Thread) (acq : Bool) (n : Nat) : Thread := if acq then { u with st := .parked (.landing n) } else u
/-- R17, R18: nothing of the issuing core's leaf is on its way to a home, and no access of its thread. -/
def State.laneEmpty (s : State) : Prop := ∀ y ∈ s.flight, y.stranded = true ∨ (y.leaf ≠ s.coreLeaf s.cur ∧ y.uid ≠ s.th.uid)
/-- R285: the copy instructions with their operand, their sync tail and their number. -/
def copyForm (i : Instr) : Option (Field × BitVec 12 × Nat) :=
  match i with
  | .cpy a y => some (a, y, 0)
  | .cpgx a y => some (a, y, 1)
  | .cpsx a y => some (a, y, 2)
  | .cpmc a y => some (a, y, 3)
  | _ => none
/-- A release that an order asks for is met (R165). -/
def State.released (s : State) (os : Field) : Prop :=
  (osOrder os).releases = true → s.releasable s.cur s.th (osScope os) = true

/-- R267, R271, R272: the front end may start the packet at RI of a queue, whose 64 bytes are `b`: the queue is Active and holds no
head, its context is Active, no launch of the queue waits, nothing started is left, the packet is well formed, and no line of memory is poisoned (R354). -/
structure State.offered (s : State) (q : Nat) (k : Queue) (b : List Byte) : Prop where
  listed : mapGet s.queues q = some k
  active : k.st = .active ∧ (s.context k.ctx).st = .active
  index : k.ri < k.wi ∧ k.wi ≤ k.ri + k.size
  free : k.holding = none ∧ k.started = [] ∧ ∀ l ∈ s.launches, l.waiting = true → l.ctx = k.ctx → l.queue ≠ q
  bytes : s.fetchBytes k.ctx (k.ring + 64 * (k.ri % k.size)) 8 = .ok b
  good : packetBad b (fun n => (s.slicesOf k.ctx).contains n) = false
  sound : s.poison = []
/-- R267, R270: the state in which RI has passed the packet, with the signal word that its end updates, and the new RI written. -/
def State.passedPacket (s : State) (q : Nat) (k : Queue) (sig : Nat) : State :=
  ((s.setQueue q { k with ri := k.ri + 1, started := [(k.ri, sig)] }).setContext k.ctx (s.context k.ctx)).agentWrite
    k.ctx k.riDva 8 (k.ri + 1)
/-- R229, R230: a signal word after one producer has ended with a code: COUNT one less; the first error stays. -/
def signalled (w code : Nat) : Nat :=
  let count := (w + 2 ^ 56 - 1) % 2 ^ 56
  if w.testBit 63 then w / 2 ^ 56 * 2 ^ 56 + count
  else if code = 0 then w / 2 ^ 56 * 2 ^ 56 + count
  else 2 ^ 63 + code % 128 * 2 ^ 56 + count

/-- Device memory, of this package and of the others of its domain, is in its canonical form. -/
def State.MemOk (s : State) : Prop := s.mem.wf = true ∧ s.rmem.wf = true

end Sys2Proof.Machine
end

