-- ==== Sys2Proof/Certificates/Slice0/Obligations.lean ====
section
/-! DEFINITION. The statements for the provers. An instruction that COMPLETES is said so as `Completes i s P`: `exec i s` answers a
next state, of which `P` holds. `Ended base u d v pc` and `Passed base u pc` say the whole of that state: it is `base` but for the
issuing thread, which is `u` with the PC at `pc`, and for one destination register. -/

open Sys2Proof Sys2Proof.Machine

/-! ### Scalar instructions -/

/-- R112, R114 to R118, R158, R159, R195: the value of each integer instruction that returns at once, and its frame. R113, R124:
division and square root return late: the result is outstanding, no register has changed yet. R124, R126 to R128: the value of
each floating-point instruction that returns at once: the exact result rounded once. R125: `fcmp` writes the predicate and the
four bits of STAT.CF: less, equal, greater, unordered; STAT keeps its other bits. -/
def Obligations.ScalarResults : Prop :=
  (∀ (i : Instr) (s : State) (d : Field) (v : Word), s.thread.isSome = true → intResult i s = some (d, v) →
    Completes i s (Ended s s.th d v s.nextPc)) ∧
  (∀ (i : Instr) (s : State) (d : Field) (v : Word), s.thread.isSome = true →
    (divResult i s = some (d, v) ∨ lateFloat i s = some (d, v)) →
    Completes i s (Passed s (s.th.awaiting d [(0, v)] 0 none) s.nextPc)) ∧
  (∀ (i : Instr) (s : State) (d : Field) (v : Word), s.thread.isSome = true → floatResult i s = some (d, v) →
    Completes i s (Ended s s.th d v s.nextPc)) ∧
  (∀ (s : State) (p : BitVec 3) (f : BitVec 1) (d a b : Field), s.thread.isSome = true →
    let x := fvalue f (s.reg a)
    let y := fvalue f (s.reg b)
    let un := x.isNan || y.isNan
    let lt := !un && x.lt y
    let gt := !un && y.lt x
    let eq := !un && !x.lt y && !y.lt x
    let v := if p.toNat = 0 then eq else if p.toNat = 1 then lt else if p.toNat = 2 then lt || eq else un
    Completes (.fcmp p f d a b) s (Ended s
      { s.th with stat := setBits s.th.stat 15 12 (8 * lt.toNat + 4 * eq.toNat + 2 * gt.toNat + un.toNat) } d
      (if v then 1 else 0) s.nextPc))

/-- R57: a write to s14 or s15 is discarded, and the rest of the instruction's effect takes place: of the integer and
floating-point instructions, comparisons, jumps with a link, and loads and reads of system registers, whose result is still
outstanding and discarded when it lands; no register changes, s14 reads the core's number, and s15 zero. (A local load is
performed at its issue: log 54.) -/
def Obligations.DiscardedWrites : Prop :=
  ∀ (s : State) (d : Field), d = 0x1E ∨ d = 0x1F →
    let kept (t : State) : Prop := (∀ f, t.file f = s.file f) ∧ t.file 0x1E = BitVec.ofNat 64 s.cur ∧ t.file 0x1F = 0
    let goes (pc : Word) (t : State) : Prop := OnlyThread s t ∧ kept t ∧ ∃ u, t.thread = some u ∧ u.pc = pc
    let late (v : Word) (t : State) : Prop := goes s.nextPc t ∧
      ∃ u, t.thread = some u ∧ u.pending = s.th.pending ++ [{ seq := s.th.nextSeq, dst := .scalar d, vals := [(0, v)], missing := 0 }]
    (s.thread.isSome = true →
      (∀ i v, intResult i s = some (d, v) ∨ floatResult i s = some (d, v) → Completes i s (goes s.nextPc)) ∧
      (∀ i v pc, transfer i s = some (d, v, pc) → Completes i s (goes pc)) ∧
      (∀ p f a b, Completes (.fcmp p f d a b) s (goes s.nextPc)) ∧
      (∀ i v, divResult i s = some (d, v) ∨ lateFloat i s = some (d, v) → Completes i s (late v)) ∧
      (∀ num v, s.sysRead num.toNat = some v → Completes (.rdsys d num) s (late v)) ∧
      (∀ (size : BitVec 4) (a os : Field) (off : BitVec 17) (o : Nat), s.th.replay = none → (osOrder os).acquires = false →
        let ea := s.reg a + off.signExtend 64
        let n := 2 ^ (size.toNat % 4)
        s.check s.th ea n .read false = .ok (.store s.cur o) → listClosed (s.core s.cur) o n = false → s.unwatched ea n false →
        Completes (.ld size d a os off) s (fun t => ∃ v, late v t))) ∧
    (∀ (c : Nat) (i : Fin 16) (k : Nat) (t : Thread) (p : Pending) (v : Word), s.threadAt c i = some t → t.pending[k]? = some p →
      p.missing = 0 → p.dst = .scalar d → p.vals = [(0, v)] → Completes (.resultLanding c i.val k) s (fun u =>
        (∀ j, (u.core j).shared = (s.core j).shared) ∧ u.contexts = s.contexts ∧ u.mem = s.mem ∧
        ∃ w, u.threadAt c i = some w ∧ w.g = t.g ∧ w.pending = listDel t.pending k))

/-- R119 to R121: the PC after each branch and jump, and the link register. -/
def Obligations.Transfers : Prop :=
  ∀ (i : Instr) (s : State) (d : Field) (v pc : Word), s.thread.isSome = true → transfer i s = some (d, v, pc) →
    Completes i s (Ended s s.th d v pc)

/-! ### Registers that instructions set -/

/-- R87, R104, R109, R133, R134, R224, R247: the instructions that set a register of the thread, and what they refuse. -/
def Obligations.ThreadSettings : Prop :=
  ∀ (s : State) (a b d : Field), s.thread.isSome = true →
    (∀ (x : BitVec 4) (imm : BitVec 22), Completes (.tmask x d a imm) s (Ended s
      { s.th with tm := if x = 0 then imm.truncate 16 else (s.reg a).truncate 16 } d (s.th.tm.zeroExtend 64) s.nextPc)) ∧
    Completes (.wset a) s (Passed s { s.th with w := (s.reg a).truncate 32 } s.nextPc) ∧
    Completes (.wrsysStat a) s (Passed s
      { s.th with stat := (s.th.stat &&& ~~~0xF8F380#64) ||| (s.reg a &&& 0xF8F380#64) } s.nextPc) ∧
    Completes (.wrsysTm a) s (Passed s { s.th with tm := (s.reg a).truncate 16 } s.nextPc) ∧
    Completes (.sclset a b) s (Passed s { s.th with sa := (s.reg a).truncate 32, sb := (s.reg b).truncate 32 } s.nextPc) ∧
    ((s.reg a).toNat % 16 ≤ 8 → (s.reg a).toNat / 16 % 16 ≤ 8 → Completes (.fmtset a) s (Passed s
      { s.th with fa := BitVec.ofNat 4 (s.reg a).toNat, fb := BitVec.ofNat 4 ((s.reg a).toNat / 16) } s.nextPc)) ∧
    ((s.reg a).toNat % 16 > 8 ∨ (s.reg a).toNat / 16 % 16 > 8 → Completes (.fmtset a) s (Trapped s 19 0)) ∧
    (∀ n : BitVec 3, statPriv s.th.stat ≠ 0 → Completes (.wrsysSegment n 0 a) s (Passed s
      { s.th with kb := s.th.kb.set n.toNat (s.reg a) n.isLt, sm := s.th.sm ||| (1 <<< n.toNat) } s.nextPc)) ∧
    (∀ n : BitVec 3, statPriv s.th.stat ≠ 0 →
      ((s.reg a).toNat / 2 ^ 62 = 3 ∨ ((s.reg a).getLsbD 57 = true ∧ ((s.reg a).getLsbD 60 = true ∨ (s.reg a).getLsbD 58 = true))) →
      Completes (.wrsysSegment n 1 a) s (Trapped s 17 0)) ∧
    (∀ n : BitVec 3, statPriv s.th.stat ≠ 0 → (s.reg a).toNat / 2 ^ 62 ≠ 3 →
      ((s.reg a).getLsbD 57 = true → (s.reg a).getLsbD 60 = false ∧ (s.reg a).getLsbD 58 = false) →
      Completes (.wrsysSegment n 1 a) s (Passed s
        { s.th with kd := s.th.kd.set n.toNat (s.reg a) n.isLt, sm := s.th.sm ||| (1 <<< n.toNat) } s.nextPc))

/-- R142, R224, R278, R288, R392, R395, R396: the instructions that set a register of the core, and what they refuse; a write of
DBGCTL sets SE and stops the core, with its record where the session wants it, or lets it go on. -/
def Obligations.CoreSettings : Prop :=
  ∀ (s : State) (a b : Field), s.thread.isSome = true →
    let k := s.core s.cur
    let v := s.reg a
    let set (c : CoreState) (i : Instr) : Prop := Completes i s (Passed (s.setCore s.cur c) s.th s.nextPc)
    let refused (kind : Nat) (i : Instr) : Prop := Completes i s (Trapped s kind 0)
    let buf : CircBuf :=
      { en := v.getLsbD 30, cnt := v.toNat / 2 ^ 24 % 64, sz := v.toNat / 2 ^ 18 % 64, base := v.toNat % 2 ^ 18
        slots := if v.getLsbD 30 then List.replicate (v.toNat / 2 ^ 24 % 64 + 1) .free else [] }
    (∀ m : BitVec 2, if v.toNat / 2 ^ 36 % 2 ^ 22 = 0 ∧ (v.getLsbD 63 = true → 1 ≤ v.toNat / 2 ^ 58 % 8 ∧ v.toNat / 2 ^ 58 % 8 ≤ 3)
      then set { k with win := k.win.set m.toNat v m.isLt } (.wrsysWin m a) else refused 17 (.wrsysWin m a)) ∧
    (if v.toNat < 2 ^ 18 then set { k with mcbase := v.toNat } (.wrsysMcbase a) else refused 17 (.wrsysMcbase a)) ∧
    (∀ n : BitVec 2, if v.toNat / 2 ^ 57 ≠ 0 ∨ v.toNat % 64 ≠ 0 ∨
        v.toNat % 2 ^ 18 + 64 * (v.toNat / 2 ^ 18 % 64 + 1) * (v.toNat / 2 ^ 24 % 64 + 1) > 0x40000 then refused 17 (.wrsysCb n a)
      else if .filling ∈ k.cb[n.toFin].slots ∨ .held ∈ k.cb[n.toFin].slots ∨ k.cb[n.toFin].waiters ≠ [] then refused 37 (.wrsysCb n a)
      else set { k with cb := k.cb.set n.toNat buf n.isLt } (.wrsysCb n a)) ∧
    (∀ n : BitVec 2, statPriv s.th.stat ≠ 0 → if v.toNat ≤ 8 then
      set { k with pmsel := k.pmsel.set n.toNat (v.truncate 8) n.isLt
                   selWas := k.selWas.set n.toNat (some (s.cycle, s.selects s.cur n.toFin)) n.isLt } (.wrsysPmsel n a) else refused 17 (.wrsysPmsel n a)) ∧
    (∀ n : BitVec 2, statPriv s.th.stat ≠ 0 → if v.toNat / 2 ^ 48 % 2 ^ 15 = 0 then
      set { k with pmc := k.pmc.set n.toNat (if s.wrapped s.cur n.toFin = none then v else v ||| 0x8000000000000000) n.isLt } (.wrsysPmc n a)
      else refused 17 (.wrsysPmc n a)) ∧
    (statPriv s.th.stat = 2 →
      let z : CoreState := { k with stopEn := v.getLsbD 0, stopped := v.getLsbD 1 }
      let record := recordHead 7 0 s.time
      (v.getLsbD 1 = false ∨ k.stopped = true ∨ k.ctx = none ∨ (∃ x, k.ctx = some x ∧ s.tracing x 3 = false) → set z (.wrsys 0x0D8 a)) ∧
      (∀ x, v.getLsbD 1 = true → k.stopped = false → k.ctx = some x → s.tracing x 3 = true → Completes (.wrsys 0x0D8 a) s (Passed
        ((s.setCore s.cur z).append x [record, BitVec.ofNat 64 ((s.slotEntity s.cur s.slot.val).toNat + 32 * 2 ^ 40), s.th.pc, 0] false).1
        s.th s.nextPc))) ∧
    (statPriv s.th.stat = 2 →
      set { k with bp := k.bp.set 0 v } (.wrsys 0x0D0 a) ∧ set { k with bp := k.bp.set 1 v } (.wrsys 0x0D1 a) ∧
      set { k with bp := k.bp.set 2 v } (.wrsys 0x0D2 a) ∧ set { k with bp := k.bp.set 3 v } (.wrsys 0x0D3 a) ∧
      set { k with wpa := k.wpa.set 0 v } (.wrsys 0x0D4 a) ∧ set { k with wpc := k.wpc.set 0 (v &&& 3) } (.wrsys 0x0D5 a) ∧
      set { k with wpa := k.wpa.set 1 v } (.wrsys 0x0D6 a) ∧ set { k with wpc := k.wpc.set 1 (v &&& 3) } (.wrsys 0x0D7 a)) ∧
    Completes (.tbset a b) s (fun t => ∃ table : Vector Byte 16,
      (∀ i : Fin 16, (table[i]).toNat = if i.val < 8 then v.toNat / 256 ^ i.val % 256 else (s.reg b).toNat / 256 ^ (i.val - 8) % 256) ∧
      Passed (s.setCore s.cur { k with table := table }) s.th s.nextPc t)

/-- R108 to R110, R134, R142, R188, R216, R239, R278, R288, R290, R311, R316, R392, R395: what `rdsys` answers, late, for each
register; a number that no chapter assigns traps. (TIME and GPOP are read in the cycle of issue: logs 53 and 86; a counter counts
as its cycle ends: log 69; the place of LENDA: log 11.) -/
def Obligations.SystemRegisters : Prop :=
  ∀ (s : State) (d : Field), s.thread.isSome = true →
    let t := s.th
    let k := s.core s.cur
    let reads (num : BitVec 12) (v : Word) : Prop :=
      Completes (.rdsys d num) s (Passed s (s.th.awaiting d [(0, v)] 0 none) s.nextPc)
    let w (n : Nat) : Word := BitVec.ofNat 64 n
    let bytes (l : List Byte) : Nat := (l.zipIdx.map (fun p => p.1.toNat * 256 ^ p.2)).sum
    reads 0x000 t.stat ∧ reads 0x001 (t.tm.zeroExtend 64) ∧ reads 0x002 (t.w.zeroExtend 64) ∧ reads 0x003 t.lin ∧
    reads 0x004 t.plin ∧ reads 0x005 (t.kid.zeroExtend 64) ∧ reads 0x006 (t.gid.zeroExtend 64) ∧ reads 0x007 (t.tidx.zeroExtend 64) ∧
    reads 0x008 (w (t.fa.toNat + 16 * t.fb.toNat)) ∧ reads 0x009 (t.sa.zeroExtend 64) ∧ reads 0x00A (t.sb.zeroExtend 64) ∧
    reads 0x00B (w ((t.dep.toList.zipIdx.map (fun p => p.1.toNat * 16 ^ p.2)).sum)) ∧
    reads 0x00C (w s.slot.val) ∧ reads 0x00D t.cptTime ∧ reads 0x00E t.cptPtr ∧ reads 0x040 (w s.cur) ∧ reads 0x041 (w (s.pcore s.cur)) ∧
    reads 0x042 (w (if s.package.form = .p4s then 64 else 72)) ∧ reads 0x043 (w (s.package.time.acc / 2 ^ 24)) ∧
    (∀ n : Fin 8, reads (BitVec.ofNat 12 (0x070 + 2 * n.val)) t.kb[n] ∧ reads (BitVec.ofNat 12 (0x071 + 2 * n.val)) t.kd[n]) ∧
    (∀ n : Fin 4, reads (BitVec.ofNat 12 (0x060 + n.val)) k.win[n]) ∧
    reads 0x080 (w (16 * t.claim.strips.length)) ∧
    ((∀ q ∈ t.claim.strips, q < 32) → t.claim.strips.Nodup → t.claim.req ≤ 32 → reads 0x081 (w ((t.claim.strips.map (fun q => 2 ^ q)).sum +
      s.slot.val % 4 * 2 ^ 32 + t.claim.req * 2 ^ 40 + (if ∃ q ∈ t.claim.strips, s.recalled s.cur s.slot q = true then 2 ^ 46 else 0)))) ∧
    (let l := k.latch
     let st := match l.st with | .empty => 0 | .filling => 1 | .full => 2 | .passing => 3
     reads 0x088 (w (st + l.rdr * 2 ^ 4 + l.k * 2 ^ 16 + l.lf.toNat * 2 ^ 26))) ∧
    reads 0x089 (w (bytes (k.table.toList.take 8))) ∧ reads 0x08A (w (bytes (k.table.toList.drop 8))) ∧
    reads 0x090 (w (s.groupOf t).pop) ∧ reads 0x091 ((s.groupOf t).gen.zeroExtend 64) ∧ reads 0x092 ((s.groupOf t).bar.cph.zeroExtend 64) ∧
    reads 0x093 (if (s.kernelOf t).desc.cls = 1 then (s.kernelOf t).bar.cph.zeroExtend 64 else 0) ∧
    (∀ n : Fin 4, let b := k.cb[n]
      reads (BitVec.ofNat 12 (0x0A0 + n.val)) (w (b.base + b.sz * 2 ^ 18 + b.cnt * 2 ^ 24 + (if b.en then 2 ^ 30 else 0) +
        b.slots.count .free * 2 ^ 31 + b.slots.count .filled * 2 ^ 38 + b.head * 2 ^ 45 + b.tail * 2 ^ 51))) ∧
    reads 0x0A8 (w (t.batch.opened + t.batch.closed.length * 2 ^ 8)) ∧ reads 0x0A9 (w k.mcbase) ∧
    (∀ n : Fin 4, let q := s.car (dieOf s.cur) n.val
      let st := match q.st with | .off => 0 | .running => 1 | .idle => 2 | .stopping => 3
      reads (BitVec.ofNat 12 (0x0B0 + n.val)) (if q.st ≠ .off ∧ q.partition ≠ (s.context t.ctx).partition then 0
        else w (q.lapn + q.badid * 2 ^ 24 + (q.sched.filter (fun e => e.bad = false)).length * 2 ^ 40 + q.promo.length * 2 ^ 53 +
          (q.k - 1) * 2 ^ 58 + st * 2 ^ 62))) ∧
    (∀ x, k.ctx = some x →
      let subs := (s.cluster (s.ixOf s.cur)).subs.filter (fun b => b.core == s.cur && b.ctx == x)
      reads 0x0B8 (w (k.pool.base + k.pool.list * 2 ^ 18 + k.pool.count * 2 ^ 36 + subs.length * 2 ^ 49 +
        (if k.pool.splat then 2 ^ 62 else 0) + (if k.pool.valid then 2 ^ 63 else 0)))) ∧
    reads 0x0C0 (w (if (s.kernelOf t).desc.upcall = 0 then 0 else s.package.lendBase + 512 * (16 * s.cur + s.slot.val))) ∧
    reads 0x0C8 (w (s.package.pkg.toNat + s.package.domain.toNat * 2 ^ 18)) ∧ reads 0x0C9 (s.package.linkup.zeroExtend 64) ∧
    (∀ n : Fin 4, reads (BitVec.ofNat 12 (0x0D0 + n.val)) k.bp[n] ∧ reads (BitVec.ofNat 12 (0x0E4 + n.val)) (k.pmsel[n].zeroExtend 64) ∧
      reads (BitVec.ofNat 12 (0x0E0 + n.val)) (match s.wrapped s.cur n with | some v => v ||| 0x8000000000000000 | none => k.pmc[n])) ∧
    (∀ n : Fin 2, reads (BitVec.ofNat 12 (0x0D4 + 2 * n.val)) k.wpa[n] ∧ reads (BitVec.ofNat 12 (0x0D5 + 2 * n.val)) k.wpc[n]) ∧
    reads 0x0D8 (w ((if k.stopEn then 1 else 0) + (if k.stopped then 2 else 0))) ∧
    (∀ num : BitVec 12, num.toNat ≥ 0x0E8 ∨ (0x00F ≤ num.toNat ∧ num.toNat < 0x040) ∨ (0x044 ≤ num.toNat ∧ num.toNat < 0x060) →
      Completes (.rdsys d num) s (Trapped s 17 0))

/-- R109, R134, R349, R350, R366, R367, R392, R395: what a thread without the privilege that an instruction needs gets: kind
ILLEGAL. -/
def Obligations.PrivilegeTraps : Prop :=
  ∀ (s : State) (a : Field), s.thread.isSome = true →
    let refused (i : Instr) : Prop := Completes i s (Trapped s 17 0)
    (statPriv s.th.stat = 0 →
      (∀ n k, refused (.wrsysSegment n k a)) ∧ (∀ n, refused (.wrsysPmsel n a)) ∧ (∀ n, refused (.wrsysPmc n a)) ∧
      refused (.cxsave a) ∧ refused (.cxload a) ∧ refused .eret ∧ refused .wfi) ∧
    (statPriv s.th.stat ≠ 2 → (∀ n, refused (.wrsys n a)) ∧ refused (.tlbinv a) ∧ refused .ptsync)

/-! ### Memory instructions -/

/-- R135: the checks of an access of `n` bytes: the kind and right, the limit, the space and for a local address the cores, then
the alignment; the first that fails names the kind. -/
def Obligations.AccessChecks : Prop :=
  ∀ (s : State) (t : Thread) (ea : Word) (n : Nat) (r : Right) (fe : Bool), 0 < n →
    let kd := (t.kd[segIndex ea]).toNat
    let a := (t.kb[segIndex ea]).toNat + ea.toNat % 2 ^ 61
    let kind := kd / 2 ^ 62
    let granted := match r with
      | .read => (t.kd[segIndex ea]).getLsbD 61
      | .write => (t.kd[segIndex ea]).getLsbD 60
      | .readWrite => (t.kd[segIndex ea]).getLsbD 61 && (t.kd[segIndex ea]).getLsbD 60
      | .atomic => (t.kd[segIndex ea]).getLsbD 58
    let bad2 := kind = 0 ∨ kind = 3 ∨ (fe = true ∧ kind = 1) ∨ granted = false
    let bad3 := ea.toNat % 2 ^ 61 + n - 1 > kd % 2 ^ 57 ∨ (kind = 1 ∧ a + n - 1 ≥ 2 ^ 57) ∨
      (kind = 2 ∧ (a + n - 1 ≥ 2 ^ 30 ∨ s.coreOk t.ctx (a / 2 ^ 18) = false ∨ s.coreOk t.ctx ((a + n - 1) / 2 ^ 18) = false))
    (bad2 → s.check t ea n r fe = .error 22) ∧ (¬bad2 → bad3 → s.check t ea n r fe = .error 21) ∧
    (¬bad2 → ¬bad3 → a % n ≠ 0 → s.check t ea n r fe = .error 20) ∧
    (¬bad2 → ¬bad3 → a % n = 0 → kind = 1 → s.check t ea n r fe = .ok (.device a)) ∧
    (¬bad2 → ¬bad3 → a % n = 0 → kind = 2 → s.check t ea n r fe = .ok (.store (a / 2 ^ 18) (a % 2 ^ 18)))

/-- R6, R7, R135, R151 to R157: an access whose check fails traps with the kind of the check on its effective address, and nothing
else changes. -/
def Obligations.FailedChecks : Prop :=
  ∀ (s : State) (k : Nat) (size : BitVec 4) (d a b c os : Field) (off : BitVec 17), s.thread.isSome = true →
    s.th.stage = 0 → s.th.replay = none →
    let ea := s.reg a + off.signExtend 64
    let n := 2 ^ (size.toNat % 4)
    let traps (e : Word) (i : Instr) : Prop := Completes i s (Trapped s k e)
    (s.check s.th ea n .read false = .error k → traps ea (.ld size d a os off)) ∧
    (s.check s.th ea n .write false = .error k → traps ea (.st size os a b off)) ∧
    (s.check s.th ea 4 .readWrite true = .error k → traps ea (.ldfe size d a os off)) ∧
    (s.check s.th ea 4 .read true = .error k → traps ea (.ldff size d a os off)) ∧
    (s.check s.th ea 4 .write true = .error k → traps ea (.stfe os a b off) ∧ ∀ st, traps ea (.feset st a off)) ∧
    (s.check s.th (s.reg a) n .atomic false = .error k →
      traps (s.reg a) (.amoAdd size d a b os) ∧ traps (s.reg a) (.amoAnd size d a b os) ∧ traps (s.reg a) (.amoOr size d a b os) ∧
      traps (s.reg a) (.amoXor size d a b os) ∧ traps (s.reg a) (.amoMin size d a b os) ∧ traps (s.reg a) (.amoMax size d a b os) ∧
      traps (s.reg a) (.amoMinu size d a b os) ∧ traps (s.reg a) (.amoMaxu size d a b os) ∧ traps (s.reg a) (.amoSwap size d a b os) ∧
      traps (s.reg a) (.amoFadd size d a b os) ∧
      ∀ y, s.th.syncReady y → traps (s.reg a) (.amoCas size d a b c os y))

/-- R138, R150, R151, R166: a load from the own local store: its bytes, the lowest first, extended as the size code says, are
outstanding for the destination; an acquire empties the constant cache of the cluster and holds the thread until they land. (The
load is performed at its issue, in program order: log 54, the model's choice; what an acquire does to the constant cache: log 13.)
R138, R152: a store to the own local store writes the low bytes of the value, the lowest first, and no other byte. -/
def Obligations.LocalAccesses : Prop :=
  (∀ (s : State) (size : BitVec 4) (d a os : Field) (off : BitVec 17) (o : Nat), s.thread.isSome = true → s.th.replay = none →
    let ea := s.reg a + off.signExtend 64
    let n := 2 ^ (size.toNat % 4)
    let x := (s.core s.cur).ls.num o n
    let v : Word := if size.getLsbD 2 = true ∧ 2 ^ (8 * n) ≤ 2 * x then BitVec.ofInt 64 ((x : Int) - 2 ^ (8 * n)) else BitVec.ofNat 64 x
    let acq := (osOrder os).acquires
    s.check s.th ea n .read false = .ok (.store s.cur o) → listClosed (s.core s.cur) o n = false → s.unwatched ea n false →
    Completes (.ld size d a os off) s (Passed (if acq then s.refreshed else s)
      ((s.th.awaiting d [(0, v)] 0 none).landing acq s.th.nextSeq) s.nextPc)) ∧
  (∀ (s : State) (size : BitVec 4) (a b os : Field) (off : BitVec 17) (o : Nat), s.thread.isSome = true → s.th.stage = 0 →
    let ea := s.reg a + off.signExtend 64
    let n := 2 ^ (size.toNat % 4)
    s.check s.th ea n .write false = .ok (.store s.cur o) → listClosed (s.core s.cur) o n = false → s.unwatched ea n true →
    s.released os →
    Completes (.st size os a b off) s (fun t => Stored s o n (s.reg b).toNat t ∧
      ∃ m, Passed (s.withLs m) s.th s.nextPc t))

/-- R137, R140, R151, R152, R161, R166: a load or store of device memory that the port translates goes on its way to its home, as
the thread's next access, and no byte of memory has changed yet; an acquiring load empties the constant cache of the cluster and
holds the thread until its value lands; a plain load of a CONST segment is served from the constant cache or goes to its home, and
fills the cache (which of the two is free: log 13). A page that is not translated is waited for. -/
def Obligations.DeviceAccesses : Prop :=
  ∀ (s : State) (size : BitVec 4) (d a b os : Field) (off : BitVec 17) (dva : Nat) (h : Home), s.thread.isSome = true →
    s.th.replay = none → s.th.stage = 0 →
    let ea := s.reg a + off.signExtend 64
    let n := 2 ^ (size.toNat % 4)
    let const := (s.th.kd[segIndex ea]).getLsbD 57 = true ∧ osOrder os = .plain
    let acq := (osOrder os).acquires
    (s.check s.th ea n .read false = .ok (.device dva) → s.hit (clusterOf s.cur) s.th.ctx dva false = some h → s.unwatched ea n false →
      (¬const → Completes (.ld size d a os off) s (fun t => ∃ y : Access, y.For s .load h n ∧ y.cached = none ∧ y.ext = size.toNat % 8 ∧
        y.result = some s.th.nextSeq ∧
        Passed (if acq then (s.send y).refreshed else s.send y) ((s.th.awaiting d [] 1 none).landing acq s.th.nextSeq) s.nextPc t)) ∧
      (const → Completes (.ld size d a os off) s (fun t =>
        (∃ line : List Byte, mapGet (s.cluster (clusterOf s.cur)).ccache (lineKey h) = some line ∧
          let x := leNat ((line.drop (h.addr % 64)).take n)
          Passed { s with free := s.free + 1 } (s.th.awaiting d [(0, if size.getLsbD 2 = true ∧ 2 ^ (8 * n) ≤ 2 * x then
            BitVec.ofInt 64 ((x : Int) - 2 ^ (8 * n)) else BitVec.ofNat 64 x)] 0 none) s.nextPc t) ∨
        ∃ y : Access, y.For s .load h n ∧ y.cached = some (clusterOf s.cur) ∧ y.ext = size.toNat % 8 ∧ y.result = some s.th.nextSeq ∧
          Passed ({ s with free := s.free + 1 }.send y) (s.th.awaiting d [] 1 none) s.nextPc t))) ∧
    (s.check s.th ea n .write false = .ok (.device dva) → s.hit (clusterOf s.cur) s.th.ctx dva true = some h → s.unwatched ea n true →
      s.released os → Completes (.st size os a b off) s (fun t => ∃ y : Access, y.For s .store h n ∧ y.data = s.reg b ∧ y.result = none ∧
        Passed (s.send y) s.th s.nextPc t)) ∧
    (s.check s.th ea n .read false = .ok (.device dva) → s.hit (clusterOf s.cur) s.th.ctx dva false = none →
      Completes (.ld size d a os off) s (fun t => ParkedFor s .walk t ∧ t.flight = s.flight))

/-- R139, R145: a load from another core's local store sends the thread there: it waits to migrate, with the access to replay; in
matrix mode it traps instead. R141, R143, R154, R156: a store or an atomic to another core's local store becomes a request to its
owner, and the thread waits for the reply; when that comes, a store has ended, an atomic's result is outstanding (a shared
destination is in the owner's bank), and a refusal traps. -/
def Obligations.RemoteAccesses : Prop :=
  (∀ (s : State) (size : BitVec 4) (d a os : Field) (off : BitVec 17) (c o : Nat), s.thread.isSome = true → s.th.replay = none →
    let ea := s.reg a + off.signExtend 64
    s.check s.th ea (2 ^ (size.toNat % 4)) .read false = .ok (.store c o) → c ≠ s.cur →
    (statM s.th.stat = false → Completes (.ld size d a os off) s (fun t => ParkedFor s .migrate t ∧
      ∃ u, t.thread = some u ∧ u.replay = some ea ∧ u.aux = BitVec.ofNat 64 c)) ∧
    (statM s.th.stat = true → Completes (.ld size d a os off) s (Trapped s 18 ea))) ∧
  (∀ (s : State) (c o : Nat), s.thread.isSome = true → s.th.replay = none →
    let asks (i : Instr) (u : Thread) (body : MsgBody) : Prop := Completes i s (fun t => ParkedFor s .reply t ∧
      (∃ g : Tag, t.msgs = s.msgs ++ [s.outgoing c body g]) ∧ ∃ w, t.thread = some w ∧ w.dep = u.dep)
    let atomic (i : Instr) (op : AmoOp) (x : BitVec 4) (d a os : Field) (b e : Word) (u : Thread) (dep : Option (Fin 8)) : Prop :=
      let n := 2 ^ (x.toNat % 4)
      let acq := (osOrder os).acquires
      s.check s.th (s.reg a) n .atomic false = .ok (.store c o) → c ≠ s.cur →
      (s.th.stage = 0 → s.unwatched (s.reg a) n true → s.unwatched (s.reg a) n false → s.released os →
        asks i u (.atomic op o n b e s.th.stat)) ∧
      (s.th.stage = 2 → s.th.granted = true → Completes i s (Passed (if acq then s.refreshed else s) (({ s.th with
        pending := s.th.pending ++ [{ seq := s.th.nextSeq, dst := .scalar d, vals := [(0, s.th.aux)], missing := 0, dep := dep, bank := some c }]
        nextSeq := s.th.nextSeq + 1 } : Thread).landing acq s.th.nextSeq) s.nextPc)) ∧
      (s.th.stage = 2 → s.th.granted = false → s.th.refused = true → Completes i s (Trapped s 23 (s.reg a)))
    (∀ (size : BitVec 4) (a b os : Field) (off : BitVec 17),
      let ea := s.reg a + off.signExtend 64
      let n := 2 ^ (size.toNat % 4)
      (s.th.stage = 0 → s.check s.th ea n .write false = .ok (.store c o) → c ≠ s.cur → s.unwatched ea n true → s.released os →
        asks (.st size os a b off) s.th (.write o n (s.reg b))) ∧
      (s.th.stage = 2 → s.th.granted = true → Completes (.st size os a b off) s (Passed s s.th s.nextPc)) ∧
      (s.th.stage = 2 → s.th.granted = false → s.th.refused = true → Completes (.st size os a b off) s (Trapped s 23 ea))) ∧
    (∀ (i : Instr) (op : AmoOp) (x : BitVec 4) (d a b os : Field), amoForm i = some (op, x, d, a, b, os) →
      atomic i op x d a os (s.reg b) 0 s.th none) ∧
    (∀ (x : BitVec 4) (d a b e os : Field) (y : BitVec 12), (s.th.stage = 0 → s.th.syncReady y) →
      atomic (.amoCas x d a b e os y) .cas x d a os (s.reg b) (s.reg e) (s.th.counted y) (if syncSe y then some (syncSet y) else none)))

/-- R138, R139, R154 to R157, R166: an atomic on the own local store goes to the core's interface, with its operands; its result
is outstanding; an acquiring one empties the constant cache and holds the thread until it lands, and `amocas` counts its
dependency slot up. The interface replaces the word in one step: no other byte changes, and the old value is delivered to the
result. R140, R154 to R157, R166: an atomic on device memory, `amocas` among them, goes on its way to its home with its operands;
its result is outstanding; an acquiring one empties the constant cache of the cluster and holds the thread until it lands. -/
def Obligations.Atomics : Prop :=
  ((∀ (s : State) (o : Nat), s.thread.isSome = true → s.th.stage = 0 →
    let goes (i : Instr) (op : AmoOp) (x : BitVec 4) (d a os : Field) (b c : Word) (u : Thread) (dep : Option (Fin 8)) : Prop :=
      let n := 2 ^ (x.toNat % 4)
      let acq := (osOrder os).acquires
      s.check s.th (s.reg a) n .atomic false = .ok (.store s.cur o) → listClosed (s.core s.cur) o n = false →
      s.unwatched (s.reg a) n true → s.unwatched (s.reg a) n false → s.released os →
      let r : State := { s with amos := s.amos ++ [s.ownRequest op o n b c] }
      Completes i s (Passed (if acq then r.refreshed else r) ((u.awaiting d [] 1 dep).landing acq s.th.nextSeq) s.nextPc)
    (∀ (i : Instr) (op : AmoOp) (x : BitVec 4) (d a b os : Field), amoForm i = some (op, x, d, a, b, os) →
      goes i op x d a os (s.reg b) 0 s.th none) ∧
    (∀ (x : BitVec 4) (d a b c os : Field) (y : BitVec 12), s.th.syncReady y →
      goes (.amoCas x d a b c os y) .cas x d a os (s.reg b) (s.reg c) (s.th.counted y) (if syncSe y then some (syncSet y) else none))) ∧
  (∀ (s : State) (y : OwnAtomic), mapGet (s.context y.ctx).saved y.core = none → (s.core y.core).ctx = some y.ctx →
    let t := s.ownAtomic y
    let old := (s.core y.core).ls.num y.off y.size
    (∀ k, k < y.size → ((t.core y.core).ls.read (y.off + k)).toNat =
      amoResult y.op y.size old y.data.toNat y.data2.toNat y.stat / 256 ^ k % 256) ∧
    (∀ x, (x < y.off ∨ y.off + y.size ≤ x) → (t.core y.core).ls.read x = (s.core y.core).ls.read x) ∧
    (∀ c, c ≠ y.core → (t.core c).ls = (s.core c).ls) ∧ t.mem = s.mem ∧
    ∀ (c : Nat) (i : Fin 16) (u : Thread), s.threadAt c i = some u →
      t.threadAt c i = some (if u.uid = y.uid then u.deliver y.result 0 (BitVec.ofNat 64 old) else u))) ∧
  (∀ (s : State) (dva : Nat) (h : Home), s.thread.isSome = true → s.th.stage = 0 →
    let goes (i : Instr) (op : AmoOp) (x : BitVec 4) (d a os : Field) (b c : Word) (u : Thread) (dep : Option (Fin 8)) : Prop :=
      let n := 2 ^ (x.toNat % 4)
      let acq := (osOrder os).acquires
      s.check s.th (s.reg a) n .atomic false = .ok (.device dva) → s.hit (clusterOf s.cur) s.th.ctx dva true = some h →
      s.unwatched (s.reg a) n true → s.unwatched (s.reg a) n false → s.released os →
      Completes i s (fun t => ∃ y : Access, y.For s (.amo op) h n ∧ y.data = b ∧ y.data2 = c ∧ y.stat = s.th.stat ∧
        y.result = some s.th.nextSeq ∧ Passed (if acq then (s.send y).refreshed else s.send y)
          ((u.awaiting d [] 1 dep).landing acq s.th.nextSeq) s.nextPc t)
    (∀ (i : Instr) (op : AmoOp) (x : BitVec 4) (d a b os : Field), amoForm i = some (op, x, d, a, b, os) →
      goes i op x d a os (s.reg b) 0 s.th none) ∧
    (∀ (x : BitVec 4) (d a b c os : Field) (y : BitVec 12), s.th.syncReady y →
      goes (.amoCas x d a b c os y) .cas x d a os (s.reg b) (s.reg c) (s.th.counted y) (if syncSe y then some (syncSet y) else none)))

/-- R146, R153: the full/empty instructions on a word of the own local store in the state that each needs: `ldfe` reads and leaves
the word Empty, `ldff` reads, `stfe` writes and leaves it Full, `feset` sets the state and leaves the data; the loads are
acquires. R146, R147: a full/empty instruction on a word in the other state waits on it, and changes no byte and no word's state.
R147, R148: a re-check round on a word that changed in an earlier cycle. Where the word is Full, every waiting `ldff` goes on with
its value, and then the waiting `ldfe` of the lowest slot, which leaves it Empty; where it is Empty then, the waiting `stfe` of
the lowest slot goes on, which writes it and leaves it Full, to be checked again in the next cycle; the others wait on, one failed
re-check more, and no other thread of the core changes. A `stfe` whose word has come to lie in a closed list traps (22), and so
does an access whose limit is reached (24). A word that has not changed starts no round. -/
def Obligations.FullEmptyAccesses : Prop :=
  (∀ (s : State) (size : BitVec 4) (d a b os : Field) (off : BitVec 17) (o : Nat), s.thread.isSome = true → s.th.replay = none →
    s.th.granted = false → listClosed (s.core s.cur) o 4 = false →
    let ea := s.reg a + off.signExtend 64
    let k := s.core s.cur
    let w := o / 4
    let x := k.ls.num o 4
    let v : Word := if size.getLsbD 2 = true ∧ 2 ^ 32 ≤ 2 * x then BitVec.ofInt 64 ((x : Int) - 2 ^ 32) else BitVec.ofNat 64 x
    let waits (u : Thread) : Thread := { u.awaiting d [(0, v)] 0 none with st := .parked (.landing u.nextSeq) }
    (s.check s.th ea 4 .readWrite true = .ok (.store s.cur o) → s.unwatched ea 4 false → k.full w = true →
      Completes (.ldfe size d a os off) s (fun t => (t.core s.cur).full w = false ∧
        ∃ q, q.ls = k.ls ∧ Passed (s.setCore s.cur q).refreshed (waits s.th) s.nextPc t)) ∧
    (s.check s.th ea 4 .read true = .ok (.store s.cur o) → s.unwatched ea 4 false → k.full w = true →
      Completes (.ldff size d a os off) s (Passed s.refreshed (waits s.th) s.nextPc)) ∧
    (s.check s.th ea 4 .write true = .ok (.store s.cur o) → s.unwatched ea 4 true → k.full w = false →
      s.releasable s.cur s.th (os.toNat % 8) = true →
      Completes (.stfe os a b off) s (fun t => Stored s o 4 ((s.reg b).toNat % 2 ^ 32) t ∧ (t.core s.cur).full w = true ∧
        ∃ q, Passed (s.setCore s.cur q) s.th s.nextPc t)) ∧
    (∀ st : BitVec 1, s.check s.th ea 4 .write true = .ok (.store s.cur o) → s.unwatched ea 4 true →
      Completes (.feset st a off) s (fun t => (t.core s.cur).full w = (st == 1) ∧
        ∃ q, q.ls = k.ls ∧ Passed (s.setCore s.cur q) s.th s.nextPc t))) ∧
  (∀ (s : State) (size : BitVec 4) (d a b os : Field) (off : BitVec 17) (o : Nat), s.thread.isSome = true → s.th.replay = none →
    s.th.granted = false → listClosed (s.core s.cur) o 4 = false →
    let ea := s.reg a + off.signExtend 64
    let k := s.core s.cur
    let w := o / 4
    let waits (i : Instr) (op : FeOp) : Prop := Completes i s (fun t => ParkedFor s (.fullEmpty w) t ∧
      (t.core s.cur).emptyWords = k.emptyWords ∧ ∃ u r, t.thread = some u ∧ u.fe = some r ∧ r.word = w ∧ r.op = op)
    (s.check s.th ea 4 .readWrite true = .ok (.store s.cur o) → s.unwatched ea 4 false → k.full w = false →
      waits (.ldfe size d a os off) .ldfe) ∧
    (s.check s.th ea 4 .read true = .ok (.store s.cur o) → s.unwatched ea 4 false → k.full w = false →
      waits (.ldff size d a os off) .ldff) ∧
    (s.check s.th ea 4 .write true = .ok (.store s.cur o) → s.unwatched ea 4 true → k.full w = true →
      s.releasable s.cur s.th (os.toNat % 8) = true → waits (.stfe os a b off) .stfe)) ∧
  (∀ (s : State) (c w : Nat),
    let k := s.core c
    let due := ∃ n, (w, n) ∈ k.dirty ∧ n < s.cycle
    let waits (i : Fin 16) (t : Thread) (r : FeReq) (op : FeOp) : Prop := s.threadAt c i = some t ∧ t.fe = some r ∧ r.word = w ∧ r.op = op
    let none_ (op : FeOp) : Prop := ∀ i t r, ¬waits i t r op
    let first (i : Fin 16) (t : Thread) (r : FeReq) (op : FeOp) : Prop := waits i t r op ∧ ∀ j, j < i → ∀ u q, ¬waits j u q op
    let full := k.full w = true
    let emptied := ¬full ∨ ¬none_ .ldfe
    let closed := listClosed k (4 * w) 4 = true
    let goes (u : State) (i : Fin 16) (v : Nat) : Prop := ∃ x, u.threadAt c i = some x ∧ x.granted = true ∧ x.fe = none ∧ x.aux = BitVec.ofNat 64 v
    let stays (u : State) (i : Fin 16) (t : Thread) : Prop := statFte t.stat = false → u.threadAt c i = some { t with feCount := t.feCount + 1 }
    (¬due → exec (.feRecheckRound c w) s = .next s) ∧
    (due → Completes (.feRecheckRound c w) s (fun u => u.mem = s.mem ∧
      (full → (∀ i t r, waits i t r .ldff → goes u i (k.ls.num (4 * w) 4)) ∧ ∀ i t r, first i t r .ldfe → goes u i (k.ls.num (4 * w) 4)) ∧
      (¬emptied → (u.core c).full w = true ∧ (u.core c).ls = k.ls) ∧
      (emptied → none_ .stfe ∨ closed → (u.core c).full w = false ∧ (u.core c).ls = k.ls) ∧
      (emptied → ¬closed → ∀ i t r, first i t r .stfe → goes u i 0 ∧ (u.core c).full w = true ∧ (w, s.cycle) ∈ (u.core c).dirty ∧
        (u.core c).ls = k.ls.putNum (4 * w) 4 r.value.toNat) ∧
      (emptied → closed → ∀ i t r, waits i t r .stfe → ∃ x f, u.threadAt c i = some x ∧ x.st = .faulted ∧ x.fault = some f ∧ f.kind = 22) ∧
      (∀ i t r, waits i t r .ldff → ¬full → stays u i t) ∧ (∀ i t r, waits i t r .ldfe → ¬full ∨ ¬first i t r .ldfe → stays u i t) ∧
      (∀ i t r, waits i t r .stfe → ¬emptied ∨ (¬closed ∧ ¬first i t r .stfe) → stays u i t) ∧
      ∀ i, (∀ t r op, ¬waits i t r op) → u.threadAt c i = s.threadAt c i)) ∧
    (∀ (i : Fin 16) (t : Thread), s.threadAt c i = some t →
      (t.fe.isSome = true → statFte t.stat = true → t.feCount ≥ 2 ^ (statFrl t.stat + 1) →
        Completes (.feTimeout c i.val) s (fun u => u.mem = s.mem ∧ (u.core c).ls = (s.core c).ls ∧
          ∃ v f, u.threadAt c i = some v ∧ v.st = .faulted ∧ v.fault = some f ∧ f.kind = 24)) ∧
      ((t.fe.isNone = true ∨ statFte t.stat = false ∨ t.feCount < 2 ^ (statFrl t.stat + 1)) → exec (.feTimeout c i.val) s = .next s)))

/-- R95, R165, R166, R174, R175: `fence` waits for the release conditions of its scope and then goes on, emptying the constant
cache of the cluster where it acquires; `dwait` goes on once the slots that it names read zero; both park their thread until then.
-/
def Obligations.Fences : Prop :=
  ∀ (s : State) (scope : BitVec 3), s.thread.isSome = true → s.th.blocked = none →
    (s.releasable s.cur s.th scope.toNat = true →
      Completes (.fence 0 scope) s (Passed s.refreshed s.th s.nextPc) ∧ Completes (.fence 1 scope) s (Passed s s.th s.nextPc)) ∧
    (s.releasable s.cur s.th scope.toNat = false → ∀ o, Completes (.fence o scope) s (ParkedFor s (.release scope.toNat))) ∧
    (∀ m : BitVec 8, (∀ k : Fin 8, m.getLsbD k.val = true → s.th.dep[k] = 0) → Completes (.dwait m) s (Passed s s.th s.nextPc)) ∧
    (∀ m : BitVec 8, (∃ k : Fin 8, m.getLsbD k.val = true ∧ s.th.dep[k] ≠ 0) → Completes (.dwait m) s (ParkedFor s (.depZero m)))

/-- R18, R19, R143, R144, R155, R401: a request reaches its owner: an admitted write stores its bytes and no other and is
acknowledged, an admitted atomic replaces the word (`amocas` where it finds the value compared with) and answers the old one, and
one that no window admits is refused and changes no byte; at the interface of a core that a remap is copying it is held, and
nothing else happens. R20, R140, R143, R362: an acknowledgement and a refusal reach the thread that waits, wherever it is, and
leave the network; a request that was lost is sent again after 65,536 cycles, not before; one whose destination has failed
contains its issuer's context (log 74). -/
def Obligations.RequestsAndReplies : Prop :=
  (∀ (s : State) (k : Nat) (m : Msg), s.msgAt k = some m → (mapGet (s.context m.ctx).saved m.dst) = none →
    let left := listDel s.msgs k
    let back (b : MsgBody) : List Msg := left ++ [{ m with
      src := m.dst, dst := m.src, srcLeaf := m.dstLeaf, dstLeaf := m.srcLeaf, body := b, held := false, since := s.cycle }]
    let q := s.core m.dst
    (q.remapStep ≠ 3 →
      (∀ off n data, m.body = .write off n data → s.admits m.ctx m.src m.dst off n false = true → q.ctx = some m.ctx →
        exec (.remoteRequest k) s = .next { s.setCore m.dst { q with ls := q.ls.putNum off n data.toNat } with msgs := back (.ack none) }) ∧
      (∀ off n data, m.body = .write off n data → s.admits m.ctx m.src m.dst off n false = false →
        exec (.remoteRequest k) s = .next { s with msgs := back .nack }) ∧
      (∀ op off n b c stat, m.body = .atomic op off n b c stat → s.admits m.ctx m.src m.dst off n true = true → q.ctx = some m.ctx →
        let ls := if op = .cas ∧ q.ls.num off n ≠ b.toNat % 2 ^ (8 * n) then q.ls
          else q.ls.putNum off n (amoResult op n (q.ls.num off n) b.toNat c.toNat stat)
        exec (.remoteRequest k) s = .next
          { s.setCore m.dst { q with ls := ls } with
            msgs := back (.ack (some (BitVec.ofNat 64 (q.ls.num off n)))) }) ∧
      (∀ op off n b c stat, m.body = .atomic op off n b c stat → s.admits m.ctx m.src m.dst off n true = false →
        exec (.remoteRequest k) s = .next { s with msgs := back .nack })) ∧
    (q.remapStep = 3 → (∃ off n data, m.body = .write off n data) ∨ (∃ op off n b c stat, m.body = .atomic op off n b c stat) →
      exec (.remoteRequest k) s = .next { s with msgs := left ++ [{ m with held := true }] })) ∧
  (∀ (s : State) (k : Nat) (m : Msg),
    (∀ old, s.msgAt k = some m → m.body = .ack old → exec (.acknowledgement k) s = .next
      (({ s with msgs := listDel s.msgs k }).updThread m.uid (fun t => { t with granted := true, aux := old.getD t.aux }))) ∧
    (s.msgAt k = some m → m.body = .nack → exec (.negativeAcknowledgement k) s = .next
      (({ s with msgs := listDel s.msgs k }).updThread m.uid (fun t => { t with refused := true }))) ∧
    (s.msgs[k]? = some m → m.lost = true → m.since + 65536 ≤ s.cycle → m.dstLeaf ∉ s.package.deadLeaves →
      Completes (.requestResend k) s (fun t => t.msgs[k]? = some { m with lost := false, since := s.cycle } ∧
        (∀ j, j ≠ k → t.msgs[j]? = s.msgs[j]?) ∧ t = { s with msgs := t.msgs })) ∧
    (s.msgs[k]? = some m → m.lost = true → m.since + 65536 ≤ s.cycle → m.dstLeaf ∈ s.package.deadLeaves → (s.context m.ctx).st = .active →
      Completes (.requestResend k) s (fun t => (t.context m.ctx).st = .faulted ∧ t.mem = s.mem ∧ ∀ q ∈ t.msgs, q ∈ s.msgs)) ∧
    (s.msgs[k]? = some m → (m.lost = false ∨ s.cycle < m.since + 65536) → exec (.requestResend k) s = .next s))

/-- R155, R161, R162: an access of a thread is performed at its home: a store writes its bytes, the lowest first, and no other
byte of memory; an atomic replaces its bytes in one step and hands the old value to the result that waits for it; a load changes
no byte and hands its value, extended, to its result. -/
def Obligations.AccessesPerformed : Prop :=
  ∀ (s : State) (k : Nat) (a : Access), s.nextAt k = some a → a.remote = false → a.cached = none →
    let still := ∀ p ∈ s.cores, ∀ o ∈ p.2.slots.toList, ∀ t, o = some t → ∀ d, t.st ≠ .parked (.join d)
    let wrote (v : Nat) (t : State) : Prop := (∀ j, j < a.size → (t.mem.read (a.addr + j)).toNat = v / 256 ^ j % 256) ∧
      (∀ x, (x < a.addr ∨ a.addr + a.size ≤ x) → t.mem.read x = s.mem.read x) ∧ t.flight = listDel s.flight k ∧ t.rmem = s.rmem
    (a.op = .store → a.result = none → still → Completes (.memorySliceAccess k) s (fun t => wrote a.data.toNat t ∧ t.cores = s.cores)) ∧
    (∀ q op, a.op = .amo op → a.result = some q → still → s.poison.contains (a.addr / 64) = false →
      let old := s.mem.num a.addr a.size
      Completes (.memorySliceAccess k) s (fun t => wrote (amoResult op a.size old a.data.toNat a.data2.toNat a.stat) t ∧
        ∀ (c : Nat) (i : Fin 16) (u : Thread), s.threadAt c i = some u →
          t.threadAt c i = some (if u.uid = a.uid then u.deliver q a.elem (BitVec.ofNat 64 old) else u))) ∧
    (∀ q, a.op = .load → a.result = some q → s.poison.contains (a.addr / 64) = false →
      exec (.memorySliceAccess k) s = .next ({ s with flight := listDel s.flight k }.updThread a.uid (fun t =>
        t.deliver q a.elem (extend a.size (decide (a.ext ≥ 4)) (s.mem.num a.addr a.size)))))

/-- R88, R92 to R94, R137, R141, R166, R405: a result whose values are all there lands: its register is written (a shared one in
the bank of the core that the result names, its saved record if that core is saved), its dependency slot counts down, it is
outstanding no more; where an acquire waits for it, the constant cache of its cluster is emptied (log 13); and nothing else of the
machine changes. -/
def Obligations.ResultsLand : Prop :=
  ∀ (s : State) (c : Nat) (i : Fin 16) (k : Nat) (t : Thread) (p : Pending), s.threadAt c i = some t → t.pending[k]? = some p →
    p.missing = 0 →
    let u : Thread := { t with
      pending := listDel t.pending k, dep := (match p.dep with | some n => depDown t.dep n | none => t.dep)
      depTag := if p.dep.any (fun n => t.blockedOnDep n) then some (s.tagOf c i t) else t.depTag }
    let cl := s.cluster (clusterOf c)
    let base := if t.st = .parked (.landing p.seq) then s.setCluster (clusterOf c) { cl with ccache := [] } else s
    (∀ f v, p.dst = .scalar f → p.vals = [(0, v)] → f.getLsbD 4 = false ∨ p.bank = none → exec (.resultLanding c i.val k) s = .next
      ((base.setSlot c i (some u)).putReg c i f v)) ∧
    (∀ f v b (n : Fin 16), p.dst = .scalar f → p.vals = [(0, v)] → f.getLsbD 4 = true → p.bank = some b → f.toNat % 16 = n.val → n.val < 14 →
      Completes (.resultLanding c i.val k) s (fun z => z.mem = s.mem ∧ z.threadAt c i = some u ∧
        (mapGet (s.context t.ctx).saved b = none → (s.core b).ctx = some t.ctx →
          (∀ m : Fin 16, (z.core b).shared[m] = if m = n then v else (s.core b).shared[m]) ∧
          ∀ j, j ≠ b → (z.core j).shared = (s.core j).shared) ∧
        (∀ q, mapGet (s.context t.ctx).saved b = some q → ∃ r, mapGet (z.context t.ctx).saved b = some r ∧
          (∀ m : Fin 16, r.shared[m] = if m = n then v else q.shared[m]) ∧ ∀ j, (z.core j).shared = (s.core j).shared))) ∧
    (∀ q : Fin 16, p.dst = .vector q.val → Completes (.resultLanding c i.val k) s (fun u => ∃ w, u.threadAt c i = some w ∧
      (∀ r : Fin 16, r ≠ q → w.v[r] = t.v[r]) ∧
      (∀ e x, (p.vals = [(e, x)]) → e < t.vl → (w.v[q])[e]? = some (x.truncate 32)) ∧ w.pending = listDel t.pending k ∧
      u.mem = s.mem ∧ (u.core c).ls = (s.core c).ls))

/-! ### Threads -/

/-- R96, R104 to R106, R246: `mig` to the own core goes on; to another core of the partition it makes the thread wait to migrate
there; it traps for a core that is not the partition's (26) and in matrix mode (18); a thread with nothing outstanding is packed
by the next step of its core, for that core, at the next instruction. `yield` goes on where no thread waits to enter, where a slot
is free, and for a thread with a claim, in matrix mode or with a slot in use; otherwise, once its results have landed, it changes
places with the head of the arrival queue: it goes to the tail, or behind the spill ring, with all of its g registers. With a
request pending for its context or core it goes on and is held there, to be saved (log 33, the model's choice). -/
def Obligations.Migration : Prop :=
  ∀ (s : State) (a : Field), s.thread.isSome = true → s.th.stage = 0 →
    let c := (s.reg a).toNat
    (c ≥ 4096 ∨ s.coreOk s.th.ctx c = false → Completes (.mig a) s (Trapped s 26 0)) ∧
    (c < 4096 → s.coreOk s.th.ctx c = true → statM s.th.stat = true → Completes (.mig a) s (Trapped s 18 0)) ∧
    (c < 4096 → s.coreOk s.th.ctx c = true → statM s.th.stat = false → c = s.cur → Completes (.mig a) s (Passed s s.th s.nextPc)) ∧
    (c < 4096 → s.coreOk s.th.ctx c = true → statM s.th.stat = false → c ≠ s.cur →
      Completes (.mig a) s (fun t => (ParkedFor s .migrate t ∧ ∃ u, t.thread = some u ∧ u.aux = s.reg a ∧ u.replay = none) ∧
        (s.th.packable = true → s.th.hold = false → Completes (.migrationPack s.cur s.slot.val) t (fun u =>
          u.threadAt s.cur s.slot = none ∧ u.mem = s.mem ∧ (u.core s.cur).ls = (s.core s.cur).ls ∧
          ∃ p : Packet, u.transit = s.transit ++ [p] ∧ p.src = s.cur ∧ p.dst = c ∧ p.thread.uid = s.th.uid ∧ p.thread.pc = s.nextPc ∧
            ∀ r : Fin 16, p.thread.g[r] = if s.th.tm.getLsbD r.val then s.th.g[r] else 0)))) ∧
    (s.boundaryDue s.cur s.th = false → ((s.core s.cur).arrivals = [] ∨ (s.freeSlot s.cur).isSome = true ∨ statCP s.th.stat = true ∨
      statM s.th.stat = true ∨ ∃ k : Fin 8, s.th.dep[k] ≠ 0) → Completes .yield s (Passed s s.th s.nextPc)) ∧
    (∀ head r, s.boundaryDue s.cur s.th = false → (s.core s.cur).arrivals = head :: r → s.freeSlot s.cur = none →
      statCP s.th.stat = false → statM s.th.stat = false → (∀ k : Fin 8, s.th.dep[k] = 0) →
      (s.th.pending ≠ [] → Completes .yield s (ParkedFor s .drained)) ∧
      (s.th.pending = [] → s.th.beats = none → head.uid ≠ 0 → (s.core s.cur).ctx = some head.ctx → Completes .yield s (fun t =>
        (∃ u, t.thread = some u ∧ u.st = .seeded ∧ u.uid = head.uid ∧ u.pc = head.pc ∧ u.g = head.g) ∧
        (t.core s.cur).ls = (s.core s.cur).ls ∧ (∀ j : Fin 16, j ≠ s.slot → t.threadAt s.cur j = s.threadAt s.cur j) ∧
        ((s.core s.cur).spill = [] → r.length < 16 → t.mem = s.mem ∧ ∃ w, (t.core s.cur).arrivals = r ++ [w] ∧
          w.uid = s.th.uid ∧ w.pc = s.nextPc ∧ w.g = s.th.g ∧ w.lin = s.th.lin) ∧
        (∀ x y, (s.core s.cur).spill = x :: y → r.length = 15 → s.th.ctx = head.ctx → mapGet (s.context s.th.ctx).saved s.cur = none →
          (s.core s.cur).takeArrival.ringRoom = true → (t.core s.cur).arrivals = r ++ [x] ∧ ∃ w, (t.core s.cur).spill = y ++ [w] ∧
            w.uid = s.th.uid ∧ w.pc = s.nextPc ∧ w.g = s.th.g ∧ w.lin = s.th.lin)))) ∧
    (s.boundaryDue s.cur s.th = true → Completes .yield s (Passed s { s.th with hold := true } s.nextPc))

/-- R96, R98 to R101: a thread that waits to migrate is packed once its results have landed and its slots read zero: it leaves its
slot with the registers that its travel mask names, the others zero, matrix mode and claim-present cleared, and the vector
registers left behind; a packet that finds a free slot takes it, Seeded; a core accepts one packet in a cycle. R102, R231: a core
that offers its lowest free slot with a thread in its arrival queue gives it to that thread; a core without a free slot changes
nothing. -/
def Obligations.ThreadsMove : Prop :=
  (∀ (s : State),
    (∀ (c : Nat) (i : Fin 16) (t : Thread), s.threadAt c i = some t → t.st = .parked .migrate → t.packable = true → t.hold = false →
      Completes (.migrationPack c i.val) s (fun u => u.threadAt c i = none ∧ (u.core c).ls = (s.core c).ls ∧ u.mem = s.mem ∧
        ∃ p : Packet, u.transit = s.transit ++ [p] ∧ p.src = c ∧ p.dst = t.aux.toNat ∧ p.thread.uid = t.uid ∧ p.thread.lin = t.lin ∧
          (∀ r : Fin 16, p.thread.g[r] = if t.tm.getLsbD r.val then t.g[r] else 0) ∧ statM p.thread.stat = false ∧
          statCP p.thread.stat = false ∧ (∀ r : Fin 16, p.thread.v[r] = []) ∧
          p.thread.pc = if t.replay.isSome then t.pc else nextPc t.pc t.lineCount)) ∧
    (∀ (p : Packet) (i : Fin 16), s.transit = [p] → p.thread.uid ≠ 0 → (s.context p.thread.ctx).saved = [] →
      (s.context p.thread.ctx).st = .active → (s.core p.dst).remapStep ≠ 3 →
      (s.core p.dst).ctx = some p.thread.ctx → (s.core p.dst).arrivals = [] → (s.core p.dst).spill = [] →
      (s.core p.dst).stopped = false → (s.core p.dst).lastAccept ≠ some s.cycle → s.freeSlot p.dst = some i →
      Completes (.arrival 0) s (fun u => u.transit = [] ∧ u.mem = s.mem ∧ (u.core p.dst).ls = (s.core p.dst).ls ∧
        ∃ w, u.threadAt p.dst i = some w ∧ w.st = .seeded ∧ w.uid = p.thread.uid ∧ w.pc = p.thread.pc ∧ w.g = p.thread.g ∧
          w.claim = ⟨1, [4 * (p.dst % 8) + i.val / 4]⟩ ∧ ∀ j : Fin 16, j ≠ i → u.threadAt p.dst j = s.threadAt p.dst j)) ∧
    (∀ (n : Nat) (p : Packet), s.transit[n]? = some p → mapGet (s.context p.thread.ctx).saved p.dst = none →
      (s.core p.dst).lastAccept = some s.cycle → exec (.arrival n) s = .next s)) ∧
  (∀ (s : State) (c : Nat),
    (s.freeSlot c = none → exec (.slotOffer c) s = .next s) ∧
    (∀ (i : Fin 16) (t : Thread) (r : List Thread), s.freeSlot c = some i → s.namesCore c = true → (s.core c).stopped = false →
      (s.core c).arrivals = t :: r → (s.core c).spill = [] → (s.core c).ctx = some t.ctx → t.uid ≠ 0 →
      Completes (.slotOffer c) s (fun u => (u.core c).arrivals = r ∧ u.mem = s.mem ∧
        ∃ w, u.threadAt c i = some w ∧ w.st = .seeded ∧ w.uid = t.uid ∧ w.pc = t.pc ∧ w.g = t.g)))

/-- R107, R234, R255: a thread that halts, with nothing outstanding, leaves its slot, and its entries leave every mailbox of its
context; its kernel has one live thread less, and its group one member less. -/
def Obligations.Halts : Prop :=
  ∀ (s : State) (k : Kernel) (g : Group), s.thread.isSome = true → s.th.pending = [] → s.th.dep = Vector.replicate 8 0 →
    s.th.beats = none → s.releasable s.cur s.th 5 = true → s.kernels = [k] → k.ctx = s.th.ctx → k.kid = s.th.kid → k.gang = none →
    k.node = none → (s.core s.cur).ctx = some s.th.ctx → s.groups = [g] → g.ctx = s.th.ctx → g.kid = s.th.kid → g.gid = s.th.gid → g.joins = [] →
    Completes .halt s (fun t => t.thread = none ∧ t.mem = s.mem ∧ (t.core s.cur).ls = (s.core s.cur).ls ∧
      (t.core s.cur).mailbox = (s.core s.cur).mailbox.filter (fun m => !(m.ktag == s.th.kid.truncate 12 && m.tt == s.th.tidx)) ++
        (t.core s.cur).mailbox.drop ((s.core s.cur).mailbox.filter (fun m => !(m.ktag == s.th.kid.truncate 12 && m.tt == s.th.tidx))).length ∧
      (∀ c, (s.core c).ctx = some s.th.ctx → ∀ m ∈ (t.core c).mailbox, m.ktag = s.th.kid.truncate 12 → m.tt ≠ s.th.tidx) ∧
      (∀ j : Fin 16, j ≠ s.slot → (t.threadAt s.cur j).isSome = (s.threadAt s.cur j).isSome) ∧
      (∃ k', t.kernels = [k'] ∧ k'.live = k.live - 1) ∧ ∃ g', t.groups = [g'] ∧ g'.pop = g.pop - 1)

/-! ### The group -/

/-- R244: `fork` pushes one task at the bottom of the own core's deque: its registers, its LIN from the group's counter, its
parent; the group and the kernel have one thread more; the entry that leaves the bottom 32 of the deque is written to its chunks;
a counter is counted up at its home, and kept for the task by its address; a full group traps (27). R17, R245: `join` on a counter
that reads 0 goes on and acquires; on another value it waits. What channel 0 carries to the counter before it is performed first.
-/
def Obligations.ForksAndJoins : Prop :=
  (∀ (s : State) (a b idx : Field) (off : BitVec 17) (k : Kernel) (g : Group), s.thread.isSome = true →
    s.kernels = [k] → k.ctx = s.th.ctx → k.kid = s.th.kid → s.groups = [g] → g.ctx = s.th.ctx → g.kid = s.th.kid → g.gid = s.th.gid →
    s.releasable s.cur s.th 5 = true →
    let pushes (i : Instr) (base : State) (joins : Word → List (Word × Nat)) : Prop := Completes i s (fun t => ∃ e : Task,
      e.pc = s.target idx off ∧ e.a1 = s.sources.g.toList.getD b.toNat 0 ∧ e.a2 = s.sources.g.toList.getD (b.toNat + 1) 0 ∧
      e.a3 = s.sources.g.toList.getD (b.toNat + 2) 0 ∧ e.a4 = s.sources.g.toList.getD (b.toNat + 3) 0 ∧
      e.lin = BitVec.ofNat 64 (g.gen.toNat * 2 ^ 32 + g.next) ∧ e.plin = s.th.lin ∧ e.kid = s.th.kid ∧ e.gid = s.th.gid ∧
      Passed (({ base with
          groups := [{ g with next := g.next + 1, pop := g.pop + 1, joins := joins e.lin }], kernels := [{ k with live := k.live + 1 }] }.setCore s.cur
        { s.core s.cur with deque := (s.core s.cur).deque ++ [DequeEntry.task e] }).spillDeque s.cur) s.th s.nextPc t)
    let full := g.pop = g.limit ∨ g.next ≥ 2 ^ 32
    (full → Completes (.fork 0 a b idx off) s (Trapped s 27 0)) ∧
    (¬full → pushes (.fork 0 a b idx off) s (fun _ => g.joins)) ∧
    (∀ e, s.check s.th (s.reg a) 4 .atomic false = .error e → Completes (.fork 1 a b idx off) s (Trapped s e (s.reg a))) ∧
    (∀ c o, s.check s.th (s.reg a) 4 .atomic false = .ok (.store c o) → Completes (.fork 1 a b idx off) s (Trapped s 22 (s.reg a))) ∧
    (∀ dva h, s.check s.th (s.reg a) 4 .atomic false = .ok (.device dva) → s.hit (clusterOf s.cur) s.th.ctx dva true = some h →
      s.reachable h = true → s.laneClear s.cur s.th.uid h.remote h.at_ h.addr 4 = true → s.unwatched (s.reg a) 4 true →
      s.unwatched (s.reg a) 4 false →
      (full → Completes (.fork 1 a b idx off) s (Trapped s 27 0)) ∧
      (¬full → pushes (.fork 1 a b idx off) (s.homeWrite s.th.ctx h 4 ((s.homeRead h 4 + 1) % 2 ^ 32)) (fun lin => g.joins ++ [(lin, dva)])) ∧
      (¬full → h.remote = false → (s.core s.cur).deque.length < 32 → Completes (.fork 1 a b idx off) s (fun t =>
        t.mem.num h.addr 4 = (s.mem.num h.addr 4 + 1) % 2 ^ 32 ∧ ∀ x, (x < h.addr ∨ h.addr + 4 ≤ x) → t.mem.read x = s.mem.read x)))) ∧
  (∀ (s : State) (a : Field) (dva : Nat) (h : Home), s.thread.isSome = true → s.th.blocked = none → s.th.granted = false →
    s.check s.th (s.reg a) 4 .read false = .ok (.device dva) → s.hit (clusterOf s.cur) s.th.ctx dva false = some h →
    s.reachable h = true → s.laneClear s.cur s.th.uid h.remote h.at_ h.addr 4 = true → s.unwatched (s.reg a) 4 false →
    (s.homeRead h 4 = 0 → Completes (.join a) s (Passed s.refreshed s.th s.nextPc)) ∧
    (s.homeRead h 4 ≠ 0 → Completes (.join a) s (ParkedFor s (.join dva))))

/-- R246, R248: a `resamp` whose N is 0 or above the group's limit, or in a concurrent launch above what its slots hold, traps
(28); one whose group already waits for another N traps (29); otherwise, with nothing outstanding, it arrives, with its weight,
and waits for the others. -/
def Obligations.Resamples : Prop :=
  ∀ (s : State) (d a : Field), s.thread.isSome = true → s.th.stage = 0 → s.boundaryDue s.cur s.th = false →
    let g := s.groupOf s.th
    let k := s.kernelOf s.th
    let n := (s.reg a).toNat
    (n = 0 ∨ n > g.limit → Completes (.resamp d a) s (Trapped s 28 0)) ∧
    (n ≠ 0 → n ≤ g.limit → k.desc.cls = 1 → n + (k.live - g.pop) > k.desc.quota * (s.eligible k).length →
      Completes (.resamp d a) s (Trapped s 28 0)) ∧
    (n ≠ 0 → n ≤ g.limit → (k.desc.cls = 1 → n + (k.live - g.pop) ≤ k.desc.quota * (s.eligible k).length) → s.th.pending = [] → s.th.dep = Vector.replicate 8 0 → s.th.beats = none →
      s.releasable s.cur s.th 5 = true →
      (∀ x r, g.arrivals = x :: r → x.n ≠ n → Completes (.resamp d a) s (Trapped s 29 0)) ∧
      ((∀ x ∈ g.arrivals, x.n = n) → Completes (.resamp d a) s (fun t => ParkedFor s (.resample g.gen) t ∧
        ∃ g', t = ({ s with cores := t.cores } : State).setGroup g' ∧ g'.pop = g.pop ∧
          g'.arrivals = g.arrivals ++ [⟨s.th.uid, s.th.lin.toNat % 2 ^ 32, s.th.w.toNat, n, d⟩]))) ∧
    (∀ u : State, u.thread.isSome = true → u.th.stage = 2 → u.th.granted = true →
      Completes (.resamp d a) u (Ended u.refreshed u.th d 0 u.nextPc))

/-- R249, R250: the comb: the members in ascending order of the comb index, with their weights, or 1 each where all are 0; each
takes the points that fall into its part of the sum, all of the N points are dealt, and none twice. R251, R252: a resample
completes only when every member of the group has arrived; it then starts the next generation, with as many members as the
collective asked for, and no arrival left. A member without a point leaves its slot; one with points stays with the first of them
as its LIN; for each further point there is a clone with its LIN, Seeded in a slot of the cluster or at the bottom of the member's
core's deque; with one clone, in the first free slot in the order of R252. -/
def Obligations.ResampleDealsAndCompletes : Prop :=
  (∀ (seed : Word) (gen : BitVec 32) (arr : List Arrival) (n : Nat), arr ≠ [] → 0 < n → (∀ a ∈ arr, a.n = n) →
    let dealt := comb seed gen arr
    let mix (x : Word) : Word := (x ^^^ (x >>> 32)) * 0xD6E8FEB86659FD93
    let y := mix (mix (seed ^^^ (gen.zeroExtend 64 * 0x9E3779B97F4A7C15)))
    let u := (y ^^^ (y >>> 32)).toNat / 2 ^ 32
    let weight (a : Arrival) : Nat := if (arr.map (·.w)).sum = 0 then 1 else a.w
    let sum := (arr.map weight).sum
    let x (j : Nat) : Nat := sum * (2 ^ 32 * j + u) / (n * 2 ^ 32)
    (dealt.map (·.1)).Perm (arr.map (fun a => { a with w := weight a })) ∧ (dealt.map (·.1)).Pairwise (fun a b => a.comb ≤ b.comb) ∧
    (dealt.map (fun m => m.2.2)).sum = n ∧
    ∀ i m j0 c, dealt[i]? = some (m, j0, c) → ∀ j, j < n →
      let below := ((dealt.take i).map (fun d => d.1.w)).sum
      (j0 ≤ j ∧ j < j0 + c ↔ below ≤ x j ∧ x j < below + m.w)) ∧
  ((∀ (s : State) (n : Nat) (g : Group), s.groups[n]? = some g → g.arrivals.length < g.pop → exec (.resampleComplete n) s = .next s) ∧
  ∀ (s : State) (g : Group) (k : Kernel) (n : Nat) (at_ : Nat → Nat × Fin 16) (th : Nat → Thread),
    s.groups = [g] → s.kernels = [k] → k.ctx = g.ctx → k.kid = g.kid → k.gang = none → k.node = none → k.bar = {} →
    g.bar = {} → g.joins = [] → s.tracing g.ctx 0 = false → g.arrivals ≠ [] → g.pop ≤ g.arrivals.length → 0 < n →
    (∀ x ∈ g.arrivals, x.n = n ∧ x.uid < s.nextUid ∧ s.locate x.uid = some (at_ x.uid) ∧ (s.core (at_ x.uid).1).ctx = some g.ctx ∧
      s.threadAt (at_ x.uid).1 (at_ x.uid).2 = some (th x.uid) ∧ (th x.uid).uid = x.uid ∧ (th x.uid).ctx = g.ctx) →
    (∀ c i t, s.threadAt c i = some t → ∀ x ∈ g.arrivals, t.uid = x.uid → (c, i) = at_ x.uid) → (g.arrivals.map (·.uid)).Nodup →
    let dealt := comb k.desc.rseed g.gen g.arrivals
    let gen := (g.gen + 1).toNat * 2 ^ 32
    let cloned (x : Arrival) (j m : Nat) (w : Thread) : Prop :=
      let t := th x.uid
      w.lin = BitVec.ofNat 64 (gen + j + m) ∧ w.tidx = BitVec.ofNat 32 (j + m) ∧ w.plin = t.lin ∧ w.pc = nextPc t.pc t.lineCount ∧ w.w = 1 ∧
      w.tm = t.tm ∧ w.kid = t.kid ∧ w.gid = t.gid ∧ w.dep = Vector.replicate 8 0 ∧ w.claim.req = 1 ∧
      (∀ r : Fin 16, t.tm.getLsbD r.val = true → w.g[r] = if x.dst.toNat = r.val then BitVec.ofNat 64 m else t.g[r])
    let seated (u : State) (x : Arrival) (j m q : Nat) (i : Fin 16) : Prop := ∃ w, u.threadAt q i = some w ∧ w.st = .seeded ∧ cloned x j m w ∧
      w.claim.strips = [4 * (q % 8) + i.val / 4] ∧ ∀ r : Fin 16, w.g[r] = if x.dst.toNat = r.val then BitVec.ofNat 64 m else (th x.uid).g[r]
    let queued (u : State) (x : Arrival) (j m : Nat) : Prop := ∃ w, DequeEntry.clone w ∈ (u.core (at_ x.uid).1).deque ∧ cloned x j m w
    Completes (.resampleComplete 0) s (fun u =>
      (∃ g', u.groups = [g'] ∧ g'.gen = g.gen + 1 ∧ g'.pop = n ∧ g'.next = n ∧ g'.arrivals = [] ∧ g'.limit = g.limit) ∧
      (∃ k', u.kernels = [k'] ∧ k'.live = k.live + n - g.arrivals.length) ∧
      (∀ x j c, (x, j, c) ∈ dealt →
        (c = 0 → ∀ q i w, u.threadAt q i = some w → w.uid ≠ x.uid) ∧
        (0 < c → ∃ w, u.threadAt (at_ x.uid).1 (at_ x.uid).2 = some w ∧ w.uid = x.uid ∧ w.granted = true ∧ w.w = 1 ∧
          w.plin = (th x.uid).lin ∧ w.lin = BitVec.ofNat 64 (gen + j) ∧ w.tidx = (th x.uid).tidx ∧ w.g = (th x.uid).g ∧
          w.claim = (th x.uid).claim) ∧
        ∀ m, 0 < m → m < c → (∃ q i, clusterOf q = clusterOf (at_ x.uid).1 ∧ seated u x j m q i) ∨ queued u x j m) ∧
      (∀ x, g.arrivals = [x] → n = 2 →
        let c := (at_ x.uid).1
        let far (q : Nat) : Nat := ((q : Int) - c).natAbs * 4096 + q
        let takes (q : Nat) : Prop := clusterOf q = clusterOf c ∧ (s.freeSlot q).isSome = true ∧ (s.core q).stopped = false ∧ s.openTo q g.ctx = true
        (∀ q i, takes q → s.freeSlot q = some i → (∀ r, takes r → far q ≤ far r) → seated u x 0 1 q i) ∧
        ((∀ q, ¬takes q) → queued u x 0 1))))

/-- R253, R254, R258: the group barrier. The last arrival completes the phase; an earlier one leaves it open; `bar.arrive` answers
the phase number that it arrived in; `bar.wait` goes on, and acquires, once that phase has completed, and waits before. R254,
R258: what barriers refuse: the kernel barrier outside a concurrent launch (30), a named barrier's count of 0 or above the limit
(31), and one that differs from that of the open phase (32). -/
def Obligations.Barriers : Prop :=
  (∀ (s : State) (d a b : Field) (g : Group), s.thread.isSome = true → s.th.stage = 0 → s.th.blocked = none →
    s.groups = [g] → g.ctx = s.th.ctx → g.kid = s.th.kid → g.gid = s.th.gid →
    let key := s.th.uid
    let waits (u : Option Thread) : Prop := ∀ t, u = some t → ∀ k i p, t.st ≠ .parked (.barrier k i p)
    (∀ c i, waits (s.threadAt c i)) → (∀ p ∈ s.contexts, p.2.saved = []) →
    s.releasable s.cur s.th 5 = true → s.boundaryDue s.cur s.th = false → key ∉ g.bar.arrived →
    (g.bar.arrived.length + 1 ≠ g.pop →
      Completes (.barArrive 0 d a b) s (Ended { s with groups := [{ g with bar := { g.bar with arrived := g.bar.arrived ++ [key] } }] }
        s.th d (g.bar.cph.zeroExtend 64) s.nextPc)) ∧
    (g.bar.arrived.length + 1 = g.pop → Completes (.barArrive 0 d a b) s (fun t =>
      (∃ g', t.groups = [g'] ∧ g'.bar.cph = g.bar.cph + 1 ∧ g'.bar.arrived = [] ∧ g'.pop = g.pop) ∧
      t.file d = written s d (g.bar.cph.zeroExtend 64) d ∧ t.mem = s.mem ∧ ∃ u, t.thread = some u ∧ u.pc = s.nextPc)) ∧
    (let tok : BitVec 32 := (s.reg a).truncate 32
     (1 ≤ (g.bar.cph - tok).toNat → (g.bar.cph - tok).toNat < 2 ^ 31 → Completes (.barWait 0 a b) s (Passed s.refreshed s.th s.nextPc)) ∧
     (g.bar.cph = tok → Completes (.barWait 0 a b) s (ParkedFor s (.barrier 0 0 tok)))) ∧
    (g.bar.arrived.length + 1 = g.pop → Completes (.barSync 0 a b) s (fun t =>
      (∃ g', t.groups = [g'] ∧ g'.bar.cph = g.bar.cph + 1 ∧ g'.bar.arrived = []) ∧ t.mem = s.mem ∧
      ∃ u, t.thread = some u ∧ u.pc = s.nextPc ∧ u.st = s.th.st))) ∧
  (∀ (s : State) (d a b : Field), s.thread.isSome = true → s.th.stage = 0 → s.boundaryDue s.cur s.th = false →
    let g := s.groupOf s.th
    let n := (s.reg b).toNat
    let bar := (mapGet g.named ((s.reg a).toNat % 16)).getD {}
    ((s.kernelOf s.th).desc.cls ≠ 1 → Completes (.barArrive 2 d a b) s (Trapped s 30 0) ∧ Completes (.barSync 2 a b) s (Trapped s 30 0)) ∧
    (n = 0 ∨ n > g.limit → Completes (.barArrive 1 d a b) s (Trapped s 31 0) ∧ Completes (.barSync 1 a b) s (Trapped s 31 0)) ∧
    (n ≠ 0 → n ≤ g.limit → s.releasable s.cur s.th 5 = true → bar.arrived ≠ [] → n ≠ bar.count →
      Completes (.barArrive 1 d a b) s (Trapped s 32 0) ∧ Completes (.barSync 1 a b) s (Trapped s 32 0)))

/-! ### Mailboxes, buffers, node records -/

/-- R259 to R262: `msend` sends a message with its target, its kernel's tag and its sender, and waits for the reply; `mwait` goes
on when an entry matches; `mpop` takes the oldest entry that matches, and answers 0 and all ones where there is none. R259 to
R261: a message that arrives at a core of its kernel with room becomes the youngest entry of the mailbox, seen from the next cycle
on, and is acknowledged; at a full mailbox it goes back to its sender; at a core that another context holds it is refused; at the
interface of a core that a remap is copying it is held (R401). -/
def Obligations.Messages : Prop :=
  (∀ (s : State) (t c v d m : Field) (any own : BitVec 1), s.thread.isSome = true → s.th.blocked = none →
    (s.th.stage = 0 → ((s.reg c).toNat ≥ 4096 ∨ s.coreOk s.th.ctx (s.reg c).toNat = false) →
      Completes (.msend any t c v) s (Trapped s 26 0)) ∧
    (s.th.stage = 0 → (s.reg c).toNat < 4096 → s.coreOk s.th.ctx (s.reg c).toNat = true → s.releasable s.cur s.th 5 = true →
      Completes (.msend any t c v) s (fun u => ParkedFor s .reply u ∧ ∃ x : Msg, ∃ e : Mail, u.msgs = s.msgs ++ [x] ∧
        x.src = s.cur ∧ x.dst = (s.reg c).toNat ∧ x.body = .mail e false ∧ e.d = s.reg v ∧ e.kind = 0 ∧
        e.tt = (if any = 1 then 0xFFFFFFFF else (s.reg t).truncate 32) ∧ e.ktag = s.th.kid.truncate 12 ∧
        e.sender = BitVec.ofNat 12 s.cur)) ∧
    (s.th.stage = 2 → s.th.granted = true → Completes (.msend any t c v) s (Passed s s.th s.nextPc)) ∧
    (s.th.stage = 2 → s.th.granted = false → s.th.refused = true → Completes (.msend any t c v) s (Trapped s 23 0)) ∧
    ((s.core s.cur).mailbox.any (s.mailSeen s.th (own == 1)) = true → Completes (.mwait own) s (Passed s s.th s.nextPc)) ∧
    ((s.core s.cur).mailbox.any (s.mailSeen s.th (own == 1)) = false → Completes (.mwait own) s (ParkedFor s (.mail (own == 1)))) ∧
    ((s.core s.cur).mailbox.any (s.mailSeen s.th (own == 1)) = false → Completes (.mpop own d m) s (fun u =>
      (∀ f, u.file f = if f = m ∧ discards m = false then 0xFFFFFFFFFFFFFFFF else written s d 0 f) ∧ u.mem = s.mem ∧
      ∃ w, u.thread = some w ∧ w.pc = s.nextPc)) ∧
    (∀ e r, (s.core s.cur).mailbox = e :: r → (s.core s.cur).held = [] → s.mailSeen s.th (own == 1) e = true →
      Completes (.mpop own d m) s (fun u => (u.core s.cur).mailbox = r ∧
        (∀ f, u.file f = if f = m ∧ discards m = false then
            BitVec.ofNat 64 (e.tt.toNat + (e.ktag.toNat + e.kind.toNat * 2 ^ 12) * 2 ^ 32 + e.sender.toNat * 2 ^ 48)
          else written s d e.d f) ∧ u.mem = s.mem ∧ ∃ w, u.thread = some w ∧ w.pc = s.nextPc))) ∧
  (∀ (s : State) (k : Nat) (m : Msg) (e : Mail), s.msgAt k = some m → m.body = .mail e false → (s.context m.ctx).saved = [] →
    let q := s.core m.dst
    let back (b : MsgBody) : List Msg := listDel s.msgs k ++ [{ m with
      src := m.dst, dst := m.src, srcLeaf := m.dstLeaf, dstLeaf := m.srcLeaf, body := b, held := false, since := s.cycle }]
    (q.remapStep = 3 → exec (.mailboxArrival k) s = .next { s with msgs := listDel s.msgs k ++ [{ m with held := true }] }) ∧
    (q.remapStep ≠ 3 →
    (∀ y, q.ctx = some y → y ≠ m.ctx → exec (.mailboxArrival k) s = .next { s with msgs := back .nack }) ∧
    (q.ctx = some m.ctx → messages q.mailbox + messages q.held ≥ 24 ∨ q.mailbox.length ≥ 32 →
      exec (.mailboxArrival k) s = .next { s with msgs := back (.mail e true) }) ∧
    (q.ctx = some m.ctx → q.held = [] → e.kind = 0 → messages q.mailbox < 24 → q.mailbox.length < 32 → s.mailLive m.ctx e = true →
      exec (.mailboxArrival k) s = .next
        { s.setCore m.dst { q with mailbox := q.mailbox ++ [{ e with visible := s.cycle + 1 }] } with msgs := back (.ack none) })))

/-- R279, R280: `cb.wait` returns the head slot's address when it is Filled, makes it Held and moves HEAD on; `cb.release` frees
the oldest Held slot; `cb.put` copies a slot's bytes into a Free slot at TAIL, makes it Filled, moves TAIL on and acquires, and
waits for a slot before; a buffer that is not enabled, and a release with no slot Held, trap (36). -/
def Obligations.CircularBuffers : Prop :=
  ∀ (s : State) (n : BitVec 2) (d a : Field), s.thread.isSome = true → s.th.blocked = none →
    let k := s.core s.cur
    let b := k.cb[n.toFin]
    let la (j : Nat) : Word := BitVec.ofNat 64 (s.cur * 2 ^ 18 + b.base + 64 * (b.sz + 1) * j)
    (b.en = false → Completes (.cbwait n d) s (Trapped s 36 0) ∧ Completes (.cbrel n) s (Trapped s 36 0) ∧
      Completes (.cbput n d a) s (Trapped s 36 0)) ∧
    (b.en = true → b.slots.getD b.head .free = .filled → (∀ i u, s.threadAt s.cur i = some u → u.blocked = none) →
      Completes (.cbwait n d) s (Ended (s.setCore s.cur { k with cb := k.cb.set n.toNat { b with
        slots := listSet b.slots b.head .held, heldOrder := b.heldOrder ++ [b.head], head := (b.head + 1) % (b.cnt + 1) } n.isLt }).refreshed
        s.th d (la b.head) s.nextPc)) ∧
    (b.en = true → b.slots.getD b.head .free ≠ .filled → Completes (.cbwait n d) s (ParkedFor s (.cbFill n.toNat))) ∧
    (b.en = true → b.heldOrder = [] → Completes (.cbrel n) s (Trapped s 36 0)) ∧
    (∀ j r, b.en = true → b.heldOrder = j :: r → s.releasable s.cur s.th 5 = true → Completes (.cbrel n) s (fun t => ∃ g,
      let left : CircBuf := { b with
        slots := listSet b.slots j .free, heldOrder := r, freeTags := mapPut b.freeTags j g, freedAt := mapPut b.freedAt j s.cycle }
      Passed (s.setCore s.cur { k with cb := k.cb.set n.toNat left n.isLt }) s.th s.nextPc t)) ∧
    (∀ e, b.en = true → s.checkNear s.cur s.th (s.reg a) (64 * (b.sz + 1)) = .error e → Completes (.cbput n d a) s (Trapped s e (s.reg a))) ∧
    (∀ la, b.en = true → s.checkNear s.cur s.th (s.reg a) (64 * (b.sz + 1)) = .ok la → (s.reg a).toNat % 64 ≠ 0 →
      Completes (.cbput n d a) s (Trapped s 20 (s.reg a))) ∧
    (∀ la, b.en = true → s.checkNear s.cur s.th (s.reg a) (64 * (b.sz + 1)) = .ok la → (s.reg a).toNat % 64 = 0 →
      s.releasable s.cur s.th 5 = true → b.mayTake (.thread s.th.uid) s.cycle = false → Completes (.cbput n d a) s (ParkedFor s (.cbFree n.toNat))) ∧
    (∀ src, b.en = true → s.checkNear s.cur s.th (s.reg a) (64 * (b.sz + 1)) = .ok src → (s.reg a).toNat % 64 = 0 →
      s.releasable s.cur s.th 5 = true → b.mayTake (.thread s.th.uid) s.cycle = true →
      listClosed k (b.base + 64 * (b.sz + 1) * b.tail) (64 * (b.sz + 1)) = false →
      Completes (.cbput n d a) s (fun t =>
        (∀ x, x < 64 * (b.sz + 1) → (t.core s.cur).ls.read (b.base + 64 * (b.sz + 1) * b.tail + x) = k.ls.read (src % 2 ^ 18 + x)) ∧
        (∀ x, (x < b.base + 64 * (b.sz + 1) * b.tail ∨ b.base + 64 * (b.sz + 1) * b.tail + 64 * (b.sz + 1) ≤ x) →
          (t.core s.cur).ls.read x = k.ls.read x) ∧
        ∃ q, (q.cb[n.toFin]).slots = listSet (listSet b.slots b.tail .filling) b.tail .filled ∧
          (q.cb[n.toFin]).tail = (b.tail + 1) % (b.cnt + 1) ∧ Ended (s.setCore s.cur q).refreshed s.th d (la b.tail) s.nextPc t))

/-- R274, R275, R277: `nq.put`: the lowest Free record of the node takes the record's bytes, from the own local store or from
device memory, and becomes Ready, its address is returned, and the node's kernel has one more live thread; with no Free record it
waits. A record in another core's local store, and one whose end passes its own (log 57), traps (25), an address that is not a
multiple of 16 traps (20), a node that is not there traps (33), a node not deeper than the producer's traps (34); `nq.done` traps
for an address that is not that of the record held (35), and otherwise frees it: the node's kernel has one live thread less. -/
def Obligations.NodeQueues : Prop :=
  ∀ (s : State) (d a b : Field), s.thread.isSome = true → s.th.blocked = none →
    let k := s.kernelOf s.th
    let r := s.rootOf k
    (r.nodes[(s.reg a).toNat]? = none → Completes (.nqput d a b) s (Trapped s 33 0)) ∧
    (∀ v, r.nodes[(s.reg a).toNat]? = some v → v.depth ≤ s.depthOf k → Completes (.nqput d a b) s (Trapped s 34 0)) ∧
    (∀ v e, r.nodes[(s.reg a).toNat]? = some v → s.depthOf k < v.depth → s.checkSpan s.th (s.reg b) v.rsize .read = .error e →
      Completes (.nqput d a b) s (Trapped s e (s.reg b))) ∧
    (∀ v c o, r.nodes[(s.reg a).toNat]? = some v → s.depthOf k < v.depth → s.checkSpan s.th (s.reg b) v.rsize .read = .ok (.store c o) →
      (c ≠ s.cur ∨ o + v.rsize > 2 ^ 18) → Completes (.nqput d a b) s (Trapped s 25 (s.reg b))) ∧
    (∀ v p i, r.nodes[(s.reg a).toNat]? = some v → s.depthOf k < v.depth → 0 < v.rsize → s.checkSpan s.th (s.reg b) v.rsize .read = .ok p →
      (∀ c o, p = .store c o → c = s.cur ∧ o + v.rsize ≤ 2 ^ 18) →
      ((s.reg b).toNat % 16 ≠ 0 → Completes (.nqput d a b) s (Trapped s 20 (s.reg b))) ∧
      ((s.reg b).toNat % 16 = 0 → s.releasable s.cur s.th 5 = true → v.first .free = none →
        Completes (.nqput d a b) s (ParkedFor s (.nodeFree (s.reg a).toNat))) ∧
      ((s.reg b).toNat % 16 = 0 → s.releasable s.cur s.th 5 = true → v.first .free = some i →
        (v.waiters = [] ∨ v.waiters.head? = some s.th.uid) → s.laneEmpty →
        let place := v.pool + v.rsize * i
        (∀ x, place ≤ x → x < place + v.rsize → ∃ h, s.portHome x true = some h ∧ s.reachable h = true) →
        (∀ dva, p = .device dva → ∀ x, dva ≤ x → x < dva + v.rsize → ∃ h, s.portHome x false = some h ∧ s.reachable h = true) →
        let bytes := match p with | .store _ o => (s.core s.cur).ls.bytes o v.rsize | .device dva => s.portBytes dva v.rsize
        Completes (.nqput d a b) s (fun t => t.mem = (s.portPut place (toWords (v.rsize / 8) bytes)).mem ∧
          t.rmem = (s.portPut place (toWords (v.rsize / 8) bytes)).rmem ∧ t.file d = written s d (BitVec.ofNat 64 place) d ∧
          (∃ v', (t.kernelAt s.th.ctx r.kid).nodes[(s.reg a).toNat]? = some v' ∧ v'.records = listSet v.records i .ready) ∧
          (∀ q, s.kernel s.th.ctx v.kid = some q → v.kid ≠ r.kid → (t.kernelAt s.th.ctx v.kid).live = q.live + 1) ∧
          ∃ u, t.thread = some u ∧ u.pc = s.nextPc))) ∧
    (∀ v o (q : Kernel) h, s.kernels = [q] → q.ctx = s.th.ctx → q.kid = s.th.kid → q.root = none → q.node = none → q.nodes = [v] →
      (s.reg a).toNat = 0 → v.kid ≠ q.kid → 0 < v.depth → v.rsize = 16 → v.waiters = [] → v.records = [.free] → v.tags = [] →
      v.pool % 4096 = 0 → s.checkSpan s.th (s.reg b) 16 .read = .ok (.store s.cur o) → o + 16 ≤ 2 ^ 18 → (s.reg b).toNat % 16 = 0 →
      s.releasable s.cur s.th 5 = true → s.hit (clusterOf s.cur) s.th.ctx v.pool true = some h →
      s.hit (clusterOf s.cur) s.th.ctx (v.pool + 8) true = some { h with addr := h.addr + 8 } → h.remote = false → s.laneEmpty →
      Completes (.nqput d a b) s (fun t => (∀ x, x < 16 → t.mem.read (h.addr + x) = (s.core s.cur).ls.read (o + x)) ∧
        (∀ x, (x < h.addr ∨ h.addr + 16 ≤ x) → t.mem.read x = s.mem.read x) ∧
        (∃ q' v', t.kernels = [q'] ∧ q'.nodes = [v'] ∧ v'.records = [.ready]) ∧
        t.file d = written s d (BitVec.ofNat 64 v.pool) d ∧ ∃ u, t.thread = some u ∧ u.pc = s.nextPc)) ∧
    (s.heldRecord s.th = none → Completes (.nqdone a) s (Trapped s 35 0)) ∧
    (∀ n v i, s.heldRecord s.th = some (n, v, i) → s.reg a ≠ BitVec.ofNat 64 (v.pool + v.rsize * i) →
      Completes (.nqdone a) s (Trapped s 35 0)) ∧
    (∀ n v i, s.heldRecord s.th = some (n, v, i) → s.reg a = BitVec.ofNat 64 (v.pool + v.rsize * i) → s.releasable s.cur s.th 5 = true →
      Completes (.nqdone a) s (fun t => t.mem = s.mem ∧ (∃ u, t.thread = some u ∧ u.pc = s.nextPc) ∧ (∀ f, t.file f = s.file f) ∧
        (∃ v', (t.kernelAt s.th.ctx r.kid).nodes[n]? = some v' ∧ v'.records = listSet v.records i .free ∧
          v'.holders = mapDel v.holders i) ∧
        (∀ q, s.kernel s.th.ctx v.kid = some q → v.kid ≠ r.kid → (t.kernelAt s.th.ctx v.kid).live = q.live - 1) ∧
        ∃ ks, t = { s with kernels := ks, cores := t.cores }))

/-- R264: `stepmark` resets the critical path of the thread; with no trace session it writes 0 to its destination. R374, R385,
R386, R391, R393, R395, R397: trace sessions open and close; a sampling pulse that is not due records nothing; the debug module's
STOP; a correction of TIME by a step or a slew, which takes what an earlier slew has left; a counter that overflows wraps and
keeps that it has; a record is appended where it fits, with room for one more, and else counted as dropped. What the events of a
cycle add to a counter is added as the next cycle begins, or by this step: the model's choice (log 69). -/
def Obligations.TracesAndTime : Prop :=
  (∀ (s : State) (d a : Field), s.thread.isSome = true → s.th.stage = 0 → s.boundaryDue s.cur s.th = false →
    s.tracing s.th.ctx 0 = false →
    Completes (.stepmark d a) s (Ended s { s.th with cptTime := 0, cptPtr := 0 } d 0 s.nextPc)) ∧
  (∀ (s : State),
    (∀ q k p b, s.offered q k p →
      let u := s.passedPacket q k (bytesNum p 16 8)
      let f := bytesNum b
      bytesNum p 0 1 = 7 → s.fetchBytes k.ctx (bytesNum p 8 8) 8 = .ok b → u.fetchBytes k.ctx (bytesNum p 8 8) 8 = .ok b →
      traceBad b = false →
      (f 0 1 = 0 → (s.context k.ctx).session = none → exec (.traceOpen q) s = .next
        (((u.agentWrite k.ctx (f 24 8) 8 0).setContext k.ctx { s.context k.ctx with session := some {
          ring := f 8 8, size := f 16 8, head := f 24 8, src := BitVec.ofNat 8 (f 1 1), per := f 2 1, queue := q, start := s.cycle
          } }).endPacket q k.ri 0)) ∧
      (f 0 1 = 0 → (s.context k.ctx).session ≠ none → exec (.traceOpen q) s = .next (u.endPacket q k.ri 12)) ∧
      (f 0 1 = 1 → (s.context k.ctx).session = none → exec (.traceClose q) s = .next (u.endPacket q k.ri 0)) ∧
      (f 0 1 = 1 → (s.context k.ctx).session ≠ none → Completes (.traceClose q) s (fun t => (t.context k.ctx).session = none ∧
        t.cores = s.cores))) ∧
    (∀ x, (s.context x).session = none → exec (.samplingPulse x) s = .next s) ∧
    (∀ x ss, (s.context x).session = some ss → s.cycle < ss.start + (ss.samples + 1) * 2 ^ ss.per →
      exec (.samplingPulse x) s = .next s) ∧
    (∀ x ss, (s.context x).session = some ss → ss.src.getLsbD 1 = true → ss.per ≠ 0 → ss.start + (ss.samples + 1) * 2 ^ ss.per ≤ s.cycle →
      Completes (.samplingPulse x) s (fun t => t.cores = s.cores ∧
        ∃ w, (t.context x).session = some { ss with samples := ss.samples + 1, word := w })) ∧
    (∀ c, Completes (.dbgctlStop c) s (fun t => (t.core c).stopped = true ∧ (t.core c).slots = (s.core c).slots ∧
        (t.core c).ls = (s.core c).ls) ∧
      exec (.dbgctlResume c) s = .next (s.setCore c { s.core c with stopped := false })) ∧
    (∀ (o : Nat) (r : Int), s.package.logging = false → 0 < o → o ≤ 65536 → s.contexts = [] → exec (.timeCorrection o r) s = .next
      { s with package := { s.package with time := { s.package.time with acc := s.package.time.acc + o * 2 ^ 24 } } }) ∧
    (∀ o r : Int, s.package.logging = false → o < 0 ∨ 65536 < o → -8388 ≤ r → r ≤ 8388 → s.contexts = [] →
      let rest := s.package.time.slew + o * 2 ^ 24
      (r ≠ 0 → (rest < 0 ↔ r < 0) → exec (.timeCorrection o r) s = .next
        { s with package := { s.package with time := { s.package.time with rate := r, slew := rest } } }) ∧
      (r = 0 ∨ (rest < 0 ∧ 0 < r) ∨ (0 ≤ rest ∧ r < 0) → exec (.timeCorrection o r) s = .next s)) ∧
    (∀ c (n : Fin 4), let owed := s.owed.filter (fun o => o.1 == c && o.2.1 == n)
      let count := bits ((s.core c).pmc[n]) 47 0
      let due := (owed.map (·.2.2.2)).sum
      (count + due < 2 ^ 48 ∨ owed = [] → exec (.pmcOverflow c n.val) s = .next s) ∧
      ((s.core c).ctx = none → owed ≠ [] → 2 ^ 48 ≤ count + due → count + due < 2 ^ 49 →
        Completes (.pmcOverflow c n.val) s (fun t => bits ((t.core c).pmc[n]) 47 0 = count + due - 2 ^ 48 ∧
          ((t.core c).pmc[n]).getLsbD 63 = true ∧ t.wrapped c n = some ((s.core c).pmc[n]) ∧ t.mem = s.mem ∧
          t.owed.filter (fun o => o.1 == c && o.2.1 == n) = []))) ∧
    (∀ x ss h (ws : List Word), (s.context x).session = some ss → s.agentPeek x ss.head = some h →
      let n := ws.length / 4
      let u := h % 2 ^ 40
      (u + n + 1 ≤ ss.size / 32 → (s.append x ws false).2 = some (ss.ring + 32 * u)) ∧
      (ss.size / 32 < u + n + 1 → s.append x ws false = (s.putHead x ss (min (h / 2 ^ 40 + 1) (2 ^ 24 - 1) * 2 ^ 40 + u), none))))

/-! ### Vectors -/

/-- R58, R179, R181, R189: a write of elements of a vector register: the elements named below VL, and no other element and no
other register; the turn of a pending beat counts the beats down, and the last of them writes. -/
def Obligations.VectorWrites : Prop :=
  ∀ (t : Thread) (r : Fin 16) (es : List Nat) (f : Nat → BitVec 32),
    let u := t.vput [(r.val, es.map (fun e => (e, f e)))]
    (∀ q : Fin 16, q ≠ r → u.v[q] = t.v[q]) ∧
    (∀ e, e < t.vl → (u.v[r]).getD e 0 = if e ∈ es then f e else (t.v[r]).getD e 0) ∧
    ∀ s : State, s.thread = some t →
      (∀ ws n, t.beats = some ⟨n, ws⟩ → 2 ≤ n → Completes .pendingBeat s (fun v => OnlyThread s v ∧
        v.thread = some { t with beats := some ⟨n - 1, ws⟩ })) ∧
      (∀ ws, t.beats = some ⟨1, ws⟩ → Completes .pendingBeat s (fun v => OnlyThread s v ∧
        v.thread = some { t.vput ws with beats := none }))

/-- R189, R191, R192, R199 to R201: vector arithmetic: one result per active element, of 32 bits in one beat, or of 64 in four; a
floating-point result is the exact one rounded once. -/
def Obligations.VectorArithmetic : Prop :=
  ∀ (s : State) (i : Instr) (x : BitVec 4) (d a b c : Field), s.thread.isSome = true →
    let act := s.activeX x
    let rnd (F : Fmt) (v : FVal) : Nat := F.round (statRm s.th.stat) (statSat s.th.stat) v
    let v32 (w : BitVec 32) : FVal := fp32.decode w.toNat
    let v64 (w : Word) : FVal := fp64.decode w.toNat
    let narrow (four : Bool) (f : Nat → BitVec 32) : State → Prop := VectorEnded s four [((vreg d).val, act.map (fun e => (e, f e)))]
    let wide (f : Nat → Word) : State → Prop := VectorEnded s true (pairWrites d (act.map (fun e => (e, f e))))
    let least (p q : FVal) : Bool := p.below q
    let W := x.getLsbD 0
    (∀ f, vectorInt i = some (x, d, a, b, f) →
      (W = false → Completes i s (narrow false (fun e => f 32 (s.velem a e) (s.velem b e)))) ∧
      (W = true → Completes i s (wide (fun e => f 64 (s.velem64 a e) (s.velem64 b e))))) ∧
    (∀ four f, vectorFloat i = some (x, d, a, b, four, f) →
      (W = false → Completes i s (narrow four
        (fun e => BitVec.ofNat 32 (rnd fp32 (f (statRm s.th.stat) (v32 (s.velem a e)) (v32 (s.velem b e))))))) ∧
      (W = true → Completes i s (wide
        (fun e => BitVec.ofNat 64 (rnd fp64 (f (statRm s.th.stat) (v64 (s.velem64 a e)) (v64 (s.velem64 b e)))))))) ∧
    (W = false →
      Completes (.vfmin x d a b) s (narrow false (fun e =>
        let p := s.velem a e
        let q := s.velem b e
        if (v32 p).isNan || (v32 q).isNan then 0x7FC00000 else if least (v32 p) (v32 q) then p else q)) ∧
      Completes (.vfmax x d a b) s (narrow false (fun e =>
        let p := s.velem a e
        let q := s.velem b e
        if (v32 p).isNan || (v32 q).isNan then 0x7FC00000 else if least (v32 q) (v32 p) then p else q)) ∧
      Completes (.vffma x d a b c) s (narrow false (fun e => BitVec.ofNat 32 (rnd fp32
        (FVal.sum (statRm s.th.stat) [(v32 (s.velem a e)).mul (v32 (s.velem b e)), v32 (s.velem c e)]))))) ∧
    (W = true →
      Completes (.vfmin x d a b) s (wide (fun e =>
        let p := s.velem64 a e
        let q := s.velem64 b e
        if (v64 p).isNan || (v64 q).isNan then 0x7FF8000000000000 else if least (v64 p) (v64 q) then p else q)) ∧
      Completes (.vfmax x d a b) s (wide (fun e =>
        let p := s.velem64 a e
        let q := s.velem64 b e
        if (v64 p).isNan || (v64 q).isNan then 0x7FF8000000000000 else if least (v64 q) (v64 p) then p else q)) ∧
      Completes (.vffma x d a b c) s (wide (fun e => BitVec.ofNat 64 (rnd fp64
        (FVal.sum (statRm s.th.stat) [(v64 (s.velem64 a e)).mul (v64 (s.velem64 b e)), v64 (s.velem64 c e)])))))

/-- R202 to R206: conversion, comparison, selection, predicates, broadcast, slide, permutation and reductions. -/
def Obligations.VectorMoves : Prop :=
  ∀ (s : State) (x : BitVec 4) (d a b : Field), s.thread.isSome = true →
    let act := s.activeX x
    let vl := s.th.vl
    let rm := statRm s.th.stat
    let sat := statSat s.th.stat
    let v32 (w : BitVec 32) : FVal := fp32.decode w.toNat
    let puts (es : List Nat) (f : Nat → BitVec 32) : State → Prop := VectorEnded s false [((vreg d).val, es.map (fun e => (e, f e)))]
    let pred (k : BitVec 2) (f : Nat → Bool) : State → Prop :=
      Passed s { s.th.marked with vp := s.th.vp.set k.toNat ((List.range vl).map f) k.isLt } s.nextPc
    let src := act.map (s.velem a)
    let ends (v : Word) : State → Prop := Ended s s.th.marked d v s.nextPc
    (∀ c : BitVec 5, Completes (.vcvt x d a c) s (puts act (fun e =>
      let w := s.velem a e
      let formats : List Fmt := [fp16, bf16, e4m3, e5m2]
      let F := formats.getD ((c.toNat - 2) / 2) fp16
      let int (n : Nat) (lo hi indef : Int) : BitVec 32 := BitVec.ofNat 32 ((intoRange lo hi indef rm sat (v32 w)) % 2 ^ n).toNat
      if c = 0 then BitVec.ofNat 32 (fp32.round rm sat (.fin (decide (w.toInt < 0)) w.toInt.natAbs 0))
      else if c = 1 then int 32 (-2 ^ 31) (2 ^ 31 - 1) (-2 ^ 31)
      else if c.toNat < 10 ∧ c.toNat % 2 = 0 then BitVec.ofNat 32 (F.round rm sat (v32 w))
      else if c.toNat < 10 then BitVec.ofNat 32 (fp32.round rm sat (F.decode (w.toNat % 2 ^ (F.exp + F.frac + 1))))
      else if c = 10 then BitVec.ofNat 32 ((if sat then max (-128) (min 127 w.toInt) else w.toInt) % 256).toNat
      else if c = 11 then BitVec.ofNat 32 ((if sat then max 0 (min 255 w.toInt) else w.toInt) % 256).toNat
      else if c = 12 then BitVec.ofInt 32 (w.truncate 8).toInt
      else if c = 13 then BitVec.ofNat 32 (w.toNat % 256)
      else if c = 14 then int 8 (-128) 127 (-128)
      else int 8 0 255 0))) ∧
    (∀ (c : BitVec 4) (k : BitVec 2), Completes (.vcmp c k a b) s (pred k (fun e =>
      let p := s.velem a e
      let q := s.velem b e
      let lt := (v32 p).lt (v32 q)
      let un := (v32 p).isNan || (v32 q).isNan
      let eq := !un && !lt && !(v32 q).lt (v32 p)
      match c.toNat with
      | 0 => decide (p = q)
      | 1 => decide (p ≠ q)
      | 2 => decide (p.toInt < q.toInt)
      | 3 => decide (p.toInt ≤ q.toInt)
      | 4 => decide (p.toNat < q.toNat)
      | 5 => decide (p.toNat ≤ q.toNat)
      | 6 => eq
      | 7 => lt
      | 8 => lt || eq
      | _ => un))) ∧
    (∀ k : BitVec 2, Completes (.vsel k d a b) s (puts (List.range vl) (fun e =>
      if s.th.pelem k.toFin e = true then s.velem a e else s.velem b e))) ∧
    (∀ p q r : BitVec 2, Completes (.vpand p q r) s (pred p (fun e => s.th.pelem q.toFin e && s.th.pelem r.toFin e)) ∧
      Completes (.vpor p q r) s (pred p (fun e => s.th.pelem q.toFin e || s.th.pelem r.toFin e)) ∧
      Completes (.vpnot p q) s (pred p (fun e => !s.th.pelem q.toFin e))) ∧
    Completes (.vbcast x d a) s (puts act (fun e =>
      BitVec.ofNat 32 ((s.reg a).toNat + if x.getLsbD 0 then e else 0))) ∧
    (∀ k : BitVec 17, Completes (.vslide x d a b k) s (puts act (fun e =>
      if 0 ≤ (e : Int) + k.toInt ∧ (e : Int) + k.toInt < vl then s.velem a ((e : Int) + k.toInt).toNat else s.velem b e))) ∧
    Completes (.vperm x d a b) s (puts act (fun e =>
      if (s.velem b e).toNat < vl then s.velem a (s.velem b e).toNat else 0)) ∧
    (x.getLsbD 0 = false →
      Completes (.vredadd x d a) s (ends (BitVec.ofInt 64 (src.map (·.toInt)).sum)) ∧
      Completes (.vredmin x d a) s (ends (BitVec.ofInt 64 ((src.map (·.toInt)).foldl min (2 ^ 31 - 1)))) ∧
      Completes (.vredmax x d a) s (ends (BitVec.ofInt 64 ((src.map (·.toInt)).foldl max (-2 ^ 31))))) ∧
    (x.getLsbD 0 = true →
      Completes (.vredadd x d a) s (ends (if src = [] then 0 else BitVec.ofNat 64 (fp32.round rm sat (FVal.sum rm (src.map v32))))) ∧
      Completes (.vredmin x d a) s (ends (BitVec.ofNat 64 ((src.map (·.toNat)).foldl (fp32.pick false) 0x7F800000))) ∧
      Completes (.vredmax x d a) s (ends (BitVec.ofNat 64 ((src.map (·.toNat)).foldl (fp32.pick true) 0xFF800000))))

/-- R47, R48, R207: the special functions of the active elements, in four beats, and what each gives for every input that the
table of R48 lists; under saturation an infinite result is the largest finite value of its sign; `vrcp` and `vsqrt` are the
reciprocal and the root rounded once. The other five on ordinary inputs: R46, in SpecialAccuracy. -/
def Obligations.VectorSpecials : Prop :=
  (∀ (s : State) (i : Instr) (p d a : Field) (f : Bool → Nat → Nat), s.thread.isSome = true →
    vectorSpecial (statRm s.th.stat) i = some (p, d, a, f) →
    Completes i s (VectorEnded s true [((vreg d).val, (s.th.active (p.getLsbD 4) (p.extractLsb' 0 2).toFin).map (fun e =>
      (e, BitVec.ofNat 32 (f (statSat s.th.stat) (s.velem a e).toNat))))])) ∧
  (∀ (sat : Bool) (w : Nat), w < 2 ^ 32 →
    let x := fp32.decode w
    let finite := w / 2 ^ 23 % 256 ≠ 255
    let inf (neg : Bool) : Nat := (if neg then 0x80000000 else 0) + (if sat then 0x7F7FFFFF else 0x7F800000)
    let nan : Nat := 0x7FC00000
    let one (neg : Bool) : Nat := if neg then 0xBF800000 else 0x3F800000
    let exp2 := exp2Value sat w
    let log2 := log2Value sat w
    let rsq := rsqValue sat w
    let sinpi := trigValue false sat w
    let cospi := trigValue true sat w
    let is (r : Nat) (y : ℚ) : Prop := r < 2 ^ 32 ∧ r / 2 ^ 23 % 256 ≠ 255 ∧ (fp32.decode r).rat = y
    (x = .nan → exp2 = nan ∧ log2 = nan ∧ rsq = nan ∧ sinpi = nan ∧ cospi = nan) ∧
    (x = .inf false → exp2 = inf false ∧ log2 = inf false ∧ rsq = 0 ∧ sinpi = nan ∧ cospi = nan) ∧
    (x = .inf true → exp2 = 0 ∧ log2 = nan ∧ rsq = nan ∧ sinpi = nan ∧ cospi = nan) ∧
    (finite → x.rat = 0 → exp2 = one false ∧ log2 = inf true ∧ rsq = inf (decide (w ≥ 2 ^ 31)) ∧ sinpi = w ∧ cospi = one false) ∧
    (finite → x.rat < 0 → log2 = nan ∧ rsq = nan) ∧
    (finite → ∀ n : Int, x.rat = n → (-149 ≤ n → n < 128 → is exp2 (2 ^ n)) ∧ (0 < n → sinpi = 0) ∧ (n < 0 → sinpi = 0x80000000) ∧
      cospi = one (decide (n % 2 ≠ 0))) ∧
    (finite → ∀ n : Int, x.rat = n + 1 / 2 → sinpi = one (decide (n % 2 ≠ 0)) ∧ cospi = 0) ∧
    (finite → 128 ≤ x.rat → exp2 = inf false) ∧ (finite → x.rat < -150 → exp2 = 0) ∧
    (finite → -150 ≤ x.rat → x.rat < -149 → exp2 = 0 ∨ exp2 = 1) ∧
    (finite → ∀ n : Int, x.rat = 2 ^ n → is log2 n ∧ (n = 0 → log2 = 0)) ∧
    (finite → ∀ n : Int, x.rat = 4 ^ n → is rsq (2 ^ (-n))) ∧
    (∀ rm : Nat,
      let rcp := fp32.round rm sat ((fp32.decode 0x3F800000).div x)
      let root := fp32.round rm sat x.sqrt
      (x = .nan → rcp = nan ∧ root = nan) ∧ (finite → x.rat = 0 → rcp = inf (decide (w ≥ 2 ^ 31)) ∧ root = w) ∧
      (x = .inf false → rcp = 0 ∧ root = inf false) ∧ (x = .inf true → rcp = 0x80000000 ∧ root = nan) ∧
      (finite → x.rat < 0 → root = nan)))

/-- R46, R322: the five faithful functions on ordinary inputs: each result is one of the two FP32 values that bracket the true
one, and the true one where FP32 holds it; and the alpha code of a splat is at most 256·α₀·e^(−q/2), and below it by less than one
unit (and 2⁻¹⁰⁰⁰, the precision to which the model computes it), or 255. -/
def Obligations.SpecialAccuracy : Prop :=
  (∀ (sat : Bool) (w : Nat), w < 2 ^ 32 → w / 2 ^ 23 % 256 ≠ 255 →
    let x : ℝ := ((fp32.decode w).rat : ℝ)
    (x < 128 → Brackets ((2 : ℝ) ^ x) (exp2Value sat w)) ∧
    (0 < x → Brackets (Real.logb 2 x) (log2Value sat w) ∧ Brackets (1 / √x) (rsqValue sat w)) ∧
    Brackets (Real.sin (Real.pi * x)) (trigValue false sat w) ∧ Brackets (Real.cos (Real.pi * x)) (trigValue true sat w)) ∧
  (∀ (w q r : Nat), w < 2 ^ 31 → w / 2 ^ 23 % 256 ≠ 255 → 0 < r →
    let y : ℝ := 256 * ((fp32.decode w).rat : ℝ) * Real.exp (-((q : ℝ) / r) / 2)
    let a8 := alphaCode (fp32.decode w) q r
    (a8 : ℝ) ≤ y ∧ a8 ≤ 255 ∧ (a8 = 255 ∨ y < a8 + 1 + 1 / 2 ^ 1000))

/-- R320 to R324, R331: rays. The box test passes exactly where some point of the ray, within the widened interval, lies in the
enlarged box; TRITEST is R324's; a triangle's hit replaces the current one by its key; a splat contributes by R322, and the
k-buffer keeps the smallest keys in order, of five the largest pushed out into D, by the table Q; `vrtri` runs TRITEST for every
active element against a triangle of the own local store, whose checks come first. -/
def Obligations.RayTests : Prop :=
  (∀ w : Nat → BitVec 32,
    let f (i : Nat) : FVal := fp32.decode (w i).toNat
    let v (i : Nat) : V3 := ⟨f i, f (i + 1), f (i + 2)⟩
    (boxTest (v 0) (v 3) (f 6) (f 7) (v 8) (v 11) = true ↔ boxPasses (v 0) (v 3) (f 6) (f 7) (v 8) (v 11)) ∧
    triTest (v 0) (v 3) (v 6) (v 9) (v 12) = tritest (v 0) (v 3) (v 6) (v 9) (v 12)) ∧
  (∀ (m prim : Memory) (r seg : Nat), seg < 2 ^ 16 →
    let f (m : Memory) (a : Nat) : FVal := fp32.decode (m.num a 4)
    let v (m : Memory) (a : Nat) : V3 := ⟨f m a, f m (a + 4), f m (a + 8)⟩
    let hit := tritest (v m r) (v m (r + 16)) (v prim 0) (v prim 12) (v prim 24)
    let id := seg * 2 ^ 16 + prim.num 36 4 % 2 ^ 16
    let better (t : Nat) : Prop := within (fp32.decode t) (f m (r + 12)) (f m (r + 28)) ∧
      ((fp32.decode t).lt (f m (r + 28)) = true ∨ id < m.num (r + 32) 4)
    let n := hitTri m r seg prim
    ((prim.num 36 4).testBit 16 = true ∨ hit = none → n = m) ∧
    (∀ t a b, hit = some (t, a, b) → ¬better t → n = m) ∧
    (∀ t a b, (prim.num 36 4).testBit 16 = false → hit = some (t, a, b) → better t →
      n.num (r + 28) 4 = t ∧ n.num (r + 32) 4 = id ∧ n.num (r + 36) 4 = a ∧ n.num (r + 40) 4 = b ∧
      ∀ y, (y < r + 28 ∨ r + 44 ≤ y) → n.read y = m.read y)) ∧
  (∀ (m prim : Memory) (r seg : Nat), seg < 2 ^ 16 →
    let f (m : Memory) (a : Nat) : FVal := fp32.decode (m.num a 4)
    let v (m : Memory) (a : Nat) : V3 := ⟨f m a, f m (a + 4), f m (a + 8)⟩
    let splat := splatted (v m r) (v m (r + 16)) (f m (r + 12)) (f m (r + 28)) (v prim 0) ((List.range 6).map (fun i => f prim (12 + 4 * i))) (f prim 36)
    let id := seg * 2 ^ 16 + prim.num 40 4 % 2 ^ 16
    let entries (m : Memory) : List KEntry :=
      (List.range 4).map (fun i => (m.num (r + 64 + 16 * i) 4, m.num (r + 68 + 16 * i) 4, m.num (r + 72 + 16 * i) 4))
    let used (m : Memory) : List KEntry := (entries m).filter (fun e => e.2.1 != 0xFFFFFFFF)
    let le (a b : KEntry) : Prop := (fp32.decode a.1).lt (fp32.decode b.1) = true ∨ ((fp32.decode b.1).lt (fp32.decode a.1) = false ∧ a.2.1 ≤ b.2.1)
    let n := hitSplat m r seg prim
    (splat = none → n = m) ∧
    (∀ t a8, splat = some (t, a8) → id ≠ 0xFFFFFFFF → (used m).Pairwise le → (∀ e ∈ used m, (fp32.decode e.1).isNan = false ∧ e.2.2 < 256) →
      (used n).Pairwise le ∧ (∃ rest, entries n = used n ++ rest) ∧
      (∀ y, (y < r + 56 ∨ (r + 60 ≤ y ∧ y < r + 64) ∨ r + 128 ≤ y) → n.read y = m.read y) ∧
      ((used m).length < 4 → (used n).Perm ((t, id, a8) :: used m) ∧ n.num (r + 56) 4 = m.num (r + 56) 4) ∧
      ((used m).length = 4 → ∃ e, (e :: used n).Perm ((t, id, a8) :: used m) ∧ (∀ y ∈ used n, le y e) ∧
        n.num (r + 56) 4 = min 0xFFFFFFFF (m.num (r + 56) 4 + depthOfCode e.2.2)))) ∧
  (∀ a, a < 256 → 2 ^ (2 * depthOfCode a) * (256 - a) ^ 131072 ≤ 2 * 256 ^ 131072 ∧
    256 ^ 131072 < 2 * 2 ^ (2 * depthOfCode a) * (256 - a) ^ 131072) ∧
  (∀ (s : State) (x : BitVec 4) (d o r a : Field), s.thread.isSome = true →
    (∀ k, s.checkTriangle (s.reg a) = .error k → Completes (.vrtri x d o r a) s (Trapped s k (s.reg a))) ∧
    (∀ off, s.checkTriangle (s.reg a) = .ok off → s.unwatched (s.reg a) 40 false →
      (∀ k, k < 10 → listClosed (s.core s.cur) (off + 4 * k) 4 = false) →
      let p := (List.range 10).map (fun k => fp32.decode ((s.core s.cur).ls.num (off + 4 * k) 4))
      let f (g : Field) (n e : Nat) : FVal := fp32.decode (s.velem (g + BitVec.ofNat 5 n) e).toNat
      let v3 (g : Field) (e : Nat) : V3 := ⟨f g 0 e, f g 1 e, f g 2 e⟩
      ∃ hit : Nat → List (BitVec 32), (∀ e, rayResults (v3 o e) (v3 r e) (f o 3 e) (f r 3 e) p (hit e)) ∧
        Completes (.vrtri x d o r a) s (VectorEnded s true ((List.range 4).map (fun n =>
          ((vreg d).val + n, (s.activeX x).map (fun e => (e, (hit e).getD n 0))))))))

/-- R196 to R198: vector loads and stores, strided and indexed: of the own local store at once, each active element's word; of
device memory by one access per active element; a page that is not translated is waited for, with the elements and their data as
they were read at issue; loads of a CONST segment are served from the constant cache or fill it (which is free: log 13); with no
active element nothing is accessed; and the traps of the checks over all active elements, in their order. (A local access is
performed at its issue: log 54; the address of an element with a negative offset in a fault record: log 56. Both are the model's
choice.) -/
def Obligations.VectorMemory : Prop :=
  ∀ (s : State) (i : Instr) (write : Bool) (x : BitVec 4) (d a b : Field) (imm : BitVec 17) (off : Nat → Int), s.thread.isSome = true → s.th.vdata = none →
    let ea := s.reg a + imm.signExtend 64
    let strided (e : Nat) : Int := (ea.toNat % 2 ^ 61 : Nat) + e * (if x.getLsbD 0 then (s.reg b).toInt else 4)
    let indexed (e : Nat) : Int := (ea.toNat % 2 ^ 61 : Nat) + (s.velem b e).toInt
    (i = .vld x d a b imm ∧ write = false ∧ off = strided) ∨ (i = .vst x d a b imm ∧ write = true ∧ off = strided) ∨
      (i = .vldx x d a b imm ∧ write = false ∧ off = indexed) ∨ (i = .vstx x d a b imm ∧ write = true ∧ off = indexed) →
    let seg := segIndex ea
    let kd := s.th.kd[seg]
    let kind := kd.toNat / 2 ^ 62
    let granted := if write then kd.getLsbD 60 else kd.getLsbD 61
    let act := s.activeX x
    let at_ (e : Nat) : Nat := (s.th.kb[seg]).toNat + (off e).toNat
    let eaOf (e : Nat) : Word := BitVec.ofNat 64 (seg.val * 2 ^ 61 + (off e).toNat)
    let fits (e : Nat) : Prop := 0 ≤ off e ∧ off e + 3 ≤ (kd.toNat % 2 ^ 57 : Nat) ∧
      (kind = 1 → at_ e + 3 < 2 ^ 57) ∧ (kind = 2 → at_ e + 3 < 2 ^ 30 ∧ s.coreOk s.th.ctx (at_ e / 2 ^ 18) = true ∧
        s.coreOk s.th.ctx ((at_ e + 3) / 2 ^ 18) = true)
    let k := s.core s.cur
    let loads (vals : List (Nat × Word)) (n : Nat) : Thread := { s.th.marked with
      pending := s.th.pending ++ [{ seq := s.th.nextSeq, dst := .vector (vreg d).val, vals := vals, missing := n }], nextSeq := s.th.nextSeq + 1 }
    (∀ e r, act = e :: r → kind = 0 ∨ kind = 3 ∨ granted = false → Completes i s (Trapped s 22 (eaOf e))) ∧
    (∀ p e r, act = p ++ e :: r → kind = 1 ∨ kind = 2 → granted = true → (∀ e' ∈ p, fits e') → ¬fits e →
      Completes i s (Trapped s 21 (eaOf e))) ∧
    (∀ p e r, act = p ++ e :: r → kind = 2 → granted = true → (∀ e' ∈ act, fits e') → (∀ e' ∈ p, at_ e' / 2 ^ 18 = s.cur) →
      at_ e / 2 ^ 18 ≠ s.cur → Completes i s (Trapped s 25 (eaOf e))) ∧
    (∀ p e r, act = p ++ e :: r → kind = 1 ∨ kind = 2 → granted = true → (∀ e' ∈ act, fits e' ∧ (kind = 2 → at_ e' / 2 ^ 18 = s.cur)) →
      (∀ e' ∈ p, at_ e' % 4 = 0) → at_ e % 4 ≠ 0 → Completes i s (Trapped s 20 (eaOf e))) ∧
    (∀ p e r, act = p ++ e :: r → kind = 2 → granted = true → write = true →
      (∀ e' ∈ act, fits e' ∧ at_ e' / 2 ^ 18 = s.cur ∧ at_ e' % 4 = 0) → (∀ e' ∈ p, listClosed k (at_ e' % 2 ^ 18) 4 = false) →
      listClosed k (at_ e % 2 ^ 18) 4 = true → Completes i s (Trapped s 22 (eaOf e))) ∧
    (act = [] → Completes i s (Passed s s.th.marked s.nextPc)) ∧
    (kind = 2 → granted = true → (∀ e ∈ act, fits e ∧ at_ e / 2 ^ 18 = s.cur ∧ at_ e % 4 = 0 ∧
        listClosed k (at_ e % 2 ^ 18) 4 = false ∧ s.unwatched (eaOf e) 4 write) →
      (write = false → act ≠ [] →
        Completes i s (Passed s (loads (act.map (fun e => (e, BitVec.ofNat 64 (k.ls.num (at_ e % 2 ^ 18) 4)))) 0) s.nextPc)) ∧
      (write = true → Completes i s (fun t =>
        (∀ y, (∀ e ∈ act, y < at_ e % 2 ^ 18 ∨ at_ e % 2 ^ 18 + 4 ≤ y) → (t.core s.cur).ls.read y = k.ls.read y) ∧
        (∀ e ∈ act, (∀ e' ∈ act, e' ≠ e → at_ e' ≠ at_ e) →
          ∀ n, n < 4 → ((t.core s.cur).ls.read (at_ e % 2 ^ 18 + n)).toNat = (s.velem d e).toNat / 256 ^ n % 256) ∧
        ∃ m, Passed (s.withLs m) s.th.marked s.nextPc t))) ∧
    (kind = 1 → granted = true →
      (∀ e ∈ act, fits e ∧ at_ e % 4 = 0 ∧ s.unwatched (eaOf e) 4 write) → act ≠ [] →
      (∀ h : Nat → Home, (∀ e ∈ act, s.hit (clusterOf s.cur) s.th.ctx (at_ e) write = some (h e)) → (write = true ∨ kd.getLsbD 57 = false) → Completes i s (fun t =>
        ∃ as : List Access, as.map (fun y => (y.uid, y.op, y.remote, y.home, y.addr, y.size)) =
            act.map (fun e => (s.th.uid, if write then .store else .load, (h e).remote, (h e).at_, (h e).addr, 4)) ∧
          as.map (·.seq) = (List.range act.length).map (s.nextId + ·) ∧
          (write = true → as.map (·.data) = act.map (fun e => (s.velem d e).zeroExtend 64)) ∧
          (write = false → as.map (fun y => (y.elem, y.result)) = act.map (fun e => (e, some s.th.nextSeq))) ∧
          Passed { s with flight := s.flight ++ as, nextId := s.nextId + act.length }
            (if write then s.th.marked else loads [] act.length) s.nextPc t)) ∧
      (∀ h : Nat → Home, (∀ e ∈ act, s.hit (clusterOf s.cur) s.th.ctx (at_ e) write = some (h e)) → write = false → kd.getLsbD 57 = true →
        Completes i s (fun t => ∃ (vals : List (Nat × Word)) (as : List Access),
          vals.map (·.1) = act.filter (fun e => vals.any (·.1 == e)) ∧
          (∀ v ∈ vals, ∃ line, mapGet (s.cluster (clusterOf s.cur)).ccache (lineKey (h v.1)) = some line ∧
            v.2 = BitVec.ofNat 64 (leNat ((line.drop ((h v.1).addr % 64)).take 4))) ∧
          as.map (fun y => (y.uid, y.op, y.remote, y.home, y.addr, y.size, y.elem, y.result, y.cached)) =
            (act.filter (fun e => !vals.any (·.1 == e))).map (fun e => (s.th.uid, .load, (h e).remote, (h e).at_, (h e).addr, 4, e,
              some s.th.nextSeq, some (clusterOf s.cur))) ∧
          as.map (·.seq) = (List.range as.length).map (s.nextId + ·) ∧
          Passed { s with flight := s.flight ++ as, nextId := s.nextId + as.length, free := s.free + act.length }
            (loads vals as.length) s.nextPc t)) ∧
      ((∃ e ∈ act, s.hit (clusterOf s.cur) s.th.ctx (at_ e) write = none) → Completes i s (fun t =>
        ParkedFor s .walk t ∧ t.flight = s.flight ∧ ∃ u, t.thread = some u ∧
          u.vdata = some (act.map (fun e => (e, off e, if write then s.velem d e else 0))))))

/-- R180 to R183, R195: `vclaim` and `vrenew` renegotiate the claim: at most the strips asked for, in the order of their keys, the
home strip among them, each of them held and not under recall, or free and not wanted; a held strip is dropped, and a free one not
taken, only where as many as asked for with smaller keys are held; the values of every strip kept and those of a new strip zero,
and VL returned; `vfree` leaves the home strip alone with its elements zero; in matrix mode, and for a number that is not 1 to 32,
they trap. -/
def Obligations.Claims : Prop :=
  ∀ (s : State) (d a : Field), s.thread.isSome = true →
    let idle := s.th.beats = none ∧ ∀ p ∈ s.th.pending, ∃ f, p.dst = .scalar f
    let old := s.th.claim.strips
    let base := s.setTh s.th.marked
    let home := 4 * (s.cur % 8) + s.slot.val / 4
    let apart (p q : Nat) : Nat := ((p : Int) - q).natAbs
    let before (p q : Nat) : Prop := apart (p / 4) (home / 4) < apart (q / 4) (home / 4) ∨ (apart (p / 4) (home / 4) = apart (q / 4) (home / 4) ∧
      (apart p home < apart q home ∨ (apart p home = apart q home ∧ p < q)))
    let stays (q : Nat) : Prop := q ∈ old ∧ base.recalled s.cur s.slot q = false
    let free (q : Nat) : Prop := q < 32 ∧ base.pairFree s.cur s.slot q = true ∧ base.wanted s.cur q (s.slot.val % 4) = false
    let renegotiates (n : Nat) (t : State) : Prop := ∃ (u : Thread) (new : List Nat), u.claim = ⟨n, new⟩ ∧
      u = { s.th.marked with claim := u.claim, v := u.v, vp := u.vp } ∧ new.length ≤ n ∧ new.Nodup ∧
      (∀ q ∈ new, stays q ∨ free q) ∧ new.Pairwise before ∧ (home ∈ old → 0 < n → home ∈ new) ∧
      (∀ q, stays q → q ∉ new → new.length = n ∧ ∀ p ∈ new, stays p ∧ before p q) ∧
      (∀ q, free q → q ∉ new → new.length = n ∧ ∀ p ∈ new, stays p ∨ before p q) ∧
      (∀ q ∈ new, (∀ r : Fin 16, stripValues 0 new u.v[r] q = stripValues 0 old s.th.v[r] q) ∧
        ∀ r : Fin 4, stripValues false new u.vp[r] q = stripValues false old s.th.vp[r] q) ∧
      Ended s u d (BitVec.ofNat 64 (16 * new.length)) s.nextPc t
    (statM s.th.stat = true → Completes (.vclaim d a) s (Trapped s 18 0) ∧ Completes (.vrenew d) s (Trapped s 18 0) ∧
      Completes .vfree s (Trapped s 18 0)) ∧
    ((s.reg a).toNat = 0 ∨ (s.reg a).toNat > 32 → Completes (.vclaim d a) s (Trapped s 18 0)) ∧
    (idle → statM s.th.stat = false → old.Nodup → (∀ q ∈ old, q < 32) →
      (1 ≤ (s.reg a).toNat → (s.reg a).toNat ≤ 32 → Completes (.vclaim d a) s (renegotiates (s.reg a).toNat)) ∧
      Completes (.vrenew d) s (renegotiates s.th.claim.req) ∧
      Completes .vfree s (Passed s { s.th with
        claim := ⟨1, [4 * (s.cur % 8) + s.slot.val / 4]⟩, v := Vector.replicate 16 [], vp := Vector.replicate 4 []
        stat := setStat s.th.stat 6 false } s.nextPc))

/-! ### The tile -/

/-- R210, R219, R221 to R223: `mmode` sets the mode bit of a thread whose claim is its core's block; `mzero` zeroes a tile; `mop`,
`bload` and the passes join the latch queue of the core, or wait for room in it; what they refuse, `mop` and `bload` before the
waits of their sync tail; the legal pairs of formats and their depths (R43). (A source that runs on into the next core's store
traps 25: log 57; a fault of a scale table carries the address 0: log 58. Both are the model's choice.) -/
def Obligations.MatrixInstructions : Prop :=
  ∀ (s : State) (m tile : BitVec 1) (a b : Field) (y : BitVec 12), s.thread.isSome = true →
    let k := s.core s.cur
    let t := s.th
    let joined (j : LatchJob) : State := s.setCore s.cur { k with latch := { k.latch with queue := k.latch.queue ++ [j] } }
    let dep := if syncSe y then some (syncSet y) else none
    let block := ∀ q, q ∈ t.claim.strips ↔ q / 4 = s.cur % 8
    let idle := t.beats = none ∧ ∀ p ∈ t.pending, ∃ f, p.dst = .scalar f
    let legal : List (List (BitVec 4) × List (BitVec 4) × Nat × Bool) := [([0], [0, 1, 2, 3, 4], 1, false), ([1, 2], [1, 2, 3, 4], 2, false),
      ([3, 4], [3, 4], 4, false), ([8], [1, 2], 2, false), ([8], [3, 4], 8, false), ([5, 6], [5, 6], 4, true), ([7], [5], 8, true)]
    (∀ x y, mopPair x y = (legal.find? (fun r => (r.1.contains x && r.2.1.contains y) || (r.1.contains y && r.2.1.contains x))).map (·.2.2)) ∧
    (m = 1 → statM t.stat = false → ¬block → (∀ q ∈ t.claim.strips, q < 32) → Completes (.mmode m) s (Trapped s 18 0)) ∧
    (m = 0 ∨ statM t.stat = true ∨ block → idle →
      Completes (.mmode m) s (Passed s { t with stat := setStat t.stat 5 (m == 1) } s.nextPc)) ∧
    (statM t.stat = false → Completes (.mzero tile) s (Trapped s 18 0)) ∧
    (statM t.stat = true → Completes (.mzero tile) s (Passed s (t.vput ((List.range 4).map (fun q =>
      (8 + 4 * tile.toNat + q, (List.range t.vl).map (fun e => (e, 0)))))) s.nextPc)) ∧
    (t.stage = 2 → t.granted = true → Completes (.mop tile a y) s (Passed s t s.nextPc)) ∧
    (t.stage = 0 →
      (statM t.stat = false → Completes (.mop tile a y) s (Trapped s 18 0)) ∧
      (statM t.stat = true → mopPair t.fa t.fb = none → Completes (.mop tile a y) s (Trapped s 19 0)) ∧
      (statM t.stat = true → (mopPair t.fa t.fb).isSome = true → t.depsZero (syncWait y) = false →
        Completes (.mop tile a y) s (ParkedFor s (.depZero (syncWait y)))) ∧
      ((s.reg b).toNat = 0 ∨ (s.reg b).toNat % 8 ≠ 0 ∨ (s.reg b).toNat > 2048 / fmtBits t.fb ∨
          (t.fb = 8 ∧ (s.reg b).toNat % 64 ≠ 0) → Completes (.bload a b y) s (Trapped s 19 0)) ∧
      ((s.reg b).toNat ≠ 0 → (s.reg b).toNat % 8 = 0 → (s.reg b).toNat ≤ 2048 / fmtBits t.fb → (t.fb = 8 → (s.reg b).toNat % 64 = 0) →
        (∀ e, s.checkOwn s.cur t (s.reg a) (16 * (s.reg b).toNat * fmtBits t.fb / 8) = .error e →
          Completes (.bload a b y) s (Trapped s e (s.reg a))) ∧
        (∀ off, s.checkOwn s.cur t (s.reg a) (16 * (s.reg b).toNat * fmtBits t.fb / 8) = .ok off → t.fb = 8 →
          (t.sb.toNat % 8 ≠ 0 → Completes (.bload a b y) s (Trapped s 20 0)) ∧
          (t.sb.toNat % 8 = 0 → t.sb.toNat + 128 * (((s.reg b).toNat + 255) / 256) > 0x40000 →
            Completes (.bload a b y) s (Trapped s 21 0))))) ∧
    (t.stage = 0 → t.syncReady y →
      (k.latch.queue.length < 16 → k.latch.room = [] →
        (statM t.stat = true → (mopPair t.fa t.fb).isSome = true → t.mop = none → Completes (.mop tile a y) s (fun u => ParkedFor s .mop u ∧
          (u.core s.cur).latch = { k.latch with queue := k.latch.queue ++ [.mop t.uid] } ∧
          ∃ w r, u.thread = some w ∧ w.mop = some r ∧ w.dep = (t.counted y).dep ∧ r.tile = tile.toNat ∧ r.fa = t.fa ∧ r.fb = t.fb ∧
            r.step = 0 ∧ r.table = k.table.toList ∧ r.dep = dep ∧ w.aux = s.reg a)) ∧
        (∀ off, (s.reg b).toNat ≠ 0 → (s.reg b).toNat % 8 = 0 → (s.reg b).toNat ≤ 2048 / fmtBits t.fb →
          (t.fb = 8 → (s.reg b).toNat % 64 = 0 ∧ t.sb.toNat % 8 = 0 ∧ t.sb.toNat + 128 * (((s.reg b).toNat + 255) / 256) ≤ 0x40000) →
          s.checkOwn s.cur t (s.reg a) (16 * (s.reg b).toNat * fmtBits t.fb / 8) = .ok off →
          Completes (.bload a b y) s (Passed (joined (.bload off (s.reg b).toNat t.fb t.sb.toNat (dep.map (fun q => (t.uid, q)))))
            (t.counted y) s.nextPc)) ∧
        Completes (.bpass y) s (Passed (joined (.bpass (dep.map (fun q => (t.uid, q))))) (t.counted y) s.nextPc) ∧
        Completes (.bpassDrop y) s (Passed (joined (.drop (dep.map (fun q => (t.uid, q))))) (t.counted y) s.nextPc)) ∧
      (k.latch.hasRoom (.thread t.uid) = false → (statM t.stat = true → (mopPair t.fa t.fb).isSome = true →
          Completes (.mop tile a y) s (ParkedFor s .latchRoom)) ∧ Completes (.bpass y) s (ParkedFor s .latchRoom) ∧
        Completes (.bpassDrop y) s (ParkedFor s .latchRoom)))

/-- R44, R45, R211, R214 to R221: the latch queue of a core: its head starts a fill of an Empty latch that no ready pass takes
first, drops a Full one that no `mop` reads, or starts a `mop` on a Full one; a fill ends Full, with the panel's bytes; a pass
round makes its sources Passing and, at its end, their neighbours Full of what they held; a `mop` completes once it has run every
step, one or more cycles for each, and not before: each cell of its tile has then accumulated its products. (A fill reads its
bytes, and a trap at the start of a `mop` carries its address, as logs 58 and 59 say; a pass goes into a core whoever holds it:
log 61; the sign of a cell of zeros is as log 79 says.) -/
def Obligations.LatchSteps : Prop :=
  ∀ (s : State) (c : Nat),
    let k := s.core c
    let l := k.latch
    (l.queue = [] → exec (.latchQueueStart c) s = .next s) ∧
    (∀ off n fb sb dep q, l.queue = .bload off n fb sb dep :: q → l.st = .empty → l.coming = none →
      s.passReady (c / 8 * 8 + (c % 8 + 7) % 8) = false → exec (.latchQueueStart c) s = .next
      (s.setCore c { k with latch := { l with queue := q, st := .filling, fill := some (.bload off n fb sb dep) } })) ∧
    (∀ off n fb sb dep q, l.queue = .bload off n fb sb dep :: q → s.passReady (c / 8 * 8 + (c % 8 + 7) % 8) = true →
      exec (.latchQueueStart c) s = .next s) ∧
    (∀ q, l.queue = .drop none :: q → l.st = .full → l.rdr = 0 → exec (.latchQueueStart c) s = .next
      (s.setCore c { k with latch := { l with queue := q, st := .empty, k := 0 } })) ∧
    (∀ uid q (i : Fin 16) t r off, l.queue = .mop uid :: q → l.st = .full → slotOf k uid = some i → s.threadAt c i = some t →
      t.mop = some r → s.mopStart c t r = .ok off → Completes (.latchQueueStart c) s (fun u =>
        (u.core c).latch = { l with queue := q, rdr := l.rdr + 1 } ∧
        u.threadAt c i = some { t with mop := some { r with la := off, k := l.k, started := true, order := s.nextId, since := s.cycle } })) ∧
    (∀ uid q (i : Fin 16) t r e, l.queue = .mop uid :: q → l.st = .full → slotOf k uid = some i → s.threadAt c i = some t →
      t.mop = some r → s.mopStart c t r = .error e → Completes (.latchQueueStart c) s (fun u =>
        (u.core c).latch = { l with queue := q } ∧ ∃ w f, u.threadAt c i = some w ∧ w.st = .faulted ∧ w.fault = some f ∧ f.kind = e ∧ f.ea = t.aux)) ∧
    (∀ off n fb sb, l.fill = some (.bload off n fb sb none) → Completes (.fillComplete c) s (fun u =>
      (∀ x, x < 16 * n * fmtBits fb / 8 → (u.core c).latch.data.read x = k.ls.read (off + x)) ∧
      (fb = 8 → ∀ x, x < 128 * ((n + 255) / 256) → (u.core c).latch.scale.read x = k.ls.read (sb + x)) ∧
      (u.core c).latch.st = .full ∧ (u.core c).latch.k = n ∧ (u.core c).latch.lf = fb ∧ (u.core c).latch.fill = none ∧
      (u.core c).ls = k.ls ∧ u.mem = s.mem)) ∧
    let still := ∀ j, j / 8 = c / 8 → (s.core j).latch.coming = none
    (still → s.passReady c = true → (s.core (passDst c)).latch.st = .empty → Completes (.passRound (c / 8)) s (fun u =>
      (u.core c).latch.st = .passing ∧ (u.core c).latch.queue = l.queue.drop 1 ∧ (u.core (passDst c)).latch.coming = some l.passed ∧
      u.mem = s.mem)) ∧
    (∀ p, l.coming = some p → Completes (.passRound (c / 8)) s (fun u =>
      let z := (u.core c).latch
      z.data = p.data ∧ z.scale = p.scale ∧ z.k = p.k ∧ z.lf = p.lf ∧ z.st = .full ∧ z.coming = none ∧ u.mem = s.mem)) ∧
    (∀ j p, j / 8 = c / 8 → (s.core j).latch.coming = some p → l.coming = none → l.st = .passing → Completes (.passRound (c / 8)) s (fun u =>
      (u.core c).latch.st = .empty)) ∧
    (still → (∀ j, j / 8 = c / 8 → s.passReady j = false) → exec (.passRound (c / 8)) s = .next s) ∧
    (∀ (i : Fin 16) t r, s.threadAt c i = some t → t.mop = some r → r.started = true → t.hold = false → r.step = 0 →
      (∀ j : Fin 16, j ≠ i → ∀ u, s.threadAt c j = some u → u.mop = none) →
      ∀ d ints, mopPair r.fa r.fb = some (d, ints) →
      let o : MopOps := { fa := r.fa, fb := r.fb, d := d, ints := ints, panel := k.ls, la := r.la, sa := r.sa, b := l.data, bScale := l.scale
                          table := r.table, sat := statSat t.stat }
      let unit := if r.fa = 8 ∨ r.fb = 8 then 64 else d
      r.k % unit = 0 → r.k / unit ≤ 512 → t.vl = 64 → r.tile < 2 →
      (r.since + r.k / d ≤ s.cycle → Completes (.mopComplete c i.val) s (fun u => (u.core c).latch.rdr = l.rdr - 1 ∧
        ∃ w, u.threadAt c i = some w ∧ w.granted = true ∧ w.mop = none ∧
          (∀ q : Fin 16, q.val / 4 ≠ 2 + r.tile → w.v[q] = t.v[q]) ∧
          ∀ (y z : Nat) (q : Fin 16), y < 16 → z < 16 → q.val = 8 + 4 * r.tile + z % 4 →
            (w.v[q]).getD (4 * y + z / 4) 0 = accumulated o y z (r.k / unit) ((t.v[q]).getD (4 * y + z / 4) 0))) ∧
      (s.cycle < r.since + r.k / d → Completes (.mopComplete c i.val) s (fun u => (u.core c).latch.rdr = l.rdr ∧
        ∃ w q, u.threadAt c i = some w ∧ w.granted = t.granted ∧ w.mop = some q ∧ q.step < r.k / d)))

/-! ### System instructions -/

/-- R348, R349, R366: `cxsave` writes the thread's frame, 32 words, to its address and no other byte; `cxload` and `eret` load
every field of a frame, raise no privilege and leave matrix mode, claim and segment registers; a bad frame traps (45). These
choices are the model's: a frame that is not at a multiple of 64 traps (log 68), where `eret` is not refused at LEND (log 19), and
where the lending area stands in memory (log 11). -/
def Obligations.FibreFrames : Prop :=
  ∀ (s : State) (a : Field) (d : Nat) (h : Home), s.thread.isSome = true → statPriv s.th.stat ≠ 0 →
    d % 64 = 0 → d % 4096 ≤ 3840 → h.remote = false →
    let ea := s.reg a
    let y := s.th
    let mapped (w : Bool) : Prop := ∀ n, n < 256 → s.hit (clusterOf s.cur) y.ctx (d + n) w = some { h with addr := h.addr + n }
    let pair (lo hi : Nat) : Word := BitVec.ofNat 64 (lo + hi * 2 ^ 32)
    let frame : List Word := [s.nextPc, y.stat, y.lin, y.plin, pair y.kid.toNat y.gid.toNat, pair y.tidx.toNat y.w.toNat,
      pair (y.tm.toNat + y.fa.toNat * 2 ^ 16 + y.fb.toNat * 2 ^ 20) y.sa.toNat, pair y.sb.toNat 0, y.cptTime, y.cptPtr, 0, 0] ++
      y.g.toList
    let b := s.mem.bytes h.addr 256
    let W (n : Nat) : Word := frameWord b n
    let known := ∃ k ∈ s.kernels, k.ctx = y.ctx ∧ k.kid = (W 4).truncate 32 ∧ k.done = false
    let loads (i : Instr) : Prop := Completes i s (fun t => t.mem = s.mem ∧ (∀ c, (t.core c).ls = (s.core c).ls) ∧
      ∃ u, t.thread = some u ∧ u.pc = W 0 ∧ u.lin = W 2 ∧ u.plin = W 3 ∧ u.kid = (W 4).truncate 32 ∧
        u.gid = (W 4).extractLsb' 32 32 ∧ u.tidx = (W 5).truncate 32 ∧ u.w = (W 5).extractLsb' 32 32 ∧ u.tm = (W 6).truncate 16 ∧
        u.fa = (W 6).extractLsb' 16 4 ∧ u.fb = (W 6).extractLsb' 20 4 ∧ u.sa = (W 6).extractLsb' 32 32 ∧ u.sb = (W 7).truncate 32 ∧
        u.cptTime = W 8 ∧ u.cptPtr = W 9 ∧ (∀ r : Fin 16, u.g[r] = W (12 + r.val)) ∧
        statPriv u.stat = min (statPriv (W 1)) (statPriv y.stat) ∧ statM u.stat = statM y.stat ∧ statCP u.stat = statCP y.stat ∧
        statRm u.stat = statRm (W 1) ∧ statSat u.stat = statSat (W 1) ∧ u.kb = y.kb ∧ u.kd = y.kd ∧ u.claim = y.claim ∧ u.v = y.v)
    (s.checkGlobal y ea 256 .write = .ok d → ea.toNat % 64 = 0 → mapped true → y.pending = [] → y.dep = Vector.replicate 8 0 → s.laneEmpty →
      s.releasable s.cur y 5 = true → (∀ z ∈ s.dies.toList, ∀ e ∈ z.engines.toList, ∀ k ∈ e.commands, k.uid ≠ y.uid) →
      Completes (.cxsave a) s (fun t => (∀ n, n < 32 → t.mem.num (h.addr + 8 * n) 8 = (frame.getD n 0).toNat) ∧
        (∀ x, (x < h.addr ∨ h.addr + 256 ≤ x) → t.mem.read x = s.mem.read x) ∧
        ∃ u, t.thread = some u ∧ u.pc = s.nextPc ∧ u.g = y.g ∧ u.stat = y.stat ∧ u.batch.opened = 0)) ∧
    (s.checkGlobal y ea 256 .read = .ok d → ea.toNat % 64 = 0 → mapped false → s.laneEmpty → s.acked s.cur y.uid 5 = true →
      (frameOk b = true → known → loads (.cxload a)) ∧
      (frameOk b = false ∨ ¬known → Completes (.cxload a) s (fun t => ∃ u f, t.thread = some u ∧ u.st = .faulted ∧ u.fault = some f ∧
        f.kind = 45 ∧ f.ea = ea ∧ u.g = y.g ∧ u.pc = y.pc ∧ t.mem = s.mem))) ∧
    ((s.kernelOf y).desc.upcall ≠ 0 → d = s.package.lendBase + 512 * (16 * s.cur + s.slot.val) → mapped false → s.laneEmpty →
      s.acked s.cur y.uid 5 = true → frameOk b = true → known → loads .eret) ∧
    (∀ e, s.checkGlobal y ea 256 .write = .error e → Completes (.cxsave a) s (Trapped s e ea)) ∧
    (∀ e, s.checkGlobal y ea 256 .read = .error e → Completes (.cxload a) s (Trapped s e ea)) ∧
    (∀ q, ea.toNat % 64 ≠ 0 ∨ q % 64 ≠ 0 → (s.checkGlobal y ea 256 .write = .ok q → Completes (.cxsave a) s (Trapped s 20 ea)) ∧
      (s.checkGlobal y ea 256 .read = .ok q → Completes (.cxload a) s (Trapped s 20 ea)))

/-- R72, R350, R365, R367, R394: `trap` takes its trap with number, operand and destination in the record; `wfi` goes on where
there is work; `tlbinv` and `ptsync` remove cached translations, and `cflush` a code line; `brk` stops the core where STOPEN is
set, and records; `tmark` records. -/
def Obligations.SystemInstructions : Prop :=
  ∀ (s : State) (d a : Field), s.thread.isSome = true →
    let v := s.reg a
    let x := s.th.ctx
    let marked (code : Nat) : Word := BitVec.ofNat 64 ((s.slotEntity s.cur s.slot.val).toNat + code * 2 ^ 40)
    (∀ n : BitVec 16, Completes (.trap d a n) s (fun t => Trapped s 64 (n.zeroExtend 64) t ∧ ∃ u f, t.thread = some u ∧
      u.fault = some f ∧ f.dva = v ∧ f.dst = d ∧ f.resume = some s.nextPc)) ∧
    (statPriv s.th.stat ≠ 0 → s.work s.cur s.th = true → Completes .wfi s (Passed s s.th s.nextPc)) ∧
    (statPriv s.th.stat ≠ 0 → s.work s.cur s.th = false → Completes .wfi s (ParkedFor s .work)) ∧
    (statPriv s.th.stat = 2 → s.acked s.cur s.th.uid 5 = true →
      (s.th.stage = 0 → (∀ y ∈ s.flight, y.ctx ≠ x) → Completes (.tlbinv a) s (fun t =>
        (∀ cl e, e ∈ (t.cluster cl).tlb ∨ e ∈ (t.cluster cl).nonleaf → e.ctx = x →
          v.toNat < 2 ^ 57 ∧ e.page ≠ v.toNat / 2 ^ e.shift) ∧
        (∀ cl e, e ∈ (s.cluster cl).tlb → e.ctx ≠ x ∨ (v.toNat < 2 ^ 57 ∧ e.page ≠ v.toNat / 2 ^ e.shift) → e ∈ (t.cluster cl).tlb) ∧
        Passed { s with clusters := t.clusters } s.th s.nextPc t)) ∧
      Completes .ptsync s (fun t => (∀ cl e, e ∈ (t.cluster cl).nonleaf → e.ctx ≠ x) ∧
        (∀ cl, (t.cluster cl).tlb = (s.cluster cl).tlb) ∧ Passed { s with clusters := t.clusters } s.th s.nextPc t)) ∧
    (∀ dva h, checkFetch s.th (BitVec.ofNat 64 (v.toNat / 64 * 64)) = .ok dva → s.hit (clusterOf s.cur) x dva false = some h →
      s.acked s.cur s.th.uid 5 = true → Completes (.cflush a) s (fun t =>
        (∀ cl e, e ∈ (t.cluster cl).icache → ¬(e.1 = x ∧ e.2.1 = dva / 64)) ∧
        Passed { s with clusters := t.clusters } s.th s.nextPc t)) ∧
    (∀ e, checkFetch s.th (BitVec.ofNat 64 (v.toNat / 64 * 64)) = .error e →
      Completes (.cflush a) s (Trapped s e (BitVec.ofNat 64 (v.toNat / 64 * 64)))) ∧
    (∀ code : BitVec 4,
      let z := if (s.core s.cur).stopEn then s.setCore s.cur { s.core s.cur with stopped := true } else s
      (s.core s.cur).ctx = some x → Completes (.brk code) s (Passed
        (if s.tracing x 3 then (z.append x [recordHead 7 0 s.time, marked code.toNat, s.th.pc, 0] false).1 else z) s.th s.nextPc)) ∧
    (∀ code : BitVec 16, Completes (.tmark a code) s (Passed
      (if s.tracing x 4 then (s.append x [recordHead 8 0 s.time, marked code.toNat, v, 0] false).1 else s) s.th s.nextPc))

/-- R51, R65, R67, R122, R136, R343, R344: the line that a thread waits for comes from its home and is kept in the cluster's
cache; a walk that a thread waits for caches the leaf that it finds, or raises its fault at the access. -/
def Obligations.FetchAndWalk : Prop :=
  ∀ (s : State) (c : Nat) (i : Fin 16) (t : Thread), s.threadAt c i = some t →
    let cl := clusterOf c
    let a := t.pc.toNat / 64 * 64
    (∀ dva h, t.st = .parked .fetch → t.held = none → checkFetch t (BitVec.ofNat 64 a) = .ok dva →
      s.hit cl t.ctx dva false = some h → h.remote = false → s.poison = [] →
      let l : Line := BitVec.ofNat 512 (s.mem.num h.addr 64)
      l.ok (t.pc &&& 63).toNat = true → exec (.lineFetch c i.val) s = .next
        ((s.setCluster cl { s.cluster cl with icache := (t.ctx, dva / 64, l) :: (s.cluster cl).icache }).setSlot c i
          (some { t with held := some (a, l), fetchCount := 0 }))) ∧
    (∀ e, t.st = .parked .fetch → t.held = none → checkFetch t (BitVec.ofNat 64 a) = .error e →
      Completes (.lineFetch c i.val) s (fun u => u.mem = s.mem ∧ ∃ w f, u.threadAt c i = some w ∧ w.st = .faulted ∧
        w.fault = some f ∧ f.kind = e ∧ f.ea = BitVec.ofNat 64 a ∧ w.pc = t.pc)) ∧
    (∀ w up sh e h, t.walk = some w → s.portWalk cl t.ctx w.dva = up → s.judge t.ctx w.dva w.write false up.2 = .ok sh e h →
      s.reachable h = true ∨ s.pathLost h.at_ = false →
      Completes (.pageWalk c i.val) s (fun u => u.mem = s.mem ∧ u.threadAt c i = some { t with walk := none } ∧
        (⟨t.ctx, sh, w.dva / 2 ^ sh, e⟩ : TlbEntry) ∈ (u.cluster cl).tlb)) ∧
    (∀ w up k l, t.walk = some w → s.portWalk cl t.ctx w.dva = up → s.judge t.ctx w.dva w.write false up.2 = .fault k l →
      Completes (.pageWalk c i.val) s (fun u => u.mem = s.mem ∧ (u.cluster cl).tlb = (s.cluster cl).tlb ∧
        ∃ z f, u.threadAt c i = some z ∧ z.st = .faulted ∧ z.fault = some f ∧ f.kind = k ∧ f.level = l ∧ f.ea = w.ea ∧
          f.dva = BitVec.ofNat 64 w.dva))

/-! ### Copies -/

/-- R172, R285, R290 to R294: a copy instruction checks its block's address, counts its slot and waits for its engine, and for a
batch that it would have to close while sixteen are outstanding; `cpclose` closes the open batch; `cpwait` goes on when few enough
closed batches are outstanding, and acquires; `cpinval` and `cpinvalAll` drop cached blocks, and are Parked while they do;
`publish` waits for its swap. The checks come before the waits of the sync tail (R285). That a removal takes until the next cycle
is the model's choice (log 70). -/
def Obligations.CopyInstructions : Prop :=
  ∀ (s : State) (i : Instr) (a n : Field) (y : BitVec 12) (code : Nat), s.thread.isSome = true →
    let ea := s.reg a
    let t := s.th
    let b := t.batch
    let closed : BatchTracker :=
      if b.opened = 0 then b
      else { opened := 0, number := b.number + 1, live := 0, closed := if b.live = 0 then b.closed else b.closed ++ [(b.number, b.live)] }
    let room := b.opened = 0 ∨ b.live = 0 ∨ b.closed.length < 16
    let removing (P : Nat × Nat × Nat × List Byte → Prop) (u : State) : Prop :=
      ParkedFor { s with dies := u.dies } (.applying s.cycle) u ∧ (∃ w, u.thread = some w ∧ w.stage = 1) ∧
      ∀ e, e < 16 → ∀ z, z ∈ (u.engine (dieOf s.cur) e).cache ↔ z ∈ (s.engine (dieOf s.cur) e).cache ∧ ¬P z
    (copyForm i = some (a, y, code) →
      (t.stage = 2 → t.granted = true → Completes i s (Passed s t s.nextPc)) ∧
      (t.stage = 0 →
        (∀ e, s.checkGlobal t ea 64 .read = .error e → Completes i s (Trapped s e ea)) ∧
        (∀ d, s.checkGlobal t ea 64 .read = .ok d → ea.toNat % 64 ≠ 0 ∨ d % 64 ≠ 0 → Completes i s (Trapped s 20 ea)) ∧
        (∀ d, s.checkGlobal t ea 64 .read = .ok d → ea.toNat % 64 = 0 → d % 64 = 0 → t.depsZero (syncWait y) = false →
          Completes i s (ParkedFor s (.depZero (syncWait y)))) ∧
        (t.syncReady y → ∀ d, s.checkGlobal t ea 64 .read = .ok d → ea.toNat % 64 = 0 → d % 64 = 0 →
          (b.opened = 64 → b.live ≠ 0 → b.closed.length ≥ 16 → Completes i s (ParkedFor s .batchRoom)) ∧
          (b.opened ≠ 64 ∨ b.live = 0 ∨ b.closed.length < 16 → s.releasable s.cur t 5 = true →
            Completes i s (fun u => ParkedFor s .engine u ∧ ∃ w, u.thread = some w ∧ w.dep = (t.counted y).dep ∧ w.batch = b ∧
              w.aux = BitVec.ofNat 64 (4 * (8 * d + (segIndex ea).val) + code) ∧ w.stage = 2 ∧ w.granted = false))))) ∧
    (room → Completes .cpclose s (Passed s { t with batch := closed } s.nextPc)) ∧
    (room → t.blocked = none → closed.closed.length ≤ n.toNat → Completes (.cpwait n) s (Passed s.refreshed { t with batch := closed } s.nextPc)) ∧
    (room → closed.closed.length > n.toNat → Completes (.cpwait n) s (ParkedFor s (.batch n.toNat))) ∧
    (∀ e, s.checkGlobal t ea 64 .read = .error e → Completes (.cpinval a) s (Trapped s e ea)) ∧
    (∀ d, s.checkGlobal t ea 64 .read = .ok d →
      (ea.toNat % 64 ≠ 0 ∨ d % 64 ≠ 0 → Completes (.cpinval a) s (Trapped s 20 ea)) ∧
      (ea.toNat % 64 = 0 → d % 64 = 0 →
        (t.stage = 0 → s.cur < 4096 → Completes (.cpinval a) s (removing fun z => z.1 = t.ctx ∧ z.2.1 = d)) ∧
        (t.stage = 1 → Completes (.cpinval a) s (Passed s t s.nextPc)))) ∧
    (t.stage = 0 → s.cur < 4096 → Completes .cpinvalAll s (removing fun z => z.1 = t.ctx)) ∧
    (t.stage = 1 → Completes .cpinvalAll s (Passed s t s.nextPc)) ∧
    (∀ sc : BitVec 3,
      (t.stage = 2 → t.granted = true → Completes (.publish a sc y) s (Passed s t s.nextPc)) ∧
      (∀ dva e h, t.stage = 0 → t.syncReady y → s.check t ea 4 .write false = .ok (.device dva) →
        s.hit (clusterOf s.cur) t.ctx dva true = some h → tlbHit (s.cluster (clusterOf s.cur)) t.ctx dva true = some e →
        (e.entry.getLsbD 58 = false → Completes (.publish a sc y) s (Trapped s 39 ea)) ∧
        (e.entry.getLsbD 58 = true → Completes (.publish a sc y) s (fun u => ParkedFor s .publish u ∧
          ∃ w, u.thread = some w ∧ w.dep = (t.counted y).dep ∧ w.aux = BitVec.ofNat 64 (4096 * sc.toNat + e.entry.toNat % 4096)))))

/-- R172, R285, R287, R289: an engine with room accepts a good command of a waiting thread, which goes on, and a bad one traps and
leaves the engine and the batch as they were; a command's words are read and written; a command whose deliveries can be seen ends;
a swap selects the other frame of its region once the releases hold at its scope, and no constant cache keeps a line. The moments
at which a command's words are moved are the model's choice (log 55), and that an engine waits for a core that holds its requests
(log 73). -/
def Obligations.CopySteps : Prop :=
  ∀ (s : State) (c : Nat) (i : Fin 16) (t : Thread), s.threadAt c i = some t → c < 4096 →
    (∀ h sh en, t.st = .parked .engine → t.granted = false → t.hold = false → (s.engine (dieOf c) (engineOf c)).commands.length < 64 →
      s.overtakes c t = false → s.agentXlat t.ctx (t.aux.toNat / 32) false false = .ok sh en h → s.reachable h = true → (s.engine (dieOf c) (engineOf c)).cache = [] →
      let raw := leBytes (s.homeRead h 64) 64
      let b := if t.batch.opened = 64 then t.batch.close else t.batch
      (∀ kind a acc, s.checkCommand c t (copyOp (t.aux.toNat % 4)) (Block.parse raw) raw = some (kind, a, acc) →
        Completes (.copyAccept c i.val) s (fun u => u.mem = s.mem ∧ u.dies = s.dies ∧ ∃ w f, u.threadAt c i = some w ∧
          w.st = .faulted ∧ w.fault = some f ∧ f.kind = kind ∧ f.ea = a ∧ w.batch = t.batch)) ∧
      (s.checkCommand c t (copyOp (t.aux.toNat % 4)) (Block.parse raw) raw = none → Completes (.copyAccept c i.val) s (fun u => u.mem = s.mem ∧
        (∃ k : Command, (u.engine (dieOf c) (engineOf c)).commands = (s.engine (dieOf c) (engineOf c)).commands ++ [k] ∧
          k.op = copyOp (t.aux.toNat % 4) ∧ k.block = Block.parse raw ∧ k.uid = t.uid ∧ k.core = c ∧ k.kb = t.kb ∧ k.kd = t.kd ∧
          k.batch = some b.number ∧ k.dep = t.taken) ∧
        ∃ w, u.threadAt c i = some w ∧ w.granted = true ∧ w.batch = { b with opened := b.opened + 1, live := b.live + 1 }))) ∧
    (∀ d e n k c1 o1 c2 o2, d < 4 → e < 16 → (s.engine d e).commands[n]? = some k → k.op = .cpy → k.block.nrow = 1 → k.block.len = 4 →
      k.block.mb = false → k.block.cb = false → k.block.shd = false → k.done = [] → k.err = false → k.delivered = none →
      k.fault = none → k.taken = [] → k.words = [] → o1 % 4 = 0 → o2 % 4 = 0 → (s.core c1).ctx = some k.ctx → (s.core c2).ctx = some k.ctx →
      (s.core c2).remapStep ≠ 3 →
      (s.context k.ctx).saved = [] → s.cmdPlace k k.block.src.toNat 4 .read = some (.store c1 o1) →
      s.cmdPlace k k.block.dst.toNat 4 .write = some (.store c2 o2) →
      Completes (.copyCompletion d e n) s (fun u => u.mem = s.mem ∧
        (∀ x, x < 4 → (u.core c2).ls.read (o2 + x) = (s.core c1).ls.read (o1 + x)) ∧
        (∀ z x, (z ≠ c2 ∨ x < o2 ∨ o2 + 4 ≤ x) → (u.core z).ls.read x = (s.core z).ls.read x) ∧
        ∃ q, (u.engine d e).commands[n]? = some q ∧ q.delivered = some s.cycle ∧ q.err = false)) ∧
    (∀ d e n k z, d < 4 → e < 16 → (s.engine d e).commands[n]? = some k → k.delivered = some z → z < s.cycle → k.block.mb = false →
      k.block.cb = false → k.packet = none → Completes (.copyCompletion d e n) s (fun u =>
        (u.engine d e).commands = listDel (s.engine d e).commands n ∧ u.mem = s.mem)) ∧
    (t.st = .parked .publish → t.granted = false → t.hold = false → s.releasable c t (t.aux.toNat / 4096) = true →
      (∀ z ∈ s.dies.toList, ∀ e ∈ z.engines.toList, ∀ k ∈ e.commands, k.uid ≠ t.uid ∨ s.shadows k (t.aux.toNat % 4096) = false) →
      Completes (.publishSwap c i.val) s (fun u => u.mem = s.mem ∧ u.threadAt c i = some { t with granted := true } ∧
        (∀ cl, (u.cluster cl).ccache = []) ∧ ∀ g, (mapGet (u.context t.ctx).sel g).getD false =
          ((mapGet (s.context t.ctx).sel g).getD false != decide (g = t.aux.toNat % 4096))))

/-! ### Carousels -/

/-- R312 to R316, R319, R327 to R330: names that are refused (40, 41); `crlap` reads the lap, `crlap.w` waits for it to change.
What is asked of a sequencer or of an Intersection Engine is applied in a later cycle, and its thread waits until then: a pool is
declared with its counts and its list area cleared, or given up; a subscription is registered and its count returned, or removed;
a promotion joins the queue; a skip removes the rays' subscriptions that have not begun. The cycle in which what was asked is
applied is the model's choice (log 35). -/
def Obligations.CarouselInstructions : Prop :=
  ∀ (s : State) (x : BitVec 4) (d a b l : Field) (kind : BitVec 1) (y : BitVec 12), s.thread.isSome = true →
    let t := s.th
    let k := s.core s.cur
    let die := dieOf s.cur
    let cl := s.ixOf s.cur
    let name := s.reg a
    let issues := t.stage = 0 ∧ t.blocked = none ∧ t.syncReady y
    let applies := t.stage = 3 ∧ ∀ m n, t.blocked ≠ some (.depZero m, n)
    let waits (i : Instr) : Prop := Completes i s (fun u => ParkedFor s (.applying s.cycle) u ∧
      ∃ w, u.thread = some w ∧ w.stage = 3 ∧ w.dep = (t.counted y).dep)
    let size := if kind = 1 then 128 else 64
    let n := (s.reg b).toNat
    let area := (s.reg l).toNat
    let pool (base : Nat) : Prop := s.subsOf s.cur = [] ∧ s.reg b ≠ 0 ∧ n ≤ 2048 ∧ (t.kd[segIndex name]).getLsbD 60 = true ∧
      s.checkOwn s.cur t name (n * size) = .ok base ∧ area % 64 = 0 ∧ area + 0xA000 ≤ 0x40000 ∧
      (base + n * size ≤ area ∨ area + 0xA000 ≤ base)
    let fits (q : Sub) : Prop := (s.subsOf s.cur).length < 4096 ∧ ∀ r, q.ray = some r → s.pendingOf q.ctx q.core r < 65535
    let count (q : Sub) : Word := match q.ray with | some r => BitVec.ofNat 64 (s.pendingOf q.ctx q.core r) | none => 0
    (∀ nm : Word,
      (nm.toNat ≥ 2 ^ 18 → s.checkName nm = .error 40) ∧
      (nm.toNat < 2 ^ 18 → ((s.car die (nm.toNat / 2 ^ 16)).st = .off ∨ (s.car die (nm.toNat / 2 ^ 16)).st = .stopping ∨
        (s.car die (nm.toNat / 2 ^ 16)).partition ≠ (s.context t.ctx).partition) → s.checkName nm = .error 41)) ∧
    (issues ∨ applies →
      (∀ e, s.checkName name = .error e → Completes (.crskip a y) s (Trapped s e 0) ∧ Completes (.crpromote a y) s (Trapped s e 0)) ∧
      (∀ e, s.checkSub x name (s.reg b) = .error e → Completes (.crsub x d a b y) s (Trapped s e 0) ∧
        Completes (.crunsub x d a b y) s (Trapped s e 0)) ∧
      (s.subsOf s.cur ≠ [] → Completes (.crpool kind a b l y) s (Trapped s 42 0)) ∧
      (s.subsOf s.cur = [] → n > 2048 → Completes (.crpool kind a b l y) s (Trapped s 43 0)) ∧
      (∀ q, s.checkSub x name (s.reg b) = .ok q → s.subscribed q = none → ¬fits q → Completes (.crsub x d a b y) s (Trapped s 44 0))) ∧
    (issues →
      (s.checkLap name = none → Completes (.crlap d a y) s (Trapped s 41 0) ∧ Completes (.crlapW d a y) s (Trapped s 41 0)) ∧
      (∀ n, s.checkLap name = some n →
        Completes (.crlap d a y) s (Ended s t d (BitVec.ofNat 64 (s.car die n).lapn) s.nextPc) ∧
        ((s.car die n).lapn < 2 ^ 24 → Completes (.crlapW d a y) s
          (ParkedFor s (.lap n (s.car die n).lapn)))) ∧
      (∀ z, s.checkName name = .ok z → waits (.crskip a y) ∧ waits (.crpromote a y)) ∧
      (s.subsOf s.cur = [] → s.reg b = 0 → waits (.crpool kind a b l y)) ∧ (∀ base, pool base → waits (.crpool kind a b l y)) ∧
      (∀ q, s.checkSub x name (s.reg b) = .ok q → waits (.crunsub x d a b y) ∧
        (s.subscribed q = none → fits q → waits (.crsub x d a b y)) ∧
        ((s.subscribed q).isSome = true → Completes (.crsub x d a b y) s (Ended s t d (count q) s.nextPc)))) ∧
    (applies →
      (∀ m seg e, s.checkName name = .ok (m, seg, e) → die < 4 →
        ((∀ p ∈ (s.car die m).promo, p.seg ≠ seg) → (s.car die m).promo.length < 16 → Completes (.crpromote a y) s (fun u =>
          (∃ p : Promo, p.seg = seg ∧ p.since = s.cycle ∧ (u.car die m).promo = (s.car die m).promo ++ [p]) ∧
          (u.car die m).st = (if (s.car die m).st = .idle then .running else (s.car die m).st) ∧
          Passed { s with dies := u.dies } t s.nextPc u)) ∧
        ((∃ p ∈ (s.car die m).promo, p.seg = seg) → Completes (.crpromote a y) s (fun u =>
          (u.car die m).promo.map (·.seg) = (s.car die m).promo.map (·.seg) ∧ (u.car die m).st = (s.car die m).st ∧
          Passed { s with dies := u.dies } t s.nextPc u)) ∧
        ((∀ p ∈ (s.car die m).promo, p.seg ≠ seg) → (s.car die m).promo.length ≥ 16 →
          Completes (.crpromote a y) s (ParkedFor s (.promoRoom m)))) ∧
      (∀ m seg e, s.checkName name = .ok (m, seg, e) → k.ctx = some t.ctx → mapGet (s.context t.ctx).saved s.cur = none →
        Completes (.crskip a y) s (fun u => u.mem = s.mem ∧
          (∃ w, u.thread = some w ∧ w.pc = s.nextPc ∧ w.g = t.g ∧ w.dep = (s.ended y).dep) ∧
          ((∀ z, ∀ q ∈ (s.cluster z).subs, q.seg ≠ seg) → Passed s (s.ended y) s.nextPc u))) ∧
      (s.subsOf s.cur = [] → s.reg b = 0 → Completes (.crpool kind a b l y) s
        (Passed (s.setCore s.cur { k with pool := { k.pool with valid := false } }) (s.ended y) s.nextPc)) ∧
      (∀ base, pool base → Completes (.crpool kind a b l y) s (fun u =>
        let p := (u.core s.cur).pool
        p.valid = true ∧ p.splat = (kind == 1) ∧ p.count = n ∧ p.list = area ∧ p.base = base ∧ p.tidx = t.tidx ∧ p.kid = t.kid ∧
        (∀ i j, i < n → j < 4 → (u.core s.cur).ls.read (base + size * i + 44 + j) = 0) ∧
        (∀ z, area ≤ z → z < area + 0xA000 → (u.core s.cur).ls.read z = 0) ∧
        (∀ z, (z < area ∨ area + 0xA000 ≤ z) → (∀ i, i < n → z < base + size * i + 44 ∨ base + size * i + 48 ≤ z) →
          (u.core s.cur).ls.read z = k.ls.read z) ∧
        ∃ q, Passed (s.setCore s.cur q) (s.ended y) s.nextPc u)) ∧
      (∀ q, s.checkSub x name (s.reg b) = .ok q → (∀ e ∈ (s.car die q.car).sched, e.seg = q.seg → e.bad = false) →
        (s.subscribed q = none → fits q → q.ray = none → Completes (.crsub x d a b y) s (fun u =>
          (u.cluster cl).subs = (s.cluster cl).subs ++ [q] ∧ u.mem = s.mem ∧ (u.core s.cur).ls = k.ls ∧
          (∀ f, u.file f = written s d 0 f) ∧ ∃ w, u.thread = some w ∧ w.pc = s.nextPc)) ∧
        (∀ r, s.subscribed q = none → fits q → q.ray = some r → Completes (.crsub x d a b y) s (fun u =>
          (u.cluster cl).subs = (s.cluster cl).subs ++ [q] ∧ u.mem = s.mem ∧
          (∀ f, u.file f = written s d (BitVec.ofNat 64 (s.pendingOf q.ctx q.core r + 1)) f) ∧
          (u.core s.cur).ls.num (k.pool.base + (if k.pool.splat then 128 else 64) * r + 44) 2 = s.pendingOf q.ctx q.core r + 1 ∧
          ∃ w, u.thread = some w ∧ w.pc = s.nextPc))) ∧
      (∀ q, s.checkSub x name (s.reg b) = .ok q →
        (s.subscribed q = none → Completes (.crunsub x d a b y) s
          (if q.ray.isSome then Ended s (s.ended y) d (count q) s.nextPc else Passed s (s.ended y) s.nextPc)) ∧
        (∀ z, s.subscribed q = some z → s.begun z = false → z.ray = none → Completes (.crunsub x d a b y) s (fun u =>
          z ∉ (u.cluster cl).subs ∧ u.mem = s.mem ∧ ∃ w, u.thread = some w ∧ w.pc = s.nextPc)) ∧
        (∀ z r, s.subscribed q = some z → s.begun z = false → z.ray = some r → k.ctx = some t.ctx →
          mapGet (s.context t.ctx).saved s.cur = none → Completes (.crunsub x d a b y) s (fun u =>
            z ∉ (u.cluster cl).subs ∧ u.mem = s.mem ∧
            u.file d = written s d (BitVec.ofNat 64 (u.pendingOf q.ctx q.core r)) d ∧ ∃ w, u.thread = some w ∧ w.pc = s.nextPc)) ∧
        (∀ z, s.subscribed q = some z → s.begun z = true → Completes (.crunsub x d a b y) s (ParkedFor s .applied)))) ∧
    (t.stage = 2 → s.tracing t.ctx 0 = false → t.granted = true ∨ t.refused = true ∨ (s.car die (name.toNat % 4)).lapn ≠ t.aux.toNat % 2 ^ 24 →
      Completes (.crlapW d a y) s (fun u => u.mem = s.mem ∧ (∀ f, u.file f = written s d
          (if t.granted then t.aux >>> 24 else if t.refused then 0xFFFFFFFFFFFFFFFF else BitVec.ofNat 64 (s.car die (name.toNat % 4)).lapn) f) ∧
        ∃ w, u.thread = some w ∧ w.pc = s.nextPc ∧ w.dep = (s.ended y).dep))

/-! ### Queues, launches, carousels -/

/-- R229, R230, R267, R268, R270 to R273: the write index; what a NOP, SIGNAL, BARRIER_AND or COPY packet that may start does, and
the signal word at a packet's end; the head held until its words read 0; a malformed packet stops its queue. That COPY packets go
to engine 0 of die 0, and the segments of their commands, are the model's choice (log 29), and that the words of a packet are read
at one moment (log 88). -/
def Obligations.QueuePackets : Prop :=
  (∀ (w code : Nat), w < 2 ^ 64 → w % 2 ^ 56 ≠ 0 → code < 128 → signalNew w code = signalled w code) ∧
  ∀ (s : State) (q : Nat) (k : Queue), s.package.logging = false → mapGet s.queues q = some k →
    (∀ wi, k.ri ≤ wi → wi ≤ k.ri + k.size → wi < 2 ^ 64 → k.st ≠ .destroyed →
      exec (.writeIndex q wi) s = .next (s.setQueue q { k with wi := wi })) ∧
    (∀ wi, wi < k.ri ∨ k.ri + k.size < wi → wi < 2 ^ 64 → k.st = .active → Completes (.writeIndex q wi) s (fun t =>
      mapGet t.queues q = some { k with wi := wi, st := .stopped } ∧ t.mem = s.mem ∧ t.cores = s.cores ∧
      t.package.hostOut = s.package.hostOut ++ [.queueStopped q k.ring 2])) ∧
    (∀ b, s.fetchBytes k.ctx (k.ring + 64 * (k.ri % k.size)) 8 = .ok b → packetBad b (fun n => (s.slicesOf k.ctx).contains n) = true →
      k.st = .active → (s.context k.ctx).st = .active → k.ri < k.wi → k.wi ≤ k.ri + k.size → k.holding = none →
      (∀ l ∈ s.launches, l.waiting = true → l.ctx = k.ctx → l.queue ≠ q) →
      Completes (.nopPacket q) s (fun t => mapGet t.queues q = some { k with st := .stopped } ∧ t.mem = s.mem ∧
        t.package.hostOut = s.package.hostOut ++ [.queueStopped q (k.ring + 64 * (k.ri % k.size)) 1])) ∧
    (∀ b, s.offered q k b →
      let f := bytesNum b
      let u := s.passedPacket q k
      (f 0 1 = 0 → exec (.nopPacket q) s = .next ((u 0).endPacket q k.ri 0)) ∧
      (f 0 1 = 4 → f 16 1 = 1 → exec (.signalStore q) s = .next
        (((u (f 32 8)).agentWrite k.ctx (f 8 8) 8 (f 24 8)).endPacket q k.ri 0)) ∧
      (f 0 1 = 4 → f 16 1 = 2 → exec (.signalDecrement q) s = .next (((u (f 32 8)).update ⟨k.ctx, f 8 8, .signal 0⟩).endPacket q k.ri 0)) ∧
      (f 0 1 = 4 → f 16 1 = 0 → ∀ w, (u (f 32 8)).sigAt k.ctx (f 8 8) = some w → w % 2 ^ 56 ≠ 0 →
        Completes (.signalWait q) s (fun t => ∃ k', mapGet t.queues q = some k' ∧ k'.ri = k.ri + 1 ∧
          k'.holding = some (k.ri, false, [f 8 8]) ∧ t.cores = s.cores)) ∧
      (f 0 1 = 5 → (∀ j, j < 6 → f (16 + 8 * j) 8 = 0) → Completes (.barrierAnd q) s (fun t =>
        ∃ k', mapGet t.queues q = some k' ∧ k'.ri = k.ri + 1 ∧ k'.holding = none ∧ k'.started = [] ∧ t.cores = s.cores)) ∧
      (∀ z, f 0 1 = 2 → (s.engine 0 0).commands.length < 64 → (u (f 16 8)).fetchBytes k.ctx (f 8 8) 8 = .ok z →
        s.fetchBytes k.ctx (f 8 8) 8 = .ok z →
        let p := Block.parse z
        p.bad .cpy z {} = false → p.mb = false → p.cb = false → Completes (.copyPacket q) s (fun t => t.cores = s.cores ∧
          ∃ c : Command, (t.engine 0 0).commands = (s.engine 0 0).commands ++ [c] ∧ c.op = .cpy ∧ c.block = p ∧ c.ctx = k.ctx ∧
            c.packet = some (q, k.ri)))) ∧
    (∀ i l w, k.holding = some (i, false, [l]) → s.sigAt k.ctx l = some w → w % 2 ^ 56 = 0 →
      exec (.signalWait q) s = .next ((s.setQueue q { k with holding := none }).endPacket q i 0))

/-- R227, R229 to R232, R234, R276: a LAUNCH packet's descriptor becomes a launch; a launch that nothing holds back is accepted: a
kernel with its KID and its live threads; one that asks for more than its cores hold is rejected (1), and one whose INSIG has
failed ends with 3; a kernel with nothing left completes, and its entries leave the mailboxes. (An INSIG at a home that no link
reaches is read as the others are: log 83; the order in which waiting launches hold slots back: log 85.) -/
def Obligations.LaunchSteps : Prop :=
  ∀ (s : State),
    (∀ q k b d, s.offered q k b →
      let f := bytesNum b
      let u := s.passedPacket q k 0
      f 0 1 = 1 → s.readDesc k.ctx (f 8 8) k.runtime = .ok d → u.readDesc k.ctx (f 8 8) k.runtime = .ok d → d.gangn < 2 →
      exec (.launch q) s = .next { u with launches := s.launches ++ [{
        ctx := k.ctx, queue := q, packet := k.ri, n := f 16 4, slice0 := f 20 1, nslice := f 21 1, graph := f 24 8, nnode := f 32 2
        desc := some d }] }) ∧
    (∀ l d, s.launches = [l] → l.desc = some d → l.waiting = false → l.graph = 0 → l.gang = none → d.insig = 0 →
      (s.context l.ctx).st = .active → d.cls = 0 → s.kernels = [] →
      (l.n = 0 → Completes (.launchReady 0) s (fun t => t.launches = [] ∧ t.kernels = [] ∧
        (t.context l.ctx).nextKid = (s.context l.ctx).nextKid + 1)) ∧
      (0 < l.n → s.eligibleCores l.slice0 l.nslice ≠ [] → Completes (.launchReady 0) s (fun t => t.launches = [] ∧ t.mem = s.mem ∧
        (t.context l.ctx).nextKid = (s.context l.ctx).nextKid + 1 ∧
        ∃ k, t.kernels = [k] ∧ k.kid = (s.context l.ctx).nextKid ∧ k.ctx = l.ctx ∧ k.n = l.n ∧ k.live = l.n ∧ k.desc = d ∧
          k.next ≤ k.n ∧ k.queue = l.queue ∧ k.packet = l.packet))) ∧
    (∀ l d, s.launches = [l] → l.desc = some d → l.waiting = false → l.gang = none → (s.context l.ctx).st = .active →
      let fails (code : Nat) : Prop := exec (.launchReady 0) s = .next
        ({ s.signal l.ctx d.outsig code with launches := [] }.endPacket l.queue l.packet 0)
      let cores := s.eligibleCores l.slice0 l.nslice
      (d.insig = 0 → 0 < l.n → d.cls ≠ 1 → cores = [] → fails 1) ∧
      (d.insig = 0 → d.cls = 1 → l.n > d.quota * cores.length → fails 1) ∧
      (∀ w, d.insig ≠ 0 → s.agentRead l.ctx d.insig 8 = some w → w % 2 ^ 56 = 0 → w.testBit 63 = true → fails 3) ∧
      (∀ w, d.insig ≠ 0 → s.agentRead l.ctx d.insig 8 = some w → w % 2 ^ 56 ≠ 0 → exec (.launchReady 0) s = .next s) ∧
      (d.insig = 0 → l.graph = 0 → d.cls = 1 → 0 < l.n → l.n ≤ d.quota * cores.length → s.kernels = [] →
        (∀ c ∈ cores, s.slotsFor { l with accepted := s.nextId } d.quota c = 0) → Completes (.launchReady 0) s (fun t =>
          t.kernels = [] ∧ t.cores = s.cores ∧ t.mem = s.mem ∧ ∃ w, t.launches = [w] ∧ w.waiting = true ∧
            w.kid = (s.context l.ctx).nextKid ∧ w.desc = l.desc))) ∧
    (∀ k, s.kernels = [k] → k.done = false → k.root = none → k.gang = none → k.live = 0 → k.copies = 0 →
      Completes (.kernelCompletion 0) s (fun t => t.kernels = [] ∧
        (∀ c, (t.core c).ls = (s.core c).ls ∧ (t.core c).slots = (s.core c).slots) ∧
        (∀ c, (s.core c).ctx = some k.ctx → ∀ m ∈ (t.core c).mailbox, m.ktag ≠ k.kid.truncate 12) ∧
        (k.desc.outsig = 0 → t.mem = s.mem ∨ ∃ p, mapGet s.queues k.queue = some p ∧ (mapGet p.started k.packet).isSome = true))) ∧
    (∀ k, s.kernels[0]? = some k → k.live ≠ 0 → k.root = none → exec (.kernelCompletion 0) s = .next s)

/-- R300 to R304, R306, R307: a carousel is started, stopped, given a command for the next lap; its segment is read; its slot
opens for the subscriptions that count; a delivery reaches a cluster's buffer; a lap boundary passes, and the `crlap.w`s that wait
for it take the new lap. A segment whose read fails twice in succession is marked BAD. The polynomial, initial value and final
complement of CRC-32C are the model's presumption (log 10); which primitives a batch tests is its choice (log 63), and that an IX
waits for a core that holds its requests (log 73). -/
def Obligations.CarouselSteps : Prop :=
  ∀ (s : State) (d n : Nat), d < 4 → n < 4 →
    let c := s.car d n
    (∀ q k p b, s.offered q k p →
      let f := bytesNum b
      let u := s.passedPacket q k (bytesNum p 16 8)
      bytesNum p 0 1 = 3 → s.fetchBytes k.ctx (bytesNum p 8 8) 8 = .ok b → u.fetchBytes k.ctx (bytesNum p 8 8) 8 = .ok b →
      carBlockBad b = false → f 1 1 = d → f 2 1 = n →
      (∀ l, f 0 1 = 0 → c.st = .off → s.readSchedule k.ctx (f 8 8) (f 4 2) = .ok l → u.readSchedule k.ctx (f 8 8) (f 4 2) = .ok l →
        exec (.carouselStart q) s = .next ((u.setCar d n {
          st := .running, partition := (s.context k.ctx).partition, ctx := k.ctx, k := if f 3 1 = 0 then 8 else f 3 1, sched := l
          }).endPacket q k.ri 0)) ∧
      (f 0 1 = 0 → c.st ≠ .off → (∀ l, s.readSchedule k.ctx (f 8 8) (f 4 2) ≠ .error l) →
        exec (.carouselStart q) s = .next (u.endPacket q k.ri 7)) ∧
      (f 0 1 = 1 → c.st = .off → exec (.carouselStop q) s = .next (u.endPacket q k.ri 7)) ∧
      (f 0 1 = 1 → c.st = .running → c.partition = (s.context k.ctx).partition →
        let off := u.setCar d n { c with st := .stopping, stopPacket := some (q, k.ri), read := none }
        (off.outstanding d n = true → exec (.carouselStop q) s = .next off) ∧
        (off.outstanding d n = false → Completes (.carouselStop q) s (fun t => t.car d n = {}))) ∧
      (f 0 1 = 3 → c.st = .running → c.partition = (s.context k.ctx).partition → exec (.carouselPeriod q) s = .next
        (u.setCar d n { c with cmds := c.cmds ++ [.period (if f 3 1 = 0 then 8 else f 3 1) q k.ri] })) ∧
      (∀ old e, f 0 1 = 2 → c.st = .running → c.partition = (s.context k.ctx).partition → c.sched[f 6 2]? = some old →
        s.readEntry k.ctx (f 16 8) = .ok e → u.readEntry k.ctx (f 16 8) = .ok e → e.kind = old.kind → e.seg = old.seg →
        exec (.carouselReplace q) s = .next
          (u.setCar d n { c with cmds := c.cmds ++ [.replace (f 6 2) (f 16 8) e.plen q k.ri] }))) ∧
    (∀ i e h p, s.poison = [] → c.st = .running → c.read = none → (s.pick d n).index = some i → c.sched[i]? = some e →
      s.readSegment c.ctx e.dva = .ok (h, p) → bytesNum h 0 1 = e.kind → bytesNum h 2 2 = e.seg → bytesNum h 12 4 = e.plen →
      (crc32c p = bytesNum h 40 4 → exec (.segmentRead d n) s = .next
        (s.setCar d n { c with read := some (i, h, p), sched := listSet c.sched i { e with failed := 0 } })) ∧
      (crc32c p ≠ bytesNum h 40 4 → e.failed = 0 → exec (.segmentRead d n) s = .next
        (s.setCar d n { c with sched := listSet c.sched i { e with failed := 1 } })) ∧
      (crc32c p ≠ bytesNum h 40 4 → e.failed ≠ 0 → Completes (.segmentRead d n) s (fun t =>
        (t.car d n).sched = listSet c.sched i { e with bad := true, failed := 0 } ∧ (t.car d n).badid = e.seg))) ∧
    (∀ i h p e, c.st = .running → s.bufferFull d = false → s.pick d n = .entry 0 false i → c.read = some (i, h, p) →
      c.sched[i]? = some e → Completes (.slotOpen d n) s (fun t => t.mem = s.mem ∧ t.cores = s.cores ∧
        (t.car d n).p = i + 1 ∧ (t.car d n).s = c.s + 1 ∧ (t.car d n).read = none ∧
        ∃ v : Delivery, (t.die d).deliveries = (s.die d).deliveries ++ [v] ∧ v.job.seg = e.seg ∧ v.job.header = h ∧ v.job.payload = p)) ∧
    (c.st = .running → s.bufferFull d = false → s.pick d n = .lap 0 → c.cmds = [] → s.gateWaits d n = false → Completes (.slotOpen d n) s (fun t =>
      (t.car d n).lapn = (c.lapn + 1) % 2 ^ 24 ∧ (t.car d n).p = 0 ∧ t.mem = s.mem ∧ (∀ b, (t.core b).ls = (s.core b).ls) ∧
      (∀ b i u l, s.threadAt b i = some u → dieOf b = d → u.st = .parked (.lap n l) → l ≠ (c.lapn + 1) % 2 ^ 24 → u.granted = false →
        u.refused = false → ∃ w, t.threadAt b i = some w ∧ w.granted = true ∧ w.aux = BitVec.ofNat 64 (l + (c.lapn + 1) % 2 ^ 24 * 2 ^ 24)))) ∧
    (c.st ≠ .running → exec (.slotOpen d n) s = .next s) ∧
    (∀ v b, (s.die d).deliveries = [v] → v.clusters = [b] → s.bufferFull d = false → s.contexts = [] →
      v.job.car = n → c.st = .running → (s.cluster b).subs.any (fun z => z.opened == some v.id) = true →
      Completes (.delivery d 0 b) s (fun t => (t.die d).deliveries = [] ∧ t.cores = s.cores ∧ t.mem = s.mem ∧
        (t.cluster b).buffer = (s.cluster b).buffer ++ [v.job])) ∧
    (∀ b, (s.cluster b).buffer = [] → exec (.primitiveBatch b) s = .next s) ∧
    (∀ b j rest, (s.cluster b).buffer = j :: rest → s.ixStopped b = false → j.kind ≠ 3 → j.car = n → c.st = .running → ixDie b = d →
      (∀ z ∈ (s.cluster b).subs, z.takes j.delivery = false) → Completes (.primitiveBatch b) s (fun t =>
        (t.cluster b).buffer = rest ∧ t.mem = s.mem ∧ t.cores = s.cores)) ∧
    (∀ b j rest z r, (s.cluster b).buffer = j :: rest → s.ixStopped b = false → j.kind ≠ 3 → j.ray = 0 →
      j.next + 64 < bytesNum j.header 4 4 → (s.cluster b).subs = [z] → z.opened = some j.delivery → z.boxed = some true → z.ray = some r →
      (s.context z.ctx).saved = [] → (s.context z.ctx).saving = [] → (s.core z.core).ctx = some z.ctx → (s.core z.core).remapStep ≠ 3 →
      Completes (.primitiveBatch b) s (fun t => t.mem = s.mem ∧
        (t.cluster b).buffer = { j with next := j.next + 64, begun := true } :: rest ∧
        let n := if j.kind = 2 then 44 else 40
        (t.core z.core).ls = (List.range 64).foldl (fun m i =>
          let prim := Memory.put [] 0 ((j.payload.drop (n * (j.next + i))).take n)
          let at_ := (s.core z.core).pool.record r
          if j.kind = 2 then hitSplat m at_ j.seg prim else hitTri m at_ j.seg prim) (s.core z.core).ls))

/-! ### Weights, gangs, traces -/

/-- R334, R335, R337 to R339: a manifest that is refused ends its packet (10); a load's shard comes and is checked, or times out;
a package that is late arrives as failed and ends its load with that; the barrier writes the gate table and STATUS; a replacement
ends once every layer has its version. The other bits of STATUS on failure, and what comes after a time limit, are the model's
choice (log 37). -/
def Obligations.WeightSteps : Prop :=
  ∀ (s : State), s.package.logging = false →
    (∀ q k p b, s.offered q k p →
      let u := s.passedPacket q k (bytesNum p 16 8)
      bytesNum p 0 1 = 6 → s.readManifest k.ctx (bytesNum p 8 8) = .ok b → u.readManifest k.ctx (bytesNum p 8 8) = .ok b → s.manifestReady k.ctx b = true →
      (u.manifestOk k.ctx b = false → exec (.weightload q) s = .next (u.endPacket q k.ri 10)) ∧
      (u.manifestOk k.ctx b = true → s.loads = [] → u.ownShards b ≠ [] → Completes (.weightload q) s (fun t => t.cores = s.cores ∧
        ∃ l : WeightLoad, t.loads = [l] ∧ l.ctx = k.ctx ∧ l.queue = q ∧ l.packet = k.ri ∧ l.version = bytesNum b 0 4 ∧
          l.nlayer = bytesNum b 4 2 ∧ l.gate = bytesNum b 16 8 ∧ l.shards = u.ownShards b ∧ l.arrived = none))) ∧
    (∀ l h bytes, s.loads = [l] → l.shards = [h] → h.ok = false → h.failed = false → l.arrived = none →
      (4 * (s.cycle - h.since) ≤ l.lto → bytes.length = h.len → Config.sha384 bytes ≠ h.digest → h.tries = 0 →
        Completes (.shardArrival 0 0 bytes) s (fun t => t.loads = [{ l with shards := [{ h with tries := 1, since := s.cycle }] }])) ∧
      (4 * (s.cycle - h.since) ≤ l.lto → bytes.length = h.len → Config.sha384 bytes = h.digest →
        let placed := s.agentPut l.ctx h.dst (toWords (h.len / 8) bytes)
        let good : WeightLoad := { l with shards := [{ h with ok := true }] }
        (∃ m ∈ l.gang, m ≠ s.package.pkg.toNat ∧ mapGet l.peers m = none) → s.cycle < l.start + l.lto →
        Completes (.shardArrival 0 0 bytes) s (fun t => t.cores = s.cores ∧ ((∃ u ∈ placed.updates, u.ctx = l.ctx) → t.loads = [good]) ∧
          ((∀ u ∈ placed.updates, u.ctx ≠ l.ctx) → t.loads = [match placed.segmentsOf l.ctx h with
            | .ok g => { l with
                shards := [{ h with ok := true, segs := g.map (fun g => (bytesNum g.2 2 2, g.1, bytesNum g.2 12 4)) }]
                arrived := some none }
            | .error true => { good with arrived := some (some h.index) }
            | .error false => good]))) ∧
      (l.lto < 4 * (s.cycle - h.since) → exec (.shardArrival 0 0 bytes) s = .next s) ∧
      (4 * (s.cycle - h.since) ≥ l.lto → h.tries = 0 → exec (.shardTimeout 0 0) s = .next
        { s with loads := [{ l with shards := [{ h with tries := 1, since := s.cycle }] }] }) ∧
      (4 * (s.cycle - h.since) < l.lto → exec (.shardTimeout 0 0) s = .next s)) ∧
    (∀ l, s.loads = [l] → l.through = false → (s.cycle < l.start + l.lto → exec (.loadBarrierTimeout 0) s = .next s) ∧
      (l.start + l.lto ≤ s.cycle → l.peers = [] → (l.arrived = none ∨ l.arrived = some none) →
        let u := { s with loads := [{ l with arrived := some (some 0xFFFF) }] }.tell l.ctx l.queue l.packet { members := l.gang }
          (.loadArrive (some 0xFFFF) s.gscTag)
        exec (.loadBarrierTimeout 0) s = .next ({ u.agentWrite l.ctx (l.manifest + 56) 8
          (2 ^ 63 + 2 ^ 62 + 0xFFFF * 2 ^ 32) with loads := [] }.endPacket l.queue l.packet 9))) ∧
    (∀ l p r, s.loads = [l] → l.gang = [s.package.pkg.toNat, p] → p ≠ s.package.pkg.toNat → l.peers = [] → l.through = false →
      s.hears p = true →
      (l.arrived = none → exec (.loadBarrier 0 [(p, r)]) s = .next { s with loads := [{ l with peers := [(p, r)] }] }) ∧
      (∀ m i, l.arrived = some m → (m = some i ∧ (∀ j, r = some j → i ≤ j)) ∨ (r = some i ∧ ∀ j, m = some j → i ≤ j) →
        exec (.loadBarrier 0 [(p, r)]) s = .next ({ s.agentWrite l.ctx (l.manifest + 56) 8
          (2 ^ 63 + 2 ^ 62 + i % 2 ^ 16 * 2 ^ 32) with loads := [] }.endPacket l.queue l.packet 9)) ∧
      (l.arrived = some none → r = none → l.nlayer = 1 → l.replaceMode = false → exec (.loadBarrier 0 [(p, r)]) s = .next
        ({ ((s.agentWrite l.ctx (l.gate + 16) 8 l.version).agentWrite l.ctx l.gate 8 (l.version * 2 ^ 32)).agentWrite
            l.ctx (l.manifest + 56) 8 (2 ^ 63 + l.version) with loads := [] }.endPacket l.queue l.packet 0))) ∧
    (∀ l v, s.loads = [l] → l.replacing = some v →
      (∀ j, j < l.nlayer → ∃ w, s.layerWord l.ctx l.gate j = .ok w ∧ w % 2 ^ 32 = l.version) → exec (.weightReplace 0) s = .next
        ({ s.agentWrite l.ctx (l.manifest + 56) 8 (2 ^ 63 + l.version) with loads := [] }.endPacket l.queue l.packet 0))

/-- R236, R237, R256: a gang's messages: acknowledgements are counted, and one that comes after the timeout is ignored; an abort
of a launch, and of a kernel that writes nothing, ends it (4); a done message is counted, and with the last of them the kernel
completes; phases are counted; the timeout aborts a kernel whose gang has not answered. A message comes only where there is a way
for it (R369, R372). The tag of a phase is that of the participant which the agenda names (log 66). -/
def Obligations.GangSteps : Prop :=
  ∀ (s : State) (p : Nat), s.package.logging = false → s.hears p = true →
    (∀ j g, s.kernels = [j] → j.gang = some g → j.done = false →
      (g.late j.desc.gto s.cycle = false → exec (.gangAck 0 p) s = .next
        { s with kernels := [{ j with gang := some { g with acks := g.acks ++ [p] } }] }) ∧
      (g.late j.desc.gto s.cycle = true → exec (.gangAck 0 p) s = .next s) ∧
      (p ∉ g.members → exec (.gangAbort 0 p) s = .next s) ∧
      ((j.live ≠ 0 ∨ j.copies ≠ 0) → j.root = none → exec (.gangDone 0 p) s = .next
        { s with kernels := [{ j with gang := some { g with dones := g.dones ++ [p] } }] }) ∧
      (∀ n m, m ∈ g.members → m ≠ p → g.passed m j.bar.cph = false → (j.bar.arrived.length ≠ j.live ∨ g.passed s.package.pkg.toNat j.bar.cph = true) →
        p ≠ s.package.pkg.toNat → g.passed p (BitVec.ofNat 32 n) = false → exec (.gangPhase 0 p n) s = .next
          { s with kernels := [{ j with gang := some { g with phases := mapPut g.phases p n } }] }) ∧
      (∀ b, g.start = some b → (s.cycle < b + j.desc.gto ∨ ∀ m ∈ g.members, m = s.package.pkg.toNat ∨ m ∈ g.acks) →
        exec (.gangTimeout 0) s = .next s) ∧
      (∀ n, p ≠ s.package.pkg.toNat → g.passed p (BitVec.ofNat 32 n) = false → phasePassed (BitVec.ofNat 32 n) j.bar.cph = true → g.passed s.package.pkg.toNat j.bar.cph = true →
        (∀ m ∈ g.members, m ≠ p → g.passed m j.bar.cph = true) → Completes (.gangPhase 0 p n) s (fun t => t.mem = s.mem ∧
            let b : Barrier := { cph := j.bar.cph + 1, arrived := [], count := 0, tag := some ((mapGet g.tags p).getD {}) }
            t.kernels = [{ j with gang := some { g with phases := mapPut g.phases p n }, bar := b }])) ∧
      (j.live = 0 → j.copies = 0 → j.root = none → (∀ m ∈ g.members, m = s.package.pkg.toNat ∨ m = p ∨ m ∈ g.dones) →
        (∀ b, g.start = some b → s.cycle < b + j.desc.gto ∨ ∀ m ∈ g.members, m = s.package.pkg.toNat ∨ m ∈ g.acks) →
        Completes (.gangDone 0 p) s (fun t => t.kernels = [] ∧ ∀ c, (t.core c).slots = (s.core c).slots ∧ (t.core c).ls = (s.core c).ls)) ∧
      (j.desc.kd = Vector.replicate 8 0 →
        let aborted (t : State) : Prop := t.kernels = [{ j with live := 0, copies := 0, next := j.n, done := true }] ∧
          t.package.linkOut = s.package.linkOut ++ (g.members.filter (· != s.package.pkg.toNat)).map (fun m =>
            { dst := m, ctx := j.ctx, queue := j.queue, packet := j.packet, kind := .gangAbort s.gscTag })
        (p ∈ g.members → Completes (.gangAbort 0 p) s aborted) ∧
        (∀ b m, g.start = some b → b + j.desc.gto ≤ s.cycle → m ∈ g.members → m ≠ s.package.pkg.toNat → m ∉ g.acks →
          Completes (.gangTimeout 0) s aborted))) ∧
    (∀ l g, s.kernels = [] → s.launches = [l] → l.gang = some g → p ∈ g.members →
      (∀ d, l.desc = some d → d.kd = Vector.replicate 8 0) →
      Completes (.gangAbort 0 p) s (fun t => t.launches = [] ∧ t.cores = s.cores ∧ t.package.linkOut = s.package.linkOut ++
        (g.members.filter (· != s.package.pkg.toNat)).map (fun m =>
          { dst := m, ctx := l.ctx, queue := l.queue, packet := l.packet, kind := .gangAbort s.gscTag })))

/-! ### Firmware -/

/-- R355 to R357, R375 to R377, R379, R382: Bobbin's requests: each has its effect and answers that it has, or has none and
answers that it failed; a request before Bobbin runs fails; reset puts the image in reserved memory, measures it and runs it on a
system core, or reports that it does not verify. The numbers that contexts and queues get, and where an image is loaded, are the
model's choice (log 11). -/
def Obligations.DomainRequests : Prop :=
  ∀ (s : State), s.package.logging = false →
    let refused (n : Nat) (i : Instr) : Prop := exec i s = .next { s with package := { s.package with
      hostOut := s.package.hostOut ++ [.status n false] } }
    let answered (n : Nat) (t : State) : Prop := t.package.hostOut.getLast? = some (.status n true)
    (s.package.running = false → (∀ p a b c d, refused 1 (.createPartition p a b c d)) ∧ (∀ p, refused 2 (.destroyPartition p)) ∧
      (∀ p r, refused 3 (.createContext p r)) ∧ (∀ c r n a b, refused 4 (.createQueue c r n a b)) ∧ (∀ q, refused 5 (.resumeQueue q)) ∧
      (∀ q, refused 6 (.resetQueue q)) ∧ (∀ x, refused 7 (.killContext x)) ∧ (∀ p n, refused 8 (.quote p n)) ∧
      (∀ a b v, refused 9 (.liveUpdate a b v))) ∧
    (s.package.running = true →
      (∀ p sl hd en im, s.partitionFree p sl hd en = false → refused 1 (.createPartition p sl hd en im)) ∧
      (∀ p sl hd en im, s.partitionFree p sl hd en = true → Completes (.createPartition p sl hd en im) s (fun t => answered 1 t ∧
        mapGet t.partitions p = some { slices := sl, heads := hd, encoders := en, digest := Config.sha384 im } ∧
        t.package.meas = Config.sha384 (s.package.meas ++ Config.sha384 im) ∧ t.package.extends_ = s.package.extends_ + 1 ∧
        t.mem = s.mem ∧ t.cores = s.cores)) ∧
      (∀ p, mapGet s.partitions p = none → refused 2 (.destroyPartition p)) ∧
      (∀ p z, mapGet s.partitions p = some z → Completes (.destroyPartition p) s (fun t =>
        answered 2 t ∧ mapGet t.partitions p = none ∧ (∀ r ∈ z.share, ∀ a, r.1 ≤ a → a < r.2 → t.mem.read a = 0) ∧
        ((∀ x ∈ s.contexts, x.2.partition ≠ p) → t.cores = s.cores))) ∧
      (∀ p z r, mapGet s.partitions p = some z → r % 4096 = 0 → Completes (.createContext p r) s (fun t => answered 3 t ∧
        mapGet t.contexts s.nextId = some { partition := p, root := r, otag := BitVec.ofNat 13 s.nextId } ∧ t.cores = s.cores)) ∧
      (∀ x y ring n ri rt, mapGet s.contexts x = some y → y.st ≠ .killed → y.st ≠ .destroyed → ring % 4096 = 0 → 16 ≤ n → n ≤ 65536 → n = 2 ^ Nat.log2 n →
        ri % 8 = 0 → Completes (.createQueue x ring n ri rt) s (fun t => answered 4 t ∧
          mapGet t.queues s.nextId = some { ctx := x, ring := ring, size := n, riDva := ri, runtime := rt } ∧ t.cores = s.cores)) ∧
      (∀ q k, mapGet s.queues q = some k →
        (k.st = .stopped → Completes (.resumeQueue q) s (fun t => answered 5 t ∧ mapGet t.queues q = some { k with st := .active } ∧
          t.mem = s.mem)) ∧
        (k.st ≠ .stopped → refused 5 (.resumeQueue q)) ∧
        (k.st = .stopped ∨ k.st = .active → k.wi = k.ri → (s.context k.ctx).session = none → Completes (.resetQueue q) s (fun t =>
          answered 6 t ∧ mapGet t.queues q = some { k with st := .active, discards := [], resetTo := k.wi } ∧ t.cores = s.cores))) ∧
      (∀ x, (s.context x).st ≠ .active → (s.context x).st ≠ .preempted → refused 7 (.killContext x)) ∧
      (∀ x y, mapGet s.contexts x = some y → y.st = .active ∨ y.st = .preempted → Completes (.killContext x) s (fun t => answered 7 t ∧ (t.context x).st = .killed ∧
        (∀ k ∈ t.kernels, k.ctx ≠ x) ∧ (∀ c, (t.core c).ctx ≠ some x) ∧ .contextKilled x ∈ t.package.hostOut)) ∧
      (∀ p z nonce, mapGet s.partitions p = some z → Completes (.quote p nonce) s (fun t => answered 8 t ∧ t.mem = s.mem ∧
        .quote (s.quoteBody p nonce ++ Config.deviceSign (Config.sha384 (s.quoteBody p nonce))) ∈ t.package.hostOut ∧
        (s.package.meas.length = 48 → z.digest.length = 48 →
          (s.quoteBody p nonce ++ Config.deviceSign (Config.sha384 (s.quoteBody p nonce))).length = 240))) ∧
      (∀ im sg v, Config.vendorVerify (Config.sha384 im) sg = false → refused 9 (.liveUpdate im sg v)) ∧
      (∀ im sg v, Config.vendorVerify (Config.sha384 im) sg = true → Completes (.liveUpdate im sg v) s (fun t => answered 9 t ∧
        t.package.version = v ∧ (∀ c, c < 8 → mapGet t.package.sysCores c = some s.package.imageNext) ∧ t.package.meas = Config.sha384 (s.package.meas ++ Config.sha384 im) ∧ t.cores = s.cores))) ∧
    (∀ q k, mapGet s.queues q = some k → exec (.destroyQueue q) s = .next (s.setQueue q { k with st := .destroyed })) ∧
    (∀ x y, mapGet s.contexts x = some y → y.st = .created ∨ y.st = .killed → Completes (.destroyContext x) s (fun t =>
      (t.context x).st = .destroyed ∧ t.cores = s.cores ∧ ∀ q k, mapGet t.queues q = some k → k.ctx = x → k.st = .destroyed)) ∧
    (∀ seed im sg, s.package.replay = none →
      let base := ({} : Package).imageNext
      (Config.vendorVerify (Config.sha384 im) sg = true → Completes (.reset seed im sg) s (fun t => t.package.running = true ∧
        t.package.meas = Config.sha384 (List.replicate 48 0 ++ Config.sha384 im) ∧ t.package.extends_ = 1 ∧ t.cores = [] ∧
        t.contexts = [] ∧ t.partitions = [] ∧ mapGet t.package.sysCores 0 = some base ∧ t.package.meas.length = 48 ∧
        (∀ n, n < im.length → t.mem.read (base + n) = im.getD n 0) ∧
        (∀ x, (x < base ∨ base + im.length ≤ x) → t.mem.read x = s.mem.read x) ∧ t.package.time.acc = s.package.time.acc ∧ t.package.bootSeed = seed)) ∧
      (Config.vendorVerify (Config.sha384 im) sg = false → Completes (.reset seed im sg) s (fun t => t.package.running = false ∧
        t.cores = [] ∧ t.package.hostOut = s.package.hostOut ++ [.bootFailed])))

/-- R380: the services of `trap`: 0 the version, 1 the context's grace period, 2 the retired clusters of the issuing die; for any
other number all ones: Bobbin writes the value to dst, and the thread goes on. -/
def Obligations.TrapServices : Prop :=
  ∀ (s : State) (c : Nat) (i : Fin 16) (t : Thread) (f : FaultInfo), s.threadAt c i = some t → t.fault = some f → f.kind = 64 →
    f.recorded = true → t.hold = false →
    let goes (v : Nat) (u : State) : Prop := u.mem = s.mem ∧ (u.core c).ls = (s.core c).ls ∧ ∃ w, u.threadAt c i = some w ∧
      w.st = .running ∧ w.fault = none ∧ w.pc = f.resume.getD t.pc ∧
      ∀ r : Field, Sources.reg ⟨w.g, (u.core c).shared⟩ c r = if r = f.dst ∧ discards f.dst = false then BitVec.ofNat 64 v
        else Sources.reg ⟨t.g, (s.core c).shared⟩ c r
    (f.ea = 0 → Completes (.version c i.val) s (goes s.package.version.toNat)) ∧
    (f.ea = 1 → Completes (.gracePeriod c i.val) s (goes (s.context t.ctx).grace)) ∧
    (f.ea = 2 → Completes (.retiredClusters c i.val) s (goes (s.package.retired.filter (fun cl => cl / 128 == c / 1024)).length)) ∧
    (3 ≤ f.ea.toNat → (s.core c).ctx = some t.ctx → (s.context t.ctx).saved = [] → (∀ r ∈ (s.core c).faulters, r.slot ≠ i.val) →
      Completes (.wake c i.val []) s (goes 0xFFFFFFFFFFFFFFFF))

/-- R345 to R347, R354, R362, R364: the record of a fault is written (in the slot's service area, whose place is the model's
choice: log 11) and its slot waits, or its context is Faulted; a wake lets the faulter run again; a fault held too long, and a
containment, make the context Faulted: its threads stop, others go on, and it is killed when the containment is done; the scrubber
poisons a line that nobody owns; chunks are given. The moment at which a containment is done, the end of the cycle, is the model's
choice (log 33). -/
def Obligations.FaultSteps : Prop :=
  ∀ (s : State) (c : Nat) (i : Fin 16) (t : Thread) (f : FaultInfo), s.threadAt c i = some t → t.fault = some f →
    (t.st = .faulted → t.hold = false → f.recorded = false → t.beats = none → t.pending = [] → t.dep = Vector.replicate 8 0 →
      (s.kernelOf t).desc.upcall = 0 → f.woken = false →
      (f.kind = 64 ∨ f.kind = 2 → Completes (.faultRecord c i.val) s (fun u =>
        u.threadAt c i = some { t with fault := some { f with recorded := true } } ∧
        let at_ := s.package.areaBase + 512 * (16 * c + i.val)
        u.mem.num at_ 8 = (f.resume.getD t.pc).toNat ∧ u.mem.num (at_ + 256) 8 = t.pc.toNat ∧ u.mem.num (at_ + 264) 8 = f.ea.toNat ∧
        u.mem.num (at_ + 272) 8 = f.dva.toNat ∧ u.mem.read (at_ + 280) = BitVec.ofNat 8 f.kind ∧
        ∀ x, (x < at_ ∨ at_ + 512 ≤ x) → u.mem.read x = s.mem.read x)) ∧
      (f.kind = 3 ∨ f.kind = 4 ∨ f.kind = 5 → (s.context t.ctx).st = .active → Completes (.faultRecord c i.val) s (fun u =>
        (u.context t.ctx).st = .faulted))) ∧
    ((s.core c).ctx = some t.ctx → (s.context t.ctx).saved = [] → (∀ r ∈ (s.core c).faulters, r.slot ≠ i.val) →
      (f.kind = 2 → f.recorded = true → (∀ a ∈ s.flight, a.uid = t.uid → a.stranded = false) →
        exec (.wake c i.val []) s = .next (s.setSlot c i (some
          { (if f.fetch then { t with fetchCount := t.fetchCount + 1 } else { t with faultCount := t.faultCount + 1 }) with
            st := (match f.back with | some n => .parked (.landing n) | none => .running), fault := none }))) ∧
      (f.kind = 6 → f.woken = false → (s.context t.ctx).st = .active → Completes (.faultHoldExpiry c i.val) s (fun u =>
        (u.context t.ctx).st = .faulted))) ∧
    (∀ x n, (s.context x).st = .active ∨ (s.context x).st = .preempted → Completes (.containment x n) s (fun u =>
      (u.context x).st = .faulted ∧ u.mem = s.mem ∧ (∀ j (k : Fin 16) w, u.threadAt j k = some w → w.ctx ≠ x) ∧
      ∀ j (k : Fin 16) w, s.threadAt j k = some w → w.ctx ≠ x → u.threadAt j k = some w)) ∧
    (∀ x y, mapGet s.contexts x = some y → y.st = .faulted → ((s.contained x).context x).st = .killed ∧
      ∀ j, ((s.contained x).core j).ctx ≠ some x) ∧
    (∀ x n, (s.context x).st = .created → exec (.containment x n) s = .next s) ∧
    (∀ pa, mapGet s.lineTags (pa / 64) = none → exec (.scrub false pa false) s = .next
        { s with poison := pa / 64 :: s.poison.filter (· != pa / 64) } ∧ exec (.scrub false pa true) s = .next s) ∧
    (∀ j, (s.core j).dequeAt.length + 32 < (s.core j).deque.length → freePlace (s.core j).dequeChunks (s.core j).dequeAt = none →
      Completes (.chunkAllocation j true true) s (fun u => u.package.chunkNext = s.package.chunkNext + 65536 ∧
        (u.core j).dequeChunks = (s.core j).dequeChunks ++ [s.package.chunkNext] ∧ (u.core j).deque = (s.core j).deque ∧
        s.package.chunkNext ∈ (u.core j).dequeAt)) ∧
    (∀ j, (s.core j).deque.length ≤ (s.core j).dequeAt.length + 32 ∨ (freePlace (s.core j).dequeChunks (s.core j).dequeAt).isSome = true →
      ∀ ok, exec (.chunkAllocation j true ok) s = .next s)

/-- R358, R361, R384, R399: a pre-emption holds the threads of a cluster that do not run, and all of a stopped core; a Running
thread is stopped when the grace period is over; a saved context is resumed; a core whose sensor has crossed the threshold begins
its remap; a cluster that fails its second poll in a row is replaced, or retired. Where a thread stands that is saved at a
boundary, and when polls and sensor readings come, is the model's choice (logs 33 and 11). -/
def Obligations.ContextSteps : Prop :=
  ∀ (s : State) (x cl : Nat),
    (∀ y, mapGet s.contexts x = some y → y.st = .active → (∀ c ∈ s.coresHeld x cl, (s.core c).remapStep = 0) →
      (∃ c ∈ s.coresHeld x cl, (s.core c).stopped = false ∧ ∃ (i : Fin 16) (t : Thread), s.threadAt c i = some t ∧ t.st = .running ∧ t.hold = false) →
      Completes (.preEmption x cl) s (fun u => (u.context x).st = .active ∧ (u.context x).saving.contains cl = true ∧ u.mem = s.mem ∧
        ∀ c ∈ s.coresHeld x cl, ∀ (i : Fin 16) (t : Thread), s.threadAt c i = some t →
          u.threadAt c i = some (if t.st = .running ∧ (s.core c).stopped = false then t else { t with hold := true }))) ∧
    ((s.context x).st ≠ .active → exec (.preEmption x cl) s = .next s) ∧
    (∀ c (i : Fin 16) t n, s.threadAt c i = some t → mapGet (s.context t.ctx).saveSince (clusterOf c) = some n → t.st = .running →
      n + (s.context t.ctx).grace ≤ s.cycle → exec (.graceExpiry c i.val) s = .next (s.setSlot c i (some { t with hold := true }))) ∧
    (∀ y c (k : CoreState), mapGet s.contexts x = some y → y.st = .preempted → y.saved = [(c, k)] → clusterOf c = cl → y.savedIx = [] →
      (s.core c).ctx = none → s.namesCore c = true → s.pairsFree c k = true → k.ctx = some x →
      Completes (.resume x cl) s (fun u => (u.context x).st = .active ∧ (u.context x).saved = [] ∧ u.mem = s.mem ∧
        (u.core c).ctx = some x ∧ (u.core c).ls = k.ls ∧ ∀ (i : Fin 16) t, k.slots[i] = some t → t.fault = none →
          (∀ n l, t.st = .parked (.lap n l) → (s.car (dieOf c) n).st ≠ .off) → u.threadAt c i = some { t with hold := false, mop := t.mop.map (fun r => { r with since := max r.since s.cycle }) })) ∧
    (∀ c, s.namesCore c = true → (s.core c).remapStep = 0 → mapGet s.package.sparing (clusterOf c) = none →
      (c ∉ s.package.crossed → exec (.thermalMigration c) s = .next s) ∧
      (∀ p, c ∈ s.package.crossed → s.coolest (dieOf c) = some p →
        (∀ y, (s.core c).ctx = some y → (s.context y).saving.contains (clusterOf c) = false) →
        Completes (.thermalMigration c) s (fun u => (u.core c).remapStep = 1 ∧ (u.core c).remapTarget = some p ∧
          (u.core c).ls = (s.core c).ls ∧ u.package = { s.package with crossed := s.package.crossed.filter (· != c) }))) ∧
    (∀ p deg, (s.package.threshold ≤ s.sensor p ∨ deg < s.package.threshold → (s.sense p deg).package.crossed = s.package.crossed) ∧
      (s.sensor p < s.package.threshold → s.package.threshold ≤ deg → ∀ c ∈ dieCores (p / 1024), s.namesCore c = true → s.pcore c = p →
        c ∈ (s.sense p deg).package.crossed)) ∧
    (∀ n ok, (s.cluster cl).polledAt = some n → s.cycle < n + 2 ^ 20 → exec (.clcPoll cl ok) s = .next s) ∧
    (cl < 512 → cl % 128 < enabled s.package → cl ∉ s.package.retired → (∀ n, (s.cluster cl).polledAt = some n → n + 2 ^ 20 ≤ s.cycle) →
      let k := { s.cluster cl with polledAt := some s.cycle }
      exec (.clcPoll cl true) s = .next (s.setCluster cl { k with failedPolls := 0 }) ∧
      ((s.cluster cl).failedPolls = 0 → exec (.clcPoll cl false) s = .next (s.setCluster cl { k with failedPolls := 1 })) ∧
      ((s.cluster cl).failedPolls ≠ 0 → (∀ c, (s.core c).ctx = none) → Completes (.clcPoll cl false) s (fun u => u.mem = s.mem ∧
        s.pcluster cl ∈ u.package.failed ∧
        leafName (s.pcluster cl / 128) (clusterLeaf (s.pcluster cl % 128)) ∈ u.package.deadLeaves ∧ (cl ∈ u.package.retired ∨ ∃ q, mapGet u.package.baseMap cl = some q ∧ q ≠ s.pcluster cl))))

/-- R20, R369, R372, R374: a flit that is retried changes nothing; a port's link goes down or is trained: its bit of LINKUP; an
access that has found no path to its package for 2²⁰ cycles raises LINK_DOWN at its thread; failed slices (leaves 80 to 143 of a
die, log 65) and switches leave the masks; an offset of TIME is absorbed. At which instruction the fault stands, and that the
access is performed after the wake, is the model's choice (log 31). -/
def Obligations.LinkSteps : Prop :=
  ∀ (s : State),
    (∀ p, exec (.flitRetry p) s = .next s) ∧
    (∀ p, p < 22 → Completes (.portDown p) s (fun t => t.mem = s.mem ∧ t.cores = s.cores ∧ t.flight = s.flight ∧
      ∀ j, j < 22 → t.package.linkup.getLsbD j = (if j = p ∧ p ≠ 18 ∧ p ≠ 19 then false else s.package.linkup.getLsbD j))) ∧
    (∀ p, p < 22 → Completes (.portTrained p) s (fun t => t.mem = s.mem ∧ t.cores = s.cores ∧ t.flight = s.flight ∧
      ∀ j, j < 22 → t.package.linkup.getLsbD j = (if j = p ∧ p ≠ 18 ∧ p ≠ 19 then true else s.package.linkup.getLsbD j))) ∧
    (∀ k a c (i : Fin 16) t, s.flight[k]? = some a → a.remote = true → a.stranded = false → s.pathTo a.home = false → s.pathLost a.home = true → s.locate a.uid = some (c, i) →
      s.threadAt c i = some t → t.fault = none → t.stage = 0 → t.mop = none → t.fe = none → t.hold = false →
      Completes (.linkDown k) s (fun u => u.mem = s.mem ∧ u.flight = s.flight.map (fun b =>
        if b.uid = a.uid ∧ b.remote = true ∧ s.pathTo b.home = false then { b with stranded := true } else b) ∧ ∃ w f, u.threadAt c i = some w ∧ w.st = .faulted ∧
        w.fault = some f ∧ f.kind = 6 ∧ f.ea = a.ea ∧ w.pc = t.pc)) ∧
    (∀ k, (∀ pkg, s.pathLost pkg = false) → exec (.linkDown k) s = .next s) ∧
    (∀ leaf sw, Completes (.sliceOrSwitchFailure leaf sw) s (fun t => t.mem = s.mem ∧ t.cores = s.cores ∧
      t.package.deadSwitches = (if sw = true then s.package.deadSwitches ++ [leaf] else s.package.deadSwitches) ∧
      t.package.deadLeaves = (if sw = false ∧ leaf < 592 ∧ 80 ≤ leaf % 148 ∧ leaf % 148 < 144 then s.package.deadLeaves ++ [leaf]
        else s.package.deadLeaves))) ∧
    (s.package.time.slew = 0 → s.contexts = [] → exec .offsetAbsorbed s = .next
      { s with package := { s.package with time := { s.package.time with rate := 0 } } }) ∧
    (s.package.time.slew ≠ 0 → exec .offsetAbsorbed s = .next s)

/-! ### Encodings, the step, reset, memory -/

/-- The worked line of the manual's chapter on lines: `addi g1, g1, 5`, the pair `add g2, g1, g3` and `vadd v1, v1, v2`, and
`li g5, 0x1234_5678_9ABC_DEF0`; byte 0 is lowest. -/
def workedLine : Line :=
  0x840000510460844123456789abcdef00000000000000000000000000000000000000000000000000000000000000000000000000000c2954b90501082002000#512

/-- R49, R50, R52, R54, R61, R70: the worked line decodes to its four instructions, the second and third a pair; with the L field
of the fourth changed to 2 the line still passes and that instruction is refused. Words of other families, each written out from
its entry. -/
def Obligations.DecodeWords : Prop :=
  workedLine.ok 1 = true ∧ workedLine.count = 4 ∧
  workedLine.decodeAt 1 = .ok (.addi 1 1 5) ∧ workedLine.decodeAt 2 = .ok (.add 2 1 3) ∧
  workedLine.decodeAt 3 = .ok (.vadd 0 1 1 2) ∧ workedLine.decodeAt 4 = .ok (.liL 5 0x123456789ABCDEF0) ∧
  bundleAt workedLine 1 = .one ∧ bundleAt workedLine 2 = .two ∧ bundleAt workedLine 4 = .one ∧
  (let cut : Line := workedLine ^^^ (0x4000#512 <<< 64)
   cut.ok 4 = true ∧ cut.decodeAt 4 = .error .malformed ∧ cut.decodeAt 3 = .ok (.vadd 0 1 1 2)) ∧
  decodeTableWord 16 0x0000 = some .nop ∧
  decodeTableWord 48 (0x8400 * 2 ^ 32 + (3 * 2 ^ 27 + 1 * 2 ^ 22 + 2 * 2 ^ 17 + 0x1FFFF)) = some (.beq 1 2 3 0x1FFFF) ∧
  decodeTableWord 16 0x0000 ≠ decodeTableWord 16 0x0001

/-- R63, R68, R69, R91: in each cycle a core chooses its slot and then serves its slots in ascending order (log 50 gives the steps
of a cycle their order). Where the service of the slot whose turn it is comes next, before any item of the agenda, the step issues
the instruction at its thread's PC in the held line: it is that instruction's effect, after the waits of the slot that end, with
the issue counted, and the joins on counters that read 0 are answered. Of a pair, the second member runs on the state that the
first leaves, both with the registers read before either; an instruction that is no instruction traps (17). An atomic on the
issuing core's own store is performed at its interface once the slots of the cycle have been served (log 54). -/
def Obligations.StepRunsInstruction : Prop :=
  ∀ (s : State) (c : Nat) (e : Agenda) (rest : List Agenda), s.agenda = e :: rest → s.phase ≤ s.placeOf e → s.dueRound = none →
    s.dueSeed (s.placeOf e) = none →
    (s.dueSlot (s.placeOf e) = some (c, none) → step s = .next (({ s with phase := beginPlace c } : State).beginTurn c).settle ∧
      ((({ s with phase := beginPlace c } : State).beginTurn c).core c).pick = (({ s with phase := beginPlace c } : State).choice c).1) ∧
    (∀ (i : Fin 16) (t : Thread) (a : Nat) (l : Line), s.dueSlot (s.placeOf e) = some (c, some i) → (s.core c).pick = some i →
      let r : State := { s with phase := servePlace c i.val }
      let p : State := { (r.setCore c { r.core c with served := i.val + 1 }).tendSlot c i with slot := i }
      let n := (t.pc &&& 63).toNat
      let q := ((p.mark.setTh { t.beat with st := .running }).count p.cur 2 1).lendIf (t.beats.isSome || bundleVector l n)
      (p.core c).stopped = false → p.thread = some t → t.eligible = true →
      t.beatsOnly = false → t.held = some (a, l) → (t.skipBreak = true ∨ breakAt (p.core p.cur) t.pc = none) →
      (t.beats = none ∨ bundleVector l n = false) →
      (∀ x, bundleAt l n = .one → l.decodeAt n = .ok x →
        step s = mapOut State.settle (mapOut State.unlatch (exec x { q with bundle := q.th.latched }))) ∧
      (∀ x y u v, bundleAt l n = .two → l.decodeAt n = .ok x → l.decodeAt (n + 1) = .ok y → q.th.replay = none →
        exec x { q with bundle := some (q.th.latched.getD ⟨q.th.g, (q.core q.cur).shared⟩) } = .next u → u.thread = some v →
        v.st = .running → v.pc = q.th.pc + 1 → step s = mapOut State.settle (mapOut State.unlatch (exec y u))) ∧
      (bundleAt l n = .illegal ∨ (∃ e, l.decodeAt n = .error e) → step s = .next (q.trap 17).settle)) ∧
    (∀ a r, placeIn 5 0 < s.placeOf e → s.dueSlot (s.placeOf e) = none → s.amos = a :: r →
      step s = .next ((({ s with amos := r, phase := max s.phase (placeIn 5 0) } : State).ownAtomic a)).settle)

/-- R49 to R60, R70 and the entries: every well-formed instruction that has an encoding is what the decoder reads from it, alone
or in a line, under any marks; and a word that decodes to an instruction is that instruction's own encoding. -/
def Obligations.EncodeDecode : Prop :=
  (∀ (i : Instr) (e : Enc), i.wf = true → encode i = some e → decode e = .ok i ∧
    ∀ m : Marks, let l := Line.single (headWord m e) e.tail
      l.ok 1 = true ∧ l.count = 1 ∧ l.decodeAt 1 = .ok i ∧ headMarks (l.head 1) = m) ∧
  (∀ (i : Instr) (e : Enc), decode e = .ok i → i.wf = true ∧ encode i = some e)

/-- R375, R9, R20, R369: the package right after reset: MEAS holds 48 zero bytes and its extend count is 0; no Bobbin, no
partition, no context and no thread is there, and memory is in its canonical form. (The identity maps of the clusters, LINKUP 0,
TIME 0 and the registers' zeros are the model's choice: log 4; the zero of a byte that nothing has written is another: log 3.) -/
def Obligations.ResetState : Prop :=
  State.reset.package.meas = List.replicate 48 0 ∧ State.reset.package.extends_ = 0 ∧ State.reset.package.running = false ∧
  State.reset.partitions = [] ∧ State.reset.contexts = [] ∧ State.reset.queues = [] ∧ State.reset.kernels = [] ∧
  (∀ c i, State.reset.threadAt c i = none) ∧ State.reset.MemOk ∧ (∀ a, State.reset.mem.read a = 0) ∧
  (∀ c, (State.reset.core c).shared = Vector.replicate 16 0 ∧ (State.reset.core c).ls = [])

/-- Device memory stays in its canonical form: from every state in which it is, every step keeps it. -/
def Obligations.MemoryStaysCanonical : Prop :=
  ∀ (s t : State), s.MemOk → step s = .next t → t.MemOk
end

