-- ==== Sys2Proof/Laws/Memory.lean ====
section
/-! SUPPORT. Laws of the sparse maps and of memory: a read after a write, what a write leaves alone, and that every memory
operation keeps the canonical form. -/

namespace Sys2Proof.Machine

/-! ### Maps -/

@[simp] theorem mapGet_nil {α : Type} (a : Nat) : mapGet ([] : List (Nat × α)) a = none := rfl

@[simp] theorem mapGet_mapPut_self {α : Type} (l : List (Nat × α)) (a : Nat) (x : α) : mapGet (mapPut l a x) a = some x := by
  induction l with
  | nil => simp [mapPut, mapGet]
  | cons p r ih =>
    obtain ⟨k, v⟩ := p
    simp only [mapPut]
    split
    · simp [mapGet]
    · split
      · simp [mapGet]
      · rename_i h1 h2; simp [mapGet, h2, ih]

theorem mapGet_mapPut_ne {α : Type} (l : List (Nat × α)) {a b : Nat} (x : α) (h : b ≠ a) :
    mapGet (mapPut l a x) b = mapGet l b := by
  induction l with
  | nil => simp [mapPut, mapGet, Ne.symm h]
  | cons p r ih =>
    obtain ⟨k, v⟩ := p
    simp only [mapPut]
    split
    · simp [mapGet, Ne.symm h]
    · split
      · rename_i h1 h2; subst h2; simp [mapGet, Ne.symm h]
      · simp only [mapGet, ih]

theorem mapGet_mapPut {α : Type} (l : List (Nat × α)) (a b : Nat) (x : α) :
    mapGet (mapPut l a x) b = if b = a then some x else mapGet l b := by
  by_cases h : b = a
  · subst h; simp
  · simp [h, mapGet_mapPut_ne l x h]

@[simp] theorem mapGet_mapDel_self {α : Type} (l : List (Nat × α)) (a : Nat) : mapGet (mapDel l a) a = none := by
  induction l with
  | nil => rfl
  | cons p r ih =>
    obtain ⟨k, v⟩ := p
    simp only [mapDel]
    split
    · exact ih
    · rename_i h; simp [mapGet, h, ih]

theorem mapGet_mapDel_ne {α : Type} (l : List (Nat × α)) {a b : Nat} (h : b ≠ a) : mapGet (mapDel l a) b = mapGet l b := by
  induction l with
  | nil => rfl
  | cons p r ih =>
    obtain ⟨k, v⟩ := p
    simp only [mapDel]
    split
    · rename_i h1; subst h1; simp [mapGet, Ne.symm h, ih]
    · simp only [mapGet, ih]

/-! ### Bytes -/

theorem Memory.read_write_self (m : Memory) (a : Nat) (b : Byte) : (m.write a b).read a = b := by
  unfold Memory.write Memory.read
  split
  · rename_i h; simp [h]
  · simp

theorem Memory.read_write_ne (m : Memory) {a x : Nat} (b : Byte) (h : x ≠ a) : (m.write a b).read x = m.read x := by
  unfold Memory.write Memory.read
  split
  · rw [mapGet_mapDel_ne _ h]
  · rw [mapGet_mapPut_ne _ _ h]

theorem Memory.read_write (m : Memory) (a x : Nat) (b : Byte) : (m.write a b).read x = if x = a then b else m.read x := by
  by_cases h : x = a
  · subst h; simp [Memory.read_write_self]
  · simp [h, Memory.read_write_ne m b h]

/-- Bytes outside those that are written read as before. -/
theorem Memory.read_put_outside (bs : List Byte) : ∀ (m : Memory) (a x : Nat), (x < a ∨ a + bs.length ≤ x) →
    (m.put a bs).read x = m.read x := by
  induction bs with
  | nil => intros; rfl
  | cons b r ih =>
    intro m a x h
    simp only [List.length_cons] at h
    rw [Memory.put, ih _ _ _ (by omega), Memory.read_write_ne _ _ (by omega)]

/-- A byte that is written reads as written. -/
theorem Memory.read_put_inside (bs : List Byte) : ∀ (m : Memory) (a k : Nat) (h : k < bs.length),
    (m.put a bs).read (a + k) = bs[k] := by
  induction bs with
  | nil => intro m a k h; simp at h
  | cons b r ih =>
    intro m a k h
    rw [Memory.put]
    cases k with
    | zero => rw [Memory.read_put_outside r _ _ _ (by omega)]; simp [Memory.read_write_self]
    | succ k =>
      have := ih (m.write a b) (a + 1) k (by simpa using h)
      rw [show a + (k + 1) = a + 1 + k by omega, this]; simp

theorem leBytes_length (n : Nat) : ∀ v, (leBytes v n).length = n := by
  induction n with
  | zero => intro v; rfl
  | succ n ih => intro v; simp [leBytes, ih]

/-- Bytes put and read again are those bytes. -/
theorem Memory.bytes_put (bs : List Byte) : ∀ (m : Memory) (a : Nat), (m.put a bs).bytes a bs.length = bs := by
  induction bs with
  | nil => intros; rfl
  | cons b r ih =>
    intro m a
    simp only [List.length_cons, Memory.bytes, Memory.put, ih]
    rw [Memory.read_put_outside r _ _ _ (by omega), Memory.read_write_self]

theorem leNat_leBytes (n : Nat) : ∀ v, leNat (leBytes v n) = v % 256 ^ n := by
  induction n with
  | zero => intro v; simp [leBytes, leNat, Nat.mod_one]
  | succ n ih =>
    intro v
    simp only [leBytes, leNat, ih, BitVec.toNat_ofNat]
    rw [show (256 : Nat) ^ (n + 1) = 256 * 256 ^ n by rw [Nat.pow_succ, Nat.mul_comm], Nat.mod_mul]

/-- A number written and read back. -/
theorem Memory.num_putNum (m : Memory) (a n v : Nat) : (m.putNum a n v).num a n = v % 256 ^ n := by
  have h := Memory.bytes_put (leBytes v n) m a
  rw [leBytes_length] at h
  rw [Memory.num, Memory.putNum, h, leNat_leBytes]

theorem Memory.bytes_congr (m m' : Memory) (n : Nat) : ∀ a, (∀ x, a ≤ x → x < a + n → m'.read x = m.read x) →
    m'.bytes a n = m.bytes a n := by
  induction n with
  | zero => intros; rfl
  | succ n ih =>
    intro a h
    simp only [Memory.bytes]
    rw [h a (by omega) (by omega), ih (a + 1) (fun x h1 h2 => h x (by omega) (by omega))]

/-! ### The canonical form -/

/-- Every listed address is above a bound. -/
def Memory.above (m : Memory) (a : Nat) : Prop := ∀ p ∈ m, a < p.1

theorem Memory.wf_cons (a : Nat) (b : Byte) (r : Memory) :
    Memory.wf ((a, b) :: r) = true ↔ b ≠ 0 ∧ Memory.above r a ∧ Memory.wf r = true := by
  induction r generalizing a b with
  | nil => simp [Memory.wf, Memory.above]
  | cons p r ih =>
    obtain ⟨a', b'⟩ := p
    have := ih a' b'
    constructor
    · intro h
      simp only [Memory.wf, Bool.and_eq_true, bne_iff_ne, ne_eq, decide_eq_true_eq] at h
      obtain ⟨⟨h1, h2⟩, h3⟩ := h
      have h3' : Memory.wf ((a', b') :: r) = true := by simp only [Memory.wf, Bool.and_eq_true, bne_iff_ne, ne_eq]; exact h3
      refine ⟨h1, ?_, h3'⟩
      intro q hq
      rcases List.mem_cons.1 hq with rfl | hq
      · exact h2
      · exact Nat.lt_trans h2 ((this.1 h3').2.1 q hq)
    · rintro ⟨h1, h2, h3⟩
      unfold Memory.wf
      simp only [Bool.and_eq_true, bne_iff_ne, ne_eq, decide_eq_true_eq]
      exact ⟨⟨h1, h2 (a', b') (List.mem_cons_self ..)⟩, h3⟩

theorem Memory.above_mapPut (m : Memory) (a c : Nat) (b : Byte) (h : Memory.above m c) (hc : c < a) :
    Memory.above (mapPut m a b) c := by
  induction m with
  | nil => intro p hp; simp [mapPut] at hp; subst hp; exact hc
  | cons q r ih =>
    obtain ⟨k, v⟩ := q
    have hk : c < k := h (k, v) (by simp)
    have hr : Memory.above r c := fun p hp => h p (by simp [hp])
    intro p hp
    simp only [mapPut] at hp
    split at hp
    · rcases List.mem_cons.1 hp with rfl | hp
      · exact hc
      · exact h p hp
    · split at hp
      · rcases List.mem_cons.1 hp with rfl | hp
        · exact hc
        · exact hr p hp
      · rcases List.mem_cons.1 hp with rfl | hp
        · exact hk
        · exact ih hr p hp

theorem Memory.above_mapDel (m : Memory) (a c : Nat) (h : Memory.above m c) : Memory.above (mapDel m a) c := by
  induction m with
  | nil => exact h
  | cons q r ih =>
    obtain ⟨k, v⟩ := q
    have hr : Memory.above r c := fun p hp => h p (by simp [hp])
    intro p hp
    simp only [mapDel] at hp
    split at hp
    · exact ih hr p hp
    · rcases List.mem_cons.1 hp with rfl | hp
      · exact h _ (by simp)
      · exact ih hr p hp

theorem Memory.wf_mapPut (m : Memory) (a : Nat) (b : Byte) (hb : b ≠ 0) (h : m.wf = true) : Memory.wf (mapPut m a b) = true := by
  induction m with
  | nil => simpa [mapPut, Memory.wf] using hb
  | cons q r ih =>
    obtain ⟨k, v⟩ := q
    obtain ⟨hv, hr, hw⟩ := (Memory.wf_cons k v r).1 h
    simp only [mapPut]
    split
    · rename_i hlt
      refine (Memory.wf_cons _ _ _).2 ⟨hb, ?_, h⟩
      intro p hp
      rcases List.mem_cons.1 hp with rfl | hp
      · exact hlt
      · exact Nat.lt_trans hlt (hr p hp)
    · split
      · rename_i h1 h2; subst h2; exact (Memory.wf_cons _ _ _).2 ⟨hb, hr, hw⟩
      · exact (Memory.wf_cons _ _ _).2 ⟨hv, Memory.above_mapPut r a k b hr (by omega), ih hw⟩

theorem Memory.wf_mapDel (m : Memory) (a : Nat) (h : m.wf = true) : Memory.wf (mapDel m a) = true := by
  induction m with
  | nil => rfl
  | cons q r ih =>
    obtain ⟨k, v⟩ := q
    obtain ⟨hv, hr, hw⟩ := (Memory.wf_cons k v r).1 h
    simp only [mapDel]
    split
    · exact ih hw
    · exact (Memory.wf_cons _ _ _).2 ⟨hv, Memory.above_mapDel r a k hr, ih hw⟩

theorem Memory.wf_filter (f : Host.Cell → Bool) (m : Memory) (h : m.wf = true) : Memory.wf (m.filter f) = true := by
  induction m with
  | nil => rfl
  | cons q r ih =>
    obtain ⟨k, v⟩ := q
    obtain ⟨hv, hr, hw⟩ := (Memory.wf_cons k v r).1 h
    simp only [List.filter_cons]
    split
    · exact (Memory.wf_cons _ _ _).2 ⟨hv, fun p hp => hr p (List.mem_filter.1 hp).1, ih hw⟩
    · exact ih hw

/-- Writing a byte keeps the canonical form. -/
theorem Memory.wf_write (m : Memory) (a : Nat) (b : Byte) (h : m.wf = true) : (m.write a b).wf = true := by
  unfold Memory.write
  split
  · exact Memory.wf_mapDel m a h
  · exact Memory.wf_mapPut m a b ‹_› h

/-- Writing bytes keeps the canonical form. -/
theorem Memory.wf_put (bs : List Byte) : ∀ (m : Memory) (a : Nat), m.wf = true → (m.put a bs).wf = true := by
  induction bs with
  | nil => intro m a h; exact h
  | cons b r ih => intro m a h; exact ih _ _ (Memory.wf_write m a b h)

/-- Writing a number keeps the canonical form. -/
theorem Memory.wf_putNum (m : Memory) (a n v : Nat) (h : m.wf = true) : (m.putNum a n v).wf = true := Memory.wf_put _ _ _ h

end Sys2Proof.Machine
end

