-- ==== Sys2Proof/Machine/SaveRecord.lean ====
section
/-! DEFINITION. The core record (R360): the bytes in which a core of a saved context is laid out, and the thread and claim records
that go with it (R359). Every field is little-endian, and reserved bytes are zero. -/

namespace Sys2Proof.Machine

/-- R360: full/empty bits, word n at byte ⌊n/8⌋, bit n mod 8; 1 means Full. -/
def CoreState.fullBytes (k : CoreState) : List Byte :=
  (List.range 0x2000).map (fun b => BitVec.ofNat 8 ((List.range 8).map (fun j => (k.full (8 * b + j)).toNat * 2 ^ j)).sum)
/-- R360: what an entry of the latch queue says. Its bytes in the record are not given by the spec: `Config.latchEntry` (log 64). -/
def LatchJob.numbers : LatchJob → List Nat
  | .bload off k fb sb _ => [0, off, k, fb.toNat, sb]
  | .delivery k lf _ _ => [1, k, lf.toNat]
  | .mop uid => [2, uid]
  | .bpass _ => [3]
  | .drop _ => [4]
/-- R259, R360: an entry of the mailbox, 16 bytes. -/
def Mail.bytes (m : Mail) : List Byte := leBytes m.d.toNat 8 ++ leBytes m.high.toNat 8
/-- Entries of one size at the start of an area of zeros. -/
def areaBytes {α : Type} (n size : Nat) (f : α → List Byte) (l : List α) : List Byte :=
  (List.range n).flatMap (fun i => match l[i]? with | some a => f a | none => List.replicate size 0)
/-- R360: a core's record, with the value of its POOL register. -/
def CoreState.recordBytes (k : CoreState) (pool : Word) : List Byte :=
  k.ls.bytes 0 0x40000 ++ k.fullBytes ++
    slotNumbers.flatMap (fun n => leBytes (if 14 ≤ n.val then 0 else (k.shared[n]).toNat) 8) ++
    k.win.toList.flatMap (fun w => leBytes w.toNat 8) ++ k.cb.toList.flatMap (fun b => leBytes b.reg.toNat 8) ++
    leBytes k.mcbase 8 ++ leBytes pool.toNat 8 ++ leBytes k.latch.reg.toNat 8 ++ k.table.toList ++ List.replicate 24 0 ++
    k.latch.scale.bytes 0 512 ++ k.latch.data.bytes 0 4096 ++
    areaBytes 16 16 (fun (j : LatchJob) => (List.range 16).map (Config.latchEntry j.numbers)) k.latch.queue ++
    areaBytes 32 16 Mail.bytes k.mailbox ++ leBytes k.mailbox.length 8
/-- R326, R360: the record of a core that a context has saved; that of core 0 of a cluster ends with the cluster's IX cursor. -/
def State.savedRecord (s : State) (x c : Nat) : List Byte :=
  match mapGet (s.context x).saved c with
  | none => []
  | some k => k.recordBytes ((s.setCore c k).poolReg c) ++
    (if c % 8 = 0 then ixCursor ((((s.context x).savedIx.filter (fun p => p.1 == clusterOf c)).map (·.2)).head?) else [])
/-- R359: the records of a saved core's threads, by slot, each with its extensions and its claim. -/
def State.savedThreads (s : State) (x c : Nat) : List (List Byte) :=
  match mapGet (s.context x).saved c with
  | none => []
  | some k => slotNumbers.filterMap (fun i => (k.slots[i]).map (fun t => t.saveBytes c i ++ t.claimBytes ((s.setCore c k).claimReg c i t)))

end Sys2Proof.Machine
end

