-- ==== Sys2Proof/Laws/Images.lean ====
section
/-! SUPPORT. The sizes of the records in which work is laid out in memory: each is what the spec's table gives it. -/

namespace Sys2Proof.Machine

theorem Memory.bytes_length (m : Memory) (n : Nat) : ∀ a, (m.bytes a n).length = n := by
  induction n with
  | zero => intro a; rfl
  | succ n ih => intro a; simp [Memory.bytes, ih]
/-- A row of fields is as long as its fields. -/
theorem fieldBytes_length (l : List (Nat × Nat)) : (fieldBytes l).length = (l.map (·.2)).sum := by
  simp [fieldBytes, leBytes_length]
/-- A list in which every part has one size. -/
theorem flatMap_length_const {α : Type} (f : α → List Byte) (n : Nat) (l : List α) (h : ∀ a ∈ l, (f a).length = n) :
    (l.flatMap f).length = l.length * n := by
  induction l with
  | nil => simp
  | cons a r ih => simp [ih (fun b hb => h b (by simp [hb])), h a (by simp), Nat.succ_mul, Nat.add_comm]
theorem areaBytes_length {α : Type} (n size : Nat) (f : α → List Byte) (l : List α) (h : ∀ a, (f a).length = size) :
    (areaBytes n size f l).length = n * size := by
  unfold areaBytes
  rw [flatMap_length_const _ size]
  · simp
  · intro i _; split
    · exact h _
    · simp

/-- R240: a task's record is 128 bytes. -/
theorem Task.bytes_length (t : Task) : t.bytes.length = 128 := by simp [Task.bytes, fieldBytes_length, Task.fields]
/-- R225: a `mop`'s cursor is 32 bytes. -/
theorem MopRun.cursor_length (r : MopRun) (c : Nat) : (r.cursor c).length = 32 := by simp [MopRun.cursor, fieldBytes_length]
/-- R326: an IX cursor is 16 bytes. -/
theorem ixCursor_length (o : Option IxJob) : (ixCursor o).length = 16 := by cases o <;> simp [ixCursor, fieldBytes_length]
/-- R348: a frame is 32 words. -/
theorem Thread.frame_length (t : Thread) (pc : Word) : (t.frame pc).length = 32 := by simp [Thread.frame]
/-- R99: a packet's length field counts its bytes. -/
theorem Thread.packetBytes_length (t : Thread) (mask : BitVec 16) : (t.packetBytes mask).length =
    96 + 8 * (slotNumbers.filter (fun i => mask.getLsbD i.val)).length + 8 * (t.segFields t.sm).length := by
  have h : ∀ l : List (Fin 8), ((l.flatMap (fun k => [((t.kb[k]).toNat, 8), ((t.kd[k]).toNat, 8)])).map (·.2)).sum = 16 * l.length := by
    intro l; induction l with
    | nil => rfl
    | cons a r ih => simp_all; omega
  have g : ∀ l : List (Fin 16), ((l.map (fun i => ((t.g[i]).toNat, 8))).map (·.2)).sum = 8 * l.length := by
    intro l; induction l with
    | nil => rfl
    | cons a r ih => simp_all; omega
  have e : ∀ l : List (Fin 8), (l.flatMap (fun k => [((t.kb[k]).toNat, 8), ((t.kd[k]).toNat, 8)])).length = 2 * l.length := by
    intro l; induction l with
    | nil => rfl
    | cons a r ih => simp_all; omega
  simp only [Thread.packetBytes, fieldBytes_length, Thread.packetFields, List.map_append, List.sum_append, Thread.segFields, g, h, e]
  simp; omega
/-- R360: a core's record is 0x4_3608 bytes. -/
theorem CoreState.recordBytes_length (k : CoreState) (pool : Word) : (k.recordBytes pool).length = 0x43608 := by
  have w : ∀ l : List Word, (l.flatMap (fun w => leBytes w.toNat 8)).length = l.length * 8 :=
    fun l => flatMap_length_const _ 8 l (fun _ _ => leBytes_length 8 _)
  have b : (k.cb.toList.flatMap (fun b => leBytes b.reg.toNat 8)).length = 32 := by
    rw [flatMap_length_const _ 8 _ (fun _ _ => leBytes_length 8 _)]; simp
  have s : (slotNumbers.flatMap (fun n => leBytes (if 14 ≤ n.val then 0 else (k.shared[n]).toNat) 8)).length = 128 := by
    rw [flatMap_length_const _ 8 _ (fun _ _ => leBytes_length 8 _)]; rfl
  have q : (areaBytes 16 16 (fun (j : LatchJob) => (List.range 16).map (Config.latchEntry j.numbers)) k.latch.queue).length = 256 :=
    areaBytes_length 16 16 _ _ (fun j => by rw [List.length_map, List.length_range])
  have m : (areaBytes 32 16 Mail.bytes k.mailbox).length = 512 :=
    areaBytes_length 32 16 _ _ (fun m => by rw [Mail.bytes, List.length_append, leBytes_length, leBytes_length])
  simp only [CoreState.recordBytes, List.length_append, Memory.bytes_length, w, b, s, q, m, leBytes_length, Vector.length_toList,
    List.length_replicate]
  simp [CoreState.fullBytes]

end Sys2Proof.Machine
end

