-- ==== Sys2Proof/Laws/State.lean ====
section
/-! SUPPORT. One lemma per field per update of the state, and what the accessors of cores, clusters, contexts and threads
read after an update. -/

namespace Sys2Proof.Machine

/-! ### `setCore` -/

@[simp] theorem State.setCore_package (s : State) (c : Nat) (k : CoreState) : (s.setCore c k).package = s.package := rfl
@[simp] theorem State.setCore_cycle (s : State) (c : Nat) (k : CoreState) : (s.setCore c k).cycle = s.cycle := rfl
@[simp] theorem State.setCore_phase (s : State) (c : Nat) (k : CoreState) : (s.setCore c k).phase = s.phase := rfl
@[simp] theorem State.setCore_ownAt (s : State) (c : Nat) (k : CoreState) : (s.setCore c k).ownAt = s.ownAt := rfl
@[simp] theorem State.setCore_agenda (s : State) (c : Nat) (k : CoreState) : (s.setCore c k).agenda = s.agenda := rfl
@[simp] theorem State.setCore_cur (s : State) (c : Nat) (k : CoreState) : (s.setCore c k).cur = s.cur := rfl
@[simp] theorem State.setCore_slot (s : State) (c : Nat) (k : CoreState) : (s.setCore c k).slot = s.slot := rfl
@[simp] theorem State.setCore_bundle (s : State) (c : Nat) (k : CoreState) : (s.setCore c k).bundle = s.bundle := rfl
@[simp] theorem State.setCore_free (s : State) (c : Nat) (k : CoreState) : (s.setCore c k).free = s.free := rfl
@[simp] theorem State.setCore_nextUid (s : State) (c : Nat) (k : CoreState) : (s.setCore c k).nextUid = s.nextUid := rfl
@[simp] theorem State.setCore_nextId (s : State) (c : Nat) (k : CoreState) : (s.setCore c k).nextId = s.nextId := rfl
@[simp] theorem State.setCore_mem (s : State) (c : Nat) (k : CoreState) : (s.setCore c k).mem = s.mem := rfl
@[simp] theorem State.setCore_rmem (s : State) (c : Nat) (k : CoreState) : (s.setCore c k).rmem = s.rmem := rfl
@[simp] theorem State.setCore_poison (s : State) (c : Nat) (k : CoreState) : (s.setCore c k).poison = s.poison := rfl
@[simp] theorem State.setCore_lineTags (s : State) (c : Nat) (k : CoreState) : (s.setCore c k).lineTags = s.lineTags := rfl
@[simp] theorem State.setCore_clusters (s : State) (c : Nat) (k : CoreState) : (s.setCore c k).clusters = s.clusters := rfl
@[simp] theorem State.setCore_dies (s : State) (c : Nat) (k : CoreState) : (s.setCore c k).dies = s.dies := rfl
@[simp] theorem State.setCore_flight (s : State) (c : Nat) (k : CoreState) : (s.setCore c k).flight = s.flight := rfl
@[simp] theorem State.setCore_msgs (s : State) (c : Nat) (k : CoreState) : (s.setCore c k).msgs = s.msgs := rfl
@[simp] theorem State.setCore_transit (s : State) (c : Nat) (k : CoreState) : (s.setCore c k).transit = s.transit := rfl
@[simp] theorem State.setCore_contexts (s : State) (c : Nat) (k : CoreState) : (s.setCore c k).contexts = s.contexts := rfl
@[simp] theorem State.setCore_partitions (s : State) (c : Nat) (k : CoreState) : (s.setCore c k).partitions = s.partitions := rfl
@[simp] theorem State.setCore_queues (s : State) (c : Nat) (k : CoreState) : (s.setCore c k).queues = s.queues := rfl
@[simp] theorem State.setCore_launches (s : State) (c : Nat) (k : CoreState) : (s.setCore c k).launches = s.launches := rfl
@[simp] theorem State.setCore_kernels (s : State) (c : Nat) (k : CoreState) : (s.setCore c k).kernels = s.kernels := rfl
@[simp] theorem State.setCore_groups (s : State) (c : Nat) (k : CoreState) : (s.setCore c k).groups = s.groups := rfl
@[simp] theorem State.setCore_loads (s : State) (c : Nat) (k : CoreState) : (s.setCore c k).loads = s.loads := rfl
@[simp] theorem State.setCore_updates (s : State) (c : Nat) (k : CoreState) : (s.setCore c k).updates = s.updates := rfl
@[simp] theorem State.setCore_amos (s : State) (c : Nat) (k : CoreState) : (s.setCore c k).amos = s.amos := rfl
@[simp] theorem State.setCore_owed (s : State) (c : Nat) (k : CoreState) : (s.setCore c k).owed = s.owed := rfl
@[simp] theorem State.setCore_replayLog (s : State) (c : Nat) (k : CoreState) : (s.setCore c k).replayLog = s.replayLog := rfl

/-! ### `setCluster` -/

@[simp] theorem State.setCluster_package (s : State) (n : Nat) (k : Cluster) : (s.setCluster n k).package = s.package := rfl
@[simp] theorem State.setCluster_cycle (s : State) (n : Nat) (k : Cluster) : (s.setCluster n k).cycle = s.cycle := rfl
@[simp] theorem State.setCluster_phase (s : State) (n : Nat) (k : Cluster) : (s.setCluster n k).phase = s.phase := rfl
@[simp] theorem State.setCluster_ownAt (s : State) (n : Nat) (k : Cluster) : (s.setCluster n k).ownAt = s.ownAt := rfl
@[simp] theorem State.setCluster_agenda (s : State) (n : Nat) (k : Cluster) : (s.setCluster n k).agenda = s.agenda := rfl
@[simp] theorem State.setCluster_cur (s : State) (n : Nat) (k : Cluster) : (s.setCluster n k).cur = s.cur := rfl
@[simp] theorem State.setCluster_slot (s : State) (n : Nat) (k : Cluster) : (s.setCluster n k).slot = s.slot := rfl
@[simp] theorem State.setCluster_bundle (s : State) (n : Nat) (k : Cluster) : (s.setCluster n k).bundle = s.bundle := rfl
@[simp] theorem State.setCluster_free (s : State) (n : Nat) (k : Cluster) : (s.setCluster n k).free = s.free := rfl
@[simp] theorem State.setCluster_nextUid (s : State) (n : Nat) (k : Cluster) : (s.setCluster n k).nextUid = s.nextUid := rfl
@[simp] theorem State.setCluster_nextId (s : State) (n : Nat) (k : Cluster) : (s.setCluster n k).nextId = s.nextId := rfl
@[simp] theorem State.setCluster_mem (s : State) (n : Nat) (k : Cluster) : (s.setCluster n k).mem = s.mem := rfl
@[simp] theorem State.setCluster_rmem (s : State) (n : Nat) (k : Cluster) : (s.setCluster n k).rmem = s.rmem := rfl
@[simp] theorem State.setCluster_poison (s : State) (n : Nat) (k : Cluster) : (s.setCluster n k).poison = s.poison := rfl
@[simp] theorem State.setCluster_lineTags (s : State) (n : Nat) (k : Cluster) : (s.setCluster n k).lineTags = s.lineTags := rfl
@[simp] theorem State.setCluster_cores (s : State) (n : Nat) (k : Cluster) : (s.setCluster n k).cores = s.cores := rfl
@[simp] theorem State.setCluster_dies (s : State) (n : Nat) (k : Cluster) : (s.setCluster n k).dies = s.dies := rfl
@[simp] theorem State.setCluster_flight (s : State) (n : Nat) (k : Cluster) : (s.setCluster n k).flight = s.flight := rfl
@[simp] theorem State.setCluster_msgs (s : State) (n : Nat) (k : Cluster) : (s.setCluster n k).msgs = s.msgs := rfl
@[simp] theorem State.setCluster_transit (s : State) (n : Nat) (k : Cluster) : (s.setCluster n k).transit = s.transit := rfl
@[simp] theorem State.setCluster_contexts (s : State) (n : Nat) (k : Cluster) : (s.setCluster n k).contexts = s.contexts := rfl
@[simp] theorem State.setCluster_partitions (s : State) (n : Nat) (k : Cluster) : (s.setCluster n k).partitions = s.partitions := rfl
@[simp] theorem State.setCluster_queues (s : State) (n : Nat) (k : Cluster) : (s.setCluster n k).queues = s.queues := rfl
@[simp] theorem State.setCluster_launches (s : State) (n : Nat) (k : Cluster) : (s.setCluster n k).launches = s.launches := rfl
@[simp] theorem State.setCluster_kernels (s : State) (n : Nat) (k : Cluster) : (s.setCluster n k).kernels = s.kernels := rfl
@[simp] theorem State.setCluster_groups (s : State) (n : Nat) (k : Cluster) : (s.setCluster n k).groups = s.groups := rfl
@[simp] theorem State.setCluster_loads (s : State) (n : Nat) (k : Cluster) : (s.setCluster n k).loads = s.loads := rfl
@[simp] theorem State.setCluster_updates (s : State) (n : Nat) (k : Cluster) : (s.setCluster n k).updates = s.updates := rfl
@[simp] theorem State.setCluster_amos (s : State) (n : Nat) (k : Cluster) : (s.setCluster n k).amos = s.amos := rfl
@[simp] theorem State.setCluster_owed (s : State) (n : Nat) (k : Cluster) : (s.setCluster n k).owed = s.owed := rfl
@[simp] theorem State.setCluster_replayLog (s : State) (n : Nat) (k : Cluster) : (s.setCluster n k).replayLog = s.replayLog := rfl

/-! ### `setContext` -/

@[simp] theorem State.setContext_package (s : State) (x : Nat) (c : Context) : (s.setContext x c).package = s.package := rfl
@[simp] theorem State.setContext_cycle (s : State) (x : Nat) (c : Context) : (s.setContext x c).cycle = s.cycle := rfl
@[simp] theorem State.setContext_phase (s : State) (x : Nat) (c : Context) : (s.setContext x c).phase = s.phase := rfl
@[simp] theorem State.setContext_ownAt (s : State) (x : Nat) (c : Context) : (s.setContext x c).ownAt = s.ownAt := rfl
@[simp] theorem State.setContext_agenda (s : State) (x : Nat) (c : Context) : (s.setContext x c).agenda = s.agenda := rfl
@[simp] theorem State.setContext_cur (s : State) (x : Nat) (c : Context) : (s.setContext x c).cur = s.cur := rfl
@[simp] theorem State.setContext_slot (s : State) (x : Nat) (c : Context) : (s.setContext x c).slot = s.slot := rfl
@[simp] theorem State.setContext_bundle (s : State) (x : Nat) (c : Context) : (s.setContext x c).bundle = s.bundle := rfl
@[simp] theorem State.setContext_free (s : State) (x : Nat) (c : Context) : (s.setContext x c).free = s.free := rfl
@[simp] theorem State.setContext_nextUid (s : State) (x : Nat) (c : Context) : (s.setContext x c).nextUid = s.nextUid := rfl
@[simp] theorem State.setContext_nextId (s : State) (x : Nat) (c : Context) : (s.setContext x c).nextId = s.nextId := rfl
@[simp] theorem State.setContext_mem (s : State) (x : Nat) (c : Context) : (s.setContext x c).mem = s.mem := rfl
@[simp] theorem State.setContext_rmem (s : State) (x : Nat) (c : Context) : (s.setContext x c).rmem = s.rmem := rfl
@[simp] theorem State.setContext_poison (s : State) (x : Nat) (c : Context) : (s.setContext x c).poison = s.poison := rfl
@[simp] theorem State.setContext_lineTags (s : State) (x : Nat) (c : Context) : (s.setContext x c).lineTags = s.lineTags := rfl
@[simp] theorem State.setContext_cores (s : State) (x : Nat) (c : Context) : (s.setContext x c).cores = s.cores := rfl
@[simp] theorem State.setContext_clusters (s : State) (x : Nat) (c : Context) : (s.setContext x c).clusters = s.clusters := rfl
@[simp] theorem State.setContext_dies (s : State) (x : Nat) (c : Context) : (s.setContext x c).dies = s.dies := rfl
@[simp] theorem State.setContext_flight (s : State) (x : Nat) (c : Context) : (s.setContext x c).flight = s.flight := rfl
@[simp] theorem State.setContext_msgs (s : State) (x : Nat) (c : Context) : (s.setContext x c).msgs = s.msgs := rfl
@[simp] theorem State.setContext_transit (s : State) (x : Nat) (c : Context) : (s.setContext x c).transit = s.transit := rfl
@[simp] theorem State.setContext_partitions (s : State) (x : Nat) (c : Context) : (s.setContext x c).partitions = s.partitions := rfl
@[simp] theorem State.setContext_queues (s : State) (x : Nat) (c : Context) : (s.setContext x c).queues = s.queues := rfl
@[simp] theorem State.setContext_launches (s : State) (x : Nat) (c : Context) : (s.setContext x c).launches = s.launches := rfl
@[simp] theorem State.setContext_kernels (s : State) (x : Nat) (c : Context) : (s.setContext x c).kernels = s.kernels := rfl
@[simp] theorem State.setContext_groups (s : State) (x : Nat) (c : Context) : (s.setContext x c).groups = s.groups := rfl
@[simp] theorem State.setContext_loads (s : State) (x : Nat) (c : Context) : (s.setContext x c).loads = s.loads := rfl
@[simp] theorem State.setContext_updates (s : State) (x : Nat) (c : Context) : (s.setContext x c).updates = s.updates := rfl
@[simp] theorem State.setContext_amos (s : State) (x : Nat) (c : Context) : (s.setContext x c).amos = s.amos := rfl
@[simp] theorem State.setContext_owed (s : State) (x : Nat) (c : Context) : (s.setContext x c).owed = s.owed := rfl
@[simp] theorem State.setContext_replayLog (s : State) (x : Nat) (c : Context) : (s.setContext x c).replayLog = s.replayLog := rfl

/-! ### `setSlot` -/

@[simp] theorem State.setSlot_package (s : State) (c : Nat) (i : Fin 16) (t : Option Thread) : (s.setSlot c i t).package = s.package := rfl
@[simp] theorem State.setSlot_cycle (s : State) (c : Nat) (i : Fin 16) (t : Option Thread) : (s.setSlot c i t).cycle = s.cycle := rfl
@[simp] theorem State.setSlot_phase (s : State) (c : Nat) (i : Fin 16) (t : Option Thread) : (s.setSlot c i t).phase = s.phase := rfl
@[simp] theorem State.setSlot_ownAt (s : State) (c : Nat) (i : Fin 16) (t : Option Thread) : (s.setSlot c i t).ownAt = s.ownAt := rfl
@[simp] theorem State.setSlot_agenda (s : State) (c : Nat) (i : Fin 16) (t : Option Thread) : (s.setSlot c i t).agenda = s.agenda := rfl
@[simp] theorem State.setSlot_cur (s : State) (c : Nat) (i : Fin 16) (t : Option Thread) : (s.setSlot c i t).cur = s.cur := rfl
@[simp] theorem State.setSlot_slot (s : State) (c : Nat) (i : Fin 16) (t : Option Thread) : (s.setSlot c i t).slot = s.slot := rfl
@[simp] theorem State.setSlot_bundle (s : State) (c : Nat) (i : Fin 16) (t : Option Thread) : (s.setSlot c i t).bundle = s.bundle := rfl
@[simp] theorem State.setSlot_free (s : State) (c : Nat) (i : Fin 16) (t : Option Thread) : (s.setSlot c i t).free = s.free := rfl
@[simp] theorem State.setSlot_nextUid (s : State) (c : Nat) (i : Fin 16) (t : Option Thread) : (s.setSlot c i t).nextUid = s.nextUid := rfl
@[simp] theorem State.setSlot_nextId (s : State) (c : Nat) (i : Fin 16) (t : Option Thread) : (s.setSlot c i t).nextId = s.nextId := rfl
@[simp] theorem State.setSlot_mem (s : State) (c : Nat) (i : Fin 16) (t : Option Thread) : (s.setSlot c i t).mem = s.mem := rfl
@[simp] theorem State.setSlot_rmem (s : State) (c : Nat) (i : Fin 16) (t : Option Thread) : (s.setSlot c i t).rmem = s.rmem := rfl
@[simp] theorem State.setSlot_poison (s : State) (c : Nat) (i : Fin 16) (t : Option Thread) : (s.setSlot c i t).poison = s.poison := rfl
@[simp] theorem State.setSlot_lineTags (s : State) (c : Nat) (i : Fin 16) (t : Option Thread) : (s.setSlot c i t).lineTags = s.lineTags := rfl
@[simp] theorem State.setSlot_clusters (s : State) (c : Nat) (i : Fin 16) (t : Option Thread) : (s.setSlot c i t).clusters = s.clusters := rfl
@[simp] theorem State.setSlot_dies (s : State) (c : Nat) (i : Fin 16) (t : Option Thread) : (s.setSlot c i t).dies = s.dies := rfl
@[simp] theorem State.setSlot_flight (s : State) (c : Nat) (i : Fin 16) (t : Option Thread) : (s.setSlot c i t).flight = s.flight := rfl
@[simp] theorem State.setSlot_msgs (s : State) (c : Nat) (i : Fin 16) (t : Option Thread) : (s.setSlot c i t).msgs = s.msgs := rfl
@[simp] theorem State.setSlot_transit (s : State) (c : Nat) (i : Fin 16) (t : Option Thread) : (s.setSlot c i t).transit = s.transit := rfl
@[simp] theorem State.setSlot_contexts (s : State) (c : Nat) (i : Fin 16) (t : Option Thread) : (s.setSlot c i t).contexts = s.contexts := rfl
@[simp] theorem State.setSlot_partitions (s : State) (c : Nat) (i : Fin 16) (t : Option Thread) : (s.setSlot c i t).partitions = s.partitions := rfl
@[simp] theorem State.setSlot_queues (s : State) (c : Nat) (i : Fin 16) (t : Option Thread) : (s.setSlot c i t).queues = s.queues := rfl
@[simp] theorem State.setSlot_launches (s : State) (c : Nat) (i : Fin 16) (t : Option Thread) : (s.setSlot c i t).launches = s.launches := rfl
@[simp] theorem State.setSlot_kernels (s : State) (c : Nat) (i : Fin 16) (t : Option Thread) : (s.setSlot c i t).kernels = s.kernels := rfl
@[simp] theorem State.setSlot_groups (s : State) (c : Nat) (i : Fin 16) (t : Option Thread) : (s.setSlot c i t).groups = s.groups := rfl
@[simp] theorem State.setSlot_loads (s : State) (c : Nat) (i : Fin 16) (t : Option Thread) : (s.setSlot c i t).loads = s.loads := rfl
@[simp] theorem State.setSlot_updates (s : State) (c : Nat) (i : Fin 16) (t : Option Thread) : (s.setSlot c i t).updates = s.updates := rfl
@[simp] theorem State.setSlot_amos (s : State) (c : Nat) (i : Fin 16) (t : Option Thread) : (s.setSlot c i t).amos = s.amos := rfl
@[simp] theorem State.setSlot_owed (s : State) (c : Nat) (i : Fin 16) (t : Option Thread) : (s.setSlot c i t).owed = s.owed := rfl
@[simp] theorem State.setSlot_replayLog (s : State) (c : Nat) (i : Fin 16) (t : Option Thread) : (s.setSlot c i t).replayLog = s.replayLog := rfl

/-! ### `setTh` -/

@[simp] theorem State.setTh_package (s : State) (t : Thread) : (s.setTh t).package = s.package := rfl
@[simp] theorem State.setTh_cycle (s : State) (t : Thread) : (s.setTh t).cycle = s.cycle := rfl
@[simp] theorem State.setTh_phase (s : State) (t : Thread) : (s.setTh t).phase = s.phase := rfl
@[simp] theorem State.setTh_ownAt (s : State) (t : Thread) : (s.setTh t).ownAt = s.ownAt := rfl
@[simp] theorem State.setTh_agenda (s : State) (t : Thread) : (s.setTh t).agenda = s.agenda := rfl
@[simp] theorem State.setTh_cur (s : State) (t : Thread) : (s.setTh t).cur = s.cur := rfl
@[simp] theorem State.setTh_slot (s : State) (t : Thread) : (s.setTh t).slot = s.slot := rfl
@[simp] theorem State.setTh_bundle (s : State) (t : Thread) : (s.setTh t).bundle = s.bundle := rfl
@[simp] theorem State.setTh_free (s : State) (t : Thread) : (s.setTh t).free = s.free := rfl
@[simp] theorem State.setTh_nextUid (s : State) (t : Thread) : (s.setTh t).nextUid = s.nextUid := rfl
@[simp] theorem State.setTh_nextId (s : State) (t : Thread) : (s.setTh t).nextId = s.nextId := rfl
@[simp] theorem State.setTh_mem (s : State) (t : Thread) : (s.setTh t).mem = s.mem := rfl
@[simp] theorem State.setTh_rmem (s : State) (t : Thread) : (s.setTh t).rmem = s.rmem := rfl
@[simp] theorem State.setTh_poison (s : State) (t : Thread) : (s.setTh t).poison = s.poison := rfl
@[simp] theorem State.setTh_lineTags (s : State) (t : Thread) : (s.setTh t).lineTags = s.lineTags := rfl
@[simp] theorem State.setTh_clusters (s : State) (t : Thread) : (s.setTh t).clusters = s.clusters := rfl
@[simp] theorem State.setTh_dies (s : State) (t : Thread) : (s.setTh t).dies = s.dies := rfl
@[simp] theorem State.setTh_flight (s : State) (t : Thread) : (s.setTh t).flight = s.flight := rfl
@[simp] theorem State.setTh_msgs (s : State) (t : Thread) : (s.setTh t).msgs = s.msgs := rfl
@[simp] theorem State.setTh_transit (s : State) (t : Thread) : (s.setTh t).transit = s.transit := rfl
@[simp] theorem State.setTh_contexts (s : State) (t : Thread) : (s.setTh t).contexts = s.contexts := rfl
@[simp] theorem State.setTh_partitions (s : State) (t : Thread) : (s.setTh t).partitions = s.partitions := rfl
@[simp] theorem State.setTh_queues (s : State) (t : Thread) : (s.setTh t).queues = s.queues := rfl
@[simp] theorem State.setTh_launches (s : State) (t : Thread) : (s.setTh t).launches = s.launches := rfl
@[simp] theorem State.setTh_kernels (s : State) (t : Thread) : (s.setTh t).kernels = s.kernels := rfl
@[simp] theorem State.setTh_groups (s : State) (t : Thread) : (s.setTh t).groups = s.groups := rfl
@[simp] theorem State.setTh_loads (s : State) (t : Thread) : (s.setTh t).loads = s.loads := rfl
@[simp] theorem State.setTh_updates (s : State) (t : Thread) : (s.setTh t).updates = s.updates := rfl
@[simp] theorem State.setTh_amos (s : State) (t : Thread) : (s.setTh t).amos = s.amos := rfl
@[simp] theorem State.setTh_owed (s : State) (t : Thread) : (s.setTh t).owed = s.owed := rfl
@[simp] theorem State.setTh_replayLog (s : State) (t : Thread) : (s.setTh t).replayLog = s.replayLog := rfl

/-! ### `advance` -/

@[simp] theorem State.advance_package (s : State) : (s.advance).package = s.package := rfl
@[simp] theorem State.advance_cycle (s : State) : (s.advance).cycle = s.cycle := rfl
@[simp] theorem State.advance_phase (s : State) : (s.advance).phase = s.phase := rfl
@[simp] theorem State.advance_ownAt (s : State) : (s.advance).ownAt = s.ownAt := rfl
@[simp] theorem State.advance_agenda (s : State) : (s.advance).agenda = s.agenda := rfl
@[simp] theorem State.advance_cur (s : State) : (s.advance).cur = s.cur := rfl
@[simp] theorem State.advance_slot (s : State) : (s.advance).slot = s.slot := rfl
@[simp] theorem State.advance_bundle (s : State) : (s.advance).bundle = s.bundle := rfl
@[simp] theorem State.advance_free (s : State) : (s.advance).free = s.free := rfl
@[simp] theorem State.advance_nextUid (s : State) : (s.advance).nextUid = s.nextUid := rfl
@[simp] theorem State.advance_nextId (s : State) : (s.advance).nextId = s.nextId := rfl
@[simp] theorem State.advance_mem (s : State) : (s.advance).mem = s.mem := rfl
@[simp] theorem State.advance_rmem (s : State) : (s.advance).rmem = s.rmem := rfl
@[simp] theorem State.advance_poison (s : State) : (s.advance).poison = s.poison := rfl
@[simp] theorem State.advance_lineTags (s : State) : (s.advance).lineTags = s.lineTags := rfl
@[simp] theorem State.advance_clusters (s : State) : (s.advance).clusters = s.clusters := rfl
@[simp] theorem State.advance_dies (s : State) : (s.advance).dies = s.dies := rfl
@[simp] theorem State.advance_flight (s : State) : (s.advance).flight = s.flight := rfl
@[simp] theorem State.advance_msgs (s : State) : (s.advance).msgs = s.msgs := rfl
@[simp] theorem State.advance_transit (s : State) : (s.advance).transit = s.transit := rfl
@[simp] theorem State.advance_contexts (s : State) : (s.advance).contexts = s.contexts := rfl
@[simp] theorem State.advance_partitions (s : State) : (s.advance).partitions = s.partitions := rfl
@[simp] theorem State.advance_queues (s : State) : (s.advance).queues = s.queues := rfl
@[simp] theorem State.advance_launches (s : State) : (s.advance).launches = s.launches := rfl
@[simp] theorem State.advance_kernels (s : State) : (s.advance).kernels = s.kernels := rfl
@[simp] theorem State.advance_groups (s : State) : (s.advance).groups = s.groups := rfl
@[simp] theorem State.advance_loads (s : State) : (s.advance).loads = s.loads := rfl
@[simp] theorem State.advance_updates (s : State) : (s.advance).updates = s.updates := rfl
@[simp] theorem State.advance_amos (s : State) : (s.advance).amos = s.amos := rfl
@[simp] theorem State.advance_owed (s : State) : (s.advance).owed = s.owed := rfl
@[simp] theorem State.advance_replayLog (s : State) : (s.advance).replayLog = s.replayLog := rfl

/-! ### `jump` -/

@[simp] theorem State.jump_package (s : State) (pc : Word) : (s.jump pc).package = s.package := rfl
@[simp] theorem State.jump_cycle (s : State) (pc : Word) : (s.jump pc).cycle = s.cycle := rfl
@[simp] theorem State.jump_phase (s : State) (pc : Word) : (s.jump pc).phase = s.phase := rfl
@[simp] theorem State.jump_ownAt (s : State) (pc : Word) : (s.jump pc).ownAt = s.ownAt := rfl
@[simp] theorem State.jump_agenda (s : State) (pc : Word) : (s.jump pc).agenda = s.agenda := rfl
@[simp] theorem State.jump_cur (s : State) (pc : Word) : (s.jump pc).cur = s.cur := rfl
@[simp] theorem State.jump_slot (s : State) (pc : Word) : (s.jump pc).slot = s.slot := rfl
@[simp] theorem State.jump_bundle (s : State) (pc : Word) : (s.jump pc).bundle = s.bundle := rfl
@[simp] theorem State.jump_free (s : State) (pc : Word) : (s.jump pc).free = s.free := rfl
@[simp] theorem State.jump_nextUid (s : State) (pc : Word) : (s.jump pc).nextUid = s.nextUid := rfl
@[simp] theorem State.jump_nextId (s : State) (pc : Word) : (s.jump pc).nextId = s.nextId := rfl
@[simp] theorem State.jump_mem (s : State) (pc : Word) : (s.jump pc).mem = s.mem := rfl
@[simp] theorem State.jump_rmem (s : State) (pc : Word) : (s.jump pc).rmem = s.rmem := rfl
@[simp] theorem State.jump_poison (s : State) (pc : Word) : (s.jump pc).poison = s.poison := rfl
@[simp] theorem State.jump_lineTags (s : State) (pc : Word) : (s.jump pc).lineTags = s.lineTags := rfl
@[simp] theorem State.jump_clusters (s : State) (pc : Word) : (s.jump pc).clusters = s.clusters := rfl
@[simp] theorem State.jump_dies (s : State) (pc : Word) : (s.jump pc).dies = s.dies := rfl
@[simp] theorem State.jump_flight (s : State) (pc : Word) : (s.jump pc).flight = s.flight := rfl
@[simp] theorem State.jump_msgs (s : State) (pc : Word) : (s.jump pc).msgs = s.msgs := rfl
@[simp] theorem State.jump_transit (s : State) (pc : Word) : (s.jump pc).transit = s.transit := rfl
@[simp] theorem State.jump_contexts (s : State) (pc : Word) : (s.jump pc).contexts = s.contexts := rfl
@[simp] theorem State.jump_partitions (s : State) (pc : Word) : (s.jump pc).partitions = s.partitions := rfl
@[simp] theorem State.jump_queues (s : State) (pc : Word) : (s.jump pc).queues = s.queues := rfl
@[simp] theorem State.jump_launches (s : State) (pc : Word) : (s.jump pc).launches = s.launches := rfl
@[simp] theorem State.jump_kernels (s : State) (pc : Word) : (s.jump pc).kernels = s.kernels := rfl
@[simp] theorem State.jump_groups (s : State) (pc : Word) : (s.jump pc).groups = s.groups := rfl
@[simp] theorem State.jump_loads (s : State) (pc : Word) : (s.jump pc).loads = s.loads := rfl
@[simp] theorem State.jump_updates (s : State) (pc : Word) : (s.jump pc).updates = s.updates := rfl
@[simp] theorem State.jump_amos (s : State) (pc : Word) : (s.jump pc).amos = s.amos := rfl
@[simp] theorem State.jump_owed (s : State) (pc : Word) : (s.jump pc).owed = s.owed := rfl
@[simp] theorem State.jump_replayLog (s : State) (pc : Word) : (s.jump pc).replayLog = s.replayLog := rfl

/-! ### `park` -/

@[simp] theorem State.park_package (s : State) (w : Wait) : (s.park w).package = s.package := rfl
@[simp] theorem State.park_cycle (s : State) (w : Wait) : (s.park w).cycle = s.cycle := rfl
@[simp] theorem State.park_phase (s : State) (w : Wait) : (s.park w).phase = s.phase := rfl
@[simp] theorem State.park_ownAt (s : State) (w : Wait) : (s.park w).ownAt = s.ownAt := rfl
@[simp] theorem State.park_agenda (s : State) (w : Wait) : (s.park w).agenda = s.agenda := rfl
@[simp] theorem State.park_cur (s : State) (w : Wait) : (s.park w).cur = s.cur := rfl
@[simp] theorem State.park_slot (s : State) (w : Wait) : (s.park w).slot = s.slot := rfl
@[simp] theorem State.park_bundle (s : State) (w : Wait) : (s.park w).bundle = s.bundle := rfl
@[simp] theorem State.park_free (s : State) (w : Wait) : (s.park w).free = s.free := rfl
@[simp] theorem State.park_nextUid (s : State) (w : Wait) : (s.park w).nextUid = s.nextUid := rfl
@[simp] theorem State.park_nextId (s : State) (w : Wait) : (s.park w).nextId = s.nextId := rfl
@[simp] theorem State.park_mem (s : State) (w : Wait) : (s.park w).mem = s.mem := rfl
@[simp] theorem State.park_rmem (s : State) (w : Wait) : (s.park w).rmem = s.rmem := rfl
@[simp] theorem State.park_poison (s : State) (w : Wait) : (s.park w).poison = s.poison := rfl
@[simp] theorem State.park_lineTags (s : State) (w : Wait) : (s.park w).lineTags = s.lineTags := rfl
@[simp] theorem State.park_clusters (s : State) (w : Wait) : (s.park w).clusters = s.clusters := rfl
@[simp] theorem State.park_dies (s : State) (w : Wait) : (s.park w).dies = s.dies := rfl
@[simp] theorem State.park_flight (s : State) (w : Wait) : (s.park w).flight = s.flight := rfl
@[simp] theorem State.park_msgs (s : State) (w : Wait) : (s.park w).msgs = s.msgs := rfl
@[simp] theorem State.park_transit (s : State) (w : Wait) : (s.park w).transit = s.transit := rfl
@[simp] theorem State.park_contexts (s : State) (w : Wait) : (s.park w).contexts = s.contexts := rfl
@[simp] theorem State.park_partitions (s : State) (w : Wait) : (s.park w).partitions = s.partitions := rfl
@[simp] theorem State.park_queues (s : State) (w : Wait) : (s.park w).queues = s.queues := rfl
@[simp] theorem State.park_launches (s : State) (w : Wait) : (s.park w).launches = s.launches := rfl
@[simp] theorem State.park_kernels (s : State) (w : Wait) : (s.park w).kernels = s.kernels := rfl
@[simp] theorem State.park_groups (s : State) (w : Wait) : (s.park w).groups = s.groups := rfl
@[simp] theorem State.park_loads (s : State) (w : Wait) : (s.park w).loads = s.loads := rfl
@[simp] theorem State.park_updates (s : State) (w : Wait) : (s.park w).updates = s.updates := rfl
@[simp] theorem State.park_amos (s : State) (w : Wait) : (s.park w).amos = s.amos := rfl
@[simp] theorem State.park_owed (s : State) (w : Wait) : (s.park w).owed = s.owed := rfl
@[simp] theorem State.park_replayLog (s : State) (w : Wait) : (s.park w).replayLog = s.replayLog := rfl

/-! ### `stage` -/

@[simp] theorem State.stage_package (s : State) (n : Nat) : (s.stage n).package = s.package := rfl
@[simp] theorem State.stage_cycle (s : State) (n : Nat) : (s.stage n).cycle = s.cycle := rfl
@[simp] theorem State.stage_phase (s : State) (n : Nat) : (s.stage n).phase = s.phase := rfl
@[simp] theorem State.stage_ownAt (s : State) (n : Nat) : (s.stage n).ownAt = s.ownAt := rfl
@[simp] theorem State.stage_agenda (s : State) (n : Nat) : (s.stage n).agenda = s.agenda := rfl
@[simp] theorem State.stage_cur (s : State) (n : Nat) : (s.stage n).cur = s.cur := rfl
@[simp] theorem State.stage_slot (s : State) (n : Nat) : (s.stage n).slot = s.slot := rfl
@[simp] theorem State.stage_bundle (s : State) (n : Nat) : (s.stage n).bundle = s.bundle := rfl
@[simp] theorem State.stage_free (s : State) (n : Nat) : (s.stage n).free = s.free := rfl
@[simp] theorem State.stage_nextUid (s : State) (n : Nat) : (s.stage n).nextUid = s.nextUid := rfl
@[simp] theorem State.stage_nextId (s : State) (n : Nat) : (s.stage n).nextId = s.nextId := rfl
@[simp] theorem State.stage_mem (s : State) (n : Nat) : (s.stage n).mem = s.mem := rfl
@[simp] theorem State.stage_rmem (s : State) (n : Nat) : (s.stage n).rmem = s.rmem := rfl
@[simp] theorem State.stage_poison (s : State) (n : Nat) : (s.stage n).poison = s.poison := rfl
@[simp] theorem State.stage_lineTags (s : State) (n : Nat) : (s.stage n).lineTags = s.lineTags := rfl
@[simp] theorem State.stage_clusters (s : State) (n : Nat) : (s.stage n).clusters = s.clusters := rfl
@[simp] theorem State.stage_dies (s : State) (n : Nat) : (s.stage n).dies = s.dies := rfl
@[simp] theorem State.stage_flight (s : State) (n : Nat) : (s.stage n).flight = s.flight := rfl
@[simp] theorem State.stage_msgs (s : State) (n : Nat) : (s.stage n).msgs = s.msgs := rfl
@[simp] theorem State.stage_transit (s : State) (n : Nat) : (s.stage n).transit = s.transit := rfl
@[simp] theorem State.stage_contexts (s : State) (n : Nat) : (s.stage n).contexts = s.contexts := rfl
@[simp] theorem State.stage_partitions (s : State) (n : Nat) : (s.stage n).partitions = s.partitions := rfl
@[simp] theorem State.stage_queues (s : State) (n : Nat) : (s.stage n).queues = s.queues := rfl
@[simp] theorem State.stage_launches (s : State) (n : Nat) : (s.stage n).launches = s.launches := rfl
@[simp] theorem State.stage_kernels (s : State) (n : Nat) : (s.stage n).kernels = s.kernels := rfl
@[simp] theorem State.stage_groups (s : State) (n : Nat) : (s.stage n).groups = s.groups := rfl
@[simp] theorem State.stage_loads (s : State) (n : Nat) : (s.stage n).loads = s.loads := rfl
@[simp] theorem State.stage_updates (s : State) (n : Nat) : (s.stage n).updates = s.updates := rfl
@[simp] theorem State.stage_amos (s : State) (n : Nat) : (s.stage n).amos = s.amos := rfl
@[simp] theorem State.stage_owed (s : State) (n : Nat) : (s.stage n).owed = s.owed := rfl
@[simp] theorem State.stage_replayLog (s : State) (n : Nat) : (s.stage n).replayLog = s.replayLog := rfl

/-! ### `issueSync` -/

@[simp] theorem State.issueSync_package (s : State) (y : BitVec 12) : (s.issueSync y).package = s.package := rfl
@[simp] theorem State.issueSync_cycle (s : State) (y : BitVec 12) : (s.issueSync y).cycle = s.cycle := rfl
@[simp] theorem State.issueSync_phase (s : State) (y : BitVec 12) : (s.issueSync y).phase = s.phase := rfl
@[simp] theorem State.issueSync_ownAt (s : State) (y : BitVec 12) : (s.issueSync y).ownAt = s.ownAt := rfl
@[simp] theorem State.issueSync_agenda (s : State) (y : BitVec 12) : (s.issueSync y).agenda = s.agenda := rfl
@[simp] theorem State.issueSync_cur (s : State) (y : BitVec 12) : (s.issueSync y).cur = s.cur := rfl
@[simp] theorem State.issueSync_slot (s : State) (y : BitVec 12) : (s.issueSync y).slot = s.slot := rfl
@[simp] theorem State.issueSync_bundle (s : State) (y : BitVec 12) : (s.issueSync y).bundle = s.bundle := rfl
@[simp] theorem State.issueSync_free (s : State) (y : BitVec 12) : (s.issueSync y).free = s.free := rfl
@[simp] theorem State.issueSync_nextUid (s : State) (y : BitVec 12) : (s.issueSync y).nextUid = s.nextUid := rfl
@[simp] theorem State.issueSync_nextId (s : State) (y : BitVec 12) : (s.issueSync y).nextId = s.nextId := rfl
@[simp] theorem State.issueSync_mem (s : State) (y : BitVec 12) : (s.issueSync y).mem = s.mem := rfl
@[simp] theorem State.issueSync_rmem (s : State) (y : BitVec 12) : (s.issueSync y).rmem = s.rmem := rfl
@[simp] theorem State.issueSync_poison (s : State) (y : BitVec 12) : (s.issueSync y).poison = s.poison := rfl
@[simp] theorem State.issueSync_lineTags (s : State) (y : BitVec 12) : (s.issueSync y).lineTags = s.lineTags := rfl
@[simp] theorem State.issueSync_clusters (s : State) (y : BitVec 12) : (s.issueSync y).clusters = s.clusters := rfl
@[simp] theorem State.issueSync_dies (s : State) (y : BitVec 12) : (s.issueSync y).dies = s.dies := rfl
@[simp] theorem State.issueSync_flight (s : State) (y : BitVec 12) : (s.issueSync y).flight = s.flight := rfl
@[simp] theorem State.issueSync_msgs (s : State) (y : BitVec 12) : (s.issueSync y).msgs = s.msgs := rfl
@[simp] theorem State.issueSync_transit (s : State) (y : BitVec 12) : (s.issueSync y).transit = s.transit := rfl
@[simp] theorem State.issueSync_contexts (s : State) (y : BitVec 12) : (s.issueSync y).contexts = s.contexts := rfl
@[simp] theorem State.issueSync_partitions (s : State) (y : BitVec 12) : (s.issueSync y).partitions = s.partitions := rfl
@[simp] theorem State.issueSync_queues (s : State) (y : BitVec 12) : (s.issueSync y).queues = s.queues := rfl
@[simp] theorem State.issueSync_launches (s : State) (y : BitVec 12) : (s.issueSync y).launches = s.launches := rfl
@[simp] theorem State.issueSync_kernels (s : State) (y : BitVec 12) : (s.issueSync y).kernels = s.kernels := rfl
@[simp] theorem State.issueSync_groups (s : State) (y : BitVec 12) : (s.issueSync y).groups = s.groups := rfl
@[simp] theorem State.issueSync_loads (s : State) (y : BitVec 12) : (s.issueSync y).loads = s.loads := rfl
@[simp] theorem State.issueSync_updates (s : State) (y : BitVec 12) : (s.issueSync y).updates = s.updates := rfl
@[simp] theorem State.issueSync_amos (s : State) (y : BitVec 12) : (s.issueSync y).amos = s.amos := rfl
@[simp] theorem State.issueSync_owed (s : State) (y : BitVec 12) : (s.issueSync y).owed = s.owed := rfl
@[simp] theorem State.issueSync_replayLog (s : State) (y : BitVec 12) : (s.issueSync y).replayLog = s.replayLog := rfl

/-! ### `complete` -/

@[simp] theorem State.complete_package (s : State) (y : BitVec 12) : (s.complete y).package = s.package := rfl
@[simp] theorem State.complete_cycle (s : State) (y : BitVec 12) : (s.complete y).cycle = s.cycle := rfl
@[simp] theorem State.complete_phase (s : State) (y : BitVec 12) : (s.complete y).phase = s.phase := rfl
@[simp] theorem State.complete_ownAt (s : State) (y : BitVec 12) : (s.complete y).ownAt = s.ownAt := rfl
@[simp] theorem State.complete_agenda (s : State) (y : BitVec 12) : (s.complete y).agenda = s.agenda := rfl
@[simp] theorem State.complete_cur (s : State) (y : BitVec 12) : (s.complete y).cur = s.cur := rfl
@[simp] theorem State.complete_slot (s : State) (y : BitVec 12) : (s.complete y).slot = s.slot := rfl
@[simp] theorem State.complete_bundle (s : State) (y : BitVec 12) : (s.complete y).bundle = s.bundle := rfl
@[simp] theorem State.complete_free (s : State) (y : BitVec 12) : (s.complete y).free = s.free := rfl
@[simp] theorem State.complete_nextUid (s : State) (y : BitVec 12) : (s.complete y).nextUid = s.nextUid := rfl
@[simp] theorem State.complete_nextId (s : State) (y : BitVec 12) : (s.complete y).nextId = s.nextId := rfl
@[simp] theorem State.complete_mem (s : State) (y : BitVec 12) : (s.complete y).mem = s.mem := rfl
@[simp] theorem State.complete_rmem (s : State) (y : BitVec 12) : (s.complete y).rmem = s.rmem := rfl
@[simp] theorem State.complete_poison (s : State) (y : BitVec 12) : (s.complete y).poison = s.poison := rfl
@[simp] theorem State.complete_lineTags (s : State) (y : BitVec 12) : (s.complete y).lineTags = s.lineTags := rfl
@[simp] theorem State.complete_clusters (s : State) (y : BitVec 12) : (s.complete y).clusters = s.clusters := rfl
@[simp] theorem State.complete_dies (s : State) (y : BitVec 12) : (s.complete y).dies = s.dies := rfl
@[simp] theorem State.complete_flight (s : State) (y : BitVec 12) : (s.complete y).flight = s.flight := rfl
@[simp] theorem State.complete_msgs (s : State) (y : BitVec 12) : (s.complete y).msgs = s.msgs := rfl
@[simp] theorem State.complete_transit (s : State) (y : BitVec 12) : (s.complete y).transit = s.transit := rfl
@[simp] theorem State.complete_contexts (s : State) (y : BitVec 12) : (s.complete y).contexts = s.contexts := rfl
@[simp] theorem State.complete_partitions (s : State) (y : BitVec 12) : (s.complete y).partitions = s.partitions := rfl
@[simp] theorem State.complete_queues (s : State) (y : BitVec 12) : (s.complete y).queues = s.queues := rfl
@[simp] theorem State.complete_launches (s : State) (y : BitVec 12) : (s.complete y).launches = s.launches := rfl
@[simp] theorem State.complete_kernels (s : State) (y : BitVec 12) : (s.complete y).kernels = s.kernels := rfl
@[simp] theorem State.complete_groups (s : State) (y : BitVec 12) : (s.complete y).groups = s.groups := rfl
@[simp] theorem State.complete_loads (s : State) (y : BitVec 12) : (s.complete y).loads = s.loads := rfl
@[simp] theorem State.complete_updates (s : State) (y : BitVec 12) : (s.complete y).updates = s.updates := rfl
@[simp] theorem State.complete_amos (s : State) (y : BitVec 12) : (s.complete y).amos = s.amos := rfl
@[simp] theorem State.complete_owed (s : State) (y : BitVec 12) : (s.complete y).owed = s.owed := rfl
@[simp] theorem State.complete_replayLog (s : State) (y : BitVec 12) : (s.complete y).replayLog = s.replayLog := rfl

/-! ### `acquire` -/

@[simp] theorem State.acquire_package (s : State) : (s.acquire).package = s.package := rfl
@[simp] theorem State.acquire_cycle (s : State) : (s.acquire).cycle = s.cycle := rfl
@[simp] theorem State.acquire_phase (s : State) : (s.acquire).phase = s.phase := rfl
@[simp] theorem State.acquire_ownAt (s : State) : (s.acquire).ownAt = s.ownAt := rfl
@[simp] theorem State.acquire_agenda (s : State) : (s.acquire).agenda = s.agenda := rfl
@[simp] theorem State.acquire_cur (s : State) : (s.acquire).cur = s.cur := rfl
@[simp] theorem State.acquire_slot (s : State) : (s.acquire).slot = s.slot := rfl
@[simp] theorem State.acquire_bundle (s : State) : (s.acquire).bundle = s.bundle := rfl
@[simp] theorem State.acquire_free (s : State) : (s.acquire).free = s.free := rfl
@[simp] theorem State.acquire_nextUid (s : State) : (s.acquire).nextUid = s.nextUid := rfl
@[simp] theorem State.acquire_nextId (s : State) : (s.acquire).nextId = s.nextId := rfl
@[simp] theorem State.acquire_mem (s : State) : (s.acquire).mem = s.mem := rfl
@[simp] theorem State.acquire_rmem (s : State) : (s.acquire).rmem = s.rmem := rfl
@[simp] theorem State.acquire_poison (s : State) : (s.acquire).poison = s.poison := rfl
@[simp] theorem State.acquire_lineTags (s : State) : (s.acquire).lineTags = s.lineTags := rfl
@[simp] theorem State.acquire_cores (s : State) : (s.acquire).cores = s.cores := rfl
@[simp] theorem State.acquire_dies (s : State) : (s.acquire).dies = s.dies := rfl
@[simp] theorem State.acquire_flight (s : State) : (s.acquire).flight = s.flight := rfl
@[simp] theorem State.acquire_msgs (s : State) : (s.acquire).msgs = s.msgs := rfl
@[simp] theorem State.acquire_transit (s : State) : (s.acquire).transit = s.transit := rfl
@[simp] theorem State.acquire_contexts (s : State) : (s.acquire).contexts = s.contexts := rfl
@[simp] theorem State.acquire_partitions (s : State) : (s.acquire).partitions = s.partitions := rfl
@[simp] theorem State.acquire_queues (s : State) : (s.acquire).queues = s.queues := rfl
@[simp] theorem State.acquire_launches (s : State) : (s.acquire).launches = s.launches := rfl
@[simp] theorem State.acquire_kernels (s : State) : (s.acquire).kernels = s.kernels := rfl
@[simp] theorem State.acquire_groups (s : State) : (s.acquire).groups = s.groups := rfl
@[simp] theorem State.acquire_loads (s : State) : (s.acquire).loads = s.loads := rfl
@[simp] theorem State.acquire_updates (s : State) : (s.acquire).updates = s.updates := rfl
@[simp] theorem State.acquire_amos (s : State) : (s.acquire).amos = s.amos := rfl
@[simp] theorem State.acquire_owed (s : State) : (s.acquire).owed = s.owed := rfl
@[simp] theorem State.acquire_replayLog (s : State) : (s.acquire).replayLog = s.replayLog := rfl

/-! ### `setKernel` -/

@[simp] theorem State.setKernel_package (s : State) (k : Kernel) : (s.setKernel k).package = s.package := rfl
@[simp] theorem State.setKernel_cycle (s : State) (k : Kernel) : (s.setKernel k).cycle = s.cycle := rfl
@[simp] theorem State.setKernel_phase (s : State) (k : Kernel) : (s.setKernel k).phase = s.phase := rfl
@[simp] theorem State.setKernel_ownAt (s : State) (k : Kernel) : (s.setKernel k).ownAt = s.ownAt := rfl
@[simp] theorem State.setKernel_agenda (s : State) (k : Kernel) : (s.setKernel k).agenda = s.agenda := rfl
@[simp] theorem State.setKernel_cur (s : State) (k : Kernel) : (s.setKernel k).cur = s.cur := rfl
@[simp] theorem State.setKernel_slot (s : State) (k : Kernel) : (s.setKernel k).slot = s.slot := rfl
@[simp] theorem State.setKernel_bundle (s : State) (k : Kernel) : (s.setKernel k).bundle = s.bundle := rfl
@[simp] theorem State.setKernel_free (s : State) (k : Kernel) : (s.setKernel k).free = s.free := rfl
@[simp] theorem State.setKernel_nextUid (s : State) (k : Kernel) : (s.setKernel k).nextUid = s.nextUid := rfl
@[simp] theorem State.setKernel_nextId (s : State) (k : Kernel) : (s.setKernel k).nextId = s.nextId := rfl
@[simp] theorem State.setKernel_mem (s : State) (k : Kernel) : (s.setKernel k).mem = s.mem := rfl
@[simp] theorem State.setKernel_rmem (s : State) (k : Kernel) : (s.setKernel k).rmem = s.rmem := rfl
@[simp] theorem State.setKernel_poison (s : State) (k : Kernel) : (s.setKernel k).poison = s.poison := rfl
@[simp] theorem State.setKernel_lineTags (s : State) (k : Kernel) : (s.setKernel k).lineTags = s.lineTags := rfl
@[simp] theorem State.setKernel_cores (s : State) (k : Kernel) : (s.setKernel k).cores = s.cores := rfl
@[simp] theorem State.setKernel_clusters (s : State) (k : Kernel) : (s.setKernel k).clusters = s.clusters := rfl
@[simp] theorem State.setKernel_dies (s : State) (k : Kernel) : (s.setKernel k).dies = s.dies := rfl
@[simp] theorem State.setKernel_flight (s : State) (k : Kernel) : (s.setKernel k).flight = s.flight := rfl
@[simp] theorem State.setKernel_msgs (s : State) (k : Kernel) : (s.setKernel k).msgs = s.msgs := rfl
@[simp] theorem State.setKernel_transit (s : State) (k : Kernel) : (s.setKernel k).transit = s.transit := rfl
@[simp] theorem State.setKernel_contexts (s : State) (k : Kernel) : (s.setKernel k).contexts = s.contexts := rfl
@[simp] theorem State.setKernel_partitions (s : State) (k : Kernel) : (s.setKernel k).partitions = s.partitions := rfl
@[simp] theorem State.setKernel_queues (s : State) (k : Kernel) : (s.setKernel k).queues = s.queues := rfl
@[simp] theorem State.setKernel_launches (s : State) (k : Kernel) : (s.setKernel k).launches = s.launches := rfl
@[simp] theorem State.setKernel_groups (s : State) (k : Kernel) : (s.setKernel k).groups = s.groups := rfl
@[simp] theorem State.setKernel_loads (s : State) (k : Kernel) : (s.setKernel k).loads = s.loads := rfl
@[simp] theorem State.setKernel_updates (s : State) (k : Kernel) : (s.setKernel k).updates = s.updates := rfl
@[simp] theorem State.setKernel_amos (s : State) (k : Kernel) : (s.setKernel k).amos = s.amos := rfl
@[simp] theorem State.setKernel_owed (s : State) (k : Kernel) : (s.setKernel k).owed = s.owed := rfl
@[simp] theorem State.setKernel_replayLog (s : State) (k : Kernel) : (s.setKernel k).replayLog = s.replayLog := rfl

/-! ### `setGroup` -/

@[simp] theorem State.setGroup_package (s : State) (g : Group) : (s.setGroup g).package = s.package := rfl
@[simp] theorem State.setGroup_cycle (s : State) (g : Group) : (s.setGroup g).cycle = s.cycle := rfl
@[simp] theorem State.setGroup_phase (s : State) (g : Group) : (s.setGroup g).phase = s.phase := rfl
@[simp] theorem State.setGroup_ownAt (s : State) (g : Group) : (s.setGroup g).ownAt = s.ownAt := rfl
@[simp] theorem State.setGroup_agenda (s : State) (g : Group) : (s.setGroup g).agenda = s.agenda := rfl
@[simp] theorem State.setGroup_cur (s : State) (g : Group) : (s.setGroup g).cur = s.cur := rfl
@[simp] theorem State.setGroup_slot (s : State) (g : Group) : (s.setGroup g).slot = s.slot := rfl
@[simp] theorem State.setGroup_bundle (s : State) (g : Group) : (s.setGroup g).bundle = s.bundle := rfl
@[simp] theorem State.setGroup_free (s : State) (g : Group) : (s.setGroup g).free = s.free := rfl
@[simp] theorem State.setGroup_nextUid (s : State) (g : Group) : (s.setGroup g).nextUid = s.nextUid := rfl
@[simp] theorem State.setGroup_nextId (s : State) (g : Group) : (s.setGroup g).nextId = s.nextId := rfl
@[simp] theorem State.setGroup_mem (s : State) (g : Group) : (s.setGroup g).mem = s.mem := rfl
@[simp] theorem State.setGroup_rmem (s : State) (g : Group) : (s.setGroup g).rmem = s.rmem := rfl
@[simp] theorem State.setGroup_poison (s : State) (g : Group) : (s.setGroup g).poison = s.poison := rfl
@[simp] theorem State.setGroup_lineTags (s : State) (g : Group) : (s.setGroup g).lineTags = s.lineTags := rfl
@[simp] theorem State.setGroup_cores (s : State) (g : Group) : (s.setGroup g).cores = s.cores := rfl
@[simp] theorem State.setGroup_clusters (s : State) (g : Group) : (s.setGroup g).clusters = s.clusters := rfl
@[simp] theorem State.setGroup_dies (s : State) (g : Group) : (s.setGroup g).dies = s.dies := rfl
@[simp] theorem State.setGroup_flight (s : State) (g : Group) : (s.setGroup g).flight = s.flight := rfl
@[simp] theorem State.setGroup_msgs (s : State) (g : Group) : (s.setGroup g).msgs = s.msgs := rfl
@[simp] theorem State.setGroup_transit (s : State) (g : Group) : (s.setGroup g).transit = s.transit := rfl
@[simp] theorem State.setGroup_contexts (s : State) (g : Group) : (s.setGroup g).contexts = s.contexts := rfl
@[simp] theorem State.setGroup_partitions (s : State) (g : Group) : (s.setGroup g).partitions = s.partitions := rfl
@[simp] theorem State.setGroup_queues (s : State) (g : Group) : (s.setGroup g).queues = s.queues := rfl
@[simp] theorem State.setGroup_launches (s : State) (g : Group) : (s.setGroup g).launches = s.launches := rfl
@[simp] theorem State.setGroup_kernels (s : State) (g : Group) : (s.setGroup g).kernels = s.kernels := rfl
@[simp] theorem State.setGroup_loads (s : State) (g : Group) : (s.setGroup g).loads = s.loads := rfl
@[simp] theorem State.setGroup_updates (s : State) (g : Group) : (s.setGroup g).updates = s.updates := rfl
@[simp] theorem State.setGroup_amos (s : State) (g : Group) : (s.setGroup g).amos = s.amos := rfl
@[simp] theorem State.setGroup_owed (s : State) (g : Group) : (s.setGroup g).owed = s.owed := rfl
@[simp] theorem State.setGroup_replayLog (s : State) (g : Group) : (s.setGroup g).replayLog = s.replayLog := rfl

/-! ### `lsWrite` -/

@[simp] theorem State.lsWrite_package (s : State) (off n v : Nat) : (s.lsWrite off n v).package = s.package := rfl
@[simp] theorem State.lsWrite_cycle (s : State) (off n v : Nat) : (s.lsWrite off n v).cycle = s.cycle := rfl
@[simp] theorem State.lsWrite_phase (s : State) (off n v : Nat) : (s.lsWrite off n v).phase = s.phase := rfl
@[simp] theorem State.lsWrite_ownAt (s : State) (off n v : Nat) : (s.lsWrite off n v).ownAt = s.ownAt := rfl
@[simp] theorem State.lsWrite_agenda (s : State) (off n v : Nat) : (s.lsWrite off n v).agenda = s.agenda := rfl
@[simp] theorem State.lsWrite_cur (s : State) (off n v : Nat) : (s.lsWrite off n v).cur = s.cur := rfl
@[simp] theorem State.lsWrite_slot (s : State) (off n v : Nat) : (s.lsWrite off n v).slot = s.slot := rfl
@[simp] theorem State.lsWrite_bundle (s : State) (off n v : Nat) : (s.lsWrite off n v).bundle = s.bundle := rfl
@[simp] theorem State.lsWrite_free (s : State) (off n v : Nat) : (s.lsWrite off n v).free = s.free := rfl
@[simp] theorem State.lsWrite_nextUid (s : State) (off n v : Nat) : (s.lsWrite off n v).nextUid = s.nextUid := rfl
@[simp] theorem State.lsWrite_nextId (s : State) (off n v : Nat) : (s.lsWrite off n v).nextId = s.nextId := rfl
@[simp] theorem State.lsWrite_mem (s : State) (off n v : Nat) : (s.lsWrite off n v).mem = s.mem := rfl
@[simp] theorem State.lsWrite_rmem (s : State) (off n v : Nat) : (s.lsWrite off n v).rmem = s.rmem := rfl
@[simp] theorem State.lsWrite_poison (s : State) (off n v : Nat) : (s.lsWrite off n v).poison = s.poison := rfl
@[simp] theorem State.lsWrite_lineTags (s : State) (off n v : Nat) : (s.lsWrite off n v).lineTags = s.lineTags := rfl
@[simp] theorem State.lsWrite_clusters (s : State) (off n v : Nat) : (s.lsWrite off n v).clusters = s.clusters := rfl
@[simp] theorem State.lsWrite_dies (s : State) (off n v : Nat) : (s.lsWrite off n v).dies = s.dies := rfl
@[simp] theorem State.lsWrite_flight (s : State) (off n v : Nat) : (s.lsWrite off n v).flight = s.flight := rfl
@[simp] theorem State.lsWrite_msgs (s : State) (off n v : Nat) : (s.lsWrite off n v).msgs = s.msgs := rfl
@[simp] theorem State.lsWrite_transit (s : State) (off n v : Nat) : (s.lsWrite off n v).transit = s.transit := rfl
@[simp] theorem State.lsWrite_contexts (s : State) (off n v : Nat) : (s.lsWrite off n v).contexts = s.contexts := rfl
@[simp] theorem State.lsWrite_partitions (s : State) (off n v : Nat) : (s.lsWrite off n v).partitions = s.partitions := rfl
@[simp] theorem State.lsWrite_queues (s : State) (off n v : Nat) : (s.lsWrite off n v).queues = s.queues := rfl
@[simp] theorem State.lsWrite_launches (s : State) (off n v : Nat) : (s.lsWrite off n v).launches = s.launches := rfl
@[simp] theorem State.lsWrite_kernels (s : State) (off n v : Nat) : (s.lsWrite off n v).kernels = s.kernels := rfl
@[simp] theorem State.lsWrite_groups (s : State) (off n v : Nat) : (s.lsWrite off n v).groups = s.groups := rfl
@[simp] theorem State.lsWrite_loads (s : State) (off n v : Nat) : (s.lsWrite off n v).loads = s.loads := rfl
@[simp] theorem State.lsWrite_updates (s : State) (off n v : Nat) : (s.lsWrite off n v).updates = s.updates := rfl
@[simp] theorem State.lsWrite_amos (s : State) (off n v : Nat) : (s.lsWrite off n v).amos = s.amos := rfl
@[simp] theorem State.lsWrite_owed (s : State) (off n v : Nat) : (s.lsWrite off n v).owed = s.owed := rfl
@[simp] theorem State.lsWrite_replayLog (s : State) (off n v : Nat) : (s.lsWrite off n v).replayLog = s.replayLog := rfl

/-! ### `send` -/

@[simp] theorem State.send_package (s : State) (a : Access) : (s.send a).package = s.package := rfl
@[simp] theorem State.send_cycle (s : State) (a : Access) : (s.send a).cycle = s.cycle := rfl
@[simp] theorem State.send_phase (s : State) (a : Access) : (s.send a).phase = s.phase := rfl
@[simp] theorem State.send_ownAt (s : State) (a : Access) : (s.send a).ownAt = s.ownAt := rfl
@[simp] theorem State.send_agenda (s : State) (a : Access) : (s.send a).agenda = s.agenda := rfl
@[simp] theorem State.send_cur (s : State) (a : Access) : (s.send a).cur = s.cur := rfl
@[simp] theorem State.send_slot (s : State) (a : Access) : (s.send a).slot = s.slot := rfl
@[simp] theorem State.send_bundle (s : State) (a : Access) : (s.send a).bundle = s.bundle := rfl
@[simp] theorem State.send_free (s : State) (a : Access) : (s.send a).free = s.free := rfl
@[simp] theorem State.send_nextUid (s : State) (a : Access) : (s.send a).nextUid = s.nextUid := rfl
@[simp] theorem State.send_mem (s : State) (a : Access) : (s.send a).mem = s.mem := rfl
@[simp] theorem State.send_rmem (s : State) (a : Access) : (s.send a).rmem = s.rmem := rfl
@[simp] theorem State.send_poison (s : State) (a : Access) : (s.send a).poison = s.poison := rfl
@[simp] theorem State.send_lineTags (s : State) (a : Access) : (s.send a).lineTags = s.lineTags := rfl
@[simp] theorem State.send_cores (s : State) (a : Access) : (s.send a).cores = s.cores := rfl
@[simp] theorem State.send_clusters (s : State) (a : Access) : (s.send a).clusters = s.clusters := rfl
@[simp] theorem State.send_dies (s : State) (a : Access) : (s.send a).dies = s.dies := rfl
@[simp] theorem State.send_msgs (s : State) (a : Access) : (s.send a).msgs = s.msgs := rfl
@[simp] theorem State.send_transit (s : State) (a : Access) : (s.send a).transit = s.transit := rfl
@[simp] theorem State.send_contexts (s : State) (a : Access) : (s.send a).contexts = s.contexts := rfl
@[simp] theorem State.send_partitions (s : State) (a : Access) : (s.send a).partitions = s.partitions := rfl
@[simp] theorem State.send_queues (s : State) (a : Access) : (s.send a).queues = s.queues := rfl
@[simp] theorem State.send_launches (s : State) (a : Access) : (s.send a).launches = s.launches := rfl
@[simp] theorem State.send_kernels (s : State) (a : Access) : (s.send a).kernels = s.kernels := rfl
@[simp] theorem State.send_groups (s : State) (a : Access) : (s.send a).groups = s.groups := rfl
@[simp] theorem State.send_loads (s : State) (a : Access) : (s.send a).loads = s.loads := rfl
@[simp] theorem State.send_updates (s : State) (a : Access) : (s.send a).updates = s.updates := rfl
@[simp] theorem State.send_amos (s : State) (a : Access) : (s.send a).amos = s.amos := rfl
@[simp] theorem State.send_owed (s : State) (a : Access) : (s.send a).owed = s.owed := rfl
@[simp] theorem State.send_replayLog (s : State) (a : Access) : (s.send a).replayLog = s.replayLog := rfl

/-! ### `post` -/

@[simp] theorem State.post_package (s : State) (dst : Nat) (b : MsgBody) : (s.post dst b).package = s.package := rfl
@[simp] theorem State.post_cycle (s : State) (dst : Nat) (b : MsgBody) : (s.post dst b).cycle = s.cycle := rfl
@[simp] theorem State.post_phase (s : State) (dst : Nat) (b : MsgBody) : (s.post dst b).phase = s.phase := rfl
@[simp] theorem State.post_ownAt (s : State) (dst : Nat) (b : MsgBody) : (s.post dst b).ownAt = s.ownAt := rfl
@[simp] theorem State.post_agenda (s : State) (dst : Nat) (b : MsgBody) : (s.post dst b).agenda = s.agenda := rfl
@[simp] theorem State.post_cur (s : State) (dst : Nat) (b : MsgBody) : (s.post dst b).cur = s.cur := rfl
@[simp] theorem State.post_slot (s : State) (dst : Nat) (b : MsgBody) : (s.post dst b).slot = s.slot := rfl
@[simp] theorem State.post_bundle (s : State) (dst : Nat) (b : MsgBody) : (s.post dst b).bundle = s.bundle := rfl
@[simp] theorem State.post_free (s : State) (dst : Nat) (b : MsgBody) : (s.post dst b).free = s.free := rfl
@[simp] theorem State.post_nextUid (s : State) (dst : Nat) (b : MsgBody) : (s.post dst b).nextUid = s.nextUid := rfl
@[simp] theorem State.post_mem (s : State) (dst : Nat) (b : MsgBody) : (s.post dst b).mem = s.mem := rfl
@[simp] theorem State.post_rmem (s : State) (dst : Nat) (b : MsgBody) : (s.post dst b).rmem = s.rmem := rfl
@[simp] theorem State.post_poison (s : State) (dst : Nat) (b : MsgBody) : (s.post dst b).poison = s.poison := rfl
@[simp] theorem State.post_lineTags (s : State) (dst : Nat) (b : MsgBody) : (s.post dst b).lineTags = s.lineTags := rfl
@[simp] theorem State.post_cores (s : State) (dst : Nat) (b : MsgBody) : (s.post dst b).cores = s.cores := rfl
@[simp] theorem State.post_clusters (s : State) (dst : Nat) (b : MsgBody) : (s.post dst b).clusters = s.clusters := rfl
@[simp] theorem State.post_dies (s : State) (dst : Nat) (b : MsgBody) : (s.post dst b).dies = s.dies := rfl
@[simp] theorem State.post_flight (s : State) (dst : Nat) (b : MsgBody) : (s.post dst b).flight = s.flight := rfl
@[simp] theorem State.post_transit (s : State) (dst : Nat) (b : MsgBody) : (s.post dst b).transit = s.transit := rfl
@[simp] theorem State.post_contexts (s : State) (dst : Nat) (b : MsgBody) : (s.post dst b).contexts = s.contexts := rfl
@[simp] theorem State.post_partitions (s : State) (dst : Nat) (b : MsgBody) : (s.post dst b).partitions = s.partitions := rfl
@[simp] theorem State.post_queues (s : State) (dst : Nat) (b : MsgBody) : (s.post dst b).queues = s.queues := rfl
@[simp] theorem State.post_launches (s : State) (dst : Nat) (b : MsgBody) : (s.post dst b).launches = s.launches := rfl
@[simp] theorem State.post_kernels (s : State) (dst : Nat) (b : MsgBody) : (s.post dst b).kernels = s.kernels := rfl
@[simp] theorem State.post_groups (s : State) (dst : Nat) (b : MsgBody) : (s.post dst b).groups = s.groups := rfl
@[simp] theorem State.post_loads (s : State) (dst : Nat) (b : MsgBody) : (s.post dst b).loads = s.loads := rfl
@[simp] theorem State.post_updates (s : State) (dst : Nat) (b : MsgBody) : (s.post dst b).updates = s.updates := rfl
@[simp] theorem State.post_amos (s : State) (dst : Nat) (b : MsgBody) : (s.post dst b).amos = s.amos := rfl
@[simp] theorem State.post_owed (s : State) (dst : Nat) (b : MsgBody) : (s.post dst b).owed = s.owed := rfl
@[simp] theorem State.post_replayLog (s : State) (dst : Nat) (b : MsgBody) : (s.post dst b).replayLog = s.replayLog := rfl

/-! ### `setLatch` -/

@[simp] theorem State.setLatch_package (s : State) (c : Nat) (l : Latch) : (s.setLatch c l).package = s.package := rfl
@[simp] theorem State.setLatch_cycle (s : State) (c : Nat) (l : Latch) : (s.setLatch c l).cycle = s.cycle := rfl
@[simp] theorem State.setLatch_phase (s : State) (c : Nat) (l : Latch) : (s.setLatch c l).phase = s.phase := rfl
@[simp] theorem State.setLatch_ownAt (s : State) (c : Nat) (l : Latch) : (s.setLatch c l).ownAt = s.ownAt := rfl
@[simp] theorem State.setLatch_agenda (s : State) (c : Nat) (l : Latch) : (s.setLatch c l).agenda = s.agenda := rfl
@[simp] theorem State.setLatch_cur (s : State) (c : Nat) (l : Latch) : (s.setLatch c l).cur = s.cur := rfl
@[simp] theorem State.setLatch_slot (s : State) (c : Nat) (l : Latch) : (s.setLatch c l).slot = s.slot := rfl
@[simp] theorem State.setLatch_bundle (s : State) (c : Nat) (l : Latch) : (s.setLatch c l).bundle = s.bundle := rfl
@[simp] theorem State.setLatch_free (s : State) (c : Nat) (l : Latch) : (s.setLatch c l).free = s.free := rfl
@[simp] theorem State.setLatch_nextUid (s : State) (c : Nat) (l : Latch) : (s.setLatch c l).nextUid = s.nextUid := rfl
@[simp] theorem State.setLatch_nextId (s : State) (c : Nat) (l : Latch) : (s.setLatch c l).nextId = s.nextId := rfl
@[simp] theorem State.setLatch_mem (s : State) (c : Nat) (l : Latch) : (s.setLatch c l).mem = s.mem := rfl
@[simp] theorem State.setLatch_rmem (s : State) (c : Nat) (l : Latch) : (s.setLatch c l).rmem = s.rmem := rfl
@[simp] theorem State.setLatch_poison (s : State) (c : Nat) (l : Latch) : (s.setLatch c l).poison = s.poison := rfl
@[simp] theorem State.setLatch_lineTags (s : State) (c : Nat) (l : Latch) : (s.setLatch c l).lineTags = s.lineTags := rfl
@[simp] theorem State.setLatch_clusters (s : State) (c : Nat) (l : Latch) : (s.setLatch c l).clusters = s.clusters := rfl
@[simp] theorem State.setLatch_dies (s : State) (c : Nat) (l : Latch) : (s.setLatch c l).dies = s.dies := rfl
@[simp] theorem State.setLatch_flight (s : State) (c : Nat) (l : Latch) : (s.setLatch c l).flight = s.flight := rfl
@[simp] theorem State.setLatch_msgs (s : State) (c : Nat) (l : Latch) : (s.setLatch c l).msgs = s.msgs := rfl
@[simp] theorem State.setLatch_transit (s : State) (c : Nat) (l : Latch) : (s.setLatch c l).transit = s.transit := rfl
@[simp] theorem State.setLatch_contexts (s : State) (c : Nat) (l : Latch) : (s.setLatch c l).contexts = s.contexts := rfl
@[simp] theorem State.setLatch_partitions (s : State) (c : Nat) (l : Latch) : (s.setLatch c l).partitions = s.partitions := rfl
@[simp] theorem State.setLatch_queues (s : State) (c : Nat) (l : Latch) : (s.setLatch c l).queues = s.queues := rfl
@[simp] theorem State.setLatch_launches (s : State) (c : Nat) (l : Latch) : (s.setLatch c l).launches = s.launches := rfl
@[simp] theorem State.setLatch_kernels (s : State) (c : Nat) (l : Latch) : (s.setLatch c l).kernels = s.kernels := rfl
@[simp] theorem State.setLatch_groups (s : State) (c : Nat) (l : Latch) : (s.setLatch c l).groups = s.groups := rfl
@[simp] theorem State.setLatch_loads (s : State) (c : Nat) (l : Latch) : (s.setLatch c l).loads = s.loads := rfl
@[simp] theorem State.setLatch_updates (s : State) (c : Nat) (l : Latch) : (s.setLatch c l).updates = s.updates := rfl
@[simp] theorem State.setLatch_amos (s : State) (c : Nat) (l : Latch) : (s.setLatch c l).amos = s.amos := rfl
@[simp] theorem State.setLatch_owed (s : State) (c : Nat) (l : Latch) : (s.setLatch c l).owed = s.owed := rfl
@[simp] theorem State.setLatch_replayLog (s : State) (c : Nat) (l : Latch) : (s.setLatch c l).replayLog = s.replayLog := rfl

/-! ### `setStatWord` -/

@[simp] theorem State.setStatWord_package (s : State) (w : Word) : (s.setStatWord w).package = s.package := rfl
@[simp] theorem State.setStatWord_cycle (s : State) (w : Word) : (s.setStatWord w).cycle = s.cycle := rfl
@[simp] theorem State.setStatWord_phase (s : State) (w : Word) : (s.setStatWord w).phase = s.phase := rfl
@[simp] theorem State.setStatWord_ownAt (s : State) (w : Word) : (s.setStatWord w).ownAt = s.ownAt := rfl
@[simp] theorem State.setStatWord_agenda (s : State) (w : Word) : (s.setStatWord w).agenda = s.agenda := rfl
@[simp] theorem State.setStatWord_cur (s : State) (w : Word) : (s.setStatWord w).cur = s.cur := rfl
@[simp] theorem State.setStatWord_slot (s : State) (w : Word) : (s.setStatWord w).slot = s.slot := rfl
@[simp] theorem State.setStatWord_bundle (s : State) (w : Word) : (s.setStatWord w).bundle = s.bundle := rfl
@[simp] theorem State.setStatWord_free (s : State) (w : Word) : (s.setStatWord w).free = s.free := rfl
@[simp] theorem State.setStatWord_nextUid (s : State) (w : Word) : (s.setStatWord w).nextUid = s.nextUid := rfl
@[simp] theorem State.setStatWord_nextId (s : State) (w : Word) : (s.setStatWord w).nextId = s.nextId := rfl
@[simp] theorem State.setStatWord_mem (s : State) (w : Word) : (s.setStatWord w).mem = s.mem := rfl
@[simp] theorem State.setStatWord_rmem (s : State) (w : Word) : (s.setStatWord w).rmem = s.rmem := rfl
@[simp] theorem State.setStatWord_poison (s : State) (w : Word) : (s.setStatWord w).poison = s.poison := rfl
@[simp] theorem State.setStatWord_lineTags (s : State) (w : Word) : (s.setStatWord w).lineTags = s.lineTags := rfl
@[simp] theorem State.setStatWord_clusters (s : State) (w : Word) : (s.setStatWord w).clusters = s.clusters := rfl
@[simp] theorem State.setStatWord_dies (s : State) (w : Word) : (s.setStatWord w).dies = s.dies := rfl
@[simp] theorem State.setStatWord_flight (s : State) (w : Word) : (s.setStatWord w).flight = s.flight := rfl
@[simp] theorem State.setStatWord_msgs (s : State) (w : Word) : (s.setStatWord w).msgs = s.msgs := rfl
@[simp] theorem State.setStatWord_transit (s : State) (w : Word) : (s.setStatWord w).transit = s.transit := rfl
@[simp] theorem State.setStatWord_contexts (s : State) (w : Word) : (s.setStatWord w).contexts = s.contexts := rfl
@[simp] theorem State.setStatWord_partitions (s : State) (w : Word) : (s.setStatWord w).partitions = s.partitions := rfl
@[simp] theorem State.setStatWord_queues (s : State) (w : Word) : (s.setStatWord w).queues = s.queues := rfl
@[simp] theorem State.setStatWord_launches (s : State) (w : Word) : (s.setStatWord w).launches = s.launches := rfl
@[simp] theorem State.setStatWord_kernels (s : State) (w : Word) : (s.setStatWord w).kernels = s.kernels := rfl
@[simp] theorem State.setStatWord_groups (s : State) (w : Word) : (s.setStatWord w).groups = s.groups := rfl
@[simp] theorem State.setStatWord_loads (s : State) (w : Word) : (s.setStatWord w).loads = s.loads := rfl
@[simp] theorem State.setStatWord_updates (s : State) (w : Word) : (s.setStatWord w).updates = s.updates := rfl
@[simp] theorem State.setStatWord_amos (s : State) (w : Word) : (s.setStatWord w).amos = s.amos := rfl
@[simp] theorem State.setStatWord_owed (s : State) (w : Word) : (s.setStatWord w).owed = s.owed := rfl
@[simp] theorem State.setStatWord_replayLog (s : State) (w : Word) : (s.setStatWord w).replayLog = s.replayLog := rfl

/-! ### `setQueue` -/

@[simp] theorem State.setQueue_package (s : State) (q : Nat) (k : Queue) : (s.setQueue q k).package = s.package := rfl
@[simp] theorem State.setQueue_cycle (s : State) (q : Nat) (k : Queue) : (s.setQueue q k).cycle = s.cycle := rfl
@[simp] theorem State.setQueue_phase (s : State) (q : Nat) (k : Queue) : (s.setQueue q k).phase = s.phase := rfl
@[simp] theorem State.setQueue_ownAt (s : State) (q : Nat) (k : Queue) : (s.setQueue q k).ownAt = s.ownAt := rfl
@[simp] theorem State.setQueue_agenda (s : State) (q : Nat) (k : Queue) : (s.setQueue q k).agenda = s.agenda := rfl
@[simp] theorem State.setQueue_cur (s : State) (q : Nat) (k : Queue) : (s.setQueue q k).cur = s.cur := rfl
@[simp] theorem State.setQueue_slot (s : State) (q : Nat) (k : Queue) : (s.setQueue q k).slot = s.slot := rfl
@[simp] theorem State.setQueue_bundle (s : State) (q : Nat) (k : Queue) : (s.setQueue q k).bundle = s.bundle := rfl
@[simp] theorem State.setQueue_free (s : State) (q : Nat) (k : Queue) : (s.setQueue q k).free = s.free := rfl
@[simp] theorem State.setQueue_nextUid (s : State) (q : Nat) (k : Queue) : (s.setQueue q k).nextUid = s.nextUid := rfl
@[simp] theorem State.setQueue_nextId (s : State) (q : Nat) (k : Queue) : (s.setQueue q k).nextId = s.nextId := rfl
@[simp] theorem State.setQueue_mem (s : State) (q : Nat) (k : Queue) : (s.setQueue q k).mem = s.mem := rfl
@[simp] theorem State.setQueue_rmem (s : State) (q : Nat) (k : Queue) : (s.setQueue q k).rmem = s.rmem := rfl
@[simp] theorem State.setQueue_poison (s : State) (q : Nat) (k : Queue) : (s.setQueue q k).poison = s.poison := rfl
@[simp] theorem State.setQueue_lineTags (s : State) (q : Nat) (k : Queue) : (s.setQueue q k).lineTags = s.lineTags := rfl
@[simp] theorem State.setQueue_cores (s : State) (q : Nat) (k : Queue) : (s.setQueue q k).cores = s.cores := rfl
@[simp] theorem State.setQueue_clusters (s : State) (q : Nat) (k : Queue) : (s.setQueue q k).clusters = s.clusters := rfl
@[simp] theorem State.setQueue_dies (s : State) (q : Nat) (k : Queue) : (s.setQueue q k).dies = s.dies := rfl
@[simp] theorem State.setQueue_flight (s : State) (q : Nat) (k : Queue) : (s.setQueue q k).flight = s.flight := rfl
@[simp] theorem State.setQueue_msgs (s : State) (q : Nat) (k : Queue) : (s.setQueue q k).msgs = s.msgs := rfl
@[simp] theorem State.setQueue_transit (s : State) (q : Nat) (k : Queue) : (s.setQueue q k).transit = s.transit := rfl
@[simp] theorem State.setQueue_contexts (s : State) (q : Nat) (k : Queue) : (s.setQueue q k).contexts = s.contexts := rfl
@[simp] theorem State.setQueue_partitions (s : State) (q : Nat) (k : Queue) : (s.setQueue q k).partitions = s.partitions := rfl
@[simp] theorem State.setQueue_launches (s : State) (q : Nat) (k : Queue) : (s.setQueue q k).launches = s.launches := rfl
@[simp] theorem State.setQueue_kernels (s : State) (q : Nat) (k : Queue) : (s.setQueue q k).kernels = s.kernels := rfl
@[simp] theorem State.setQueue_groups (s : State) (q : Nat) (k : Queue) : (s.setQueue q k).groups = s.groups := rfl
@[simp] theorem State.setQueue_loads (s : State) (q : Nat) (k : Queue) : (s.setQueue q k).loads = s.loads := rfl
@[simp] theorem State.setQueue_updates (s : State) (q : Nat) (k : Queue) : (s.setQueue q k).updates = s.updates := rfl
@[simp] theorem State.setQueue_amos (s : State) (q : Nat) (k : Queue) : (s.setQueue q k).amos = s.amos := rfl
@[simp] theorem State.setQueue_owed (s : State) (q : Nat) (k : Queue) : (s.setQueue q k).owed = s.owed := rfl
@[simp] theorem State.setQueue_replayLog (s : State) (q : Nat) (k : Queue) : (s.setQueue q k).replayLog = s.replayLog := rfl

/-! ### `setDie` -/

@[simp] theorem State.setDie_package (s : State) (d : Nat) (v : Die) : (s.setDie d v).package = s.package := rfl
@[simp] theorem State.setDie_cycle (s : State) (d : Nat) (v : Die) : (s.setDie d v).cycle = s.cycle := rfl
@[simp] theorem State.setDie_phase (s : State) (d : Nat) (v : Die) : (s.setDie d v).phase = s.phase := rfl
@[simp] theorem State.setDie_ownAt (s : State) (d : Nat) (v : Die) : (s.setDie d v).ownAt = s.ownAt := rfl
@[simp] theorem State.setDie_agenda (s : State) (d : Nat) (v : Die) : (s.setDie d v).agenda = s.agenda := rfl
@[simp] theorem State.setDie_cur (s : State) (d : Nat) (v : Die) : (s.setDie d v).cur = s.cur := rfl
@[simp] theorem State.setDie_slot (s : State) (d : Nat) (v : Die) : (s.setDie d v).slot = s.slot := rfl
@[simp] theorem State.setDie_bundle (s : State) (d : Nat) (v : Die) : (s.setDie d v).bundle = s.bundle := rfl
@[simp] theorem State.setDie_free (s : State) (d : Nat) (v : Die) : (s.setDie d v).free = s.free := rfl
@[simp] theorem State.setDie_nextUid (s : State) (d : Nat) (v : Die) : (s.setDie d v).nextUid = s.nextUid := rfl
@[simp] theorem State.setDie_nextId (s : State) (d : Nat) (v : Die) : (s.setDie d v).nextId = s.nextId := rfl
@[simp] theorem State.setDie_mem (s : State) (d : Nat) (v : Die) : (s.setDie d v).mem = s.mem := rfl
@[simp] theorem State.setDie_rmem (s : State) (d : Nat) (v : Die) : (s.setDie d v).rmem = s.rmem := rfl
@[simp] theorem State.setDie_poison (s : State) (d : Nat) (v : Die) : (s.setDie d v).poison = s.poison := rfl
@[simp] theorem State.setDie_lineTags (s : State) (d : Nat) (v : Die) : (s.setDie d v).lineTags = s.lineTags := rfl
@[simp] theorem State.setDie_cores (s : State) (d : Nat) (v : Die) : (s.setDie d v).cores = s.cores := rfl
@[simp] theorem State.setDie_clusters (s : State) (d : Nat) (v : Die) : (s.setDie d v).clusters = s.clusters := rfl
@[simp] theorem State.setDie_flight (s : State) (d : Nat) (v : Die) : (s.setDie d v).flight = s.flight := rfl
@[simp] theorem State.setDie_msgs (s : State) (d : Nat) (v : Die) : (s.setDie d v).msgs = s.msgs := rfl
@[simp] theorem State.setDie_transit (s : State) (d : Nat) (v : Die) : (s.setDie d v).transit = s.transit := rfl
@[simp] theorem State.setDie_contexts (s : State) (d : Nat) (v : Die) : (s.setDie d v).contexts = s.contexts := rfl
@[simp] theorem State.setDie_partitions (s : State) (d : Nat) (v : Die) : (s.setDie d v).partitions = s.partitions := rfl
@[simp] theorem State.setDie_queues (s : State) (d : Nat) (v : Die) : (s.setDie d v).queues = s.queues := rfl
@[simp] theorem State.setDie_launches (s : State) (d : Nat) (v : Die) : (s.setDie d v).launches = s.launches := rfl
@[simp] theorem State.setDie_kernels (s : State) (d : Nat) (v : Die) : (s.setDie d v).kernels = s.kernels := rfl
@[simp] theorem State.setDie_groups (s : State) (d : Nat) (v : Die) : (s.setDie d v).groups = s.groups := rfl
@[simp] theorem State.setDie_loads (s : State) (d : Nat) (v : Die) : (s.setDie d v).loads = s.loads := rfl
@[simp] theorem State.setDie_updates (s : State) (d : Nat) (v : Die) : (s.setDie d v).updates = s.updates := rfl
@[simp] theorem State.setDie_amos (s : State) (d : Nat) (v : Die) : (s.setDie d v).amos = s.amos := rfl
@[simp] theorem State.setDie_owed (s : State) (d : Nat) (v : Die) : (s.setDie d v).owed = s.owed := rfl
@[simp] theorem State.setDie_replayLog (s : State) (d : Nat) (v : Die) : (s.setDie d v).replayLog = s.replayLog := rfl

/-! ### `setCar` -/

@[simp] theorem State.setCar_package (s : State) (d k : Nat) (c : Carousel) : (s.setCar d k c).package = s.package := rfl
@[simp] theorem State.setCar_cycle (s : State) (d k : Nat) (c : Carousel) : (s.setCar d k c).cycle = s.cycle := rfl
@[simp] theorem State.setCar_phase (s : State) (d k : Nat) (c : Carousel) : (s.setCar d k c).phase = s.phase := rfl
@[simp] theorem State.setCar_ownAt (s : State) (d k : Nat) (c : Carousel) : (s.setCar d k c).ownAt = s.ownAt := rfl
@[simp] theorem State.setCar_agenda (s : State) (d k : Nat) (c : Carousel) : (s.setCar d k c).agenda = s.agenda := rfl
@[simp] theorem State.setCar_cur (s : State) (d k : Nat) (c : Carousel) : (s.setCar d k c).cur = s.cur := rfl
@[simp] theorem State.setCar_slot (s : State) (d k : Nat) (c : Carousel) : (s.setCar d k c).slot = s.slot := rfl
@[simp] theorem State.setCar_bundle (s : State) (d k : Nat) (c : Carousel) : (s.setCar d k c).bundle = s.bundle := rfl
@[simp] theorem State.setCar_free (s : State) (d k : Nat) (c : Carousel) : (s.setCar d k c).free = s.free := rfl
@[simp] theorem State.setCar_nextUid (s : State) (d k : Nat) (c : Carousel) : (s.setCar d k c).nextUid = s.nextUid := rfl
@[simp] theorem State.setCar_nextId (s : State) (d k : Nat) (c : Carousel) : (s.setCar d k c).nextId = s.nextId := rfl
@[simp] theorem State.setCar_mem (s : State) (d k : Nat) (c : Carousel) : (s.setCar d k c).mem = s.mem := rfl
@[simp] theorem State.setCar_rmem (s : State) (d k : Nat) (c : Carousel) : (s.setCar d k c).rmem = s.rmem := rfl
@[simp] theorem State.setCar_poison (s : State) (d k : Nat) (c : Carousel) : (s.setCar d k c).poison = s.poison := rfl
@[simp] theorem State.setCar_lineTags (s : State) (d k : Nat) (c : Carousel) : (s.setCar d k c).lineTags = s.lineTags := rfl
@[simp] theorem State.setCar_cores (s : State) (d k : Nat) (c : Carousel) : (s.setCar d k c).cores = s.cores := rfl
@[simp] theorem State.setCar_clusters (s : State) (d k : Nat) (c : Carousel) : (s.setCar d k c).clusters = s.clusters := rfl
@[simp] theorem State.setCar_flight (s : State) (d k : Nat) (c : Carousel) : (s.setCar d k c).flight = s.flight := rfl
@[simp] theorem State.setCar_msgs (s : State) (d k : Nat) (c : Carousel) : (s.setCar d k c).msgs = s.msgs := rfl
@[simp] theorem State.setCar_transit (s : State) (d k : Nat) (c : Carousel) : (s.setCar d k c).transit = s.transit := rfl
@[simp] theorem State.setCar_contexts (s : State) (d k : Nat) (c : Carousel) : (s.setCar d k c).contexts = s.contexts := rfl
@[simp] theorem State.setCar_partitions (s : State) (d k : Nat) (c : Carousel) : (s.setCar d k c).partitions = s.partitions := rfl
@[simp] theorem State.setCar_queues (s : State) (d k : Nat) (c : Carousel) : (s.setCar d k c).queues = s.queues := rfl
@[simp] theorem State.setCar_launches (s : State) (d k : Nat) (c : Carousel) : (s.setCar d k c).launches = s.launches := rfl
@[simp] theorem State.setCar_kernels (s : State) (d k : Nat) (c : Carousel) : (s.setCar d k c).kernels = s.kernels := rfl
@[simp] theorem State.setCar_groups (s : State) (d k : Nat) (c : Carousel) : (s.setCar d k c).groups = s.groups := rfl
@[simp] theorem State.setCar_loads (s : State) (d k : Nat) (c : Carousel) : (s.setCar d k c).loads = s.loads := rfl
@[simp] theorem State.setCar_updates (s : State) (d k : Nat) (c : Carousel) : (s.setCar d k c).updates = s.updates := rfl
@[simp] theorem State.setCar_amos (s : State) (d k : Nat) (c : Carousel) : (s.setCar d k c).amos = s.amos := rfl
@[simp] theorem State.setCar_owed (s : State) (d k : Nat) (c : Carousel) : (s.setCar d k c).owed = s.owed := rfl
@[simp] theorem State.setCar_replayLog (s : State) (d k : Nat) (c : Carousel) : (s.setCar d k c).replayLog = s.replayLog := rfl

/-! ### `updThread` -/

@[simp] theorem State.updThread_package (s : State) (uid : Nat) (f : Thread → Thread) : (s.updThread uid f).package = s.package := rfl
@[simp] theorem State.updThread_cycle (s : State) (uid : Nat) (f : Thread → Thread) : (s.updThread uid f).cycle = s.cycle := rfl
@[simp] theorem State.updThread_phase (s : State) (uid : Nat) (f : Thread → Thread) : (s.updThread uid f).phase = s.phase := rfl
@[simp] theorem State.updThread_ownAt (s : State) (uid : Nat) (f : Thread → Thread) : (s.updThread uid f).ownAt = s.ownAt := rfl
@[simp] theorem State.updThread_agenda (s : State) (uid : Nat) (f : Thread → Thread) : (s.updThread uid f).agenda = s.agenda := rfl
@[simp] theorem State.updThread_cur (s : State) (uid : Nat) (f : Thread → Thread) : (s.updThread uid f).cur = s.cur := rfl
@[simp] theorem State.updThread_slot (s : State) (uid : Nat) (f : Thread → Thread) : (s.updThread uid f).slot = s.slot := rfl
@[simp] theorem State.updThread_bundle (s : State) (uid : Nat) (f : Thread → Thread) : (s.updThread uid f).bundle = s.bundle := rfl
@[simp] theorem State.updThread_free (s : State) (uid : Nat) (f : Thread → Thread) : (s.updThread uid f).free = s.free := rfl
@[simp] theorem State.updThread_nextUid (s : State) (uid : Nat) (f : Thread → Thread) : (s.updThread uid f).nextUid = s.nextUid := rfl
@[simp] theorem State.updThread_nextId (s : State) (uid : Nat) (f : Thread → Thread) : (s.updThread uid f).nextId = s.nextId := rfl
@[simp] theorem State.updThread_mem (s : State) (uid : Nat) (f : Thread → Thread) : (s.updThread uid f).mem = s.mem := rfl
@[simp] theorem State.updThread_rmem (s : State) (uid : Nat) (f : Thread → Thread) : (s.updThread uid f).rmem = s.rmem := rfl
@[simp] theorem State.updThread_poison (s : State) (uid : Nat) (f : Thread → Thread) : (s.updThread uid f).poison = s.poison := rfl
@[simp] theorem State.updThread_lineTags (s : State) (uid : Nat) (f : Thread → Thread) : (s.updThread uid f).lineTags = s.lineTags := rfl
@[simp] theorem State.updThread_clusters (s : State) (uid : Nat) (f : Thread → Thread) : (s.updThread uid f).clusters = s.clusters := rfl
@[simp] theorem State.updThread_dies (s : State) (uid : Nat) (f : Thread → Thread) : (s.updThread uid f).dies = s.dies := rfl
@[simp] theorem State.updThread_flight (s : State) (uid : Nat) (f : Thread → Thread) : (s.updThread uid f).flight = s.flight := rfl
@[simp] theorem State.updThread_msgs (s : State) (uid : Nat) (f : Thread → Thread) : (s.updThread uid f).msgs = s.msgs := rfl
@[simp] theorem State.updThread_transit (s : State) (uid : Nat) (f : Thread → Thread) : (s.updThread uid f).transit = s.transit := rfl
@[simp] theorem State.updThread_partitions (s : State) (uid : Nat) (f : Thread → Thread) : (s.updThread uid f).partitions = s.partitions := rfl
@[simp] theorem State.updThread_queues (s : State) (uid : Nat) (f : Thread → Thread) : (s.updThread uid f).queues = s.queues := rfl
@[simp] theorem State.updThread_launches (s : State) (uid : Nat) (f : Thread → Thread) : (s.updThread uid f).launches = s.launches := rfl
@[simp] theorem State.updThread_kernels (s : State) (uid : Nat) (f : Thread → Thread) : (s.updThread uid f).kernels = s.kernels := rfl
@[simp] theorem State.updThread_groups (s : State) (uid : Nat) (f : Thread → Thread) : (s.updThread uid f).groups = s.groups := rfl
@[simp] theorem State.updThread_loads (s : State) (uid : Nat) (f : Thread → Thread) : (s.updThread uid f).loads = s.loads := rfl
@[simp] theorem State.updThread_updates (s : State) (uid : Nat) (f : Thread → Thread) : (s.updThread uid f).updates = s.updates := rfl
@[simp] theorem State.updThread_amos (s : State) (uid : Nat) (f : Thread → Thread) : (s.updThread uid f).amos = s.amos := rfl
@[simp] theorem State.updThread_owed (s : State) (uid : Nat) (f : Thread → Thread) : (s.updThread uid f).owed = s.owed := rfl
@[simp] theorem State.updThread_replayLog (s : State) (uid : Nat) (f : Thread → Thread) : (s.updThread uid f).replayLog = s.replayLog := rfl

/-! ### `count` -/

@[simp] theorem State.count_package (s : State) (c ev n : Nat) : (s.count c ev n).package = s.package := rfl
@[simp] theorem State.count_cycle (s : State) (c ev n : Nat) : (s.count c ev n).cycle = s.cycle := rfl
@[simp] theorem State.count_phase (s : State) (c ev n : Nat) : (s.count c ev n).phase = s.phase := rfl
@[simp] theorem State.count_ownAt (s : State) (c ev n : Nat) : (s.count c ev n).ownAt = s.ownAt := rfl
@[simp] theorem State.count_agenda (s : State) (c ev n : Nat) : (s.count c ev n).agenda = s.agenda := rfl
@[simp] theorem State.count_cur (s : State) (c ev n : Nat) : (s.count c ev n).cur = s.cur := rfl
@[simp] theorem State.count_slot (s : State) (c ev n : Nat) : (s.count c ev n).slot = s.slot := rfl
@[simp] theorem State.count_bundle (s : State) (c ev n : Nat) : (s.count c ev n).bundle = s.bundle := rfl
@[simp] theorem State.count_free (s : State) (c ev n : Nat) : (s.count c ev n).free = s.free := rfl
@[simp] theorem State.count_nextUid (s : State) (c ev n : Nat) : (s.count c ev n).nextUid = s.nextUid := rfl
@[simp] theorem State.count_nextId (s : State) (c ev n : Nat) : (s.count c ev n).nextId = s.nextId := rfl
@[simp] theorem State.count_mem (s : State) (c ev n : Nat) : (s.count c ev n).mem = s.mem := rfl
@[simp] theorem State.count_rmem (s : State) (c ev n : Nat) : (s.count c ev n).rmem = s.rmem := rfl
@[simp] theorem State.count_poison (s : State) (c ev n : Nat) : (s.count c ev n).poison = s.poison := rfl
@[simp] theorem State.count_lineTags (s : State) (c ev n : Nat) : (s.count c ev n).lineTags = s.lineTags := rfl
@[simp] theorem State.count_cores (s : State) (c ev n : Nat) : (s.count c ev n).cores = s.cores := rfl
@[simp] theorem State.count_clusters (s : State) (c ev n : Nat) : (s.count c ev n).clusters = s.clusters := rfl
@[simp] theorem State.count_dies (s : State) (c ev n : Nat) : (s.count c ev n).dies = s.dies := rfl
@[simp] theorem State.count_flight (s : State) (c ev n : Nat) : (s.count c ev n).flight = s.flight := rfl
@[simp] theorem State.count_msgs (s : State) (c ev n : Nat) : (s.count c ev n).msgs = s.msgs := rfl
@[simp] theorem State.count_transit (s : State) (c ev n : Nat) : (s.count c ev n).transit = s.transit := rfl
@[simp] theorem State.count_contexts (s : State) (c ev n : Nat) : (s.count c ev n).contexts = s.contexts := rfl
@[simp] theorem State.count_partitions (s : State) (c ev n : Nat) : (s.count c ev n).partitions = s.partitions := rfl
@[simp] theorem State.count_queues (s : State) (c ev n : Nat) : (s.count c ev n).queues = s.queues := rfl
@[simp] theorem State.count_launches (s : State) (c ev n : Nat) : (s.count c ev n).launches = s.launches := rfl
@[simp] theorem State.count_kernels (s : State) (c ev n : Nat) : (s.count c ev n).kernels = s.kernels := rfl
@[simp] theorem State.count_groups (s : State) (c ev n : Nat) : (s.count c ev n).groups = s.groups := rfl
@[simp] theorem State.count_loads (s : State) (c ev n : Nat) : (s.count c ev n).loads = s.loads := rfl
@[simp] theorem State.count_updates (s : State) (c ev n : Nat) : (s.count c ev n).updates = s.updates := rfl
@[simp] theorem State.count_amos (s : State) (c ev n : Nat) : (s.count c ev n).amos = s.amos := rfl
@[simp] theorem State.count_replayLog (s : State) (c ev n : Nat) : (s.count c ev n).replayLog = s.replayLog := rfl

/-! ### `mapThreads` -/

@[simp] theorem State.mapThreads_package (s : State) (f : Thread → Thread) : (s.mapThreads f).package = s.package := rfl
@[simp] theorem State.mapThreads_cycle (s : State) (f : Thread → Thread) : (s.mapThreads f).cycle = s.cycle := rfl
@[simp] theorem State.mapThreads_phase (s : State) (f : Thread → Thread) : (s.mapThreads f).phase = s.phase := rfl
@[simp] theorem State.mapThreads_ownAt (s : State) (f : Thread → Thread) : (s.mapThreads f).ownAt = s.ownAt := rfl
@[simp] theorem State.mapThreads_agenda (s : State) (f : Thread → Thread) : (s.mapThreads f).agenda = s.agenda := rfl
@[simp] theorem State.mapThreads_cur (s : State) (f : Thread → Thread) : (s.mapThreads f).cur = s.cur := rfl
@[simp] theorem State.mapThreads_slot (s : State) (f : Thread → Thread) : (s.mapThreads f).slot = s.slot := rfl
@[simp] theorem State.mapThreads_bundle (s : State) (f : Thread → Thread) : (s.mapThreads f).bundle = s.bundle := rfl
@[simp] theorem State.mapThreads_free (s : State) (f : Thread → Thread) : (s.mapThreads f).free = s.free := rfl
@[simp] theorem State.mapThreads_nextUid (s : State) (f : Thread → Thread) : (s.mapThreads f).nextUid = s.nextUid := rfl
@[simp] theorem State.mapThreads_nextId (s : State) (f : Thread → Thread) : (s.mapThreads f).nextId = s.nextId := rfl
@[simp] theorem State.mapThreads_mem (s : State) (f : Thread → Thread) : (s.mapThreads f).mem = s.mem := rfl
@[simp] theorem State.mapThreads_rmem (s : State) (f : Thread → Thread) : (s.mapThreads f).rmem = s.rmem := rfl
@[simp] theorem State.mapThreads_poison (s : State) (f : Thread → Thread) : (s.mapThreads f).poison = s.poison := rfl
@[simp] theorem State.mapThreads_lineTags (s : State) (f : Thread → Thread) : (s.mapThreads f).lineTags = s.lineTags := rfl
@[simp] theorem State.mapThreads_clusters (s : State) (f : Thread → Thread) : (s.mapThreads f).clusters = s.clusters := rfl
@[simp] theorem State.mapThreads_dies (s : State) (f : Thread → Thread) : (s.mapThreads f).dies = s.dies := rfl
@[simp] theorem State.mapThreads_flight (s : State) (f : Thread → Thread) : (s.mapThreads f).flight = s.flight := rfl
@[simp] theorem State.mapThreads_msgs (s : State) (f : Thread → Thread) : (s.mapThreads f).msgs = s.msgs := rfl
@[simp] theorem State.mapThreads_transit (s : State) (f : Thread → Thread) : (s.mapThreads f).transit = s.transit := rfl
@[simp] theorem State.mapThreads_partitions (s : State) (f : Thread → Thread) : (s.mapThreads f).partitions = s.partitions := rfl
@[simp] theorem State.mapThreads_queues (s : State) (f : Thread → Thread) : (s.mapThreads f).queues = s.queues := rfl
@[simp] theorem State.mapThreads_launches (s : State) (f : Thread → Thread) : (s.mapThreads f).launches = s.launches := rfl
@[simp] theorem State.mapThreads_kernels (s : State) (f : Thread → Thread) : (s.mapThreads f).kernels = s.kernels := rfl
@[simp] theorem State.mapThreads_groups (s : State) (f : Thread → Thread) : (s.mapThreads f).groups = s.groups := rfl
@[simp] theorem State.mapThreads_loads (s : State) (f : Thread → Thread) : (s.mapThreads f).loads = s.loads := rfl
@[simp] theorem State.mapThreads_updates (s : State) (f : Thread → Thread) : (s.mapThreads f).updates = s.updates := rfl
@[simp] theorem State.mapThreads_amos (s : State) (f : Thread → Thread) : (s.mapThreads f).amos = s.amos := rfl
@[simp] theorem State.mapThreads_owed (s : State) (f : Thread → Thread) : (s.mapThreads f).owed = s.owed := rfl
@[simp] theorem State.mapThreads_replayLog (s : State) (f : Thread → Thread) : (s.mapThreads f).replayLog = s.replayLog := rfl

/-! ### Accessors -/

@[simp] theorem State.core_setCore_self (s : State) (c : Nat) (k : CoreState) : (s.setCore c k).core c = k := by
  simp [State.core, State.setCore]
theorem State.core_setCore_ne (s : State) {c d : Nat} (k : CoreState) (h : d ≠ c) : (s.setCore c k).core d = s.core d := by
  simp [State.core, State.setCore, mapGet_mapPut_ne _ _ h]
theorem State.core_setCore (s : State) (c d : Nat) (k : CoreState) :
    (s.setCore c k).core d = if d = c then k else s.core d := by
  by_cases h : d = c
  · subst h; simp
  · simp [h, State.core_setCore_ne s k h]
@[simp] theorem State.cluster_setCluster_self (s : State) (n : Nat) (k : Cluster) : (s.setCluster n k).cluster n = k := by
  simp [State.cluster, State.setCluster]
theorem State.cluster_setCluster_ne (s : State) {n m : Nat} (k : Cluster) (h : m ≠ n) :
    (s.setCluster n k).cluster m = s.cluster m := by
  simp [State.cluster, State.setCluster, mapGet_mapPut_ne _ _ h]
@[simp] theorem State.context_setContext_self (s : State) (x : Nat) (c : Context) : (s.setContext x c).context x = c := by
  simp [State.context, State.setContext]
theorem State.context_setContext_ne (s : State) {x y : Nat} (c : Context) (h : y ≠ x) :
    (s.setContext x c).context y = s.context y := by
  simp [State.context, State.setContext, mapGet_mapPut_ne _ _ h]
@[simp] theorem State.core_setCluster (s : State) (n : Nat) (k : Cluster) (c : Nat) : (s.setCluster n k).core c = s.core c := rfl
@[simp] theorem State.core_setContext (s : State) (x : Nat) (y : Context) (c : Nat) : (s.setContext x y).core c = s.core c := rfl
@[simp] theorem State.core_setKernel (s : State) (k : Kernel) (c : Nat) : (s.setKernel k).core c = s.core c := rfl
@[simp] theorem State.core_setGroup (s : State) (g : Group) (c : Nat) : (s.setGroup g).core c = s.core c := rfl
@[simp] theorem State.core_acquire (s : State) (c : Nat) : s.acquire.core c = s.core c := rfl
@[simp] theorem State.threadAt_acquire (s : State) (c : Nat) (i : Fin 16) : s.acquire.threadAt c i = s.threadAt c i := rfl
@[simp] theorem State.th_acquire (s : State) : s.acquire.th = s.th := rfl
@[simp] theorem State.thread_acquire (s : State) : s.acquire.thread = s.thread := rfl
@[simp] theorem State.cluster_setCore (s : State) (c : Nat) (k : CoreState) (n : Nat) : (s.setCore c k).cluster n = s.cluster n := rfl
@[simp] theorem State.cluster_setTh (s : State) (t : Thread) (n : Nat) : (s.setTh t).cluster n = s.cluster n := rfl
@[simp] theorem State.cluster_advance (s : State) (n : Nat) : s.advance.cluster n = s.cluster n := rfl
@[simp] theorem State.context_setCore (s : State) (c : Nat) (k : CoreState) (x : Nat) : (s.setCore c k).context x = s.context x := rfl
@[simp] theorem State.context_setTh (s : State) (t : Thread) (x : Nat) : (s.setTh t).context x = s.context x := rfl
@[simp] theorem State.context_advance (s : State) (x : Nat) : s.advance.context x = s.context x := rfl

@[simp] theorem State.core_setSlot_self (s : State) (c : Nat) (i : Fin 16) (t : Option Thread) :
    (s.setSlot c i t).core c = { s.core c with slots := (s.core c).slots.set i t } := by simp [State.setSlot]
theorem State.core_setSlot_ne (s : State) {c d : Nat} (i : Fin 16) (t : Option Thread) (h : d ≠ c) :
    (s.setSlot c i t).core d = s.core d := by simp [State.setSlot, State.core_setCore_ne _ _ h]
@[simp] theorem State.threadAt_setSlot_self (s : State) (c : Nat) (i : Fin 16) (t : Option Thread) :
    (s.setSlot c i t).threadAt c i = t := by
  simp [State.threadAt]
theorem State.threadAt_setSlot_ne (s : State) (c : Nat) {i j : Fin 16} (t : Option Thread) (h : j ≠ i) :
    (s.setSlot c i t).threadAt c j = s.threadAt c j := by
  have h' : i.val ≠ j.val := fun e => h (Fin.ext e.symm)
  simp [State.threadAt, Vector.getElem_set, h']
theorem State.threadAt_setSlot_core (s : State) {c d : Nat} (i j : Fin 16) (t : Option Thread) (h : d ≠ c) :
    (s.setSlot c i t).threadAt d j = s.threadAt d j := by simp [State.threadAt, State.core_setSlot_ne _ _ _ h]

@[simp] theorem State.core_setTh_self (s : State) (t : Thread) :
    (s.setTh t).core s.cur = { s.core s.cur with slots := (s.core s.cur).slots.set s.slot (some t) } := by simp [State.setTh]
theorem State.core_setTh_ne (s : State) {d : Nat} (t : Thread) (h : d ≠ s.cur) : (s.setTh t).core d = s.core d := by
  simp [State.setTh, State.core_setSlot_ne _ _ _ h]
@[simp] theorem State.thread_setTh (s : State) (t : Thread) : (s.setTh t).thread = some t := by
  simp [State.thread, State.setTh]
@[simp] theorem State.th_setTh (s : State) (t : Thread) : (s.setTh t).th = t := by simp [State.th]
theorem State.th_of_thread {s : State} {t : Thread} (h : s.thread = some t) : s.th = t := by simp [State.th, h]
@[simp] theorem State.thread_advance (s : State) : s.advance.thread = some s.th.advance := by simp [State.advance]
@[simp] theorem State.th_advance (s : State) : s.advance.th = s.th.advance := by simp [State.advance]

/-! ### The thread -/

@[simp] theorem Thread.finish_uid (t : Thread) (pc : Word) (held : Option (Nat × Line)) : (t.finish pc held).uid = t.uid := rfl
@[simp] theorem Thread.finish_ctx (t : Thread) (pc : Word) (held : Option (Nat × Line)) : (t.finish pc held).ctx = t.ctx := rfl
@[simp] theorem Thread.finish_g (t : Thread) (pc : Word) (held : Option (Nat × Line)) : (t.finish pc held).g = t.g := rfl
@[simp] theorem Thread.finish_stat (t : Thread) (pc : Word) (held : Option (Nat × Line)) : (t.finish pc held).stat = t.stat := rfl
@[simp] theorem Thread.finish_tm (t : Thread) (pc : Word) (held : Option (Nat × Line)) : (t.finish pc held).tm = t.tm := rfl
@[simp] theorem Thread.finish_dep (t : Thread) (pc : Word) (held : Option (Nat × Line)) : (t.finish pc held).dep = t.dep := rfl
@[simp] theorem Thread.finish_fa (t : Thread) (pc : Word) (held : Option (Nat × Line)) : (t.finish pc held).fa = t.fa := rfl
@[simp] theorem Thread.finish_fb (t : Thread) (pc : Word) (held : Option (Nat × Line)) : (t.finish pc held).fb = t.fb := rfl
@[simp] theorem Thread.finish_sa (t : Thread) (pc : Word) (held : Option (Nat × Line)) : (t.finish pc held).sa = t.sa := rfl
@[simp] theorem Thread.finish_sb (t : Thread) (pc : Word) (held : Option (Nat × Line)) : (t.finish pc held).sb = t.sb := rfl
@[simp] theorem Thread.finish_kb (t : Thread) (pc : Word) (held : Option (Nat × Line)) : (t.finish pc held).kb = t.kb := rfl
@[simp] theorem Thread.finish_kd (t : Thread) (pc : Word) (held : Option (Nat × Line)) : (t.finish pc held).kd = t.kd := rfl
@[simp] theorem Thread.finish_sm (t : Thread) (pc : Word) (held : Option (Nat × Line)) : (t.finish pc held).sm = t.sm := rfl
@[simp] theorem Thread.finish_w (t : Thread) (pc : Word) (held : Option (Nat × Line)) : (t.finish pc held).w = t.w := rfl
@[simp] theorem Thread.finish_lin (t : Thread) (pc : Word) (held : Option (Nat × Line)) : (t.finish pc held).lin = t.lin := rfl
@[simp] theorem Thread.finish_plin (t : Thread) (pc : Word) (held : Option (Nat × Line)) : (t.finish pc held).plin = t.plin := rfl
@[simp] theorem Thread.finish_kid (t : Thread) (pc : Word) (held : Option (Nat × Line)) : (t.finish pc held).kid = t.kid := rfl
@[simp] theorem Thread.finish_gid (t : Thread) (pc : Word) (held : Option (Nat × Line)) : (t.finish pc held).gid = t.gid := rfl
@[simp] theorem Thread.finish_tidx (t : Thread) (pc : Word) (held : Option (Nat × Line)) : (t.finish pc held).tidx = t.tidx := rfl
@[simp] theorem Thread.finish_cptTime (t : Thread) (pc : Word) (held : Option (Nat × Line)) : (t.finish pc held).cptTime = t.cptTime := rfl
@[simp] theorem Thread.finish_cptPtr (t : Thread) (pc : Word) (held : Option (Nat × Line)) : (t.finish pc held).cptPtr = t.cptPtr := rfl
@[simp] theorem Thread.finish_claim (t : Thread) (pc : Word) (held : Option (Nat × Line)) : (t.finish pc held).claim = t.claim := rfl
@[simp] theorem Thread.finish_v (t : Thread) (pc : Word) (held : Option (Nat × Line)) : (t.finish pc held).v = t.v := rfl
@[simp] theorem Thread.finish_vp (t : Thread) (pc : Word) (held : Option (Nat × Line)) : (t.finish pc held).vp = t.vp := rfl
@[simp] theorem Thread.finish_batch (t : Thread) (pc : Word) (held : Option (Nat × Line)) : (t.finish pc held).batch = t.batch := rfl
@[simp] theorem Thread.finish_st (t : Thread) (pc : Word) (held : Option (Nat × Line)) : (t.finish pc held).st = t.st := rfl
@[simp] theorem Thread.finish_pending (t : Thread) (pc : Word) (held : Option (Nat × Line)) : (t.finish pc held).pending = t.pending := rfl
@[simp] theorem Thread.finish_nextSeq (t : Thread) (pc : Word) (held : Option (Nat × Line)) : (t.finish pc held).nextSeq = t.nextSeq := rfl
@[simp] theorem Thread.finish_beats (t : Thread) (pc : Word) (held : Option (Nat × Line)) : (t.finish pc held).beats = t.beats := rfl
@[simp] theorem Thread.finish_fault (t : Thread) (pc : Word) (held : Option (Nat × Line)) : (t.finish pc held).fault = t.fault := rfl
@[simp] theorem Thread.finish_walk (t : Thread) (pc : Word) (held : Option (Nat × Line)) : (t.finish pc held).walk = t.walk := rfl
@[simp] theorem Thread.finish_fe (t : Thread) (pc : Word) (held : Option (Nat × Line)) : (t.finish pc held).fe = t.fe := rfl
@[simp] theorem Thread.finish_mop (t : Thread) (pc : Word) (held : Option (Nat × Line)) : (t.finish pc held).mop = t.mop := rfl
@[simp] theorem Thread.finish_lent (t : Thread) (pc : Word) (held : Option (Nat × Line)) : (t.finish pc held).lent = t.lent := rfl
@[simp] theorem Thread.finish_depTag (t : Thread) (pc : Word) (held : Option (Nat × Line)) : (t.finish pc held).depTag = t.depTag := rfl
@[simp] theorem Thread.finish_batchTag (t : Thread) (pc : Word) (held : Option (Nat × Line)) : (t.finish pc held).batchTag = t.batchTag := rfl
@[simp] theorem Thread.finish_home (t : Thread) (pc : Word) (held : Option (Nat × Line)) : (t.finish pc held).home = t.home := rfl
@[simp] theorem Thread.finish_hold (t : Thread) (pc : Word) (held : Option (Nat × Line)) : (t.finish pc held).hold = t.hold := rfl
@[simp] theorem Thread.finish_launched (t : Thread) (pc : Word) (held : Option (Nat × Line)) : (t.finish pc held).launched = t.launched := rfl

@[simp] theorem Thread.advance_uid (t : Thread) : (t.advance).uid = t.uid := rfl
@[simp] theorem Thread.advance_ctx (t : Thread) : (t.advance).ctx = t.ctx := rfl
@[simp] theorem Thread.advance_g (t : Thread) : (t.advance).g = t.g := rfl
@[simp] theorem Thread.advance_stat (t : Thread) : (t.advance).stat = t.stat := rfl
@[simp] theorem Thread.advance_tm (t : Thread) : (t.advance).tm = t.tm := rfl
@[simp] theorem Thread.advance_dep (t : Thread) : (t.advance).dep = t.dep := rfl
@[simp] theorem Thread.advance_fa (t : Thread) : (t.advance).fa = t.fa := rfl
@[simp] theorem Thread.advance_fb (t : Thread) : (t.advance).fb = t.fb := rfl
@[simp] theorem Thread.advance_sa (t : Thread) : (t.advance).sa = t.sa := rfl
@[simp] theorem Thread.advance_sb (t : Thread) : (t.advance).sb = t.sb := rfl
@[simp] theorem Thread.advance_kb (t : Thread) : (t.advance).kb = t.kb := rfl
@[simp] theorem Thread.advance_kd (t : Thread) : (t.advance).kd = t.kd := rfl
@[simp] theorem Thread.advance_sm (t : Thread) : (t.advance).sm = t.sm := rfl
@[simp] theorem Thread.advance_w (t : Thread) : (t.advance).w = t.w := rfl
@[simp] theorem Thread.advance_lin (t : Thread) : (t.advance).lin = t.lin := rfl
@[simp] theorem Thread.advance_plin (t : Thread) : (t.advance).plin = t.plin := rfl
@[simp] theorem Thread.advance_kid (t : Thread) : (t.advance).kid = t.kid := rfl
@[simp] theorem Thread.advance_gid (t : Thread) : (t.advance).gid = t.gid := rfl
@[simp] theorem Thread.advance_tidx (t : Thread) : (t.advance).tidx = t.tidx := rfl
@[simp] theorem Thread.advance_cptTime (t : Thread) : (t.advance).cptTime = t.cptTime := rfl
@[simp] theorem Thread.advance_cptPtr (t : Thread) : (t.advance).cptPtr = t.cptPtr := rfl
@[simp] theorem Thread.advance_claim (t : Thread) : (t.advance).claim = t.claim := rfl
@[simp] theorem Thread.advance_v (t : Thread) : (t.advance).v = t.v := rfl
@[simp] theorem Thread.advance_vp (t : Thread) : (t.advance).vp = t.vp := rfl
@[simp] theorem Thread.advance_batch (t : Thread) : (t.advance).batch = t.batch := rfl
@[simp] theorem Thread.advance_st (t : Thread) : (t.advance).st = t.st := rfl
@[simp] theorem Thread.advance_pending (t : Thread) : (t.advance).pending = t.pending := rfl
@[simp] theorem Thread.advance_nextSeq (t : Thread) : (t.advance).nextSeq = t.nextSeq := rfl
@[simp] theorem Thread.advance_beats (t : Thread) : (t.advance).beats = t.beats := rfl
@[simp] theorem Thread.advance_fault (t : Thread) : (t.advance).fault = t.fault := rfl
@[simp] theorem Thread.advance_walk (t : Thread) : (t.advance).walk = t.walk := rfl
@[simp] theorem Thread.advance_fe (t : Thread) : (t.advance).fe = t.fe := rfl
@[simp] theorem Thread.advance_mop (t : Thread) : (t.advance).mop = t.mop := rfl
@[simp] theorem Thread.advance_lent (t : Thread) : (t.advance).lent = t.lent := rfl
@[simp] theorem Thread.advance_depTag (t : Thread) : (t.advance).depTag = t.depTag := rfl
@[simp] theorem Thread.advance_batchTag (t : Thread) : (t.advance).batchTag = t.batchTag := rfl
@[simp] theorem Thread.advance_home (t : Thread) : (t.advance).home = t.home := rfl
@[simp] theorem Thread.advance_hold (t : Thread) : (t.advance).hold = t.hold := rfl
@[simp] theorem Thread.advance_launched (t : Thread) : (t.advance).launched = t.launched := rfl

@[simp] theorem Thread.park_uid (t : Thread) (w : Wait) (now : Nat) (src : Option Sources) : (t.park w now src).uid = t.uid := rfl
@[simp] theorem Thread.park_ctx (t : Thread) (w : Wait) (now : Nat) (src : Option Sources) : (t.park w now src).ctx = t.ctx := rfl
@[simp] theorem Thread.park_pc (t : Thread) (w : Wait) (now : Nat) (src : Option Sources) : (t.park w now src).pc = t.pc := rfl
@[simp] theorem Thread.park_g (t : Thread) (w : Wait) (now : Nat) (src : Option Sources) : (t.park w now src).g = t.g := rfl
@[simp] theorem Thread.park_stat (t : Thread) (w : Wait) (now : Nat) (src : Option Sources) : (t.park w now src).stat = t.stat := rfl
@[simp] theorem Thread.park_tm (t : Thread) (w : Wait) (now : Nat) (src : Option Sources) : (t.park w now src).tm = t.tm := rfl
@[simp] theorem Thread.park_dep (t : Thread) (w : Wait) (now : Nat) (src : Option Sources) : (t.park w now src).dep = t.dep := rfl
@[simp] theorem Thread.park_fa (t : Thread) (w : Wait) (now : Nat) (src : Option Sources) : (t.park w now src).fa = t.fa := rfl
@[simp] theorem Thread.park_fb (t : Thread) (w : Wait) (now : Nat) (src : Option Sources) : (t.park w now src).fb = t.fb := rfl
@[simp] theorem Thread.park_sa (t : Thread) (w : Wait) (now : Nat) (src : Option Sources) : (t.park w now src).sa = t.sa := rfl
@[simp] theorem Thread.park_sb (t : Thread) (w : Wait) (now : Nat) (src : Option Sources) : (t.park w now src).sb = t.sb := rfl
@[simp] theorem Thread.park_kb (t : Thread) (w : Wait) (now : Nat) (src : Option Sources) : (t.park w now src).kb = t.kb := rfl
@[simp] theorem Thread.park_kd (t : Thread) (w : Wait) (now : Nat) (src : Option Sources) : (t.park w now src).kd = t.kd := rfl
@[simp] theorem Thread.park_sm (t : Thread) (w : Wait) (now : Nat) (src : Option Sources) : (t.park w now src).sm = t.sm := rfl
@[simp] theorem Thread.park_w (t : Thread) (w : Wait) (now : Nat) (src : Option Sources) : (t.park w now src).w = t.w := rfl
@[simp] theorem Thread.park_lin (t : Thread) (w : Wait) (now : Nat) (src : Option Sources) : (t.park w now src).lin = t.lin := rfl
@[simp] theorem Thread.park_plin (t : Thread) (w : Wait) (now : Nat) (src : Option Sources) : (t.park w now src).plin = t.plin := rfl
@[simp] theorem Thread.park_kid (t : Thread) (w : Wait) (now : Nat) (src : Option Sources) : (t.park w now src).kid = t.kid := rfl
@[simp] theorem Thread.park_gid (t : Thread) (w : Wait) (now : Nat) (src : Option Sources) : (t.park w now src).gid = t.gid := rfl
@[simp] theorem Thread.park_tidx (t : Thread) (w : Wait) (now : Nat) (src : Option Sources) : (t.park w now src).tidx = t.tidx := rfl
@[simp] theorem Thread.park_cptTime (t : Thread) (w : Wait) (now : Nat) (src : Option Sources) : (t.park w now src).cptTime = t.cptTime := rfl
@[simp] theorem Thread.park_cptPtr (t : Thread) (w : Wait) (now : Nat) (src : Option Sources) : (t.park w now src).cptPtr = t.cptPtr := rfl
@[simp] theorem Thread.park_claim (t : Thread) (w : Wait) (now : Nat) (src : Option Sources) : (t.park w now src).claim = t.claim := rfl
@[simp] theorem Thread.park_v (t : Thread) (w : Wait) (now : Nat) (src : Option Sources) : (t.park w now src).v = t.v := rfl
@[simp] theorem Thread.park_vp (t : Thread) (w : Wait) (now : Nat) (src : Option Sources) : (t.park w now src).vp = t.vp := rfl
@[simp] theorem Thread.park_batch (t : Thread) (w : Wait) (now : Nat) (src : Option Sources) : (t.park w now src).batch = t.batch := rfl
@[simp] theorem Thread.park_pending (t : Thread) (w : Wait) (now : Nat) (src : Option Sources) : (t.park w now src).pending = t.pending := rfl
@[simp] theorem Thread.park_nextSeq (t : Thread) (w : Wait) (now : Nat) (src : Option Sources) : (t.park w now src).nextSeq = t.nextSeq := rfl
@[simp] theorem Thread.park_beats (t : Thread) (w : Wait) (now : Nat) (src : Option Sources) : (t.park w now src).beats = t.beats := rfl
@[simp] theorem Thread.park_held (t : Thread) (w : Wait) (now : Nat) (src : Option Sources) : (t.park w now src).held = t.held := rfl
@[simp] theorem Thread.park_replay (t : Thread) (w : Wait) (now : Nat) (src : Option Sources) : (t.park w now src).replay = t.replay := rfl
@[simp] theorem Thread.park_fault (t : Thread) (w : Wait) (now : Nat) (src : Option Sources) : (t.park w now src).fault = t.fault := rfl
@[simp] theorem Thread.park_faultCount (t : Thread) (w : Wait) (now : Nat) (src : Option Sources) : (t.park w now src).faultCount = t.faultCount := rfl
@[simp] theorem Thread.park_fetchCount (t : Thread) (w : Wait) (now : Nat) (src : Option Sources) : (t.park w now src).fetchCount = t.fetchCount := rfl
@[simp] theorem Thread.park_walk (t : Thread) (w : Wait) (now : Nat) (src : Option Sources) : (t.park w now src).walk = t.walk := rfl
@[simp] theorem Thread.park_fe (t : Thread) (w : Wait) (now : Nat) (src : Option Sources) : (t.park w now src).fe = t.fe := rfl
@[simp] theorem Thread.park_feCount (t : Thread) (w : Wait) (now : Nat) (src : Option Sources) : (t.park w now src).feCount = t.feCount := rfl
@[simp] theorem Thread.park_mop (t : Thread) (w : Wait) (now : Nat) (src : Option Sources) : (t.park w now src).mop = t.mop := rfl
@[simp] theorem Thread.park_lent (t : Thread) (w : Wait) (now : Nat) (src : Option Sources) : (t.park w now src).lent = t.lent := rfl
@[simp] theorem Thread.park_stage (t : Thread) (w : Wait) (now : Nat) (src : Option Sources) : (t.park w now src).stage = t.stage := rfl
@[simp] theorem Thread.park_aux (t : Thread) (w : Wait) (now : Nat) (src : Option Sources) : (t.park w now src).aux = t.aux := rfl
@[simp] theorem Thread.park_granted (t : Thread) (w : Wait) (now : Nat) (src : Option Sources) : (t.park w now src).granted = t.granted := rfl
@[simp] theorem Thread.park_refused (t : Thread) (w : Wait) (now : Nat) (src : Option Sources) : (t.park w now src).refused = t.refused := rfl
@[simp] theorem Thread.park_vdata (t : Thread) (w : Wait) (now : Nat) (src : Option Sources) : (t.park w now src).vdata = t.vdata := rfl
@[simp] theorem Thread.park_taken (t : Thread) (w : Wait) (now : Nat) (src : Option Sources) : (t.park w now src).taken = t.taken := rfl
@[simp] theorem Thread.park_sent (t : Thread) (w : Wait) (now : Nat) (src : Option Sources) : (t.park w now src).sent = t.sent := rfl
@[simp] theorem Thread.park_tag (t : Thread) (w : Wait) (now : Nat) (src : Option Sources) : (t.park w now src).tag = t.tag := rfl
@[simp] theorem Thread.park_depTag (t : Thread) (w : Wait) (now : Nat) (src : Option Sources) : (t.park w now src).depTag = t.depTag := rfl
@[simp] theorem Thread.park_batchTag (t : Thread) (w : Wait) (now : Nat) (src : Option Sources) : (t.park w now src).batchTag = t.batchTag := rfl
@[simp] theorem Thread.park_home (t : Thread) (w : Wait) (now : Nat) (src : Option Sources) : (t.park w now src).home = t.home := rfl
@[simp] theorem Thread.park_hold (t : Thread) (w : Wait) (now : Nat) (src : Option Sources) : (t.park w now src).hold = t.hold := rfl
@[simp] theorem Thread.park_skipBreak (t : Thread) (w : Wait) (now : Nat) (src : Option Sources) : (t.park w now src).skipBreak = t.skipBreak := rfl
@[simp] theorem Thread.park_launched (t : Thread) (w : Wait) (now : Nat) (src : Option Sources) : (t.park w now src).launched = t.launched := rfl

@[simp] theorem Thread.fail_uid (t : Thread) (f : FaultInfo) : (t.fail f).uid = t.uid := rfl
@[simp] theorem Thread.fail_ctx (t : Thread) (f : FaultInfo) : (t.fail f).ctx = t.ctx := rfl
@[simp] theorem Thread.fail_pc (t : Thread) (f : FaultInfo) : (t.fail f).pc = t.pc := rfl
@[simp] theorem Thread.fail_g (t : Thread) (f : FaultInfo) : (t.fail f).g = t.g := rfl
@[simp] theorem Thread.fail_stat (t : Thread) (f : FaultInfo) : (t.fail f).stat = t.stat := rfl
@[simp] theorem Thread.fail_tm (t : Thread) (f : FaultInfo) : (t.fail f).tm = t.tm := rfl
@[simp] theorem Thread.fail_fa (t : Thread) (f : FaultInfo) : (t.fail f).fa = t.fa := rfl
@[simp] theorem Thread.fail_fb (t : Thread) (f : FaultInfo) : (t.fail f).fb = t.fb := rfl
@[simp] theorem Thread.fail_sa (t : Thread) (f : FaultInfo) : (t.fail f).sa = t.sa := rfl
@[simp] theorem Thread.fail_sb (t : Thread) (f : FaultInfo) : (t.fail f).sb = t.sb := rfl
@[simp] theorem Thread.fail_kb (t : Thread) (f : FaultInfo) : (t.fail f).kb = t.kb := rfl
@[simp] theorem Thread.fail_kd (t : Thread) (f : FaultInfo) : (t.fail f).kd = t.kd := rfl
@[simp] theorem Thread.fail_sm (t : Thread) (f : FaultInfo) : (t.fail f).sm = t.sm := rfl
@[simp] theorem Thread.fail_w (t : Thread) (f : FaultInfo) : (t.fail f).w = t.w := rfl
@[simp] theorem Thread.fail_lin (t : Thread) (f : FaultInfo) : (t.fail f).lin = t.lin := rfl
@[simp] theorem Thread.fail_plin (t : Thread) (f : FaultInfo) : (t.fail f).plin = t.plin := rfl
@[simp] theorem Thread.fail_kid (t : Thread) (f : FaultInfo) : (t.fail f).kid = t.kid := rfl
@[simp] theorem Thread.fail_gid (t : Thread) (f : FaultInfo) : (t.fail f).gid = t.gid := rfl
@[simp] theorem Thread.fail_tidx (t : Thread) (f : FaultInfo) : (t.fail f).tidx = t.tidx := rfl
@[simp] theorem Thread.fail_cptTime (t : Thread) (f : FaultInfo) : (t.fail f).cptTime = t.cptTime := rfl
@[simp] theorem Thread.fail_cptPtr (t : Thread) (f : FaultInfo) : (t.fail f).cptPtr = t.cptPtr := rfl
@[simp] theorem Thread.fail_claim (t : Thread) (f : FaultInfo) : (t.fail f).claim = t.claim := rfl
@[simp] theorem Thread.fail_v (t : Thread) (f : FaultInfo) : (t.fail f).v = t.v := rfl
@[simp] theorem Thread.fail_vp (t : Thread) (f : FaultInfo) : (t.fail f).vp = t.vp := rfl
@[simp] theorem Thread.fail_batch (t : Thread) (f : FaultInfo) : (t.fail f).batch = t.batch := rfl
@[simp] theorem Thread.fail_pending (t : Thread) (f : FaultInfo) : (t.fail f).pending = t.pending := rfl
@[simp] theorem Thread.fail_nextSeq (t : Thread) (f : FaultInfo) : (t.fail f).nextSeq = t.nextSeq := rfl
@[simp] theorem Thread.fail_beats (t : Thread) (f : FaultInfo) : (t.fail f).beats = t.beats := rfl
@[simp] theorem Thread.fail_faultCount (t : Thread) (f : FaultInfo) : (t.fail f).faultCount = t.faultCount := rfl
@[simp] theorem Thread.fail_fetchCount (t : Thread) (f : FaultInfo) : (t.fail f).fetchCount = t.fetchCount := rfl
@[simp] theorem Thread.fail_mop (t : Thread) (f : FaultInfo) : (t.fail f).mop = t.mop := rfl
@[simp] theorem Thread.fail_lent (t : Thread) (f : FaultInfo) : (t.fail f).lent = t.lent := rfl
@[simp] theorem Thread.fail_sent (t : Thread) (f : FaultInfo) : (t.fail f).sent = t.sent := rfl
@[simp] theorem Thread.fail_tag (t : Thread) (f : FaultInfo) : (t.fail f).tag = t.tag := rfl
@[simp] theorem Thread.fail_depTag (t : Thread) (f : FaultInfo) : (t.fail f).depTag = t.depTag := rfl
@[simp] theorem Thread.fail_batchTag (t : Thread) (f : FaultInfo) : (t.fail f).batchTag = t.batchTag := rfl
@[simp] theorem Thread.fail_home (t : Thread) (f : FaultInfo) : (t.fail f).home = t.home := rfl
@[simp] theorem Thread.fail_hold (t : Thread) (f : FaultInfo) : (t.fail f).hold = t.hold := rfl
@[simp] theorem Thread.fail_skipBreak (t : Thread) (f : FaultInfo) : (t.fail f).skipBreak = t.skipBreak := rfl
@[simp] theorem Thread.fail_launched (t : Thread) (f : FaultInfo) : (t.fail f).launched = t.launched := rfl

@[simp] theorem Thread.pend_uid (t : Thread) (d : ResultDst) (vals : List (Nat × Word)) (n : Nat) (dep : Option (Fin 8)) (bank : Option Nat) : (t.pend d vals n dep bank).uid = t.uid := rfl
@[simp] theorem Thread.pend_ctx (t : Thread) (d : ResultDst) (vals : List (Nat × Word)) (n : Nat) (dep : Option (Fin 8)) (bank : Option Nat) : (t.pend d vals n dep bank).ctx = t.ctx := rfl
@[simp] theorem Thread.pend_pc (t : Thread) (d : ResultDst) (vals : List (Nat × Word)) (n : Nat) (dep : Option (Fin 8)) (bank : Option Nat) : (t.pend d vals n dep bank).pc = t.pc := rfl
@[simp] theorem Thread.pend_g (t : Thread) (d : ResultDst) (vals : List (Nat × Word)) (n : Nat) (dep : Option (Fin 8)) (bank : Option Nat) : (t.pend d vals n dep bank).g = t.g := rfl
@[simp] theorem Thread.pend_stat (t : Thread) (d : ResultDst) (vals : List (Nat × Word)) (n : Nat) (dep : Option (Fin 8)) (bank : Option Nat) : (t.pend d vals n dep bank).stat = t.stat := rfl
@[simp] theorem Thread.pend_tm (t : Thread) (d : ResultDst) (vals : List (Nat × Word)) (n : Nat) (dep : Option (Fin 8)) (bank : Option Nat) : (t.pend d vals n dep bank).tm = t.tm := rfl
@[simp] theorem Thread.pend_dep (t : Thread) (d : ResultDst) (vals : List (Nat × Word)) (n : Nat) (dep : Option (Fin 8)) (bank : Option Nat) : (t.pend d vals n dep bank).dep = t.dep := rfl
@[simp] theorem Thread.pend_fa (t : Thread) (d : ResultDst) (vals : List (Nat × Word)) (n : Nat) (dep : Option (Fin 8)) (bank : Option Nat) : (t.pend d vals n dep bank).fa = t.fa := rfl
@[simp] theorem Thread.pend_fb (t : Thread) (d : ResultDst) (vals : List (Nat × Word)) (n : Nat) (dep : Option (Fin 8)) (bank : Option Nat) : (t.pend d vals n dep bank).fb = t.fb := rfl
@[simp] theorem Thread.pend_sa (t : Thread) (d : ResultDst) (vals : List (Nat × Word)) (n : Nat) (dep : Option (Fin 8)) (bank : Option Nat) : (t.pend d vals n dep bank).sa = t.sa := rfl
@[simp] theorem Thread.pend_sb (t : Thread) (d : ResultDst) (vals : List (Nat × Word)) (n : Nat) (dep : Option (Fin 8)) (bank : Option Nat) : (t.pend d vals n dep bank).sb = t.sb := rfl
@[simp] theorem Thread.pend_kb (t : Thread) (d : ResultDst) (vals : List (Nat × Word)) (n : Nat) (dep : Option (Fin 8)) (bank : Option Nat) : (t.pend d vals n dep bank).kb = t.kb := rfl
@[simp] theorem Thread.pend_kd (t : Thread) (d : ResultDst) (vals : List (Nat × Word)) (n : Nat) (dep : Option (Fin 8)) (bank : Option Nat) : (t.pend d vals n dep bank).kd = t.kd := rfl
@[simp] theorem Thread.pend_sm (t : Thread) (d : ResultDst) (vals : List (Nat × Word)) (n : Nat) (dep : Option (Fin 8)) (bank : Option Nat) : (t.pend d vals n dep bank).sm = t.sm := rfl
@[simp] theorem Thread.pend_w (t : Thread) (d : ResultDst) (vals : List (Nat × Word)) (n : Nat) (dep : Option (Fin 8)) (bank : Option Nat) : (t.pend d vals n dep bank).w = t.w := rfl
@[simp] theorem Thread.pend_lin (t : Thread) (d : ResultDst) (vals : List (Nat × Word)) (n : Nat) (dep : Option (Fin 8)) (bank : Option Nat) : (t.pend d vals n dep bank).lin = t.lin := rfl
@[simp] theorem Thread.pend_plin (t : Thread) (d : ResultDst) (vals : List (Nat × Word)) (n : Nat) (dep : Option (Fin 8)) (bank : Option Nat) : (t.pend d vals n dep bank).plin = t.plin := rfl
@[simp] theorem Thread.pend_kid (t : Thread) (d : ResultDst) (vals : List (Nat × Word)) (n : Nat) (dep : Option (Fin 8)) (bank : Option Nat) : (t.pend d vals n dep bank).kid = t.kid := rfl
@[simp] theorem Thread.pend_gid (t : Thread) (d : ResultDst) (vals : List (Nat × Word)) (n : Nat) (dep : Option (Fin 8)) (bank : Option Nat) : (t.pend d vals n dep bank).gid = t.gid := rfl
@[simp] theorem Thread.pend_tidx (t : Thread) (d : ResultDst) (vals : List (Nat × Word)) (n : Nat) (dep : Option (Fin 8)) (bank : Option Nat) : (t.pend d vals n dep bank).tidx = t.tidx := rfl
@[simp] theorem Thread.pend_cptTime (t : Thread) (d : ResultDst) (vals : List (Nat × Word)) (n : Nat) (dep : Option (Fin 8)) (bank : Option Nat) : (t.pend d vals n dep bank).cptTime = t.cptTime := rfl
@[simp] theorem Thread.pend_cptPtr (t : Thread) (d : ResultDst) (vals : List (Nat × Word)) (n : Nat) (dep : Option (Fin 8)) (bank : Option Nat) : (t.pend d vals n dep bank).cptPtr = t.cptPtr := rfl
@[simp] theorem Thread.pend_claim (t : Thread) (d : ResultDst) (vals : List (Nat × Word)) (n : Nat) (dep : Option (Fin 8)) (bank : Option Nat) : (t.pend d vals n dep bank).claim = t.claim := rfl
@[simp] theorem Thread.pend_v (t : Thread) (d : ResultDst) (vals : List (Nat × Word)) (n : Nat) (dep : Option (Fin 8)) (bank : Option Nat) : (t.pend d vals n dep bank).v = t.v := rfl
@[simp] theorem Thread.pend_vp (t : Thread) (d : ResultDst) (vals : List (Nat × Word)) (n : Nat) (dep : Option (Fin 8)) (bank : Option Nat) : (t.pend d vals n dep bank).vp = t.vp := rfl
@[simp] theorem Thread.pend_batch (t : Thread) (d : ResultDst) (vals : List (Nat × Word)) (n : Nat) (dep : Option (Fin 8)) (bank : Option Nat) : (t.pend d vals n dep bank).batch = t.batch := rfl
@[simp] theorem Thread.pend_st (t : Thread) (d : ResultDst) (vals : List (Nat × Word)) (n : Nat) (dep : Option (Fin 8)) (bank : Option Nat) : (t.pend d vals n dep bank).st = t.st := rfl
@[simp] theorem Thread.pend_beats (t : Thread) (d : ResultDst) (vals : List (Nat × Word)) (n : Nat) (dep : Option (Fin 8)) (bank : Option Nat) : (t.pend d vals n dep bank).beats = t.beats := rfl
@[simp] theorem Thread.pend_held (t : Thread) (d : ResultDst) (vals : List (Nat × Word)) (n : Nat) (dep : Option (Fin 8)) (bank : Option Nat) : (t.pend d vals n dep bank).held = t.held := rfl
@[simp] theorem Thread.pend_replay (t : Thread) (d : ResultDst) (vals : List (Nat × Word)) (n : Nat) (dep : Option (Fin 8)) (bank : Option Nat) : (t.pend d vals n dep bank).replay = t.replay := rfl
@[simp] theorem Thread.pend_fault (t : Thread) (d : ResultDst) (vals : List (Nat × Word)) (n : Nat) (dep : Option (Fin 8)) (bank : Option Nat) : (t.pend d vals n dep bank).fault = t.fault := rfl
@[simp] theorem Thread.pend_faultCount (t : Thread) (d : ResultDst) (vals : List (Nat × Word)) (n : Nat) (dep : Option (Fin 8)) (bank : Option Nat) : (t.pend d vals n dep bank).faultCount = t.faultCount := rfl
@[simp] theorem Thread.pend_fetchCount (t : Thread) (d : ResultDst) (vals : List (Nat × Word)) (n : Nat) (dep : Option (Fin 8)) (bank : Option Nat) : (t.pend d vals n dep bank).fetchCount = t.fetchCount := rfl
@[simp] theorem Thread.pend_walk (t : Thread) (d : ResultDst) (vals : List (Nat × Word)) (n : Nat) (dep : Option (Fin 8)) (bank : Option Nat) : (t.pend d vals n dep bank).walk = t.walk := rfl
@[simp] theorem Thread.pend_fe (t : Thread) (d : ResultDst) (vals : List (Nat × Word)) (n : Nat) (dep : Option (Fin 8)) (bank : Option Nat) : (t.pend d vals n dep bank).fe = t.fe := rfl
@[simp] theorem Thread.pend_feCount (t : Thread) (d : ResultDst) (vals : List (Nat × Word)) (n : Nat) (dep : Option (Fin 8)) (bank : Option Nat) : (t.pend d vals n dep bank).feCount = t.feCount := rfl
@[simp] theorem Thread.pend_mop (t : Thread) (d : ResultDst) (vals : List (Nat × Word)) (n : Nat) (dep : Option (Fin 8)) (bank : Option Nat) : (t.pend d vals n dep bank).mop = t.mop := rfl
@[simp] theorem Thread.pend_lent (t : Thread) (d : ResultDst) (vals : List (Nat × Word)) (n : Nat) (dep : Option (Fin 8)) (bank : Option Nat) : (t.pend d vals n dep bank).lent = t.lent := rfl
@[simp] theorem Thread.pend_stage (t : Thread) (d : ResultDst) (vals : List (Nat × Word)) (n : Nat) (dep : Option (Fin 8)) (bank : Option Nat) : (t.pend d vals n dep bank).stage = t.stage := rfl
@[simp] theorem Thread.pend_aux (t : Thread) (d : ResultDst) (vals : List (Nat × Word)) (n : Nat) (dep : Option (Fin 8)) (bank : Option Nat) : (t.pend d vals n dep bank).aux = t.aux := rfl
@[simp] theorem Thread.pend_granted (t : Thread) (d : ResultDst) (vals : List (Nat × Word)) (n : Nat) (dep : Option (Fin 8)) (bank : Option Nat) : (t.pend d vals n dep bank).granted = t.granted := rfl
@[simp] theorem Thread.pend_refused (t : Thread) (d : ResultDst) (vals : List (Nat × Word)) (n : Nat) (dep : Option (Fin 8)) (bank : Option Nat) : (t.pend d vals n dep bank).refused = t.refused := rfl
@[simp] theorem Thread.pend_latched (t : Thread) (d : ResultDst) (vals : List (Nat × Word)) (n : Nat) (dep : Option (Fin 8)) (bank : Option Nat) : (t.pend d vals n dep bank).latched = t.latched := rfl
@[simp] theorem Thread.pend_vdata (t : Thread) (d : ResultDst) (vals : List (Nat × Word)) (n : Nat) (dep : Option (Fin 8)) (bank : Option Nat) : (t.pend d vals n dep bank).vdata = t.vdata := rfl
@[simp] theorem Thread.pend_blocked (t : Thread) (d : ResultDst) (vals : List (Nat × Word)) (n : Nat) (dep : Option (Fin 8)) (bank : Option Nat) : (t.pend d vals n dep bank).blocked = t.blocked := rfl
@[simp] theorem Thread.pend_taken (t : Thread) (d : ResultDst) (vals : List (Nat × Word)) (n : Nat) (dep : Option (Fin 8)) (bank : Option Nat) : (t.pend d vals n dep bank).taken = t.taken := rfl
@[simp] theorem Thread.pend_sent (t : Thread) (d : ResultDst) (vals : List (Nat × Word)) (n : Nat) (dep : Option (Fin 8)) (bank : Option Nat) : (t.pend d vals n dep bank).sent = t.sent := rfl
@[simp] theorem Thread.pend_tag (t : Thread) (d : ResultDst) (vals : List (Nat × Word)) (n : Nat) (dep : Option (Fin 8)) (bank : Option Nat) : (t.pend d vals n dep bank).tag = t.tag := rfl
@[simp] theorem Thread.pend_depTag (t : Thread) (d : ResultDst) (vals : List (Nat × Word)) (n : Nat) (dep : Option (Fin 8)) (bank : Option Nat) : (t.pend d vals n dep bank).depTag = t.depTag := rfl
@[simp] theorem Thread.pend_batchTag (t : Thread) (d : ResultDst) (vals : List (Nat × Word)) (n : Nat) (dep : Option (Fin 8)) (bank : Option Nat) : (t.pend d vals n dep bank).batchTag = t.batchTag := rfl
@[simp] theorem Thread.pend_home (t : Thread) (d : ResultDst) (vals : List (Nat × Word)) (n : Nat) (dep : Option (Fin 8)) (bank : Option Nat) : (t.pend d vals n dep bank).home = t.home := rfl
@[simp] theorem Thread.pend_hold (t : Thread) (d : ResultDst) (vals : List (Nat × Word)) (n : Nat) (dep : Option (Fin 8)) (bank : Option Nat) : (t.pend d vals n dep bank).hold = t.hold := rfl
@[simp] theorem Thread.pend_skipBreak (t : Thread) (d : ResultDst) (vals : List (Nat × Word)) (n : Nat) (dep : Option (Fin 8)) (bank : Option Nat) : (t.pend d vals n dep bank).skipBreak = t.skipBreak := rfl
@[simp] theorem Thread.pend_launched (t : Thread) (d : ResultDst) (vals : List (Nat × Word)) (n : Nat) (dep : Option (Fin 8)) (bank : Option Nat) : (t.pend d vals n dep bank).launched = t.launched := rfl

@[simp] theorem Thread.reclaim_uid (t : Thread) (req : Nat) (new : List Nat) : (t.reclaim req new).uid = t.uid := rfl
@[simp] theorem Thread.reclaim_ctx (t : Thread) (req : Nat) (new : List Nat) : (t.reclaim req new).ctx = t.ctx := rfl
@[simp] theorem Thread.reclaim_pc (t : Thread) (req : Nat) (new : List Nat) : (t.reclaim req new).pc = t.pc := rfl
@[simp] theorem Thread.reclaim_g (t : Thread) (req : Nat) (new : List Nat) : (t.reclaim req new).g = t.g := rfl
@[simp] theorem Thread.reclaim_stat (t : Thread) (req : Nat) (new : List Nat) : (t.reclaim req new).stat = t.stat := rfl
@[simp] theorem Thread.reclaim_tm (t : Thread) (req : Nat) (new : List Nat) : (t.reclaim req new).tm = t.tm := rfl
@[simp] theorem Thread.reclaim_dep (t : Thread) (req : Nat) (new : List Nat) : (t.reclaim req new).dep = t.dep := rfl
@[simp] theorem Thread.reclaim_fa (t : Thread) (req : Nat) (new : List Nat) : (t.reclaim req new).fa = t.fa := rfl
@[simp] theorem Thread.reclaim_fb (t : Thread) (req : Nat) (new : List Nat) : (t.reclaim req new).fb = t.fb := rfl
@[simp] theorem Thread.reclaim_sa (t : Thread) (req : Nat) (new : List Nat) : (t.reclaim req new).sa = t.sa := rfl
@[simp] theorem Thread.reclaim_sb (t : Thread) (req : Nat) (new : List Nat) : (t.reclaim req new).sb = t.sb := rfl
@[simp] theorem Thread.reclaim_kb (t : Thread) (req : Nat) (new : List Nat) : (t.reclaim req new).kb = t.kb := rfl
@[simp] theorem Thread.reclaim_kd (t : Thread) (req : Nat) (new : List Nat) : (t.reclaim req new).kd = t.kd := rfl
@[simp] theorem Thread.reclaim_sm (t : Thread) (req : Nat) (new : List Nat) : (t.reclaim req new).sm = t.sm := rfl
@[simp] theorem Thread.reclaim_w (t : Thread) (req : Nat) (new : List Nat) : (t.reclaim req new).w = t.w := rfl
@[simp] theorem Thread.reclaim_lin (t : Thread) (req : Nat) (new : List Nat) : (t.reclaim req new).lin = t.lin := rfl
@[simp] theorem Thread.reclaim_plin (t : Thread) (req : Nat) (new : List Nat) : (t.reclaim req new).plin = t.plin := rfl
@[simp] theorem Thread.reclaim_kid (t : Thread) (req : Nat) (new : List Nat) : (t.reclaim req new).kid = t.kid := rfl
@[simp] theorem Thread.reclaim_gid (t : Thread) (req : Nat) (new : List Nat) : (t.reclaim req new).gid = t.gid := rfl
@[simp] theorem Thread.reclaim_tidx (t : Thread) (req : Nat) (new : List Nat) : (t.reclaim req new).tidx = t.tidx := rfl
@[simp] theorem Thread.reclaim_cptTime (t : Thread) (req : Nat) (new : List Nat) : (t.reclaim req new).cptTime = t.cptTime := rfl
@[simp] theorem Thread.reclaim_cptPtr (t : Thread) (req : Nat) (new : List Nat) : (t.reclaim req new).cptPtr = t.cptPtr := rfl
@[simp] theorem Thread.reclaim_batch (t : Thread) (req : Nat) (new : List Nat) : (t.reclaim req new).batch = t.batch := rfl
@[simp] theorem Thread.reclaim_st (t : Thread) (req : Nat) (new : List Nat) : (t.reclaim req new).st = t.st := rfl
@[simp] theorem Thread.reclaim_pending (t : Thread) (req : Nat) (new : List Nat) : (t.reclaim req new).pending = t.pending := rfl
@[simp] theorem Thread.reclaim_nextSeq (t : Thread) (req : Nat) (new : List Nat) : (t.reclaim req new).nextSeq = t.nextSeq := rfl
@[simp] theorem Thread.reclaim_beats (t : Thread) (req : Nat) (new : List Nat) : (t.reclaim req new).beats = t.beats := rfl
@[simp] theorem Thread.reclaim_held (t : Thread) (req : Nat) (new : List Nat) : (t.reclaim req new).held = t.held := rfl
@[simp] theorem Thread.reclaim_replay (t : Thread) (req : Nat) (new : List Nat) : (t.reclaim req new).replay = t.replay := rfl
@[simp] theorem Thread.reclaim_fault (t : Thread) (req : Nat) (new : List Nat) : (t.reclaim req new).fault = t.fault := rfl
@[simp] theorem Thread.reclaim_faultCount (t : Thread) (req : Nat) (new : List Nat) : (t.reclaim req new).faultCount = t.faultCount := rfl
@[simp] theorem Thread.reclaim_fetchCount (t : Thread) (req : Nat) (new : List Nat) : (t.reclaim req new).fetchCount = t.fetchCount := rfl
@[simp] theorem Thread.reclaim_walk (t : Thread) (req : Nat) (new : List Nat) : (t.reclaim req new).walk = t.walk := rfl
@[simp] theorem Thread.reclaim_fe (t : Thread) (req : Nat) (new : List Nat) : (t.reclaim req new).fe = t.fe := rfl
@[simp] theorem Thread.reclaim_feCount (t : Thread) (req : Nat) (new : List Nat) : (t.reclaim req new).feCount = t.feCount := rfl
@[simp] theorem Thread.reclaim_mop (t : Thread) (req : Nat) (new : List Nat) : (t.reclaim req new).mop = t.mop := rfl
@[simp] theorem Thread.reclaim_lent (t : Thread) (req : Nat) (new : List Nat) : (t.reclaim req new).lent = t.lent := rfl
@[simp] theorem Thread.reclaim_stage (t : Thread) (req : Nat) (new : List Nat) : (t.reclaim req new).stage = t.stage := rfl
@[simp] theorem Thread.reclaim_aux (t : Thread) (req : Nat) (new : List Nat) : (t.reclaim req new).aux = t.aux := rfl
@[simp] theorem Thread.reclaim_granted (t : Thread) (req : Nat) (new : List Nat) : (t.reclaim req new).granted = t.granted := rfl
@[simp] theorem Thread.reclaim_refused (t : Thread) (req : Nat) (new : List Nat) : (t.reclaim req new).refused = t.refused := rfl
@[simp] theorem Thread.reclaim_latched (t : Thread) (req : Nat) (new : List Nat) : (t.reclaim req new).latched = t.latched := rfl
@[simp] theorem Thread.reclaim_vdata (t : Thread) (req : Nat) (new : List Nat) : (t.reclaim req new).vdata = t.vdata := rfl
@[simp] theorem Thread.reclaim_blocked (t : Thread) (req : Nat) (new : List Nat) : (t.reclaim req new).blocked = t.blocked := rfl
@[simp] theorem Thread.reclaim_taken (t : Thread) (req : Nat) (new : List Nat) : (t.reclaim req new).taken = t.taken := rfl
@[simp] theorem Thread.reclaim_sent (t : Thread) (req : Nat) (new : List Nat) : (t.reclaim req new).sent = t.sent := rfl
@[simp] theorem Thread.reclaim_tag (t : Thread) (req : Nat) (new : List Nat) : (t.reclaim req new).tag = t.tag := rfl
@[simp] theorem Thread.reclaim_depTag (t : Thread) (req : Nat) (new : List Nat) : (t.reclaim req new).depTag = t.depTag := rfl
@[simp] theorem Thread.reclaim_batchTag (t : Thread) (req : Nat) (new : List Nat) : (t.reclaim req new).batchTag = t.batchTag := rfl
@[simp] theorem Thread.reclaim_home (t : Thread) (req : Nat) (new : List Nat) : (t.reclaim req new).home = t.home := rfl
@[simp] theorem Thread.reclaim_hold (t : Thread) (req : Nat) (new : List Nat) : (t.reclaim req new).hold = t.hold := rfl
@[simp] theorem Thread.reclaim_skipBreak (t : Thread) (req : Nat) (new : List Nat) : (t.reclaim req new).skipBreak = t.skipBreak := rfl
@[simp] theorem Thread.reclaim_launched (t : Thread) (req : Nat) (new : List Nat) : (t.reclaim req new).launched = t.launched := rfl

@[simp] theorem Thread.present_uid (t : Thread) : (t.present).uid = t.uid := rfl
@[simp] theorem Thread.present_ctx (t : Thread) : (t.present).ctx = t.ctx := rfl
@[simp] theorem Thread.present_pc (t : Thread) : (t.present).pc = t.pc := rfl
@[simp] theorem Thread.present_g (t : Thread) : (t.present).g = t.g := rfl
@[simp] theorem Thread.present_tm (t : Thread) : (t.present).tm = t.tm := rfl
@[simp] theorem Thread.present_dep (t : Thread) : (t.present).dep = t.dep := rfl
@[simp] theorem Thread.present_fa (t : Thread) : (t.present).fa = t.fa := rfl
@[simp] theorem Thread.present_fb (t : Thread) : (t.present).fb = t.fb := rfl
@[simp] theorem Thread.present_sa (t : Thread) : (t.present).sa = t.sa := rfl
@[simp] theorem Thread.present_sb (t : Thread) : (t.present).sb = t.sb := rfl
@[simp] theorem Thread.present_kb (t : Thread) : (t.present).kb = t.kb := rfl
@[simp] theorem Thread.present_kd (t : Thread) : (t.present).kd = t.kd := rfl
@[simp] theorem Thread.present_sm (t : Thread) : (t.present).sm = t.sm := rfl
@[simp] theorem Thread.present_w (t : Thread) : (t.present).w = t.w := rfl
@[simp] theorem Thread.present_lin (t : Thread) : (t.present).lin = t.lin := rfl
@[simp] theorem Thread.present_plin (t : Thread) : (t.present).plin = t.plin := rfl
@[simp] theorem Thread.present_kid (t : Thread) : (t.present).kid = t.kid := rfl
@[simp] theorem Thread.present_gid (t : Thread) : (t.present).gid = t.gid := rfl
@[simp] theorem Thread.present_tidx (t : Thread) : (t.present).tidx = t.tidx := rfl
@[simp] theorem Thread.present_cptTime (t : Thread) : (t.present).cptTime = t.cptTime := rfl
@[simp] theorem Thread.present_cptPtr (t : Thread) : (t.present).cptPtr = t.cptPtr := rfl
@[simp] theorem Thread.present_claim (t : Thread) : (t.present).claim = t.claim := rfl
@[simp] theorem Thread.present_v (t : Thread) : (t.present).v = t.v := rfl
@[simp] theorem Thread.present_vp (t : Thread) : (t.present).vp = t.vp := rfl
@[simp] theorem Thread.present_batch (t : Thread) : (t.present).batch = t.batch := rfl
@[simp] theorem Thread.present_st (t : Thread) : (t.present).st = t.st := rfl
@[simp] theorem Thread.present_pending (t : Thread) : (t.present).pending = t.pending := rfl
@[simp] theorem Thread.present_nextSeq (t : Thread) : (t.present).nextSeq = t.nextSeq := rfl
@[simp] theorem Thread.present_beats (t : Thread) : (t.present).beats = t.beats := rfl
@[simp] theorem Thread.present_held (t : Thread) : (t.present).held = t.held := rfl
@[simp] theorem Thread.present_replay (t : Thread) : (t.present).replay = t.replay := rfl
@[simp] theorem Thread.present_fault (t : Thread) : (t.present).fault = t.fault := rfl
@[simp] theorem Thread.present_faultCount (t : Thread) : (t.present).faultCount = t.faultCount := rfl
@[simp] theorem Thread.present_fetchCount (t : Thread) : (t.present).fetchCount = t.fetchCount := rfl
@[simp] theorem Thread.present_walk (t : Thread) : (t.present).walk = t.walk := rfl
@[simp] theorem Thread.present_fe (t : Thread) : (t.present).fe = t.fe := rfl
@[simp] theorem Thread.present_feCount (t : Thread) : (t.present).feCount = t.feCount := rfl
@[simp] theorem Thread.present_mop (t : Thread) : (t.present).mop = t.mop := rfl
@[simp] theorem Thread.present_lent (t : Thread) : (t.present).lent = t.lent := rfl
@[simp] theorem Thread.present_stage (t : Thread) : (t.present).stage = t.stage := rfl
@[simp] theorem Thread.present_aux (t : Thread) : (t.present).aux = t.aux := rfl
@[simp] theorem Thread.present_granted (t : Thread) : (t.present).granted = t.granted := rfl
@[simp] theorem Thread.present_refused (t : Thread) : (t.present).refused = t.refused := rfl
@[simp] theorem Thread.present_latched (t : Thread) : (t.present).latched = t.latched := rfl
@[simp] theorem Thread.present_vdata (t : Thread) : (t.present).vdata = t.vdata := rfl
@[simp] theorem Thread.present_blocked (t : Thread) : (t.present).blocked = t.blocked := rfl
@[simp] theorem Thread.present_taken (t : Thread) : (t.present).taken = t.taken := rfl
@[simp] theorem Thread.present_sent (t : Thread) : (t.present).sent = t.sent := rfl
@[simp] theorem Thread.present_tag (t : Thread) : (t.present).tag = t.tag := rfl
@[simp] theorem Thread.present_depTag (t : Thread) : (t.present).depTag = t.depTag := rfl
@[simp] theorem Thread.present_batchTag (t : Thread) : (t.present).batchTag = t.batchTag := rfl
@[simp] theorem Thread.present_home (t : Thread) : (t.present).home = t.home := rfl
@[simp] theorem Thread.present_hold (t : Thread) : (t.present).hold = t.hold := rfl
@[simp] theorem Thread.present_skipBreak (t : Thread) : (t.present).skipBreak = t.skipBreak := rfl
@[simp] theorem Thread.present_launched (t : Thread) : (t.present).launched = t.launched := rfl

@[simp] theorem Thread.vput_uid (t : Thread) (ws : List (Nat × List (Nat × BitVec 32))) : (t.vput ws).uid = t.uid := rfl
@[simp] theorem Thread.vput_ctx (t : Thread) (ws : List (Nat × List (Nat × BitVec 32))) : (t.vput ws).ctx = t.ctx := rfl
@[simp] theorem Thread.vput_pc (t : Thread) (ws : List (Nat × List (Nat × BitVec 32))) : (t.vput ws).pc = t.pc := rfl
@[simp] theorem Thread.vput_g (t : Thread) (ws : List (Nat × List (Nat × BitVec 32))) : (t.vput ws).g = t.g := rfl
@[simp] theorem Thread.vput_stat (t : Thread) (ws : List (Nat × List (Nat × BitVec 32))) : (t.vput ws).stat = t.stat := rfl
@[simp] theorem Thread.vput_tm (t : Thread) (ws : List (Nat × List (Nat × BitVec 32))) : (t.vput ws).tm = t.tm := rfl
@[simp] theorem Thread.vput_dep (t : Thread) (ws : List (Nat × List (Nat × BitVec 32))) : (t.vput ws).dep = t.dep := rfl
@[simp] theorem Thread.vput_fa (t : Thread) (ws : List (Nat × List (Nat × BitVec 32))) : (t.vput ws).fa = t.fa := rfl
@[simp] theorem Thread.vput_fb (t : Thread) (ws : List (Nat × List (Nat × BitVec 32))) : (t.vput ws).fb = t.fb := rfl
@[simp] theorem Thread.vput_sa (t : Thread) (ws : List (Nat × List (Nat × BitVec 32))) : (t.vput ws).sa = t.sa := rfl
@[simp] theorem Thread.vput_sb (t : Thread) (ws : List (Nat × List (Nat × BitVec 32))) : (t.vput ws).sb = t.sb := rfl
@[simp] theorem Thread.vput_kb (t : Thread) (ws : List (Nat × List (Nat × BitVec 32))) : (t.vput ws).kb = t.kb := rfl
@[simp] theorem Thread.vput_kd (t : Thread) (ws : List (Nat × List (Nat × BitVec 32))) : (t.vput ws).kd = t.kd := rfl
@[simp] theorem Thread.vput_sm (t : Thread) (ws : List (Nat × List (Nat × BitVec 32))) : (t.vput ws).sm = t.sm := rfl
@[simp] theorem Thread.vput_w (t : Thread) (ws : List (Nat × List (Nat × BitVec 32))) : (t.vput ws).w = t.w := rfl
@[simp] theorem Thread.vput_lin (t : Thread) (ws : List (Nat × List (Nat × BitVec 32))) : (t.vput ws).lin = t.lin := rfl
@[simp] theorem Thread.vput_plin (t : Thread) (ws : List (Nat × List (Nat × BitVec 32))) : (t.vput ws).plin = t.plin := rfl
@[simp] theorem Thread.vput_kid (t : Thread) (ws : List (Nat × List (Nat × BitVec 32))) : (t.vput ws).kid = t.kid := rfl
@[simp] theorem Thread.vput_gid (t : Thread) (ws : List (Nat × List (Nat × BitVec 32))) : (t.vput ws).gid = t.gid := rfl
@[simp] theorem Thread.vput_tidx (t : Thread) (ws : List (Nat × List (Nat × BitVec 32))) : (t.vput ws).tidx = t.tidx := rfl
@[simp] theorem Thread.vput_cptTime (t : Thread) (ws : List (Nat × List (Nat × BitVec 32))) : (t.vput ws).cptTime = t.cptTime := rfl
@[simp] theorem Thread.vput_cptPtr (t : Thread) (ws : List (Nat × List (Nat × BitVec 32))) : (t.vput ws).cptPtr = t.cptPtr := rfl
@[simp] theorem Thread.vput_claim (t : Thread) (ws : List (Nat × List (Nat × BitVec 32))) : (t.vput ws).claim = t.claim := rfl
@[simp] theorem Thread.vput_vp (t : Thread) (ws : List (Nat × List (Nat × BitVec 32))) : (t.vput ws).vp = t.vp := rfl
@[simp] theorem Thread.vput_batch (t : Thread) (ws : List (Nat × List (Nat × BitVec 32))) : (t.vput ws).batch = t.batch := rfl
@[simp] theorem Thread.vput_st (t : Thread) (ws : List (Nat × List (Nat × BitVec 32))) : (t.vput ws).st = t.st := rfl
@[simp] theorem Thread.vput_pending (t : Thread) (ws : List (Nat × List (Nat × BitVec 32))) : (t.vput ws).pending = t.pending := rfl
@[simp] theorem Thread.vput_nextSeq (t : Thread) (ws : List (Nat × List (Nat × BitVec 32))) : (t.vput ws).nextSeq = t.nextSeq := rfl
@[simp] theorem Thread.vput_beats (t : Thread) (ws : List (Nat × List (Nat × BitVec 32))) : (t.vput ws).beats = t.beats := rfl
@[simp] theorem Thread.vput_held (t : Thread) (ws : List (Nat × List (Nat × BitVec 32))) : (t.vput ws).held = t.held := rfl
@[simp] theorem Thread.vput_replay (t : Thread) (ws : List (Nat × List (Nat × BitVec 32))) : (t.vput ws).replay = t.replay := rfl
@[simp] theorem Thread.vput_fault (t : Thread) (ws : List (Nat × List (Nat × BitVec 32))) : (t.vput ws).fault = t.fault := rfl
@[simp] theorem Thread.vput_faultCount (t : Thread) (ws : List (Nat × List (Nat × BitVec 32))) : (t.vput ws).faultCount = t.faultCount := rfl
@[simp] theorem Thread.vput_fetchCount (t : Thread) (ws : List (Nat × List (Nat × BitVec 32))) : (t.vput ws).fetchCount = t.fetchCount := rfl
@[simp] theorem Thread.vput_walk (t : Thread) (ws : List (Nat × List (Nat × BitVec 32))) : (t.vput ws).walk = t.walk := rfl
@[simp] theorem Thread.vput_fe (t : Thread) (ws : List (Nat × List (Nat × BitVec 32))) : (t.vput ws).fe = t.fe := rfl
@[simp] theorem Thread.vput_feCount (t : Thread) (ws : List (Nat × List (Nat × BitVec 32))) : (t.vput ws).feCount = t.feCount := rfl
@[simp] theorem Thread.vput_mop (t : Thread) (ws : List (Nat × List (Nat × BitVec 32))) : (t.vput ws).mop = t.mop := rfl
@[simp] theorem Thread.vput_lent (t : Thread) (ws : List (Nat × List (Nat × BitVec 32))) : (t.vput ws).lent = t.lent := rfl
@[simp] theorem Thread.vput_stage (t : Thread) (ws : List (Nat × List (Nat × BitVec 32))) : (t.vput ws).stage = t.stage := rfl
@[simp] theorem Thread.vput_aux (t : Thread) (ws : List (Nat × List (Nat × BitVec 32))) : (t.vput ws).aux = t.aux := rfl
@[simp] theorem Thread.vput_granted (t : Thread) (ws : List (Nat × List (Nat × BitVec 32))) : (t.vput ws).granted = t.granted := rfl
@[simp] theorem Thread.vput_refused (t : Thread) (ws : List (Nat × List (Nat × BitVec 32))) : (t.vput ws).refused = t.refused := rfl
@[simp] theorem Thread.vput_latched (t : Thread) (ws : List (Nat × List (Nat × BitVec 32))) : (t.vput ws).latched = t.latched := rfl
@[simp] theorem Thread.vput_vdata (t : Thread) (ws : List (Nat × List (Nat × BitVec 32))) : (t.vput ws).vdata = t.vdata := rfl
@[simp] theorem Thread.vput_blocked (t : Thread) (ws : List (Nat × List (Nat × BitVec 32))) : (t.vput ws).blocked = t.blocked := rfl
@[simp] theorem Thread.vput_taken (t : Thread) (ws : List (Nat × List (Nat × BitVec 32))) : (t.vput ws).taken = t.taken := rfl
@[simp] theorem Thread.vput_sent (t : Thread) (ws : List (Nat × List (Nat × BitVec 32))) : (t.vput ws).sent = t.sent := rfl
@[simp] theorem Thread.vput_tag (t : Thread) (ws : List (Nat × List (Nat × BitVec 32))) : (t.vput ws).tag = t.tag := rfl
@[simp] theorem Thread.vput_depTag (t : Thread) (ws : List (Nat × List (Nat × BitVec 32))) : (t.vput ws).depTag = t.depTag := rfl
@[simp] theorem Thread.vput_batchTag (t : Thread) (ws : List (Nat × List (Nat × BitVec 32))) : (t.vput ws).batchTag = t.batchTag := rfl
@[simp] theorem Thread.vput_home (t : Thread) (ws : List (Nat × List (Nat × BitVec 32))) : (t.vput ws).home = t.home := rfl
@[simp] theorem Thread.vput_hold (t : Thread) (ws : List (Nat × List (Nat × BitVec 32))) : (t.vput ws).hold = t.hold := rfl
@[simp] theorem Thread.vput_skipBreak (t : Thread) (ws : List (Nat × List (Nat × BitVec 32))) : (t.vput ws).skipBreak = t.skipBreak := rfl
@[simp] theorem Thread.vput_launched (t : Thread) (ws : List (Nat × List (Nat × BitVec 32))) : (t.vput ws).launched = t.launched := rfl

@[simp] theorem Thread.homeClaim_uid (t : Thread) (c : Nat) (i : Fin 16) : (t.homeClaim c i).uid = t.uid := rfl
@[simp] theorem Thread.homeClaim_ctx (t : Thread) (c : Nat) (i : Fin 16) : (t.homeClaim c i).ctx = t.ctx := rfl
@[simp] theorem Thread.homeClaim_pc (t : Thread) (c : Nat) (i : Fin 16) : (t.homeClaim c i).pc = t.pc := rfl
@[simp] theorem Thread.homeClaim_g (t : Thread) (c : Nat) (i : Fin 16) : (t.homeClaim c i).g = t.g := rfl
@[simp] theorem Thread.homeClaim_tm (t : Thread) (c : Nat) (i : Fin 16) : (t.homeClaim c i).tm = t.tm := rfl
@[simp] theorem Thread.homeClaim_dep (t : Thread) (c : Nat) (i : Fin 16) : (t.homeClaim c i).dep = t.dep := rfl
@[simp] theorem Thread.homeClaim_fa (t : Thread) (c : Nat) (i : Fin 16) : (t.homeClaim c i).fa = t.fa := rfl
@[simp] theorem Thread.homeClaim_fb (t : Thread) (c : Nat) (i : Fin 16) : (t.homeClaim c i).fb = t.fb := rfl
@[simp] theorem Thread.homeClaim_sa (t : Thread) (c : Nat) (i : Fin 16) : (t.homeClaim c i).sa = t.sa := rfl
@[simp] theorem Thread.homeClaim_sb (t : Thread) (c : Nat) (i : Fin 16) : (t.homeClaim c i).sb = t.sb := rfl
@[simp] theorem Thread.homeClaim_kb (t : Thread) (c : Nat) (i : Fin 16) : (t.homeClaim c i).kb = t.kb := rfl
@[simp] theorem Thread.homeClaim_kd (t : Thread) (c : Nat) (i : Fin 16) : (t.homeClaim c i).kd = t.kd := rfl
@[simp] theorem Thread.homeClaim_sm (t : Thread) (c : Nat) (i : Fin 16) : (t.homeClaim c i).sm = t.sm := rfl
@[simp] theorem Thread.homeClaim_w (t : Thread) (c : Nat) (i : Fin 16) : (t.homeClaim c i).w = t.w := rfl
@[simp] theorem Thread.homeClaim_lin (t : Thread) (c : Nat) (i : Fin 16) : (t.homeClaim c i).lin = t.lin := rfl
@[simp] theorem Thread.homeClaim_plin (t : Thread) (c : Nat) (i : Fin 16) : (t.homeClaim c i).plin = t.plin := rfl
@[simp] theorem Thread.homeClaim_kid (t : Thread) (c : Nat) (i : Fin 16) : (t.homeClaim c i).kid = t.kid := rfl
@[simp] theorem Thread.homeClaim_gid (t : Thread) (c : Nat) (i : Fin 16) : (t.homeClaim c i).gid = t.gid := rfl
@[simp] theorem Thread.homeClaim_tidx (t : Thread) (c : Nat) (i : Fin 16) : (t.homeClaim c i).tidx = t.tidx := rfl
@[simp] theorem Thread.homeClaim_cptTime (t : Thread) (c : Nat) (i : Fin 16) : (t.homeClaim c i).cptTime = t.cptTime := rfl
@[simp] theorem Thread.homeClaim_cptPtr (t : Thread) (c : Nat) (i : Fin 16) : (t.homeClaim c i).cptPtr = t.cptPtr := rfl
@[simp] theorem Thread.homeClaim_batch (t : Thread) (c : Nat) (i : Fin 16) : (t.homeClaim c i).batch = t.batch := rfl
@[simp] theorem Thread.homeClaim_st (t : Thread) (c : Nat) (i : Fin 16) : (t.homeClaim c i).st = t.st := rfl
@[simp] theorem Thread.homeClaim_pending (t : Thread) (c : Nat) (i : Fin 16) : (t.homeClaim c i).pending = t.pending := rfl
@[simp] theorem Thread.homeClaim_nextSeq (t : Thread) (c : Nat) (i : Fin 16) : (t.homeClaim c i).nextSeq = t.nextSeq := rfl
@[simp] theorem Thread.homeClaim_beats (t : Thread) (c : Nat) (i : Fin 16) : (t.homeClaim c i).beats = t.beats := rfl
@[simp] theorem Thread.homeClaim_held (t : Thread) (c : Nat) (i : Fin 16) : (t.homeClaim c i).held = t.held := rfl
@[simp] theorem Thread.homeClaim_replay (t : Thread) (c : Nat) (i : Fin 16) : (t.homeClaim c i).replay = t.replay := rfl
@[simp] theorem Thread.homeClaim_fault (t : Thread) (c : Nat) (i : Fin 16) : (t.homeClaim c i).fault = t.fault := rfl
@[simp] theorem Thread.homeClaim_faultCount (t : Thread) (c : Nat) (i : Fin 16) : (t.homeClaim c i).faultCount = t.faultCount := rfl
@[simp] theorem Thread.homeClaim_fetchCount (t : Thread) (c : Nat) (i : Fin 16) : (t.homeClaim c i).fetchCount = t.fetchCount := rfl
@[simp] theorem Thread.homeClaim_walk (t : Thread) (c : Nat) (i : Fin 16) : (t.homeClaim c i).walk = t.walk := rfl
@[simp] theorem Thread.homeClaim_fe (t : Thread) (c : Nat) (i : Fin 16) : (t.homeClaim c i).fe = t.fe := rfl
@[simp] theorem Thread.homeClaim_feCount (t : Thread) (c : Nat) (i : Fin 16) : (t.homeClaim c i).feCount = t.feCount := rfl
@[simp] theorem Thread.homeClaim_mop (t : Thread) (c : Nat) (i : Fin 16) : (t.homeClaim c i).mop = t.mop := rfl
@[simp] theorem Thread.homeClaim_lent (t : Thread) (c : Nat) (i : Fin 16) : (t.homeClaim c i).lent = t.lent := rfl
@[simp] theorem Thread.homeClaim_stage (t : Thread) (c : Nat) (i : Fin 16) : (t.homeClaim c i).stage = t.stage := rfl
@[simp] theorem Thread.homeClaim_aux (t : Thread) (c : Nat) (i : Fin 16) : (t.homeClaim c i).aux = t.aux := rfl
@[simp] theorem Thread.homeClaim_granted (t : Thread) (c : Nat) (i : Fin 16) : (t.homeClaim c i).granted = t.granted := rfl
@[simp] theorem Thread.homeClaim_refused (t : Thread) (c : Nat) (i : Fin 16) : (t.homeClaim c i).refused = t.refused := rfl
@[simp] theorem Thread.homeClaim_latched (t : Thread) (c : Nat) (i : Fin 16) : (t.homeClaim c i).latched = t.latched := rfl
@[simp] theorem Thread.homeClaim_vdata (t : Thread) (c : Nat) (i : Fin 16) : (t.homeClaim c i).vdata = t.vdata := rfl
@[simp] theorem Thread.homeClaim_blocked (t : Thread) (c : Nat) (i : Fin 16) : (t.homeClaim c i).blocked = t.blocked := rfl
@[simp] theorem Thread.homeClaim_taken (t : Thread) (c : Nat) (i : Fin 16) : (t.homeClaim c i).taken = t.taken := rfl
@[simp] theorem Thread.homeClaim_sent (t : Thread) (c : Nat) (i : Fin 16) : (t.homeClaim c i).sent = t.sent := rfl
@[simp] theorem Thread.homeClaim_tag (t : Thread) (c : Nat) (i : Fin 16) : (t.homeClaim c i).tag = t.tag := rfl
@[simp] theorem Thread.homeClaim_depTag (t : Thread) (c : Nat) (i : Fin 16) : (t.homeClaim c i).depTag = t.depTag := rfl
@[simp] theorem Thread.homeClaim_batchTag (t : Thread) (c : Nat) (i : Fin 16) : (t.homeClaim c i).batchTag = t.batchTag := rfl
@[simp] theorem Thread.homeClaim_home (t : Thread) (c : Nat) (i : Fin 16) : (t.homeClaim c i).home = t.home := rfl
@[simp] theorem Thread.homeClaim_hold (t : Thread) (c : Nat) (i : Fin 16) : (t.homeClaim c i).hold = t.hold := rfl
@[simp] theorem Thread.homeClaim_skipBreak (t : Thread) (c : Nat) (i : Fin 16) : (t.homeClaim c i).skipBreak = t.skipBreak := rfl
@[simp] theorem Thread.homeClaim_launched (t : Thread) (c : Nat) (i : Fin 16) : (t.homeClaim c i).launched = t.launched := rfl

@[simp] theorem Thread.finish_pc (t : Thread) (pc : Word) (h : Option (Nat × Line)) : (t.finish pc h).pc = pc := rfl
@[simp] theorem Thread.advance_pc (t : Thread) : t.advance.pc = nextPc t.pc t.lineCount := rfl
@[simp] theorem Thread.advance_stage (t : Thread) : t.advance.stage = 0 := rfl
@[simp] theorem Thread.fail_st (t : Thread) (f : FaultInfo) : (t.fail f).st = .faulted := rfl
@[simp] theorem Thread.fail_fault (t : Thread) (f : FaultInfo) : (t.fail f).fault = some f := rfl
@[simp] theorem Thread.park_st (t : Thread) (w : Wait) (n : Nat) (src : Option Sources) : (t.park w n src).st = .parked w := rfl
@[simp] theorem Thread.pend_pending (t : Thread) (d : ResultDst) (vals : List (Nat × Word)) (n : Nat) (dep : Option (Fin 8))
    (bank : Option Nat) : (t.pend d vals n dep bank).pending = t.pending ++ [⟨t.nextSeq, d, vals, n, dep, bank⟩] := rfl

end Sys2Proof.Machine
end

