-- ==== Sys2Proof/Laws/Ops.lean ====
section
/-! SUPPORT. What the shared operations do, said once: issuing, waits, writing a register and going on, parking, traps. -/

namespace Sys2Proof.Machine

/-! ### Issue -/

/-- An instruction issued for a slot that holds a thread answers its next state. -/
theorem issue_next {s : State} (h : s.thread.isSome = true) (t : State) : issue s t = .next t := by simp [issue, h]
/-- An instruction whose meaning issues a state that meets `P` completes with `P`. -/
theorem completes_of_issue {i : Instr} {s t : State} {P : State → Prop} (h : s.thread.isSome = true)
    (he : exec i s = issue s t) (hp : P t) : Completes i s P := ⟨t, by rw [he, issue_next h], hp⟩

/-- A state's issuing thread, found. -/
theorem State.thread_eq_th {s : State} (h : s.thread.isSome = true) : s.thread = some s.th := by
  cases e : s.thread with
  | none => simp [e] at h
  | some t => simp [State.th, e]

/-! ### Waits -/

/-- A wait that is resolved lets the instruction go on. -/
theorem State.await_resolved {s : State} {w : Wait} (k : State → State) (h : s.resolved s.cur s.th w = true) :
    s.await w k = k s := by simp [State.await, h]
/-- A wait that is not resolved parks the thread. -/
theorem State.await_parked {s : State} {w : Wait} (k : State → State) (h : s.resolved s.cur s.th w = false) :
    s.await w k = s.park w := by simp [State.await, h]

/-! ### Registers -/

/-- A register field is its bank bit and its number. -/
theorem field_ext : ∀ a b : Field, a.getLsbD 4 = b.getLsbD 4 → a.extractLsb' 0 4 = b.extractLsb' 0 4 → a = b := by decide
/-- The fields that discard a write. -/
theorem discards_iff : ∀ d : Field, discards d = (d.getLsbD 4 && (d.extractLsb' 0 4 == 14 || d.extractLsb' 0 4 == 15)) := by
  decide

/-- Reading a file after a shared register was written. -/
theorem Sources.reg_shared (src : Sources) (c : Nat) (d f : Field) (v : Word) (hd : d.getLsbD 4 = true)
    (hk : discards d = false) :
    Sources.reg { src with shared := src.shared.set (d.extractLsb' 0 4).toNat v (d.extractLsb' 0 4).isLt } c f =
      if f = d then v else src.reg c f := by
  unfold Sources.reg
  cases hf : f.getLsbD 4 with
  | false => simp only [Bool.false_eq_true, if_false]; rw [if_neg]; rintro rfl; rw [hd] at hf; cases hf
  | true =>
    simp only [if_true]
    by_cases e : f = d
    · subst e
      rw [discards_iff, hf] at hk
      simp only [Bool.true_and, Bool.or_eq_false_iff, beq_eq_false_iff_ne] at hk
      rw [if_neg hk.1, if_neg hk.2, if_pos rfl]; simp
    · have hne : (d.extractLsb' 0 4).toNat ≠ (f.extractLsb' 0 4).toNat := fun x =>
        e (field_ext f d (by rw [hf, hd]) (BitVec.eq_of_toNat_eq x.symm))
      rw [if_neg e]; congr 2
      exact Vector.getElem_set_ne _ _ hne
/-- Reading a file after a private register was written. -/
theorem Sources.reg_private (src : Sources) (c : Nat) (d f : Field) (v : Word) (hd : d.getLsbD 4 = false) :
    Sources.reg { src with g := src.g.set (d.extractLsb' 0 4).toNat v (d.extractLsb' 0 4).isLt } c f =
      if f = d then v else src.reg c f := by
  unfold Sources.reg
  cases hf : f.getLsbD 4 with
  | true => simp only [if_true]; rw [if_neg (c := f = d)]; rintro rfl; rw [hd] at hf; cases hf
  | false =>
    simp only [Bool.false_eq_true, if_false]
    by_cases e : f = d
    · subst e; simp
    · have hne : (d.extractLsb' 0 4).toNat ≠ (f.extractLsb' 0 4).toNat := fun x =>
        e (field_ext f d (by rw [hf, hd]) (BitVec.eq_of_toNat_eq x.symm))
      rw [if_neg e]
      exact Vector.getElem_set_ne _ _ hne

/-- What writing a destination field leaves: a thread whose registers alone differ, and a core whose shared registers alone do. -/
theorem State.setReg_cases (s : State) (d : Field) (v : Word) (h : s.thread.isSome = true) :
    (discards d = true ∧ s.setReg d v = s) ∨
    (discards d = false ∧ d.getLsbD 4 = true ∧ s.setReg d v = s.setCore s.cur { s.core s.cur with
      shared := (s.core s.cur).shared.set (d.extractLsb' 0 4).toNat v (d.extractLsb' 0 4).isLt }) ∨
    (discards d = false ∧ d.getLsbD 4 = false ∧
      s.setReg d v = s.setTh { s.th with g := s.th.g.set (d.extractLsb' 0 4).toNat v (d.extractLsb' 0 4).isLt }) := by
  have hth : s.threadAt s.cur s.slot = some s.th := State.thread_eq_th h
  unfold State.setReg State.putReg
  rw [discards_iff]
  cases h4 : d.getLsbD 4 with
  | false => right; right; simp [hth, State.setTh]
  | true =>
    by_cases hz : d.extractLsb' 0 4 = 14 ∨ d.extractLsb' 0 4 = 15
    · left; simp only [if_true, hz, and_true]; rcases hz with e | e <;> simp [e]
    · right; left; simp only [if_true, hz, if_false, and_true]
      simp only [not_or] at hz
      rw [beq_eq_false_iff_ne.mpr hz.1, beq_eq_false_iff_ne.mpr hz.2]; rfl

/-! ### Ends -/

theorem OnlyThread.refl (s : State) : OnlyThread s s := ⟨rfl, fun _ _ => rfl, rfl, fun _ _ => rfl⟩

/-- A core put in the place of the issuing one, differing in its slots and shared registers, changes them alone. -/
theorem OnlyThread.setCore {s t : State} (h : OnlyThread s t) (sl : Vector (Option Thread) 16) (v : Vector Word 16)
    (hs : ∀ i : Fin 16, i ≠ s.slot → sl[i] = (t.core s.cur).slots[i]) :
    OnlyThread s (t.setCore s.cur { t.core s.cur with slots := sl, shared := v }) := by
  refine ⟨?_, fun c hne => ?_, ?_, fun i hi => ?_⟩
  · exact congrArg (fun q : State => { q with cores := (t.setCore s.cur { t.core s.cur with slots := sl, shared := v }).cores }) h.rest
  · rw [← h.others c hne]; exact State.core_setCore_ne _ _ hne
  · rw [State.core_setCore_self]
    exact congrArg (fun k : CoreState => { k with slots := sl, shared := v }) h.core
  · rw [← h.slots i hi, State.threadAt, State.core_setCore_self]
    exact hs i hi

/-- A thread put in the issuing slot changes that slot alone. -/
theorem OnlyThread.setTh {s t : State} (h : OnlyThread s t) (u : Thread) : OnlyThread s (t.setTh u) := by
  have hc : t.cur = s.cur := by rw [h.rest]
  have hs : t.slot = s.slot := by rw [h.rest]
  have := h.setCore ((t.core s.cur).slots.set s.slot (some u)) (t.core s.cur).shared (fun i hi => by
    have : s.slot.val ≠ i.val := fun e => hi (Fin.ext e.symm)
    simp [Fin.getElem_fin, this])
  unfold State.setTh State.setSlot
  rw [hc, hs]; exact this

/-- A write of a destination field of the issuing thread. -/
theorem OnlyThread.setReg {s t : State} (h : OnlyThread s t) (hs : t.thread.isSome = true) (d : Field) (v : Word) :
    OnlyThread s (t.setReg d v) := by
  have hc : t.cur = s.cur := by rw [h.rest]
  rcases State.setReg_cases t d v hs with ⟨_, e⟩ | ⟨_, _, e⟩ | ⟨_, _, e⟩ <;> rw [e]
  · exact h
  · rw [hc]; exact h.setCore _ _ (fun _ _ => rfl)
  · exact h.setTh _

@[simp] theorem State.isSome_setTh (s : State) (u : Thread) : (s.setTh u).thread.isSome = true := by simp

/-- The issuing thread after a write of a destination field: its registers alone may differ. -/
theorem State.thread_setReg (s : State) (d : Field) (v : Word) (h : s.thread.isSome = true) :
    ∃ g, (s.setReg d v).thread = some { s.th with g := g } := by
  have hth := State.thread_eq_th h
  rcases State.setReg_cases s d v h with ⟨_, e⟩ | ⟨_, _, e⟩ | ⟨_, _, e⟩ <;> rw [e]
  · exact ⟨s.th.g, hth⟩
  · refine ⟨s.th.g, ?_⟩
    rw [← hth]; simp [State.thread, State.threadAt]
  · exact ⟨_, State.thread_setTh _ _⟩

/-- The register files after a write, where the thread is replaced by one with the same registers. -/
theorem State.file_setTh (s : State) (u : Thread) (f : Field) :
    (s.setTh u).file f = Sources.reg ⟨u.g, (s.core s.cur).shared⟩ s.cur f := by
  simp [State.file, State.setTh, State.setSlot, State.th, State.thread, State.threadAt]
theorem State.file_setTh_same (s : State) (u : Thread) (h : u.g = s.th.g) (f : Field) : (s.setTh u).file f = s.file f := by
  rw [State.file_setTh, h]; rfl

theorem State.file_setShared (s : State) (v : Vector Word 16) (f : Field) :
    (s.setCore s.cur { s.core s.cur with shared := v }).file f = Sources.reg ⟨s.th.g, v⟩ s.cur f := by
  simp [State.file, State.th, State.thread, State.threadAt]

/-- Reading the register files after a write of a destination field. -/
theorem State.file_setReg (s : State) (d f : Field) (v : Word) (h : s.thread.isSome = true) :
    (s.setReg d v).file f = written s d v f := by
  rcases State.setReg_cases s d v h with ⟨k, e⟩ | ⟨k, b, e⟩ | ⟨k, b, e⟩ <;> rw [e, written, k]
  · simp
  · simp only [and_true]
    rw [State.file_setShared]
    exact Sources.reg_shared ⟨s.th.g, (s.core s.cur).shared⟩ s.cur d f v b k
  · simp only [and_true]
    rw [State.file_setTh]
    exact Sources.reg_private ⟨s.th.g, (s.core s.cur).shared⟩ s.cur d f v b

theorem Thread.kept_refl (u : Thread) : u.Kept u := rfl
theorem Thread.kept_finish {u w : Thread} (h : u.Kept w) (pc : Word) (held : Option (Nat × Line)) : u.Kept (w.finish pc held) := by
  unfold Thread.Kept at *
  exact congrArg (fun q : Thread => q.finish pc held) h

/-- THE end of an instruction: a state that differs in the issuing thread and one destination, and whose PC is then moved. -/
theorem ended_of {s q : State} {u w : Thread} {d : Field} {v : Word} (pc : Word) (held : Option (Nat × Line))
    (ho : OnlyThread s q) (ht : q.thread = some w) (hk : u.Kept w) (hf : ∀ f, q.file f = written s d v f) :
    Ended s u d v pc (q.setTh (q.th.finish pc held)) := by
  have e := State.th_of_thread ht
  refine ⟨⟨_, State.thread_setTh _ _, ?_, rfl, rfl⟩, fun f => ?_, ho.setTh _⟩
  · rw [e]; exact Thread.kept_finish hk pc held
  · rw [State.file_setTh_same q (q.th.finish pc held) rfl, hf]

/-- The issuing thread as `u`, then one destination written. -/
theorem ended_finish (s : State) (u : Thread) (d : Field) (v pc : Word) (held : Option (Nat × Line)) (hg : u.g = s.th.g) :
    Ended s u d v pc (((s.setTh u).setReg d v).setTh (((s.setTh u).setReg d v).th.finish pc held)) := by
  have h1 : (s.setTh u).thread.isSome = true := State.isSome_setTh s u
  obtain ⟨g, e⟩ := State.thread_setReg (s.setTh u) d v h1
  rw [State.th_setTh] at e
  refine ended_of pc held (((OnlyThread.refl s).setTh u).setReg h1 d v) e rfl (fun f => ?_)
  rw [State.file_setReg _ _ _ _ h1]
  unfold written
  rw [State.file_setTh_same _ _ hg]

/-- One destination written for the issuing thread as it stands. -/
theorem ended_reg (s : State) (d : Field) (v pc : Word) (held : Option (Nat × Line)) (h : s.thread.isSome = true) :
    Ended s s.th d v pc ((s.setReg d v).setTh ((s.setReg d v).th.finish pc held)) := by
  obtain ⟨g, e⟩ := State.thread_setReg s d v h
  exact ended_of pc held ((OnlyThread.refl s).setReg h d v) e rfl (fun f => State.file_setReg s d f v h)

theorem th_setReg_pc (s : State) (d : Field) (v : Word) (h : s.thread.isSome = true) :
    (s.setReg d v).th.pc = s.th.pc ∧ (s.setReg d v).th.lineCount = s.th.lineCount := by
  obtain ⟨g, e⟩ := State.thread_setReg s d v h
  rw [State.th_of_thread e]; exact ⟨rfl, rfl⟩

/-- THE end of an instruction that goes on to the next one. -/
theorem ended_advance (s : State) (u : Thread) (d : Field) (v : Word) (hg : u.g = s.th.g) :
    Ended s u d v (nextPc u.pc u.lineCount) ((s.setTh u).setReg d v).advance := by
  have h := th_setReg_pc (s.setTh u) d v (State.isSome_setTh s u)
  rw [State.th_setTh] at h
  unfold State.advance Thread.advance
  rw [h.1, h.2]
  exact ended_finish s u d v _ _ hg
/-- The same without a destination. -/
theorem passed_advance (s : State) (u : Thread) (hg : u.g = s.th.g) :
    Passed s u (nextPc u.pc u.lineCount) (s.setTh u).advance := ended_advance s u 0x1F 0 hg
/-- One destination written, on to the next instruction. -/
theorem ended_setReg (s : State) (d : Field) (v : Word) (h : s.thread.isSome = true) :
    Ended s s.th d v s.nextPc (s.setReg d v).advance := by
  have e := th_setReg_pc s d v h
  unfold State.advance Thread.advance State.nextPc
  rw [← e.1, ← e.2]
  exact ended_reg s d v _ _ h
/-- A thread set as it is. -/
theorem ended_congr {s s' : State} {u : Thread} {d : Field} {v pc : Word} {t t' : State} (h : Ended s u d v pc t) (hs : s = s')
    (ht : t = t') : Ended s' u d v pc t' := hs ▸ ht ▸ h

/-- A thread put in the issuing slot that is `u` but for the PC and what belongs to the instruction in progress. -/
theorem passed_setTh (s : State) {u w : Thread} (hk : u.Kept w) (hg : w.g = s.th.g) (h0 : w.stage = 0) :
    Passed s u w.pc (s.setTh w) := by
  refine ⟨⟨w, State.thread_setTh _ _, hk, rfl, h0⟩, fun f => ?_, (OnlyThread.refl s).setTh w⟩
  rw [State.file_setTh_same s w hg]; simp [written, discards]
/-- The issuing thread goes on with nothing else changed. -/
theorem passed_self (s : State) : Passed s s.th s.nextPc s.advance :=
  passed_setTh s (u := s.th) (w := s.th.advance) (Thread.kept_finish s.th.kept_refl _ _) rfl rfl
/-- The same after a change outside the thread. -/
theorem passed_base {s b : State} (ht : b.th = s.th) : Passed b s.th s.nextPc b.advance := by
  have h := passed_self b
  unfold State.nextPc at *
  rw [ht] at h; exact h

/-! ### Traps -/

/-- THE operation that takes a trap: what it leaves. -/
theorem trapped_takeTrap {s : State} (h : s.thread.isSome = true) (f : FaultInfo) :
    Trapped s f.kind f.ea (s.takeTrap s.cur s.slot f) := by
  have hth : s.threadAt s.cur s.slot = some s.th := State.thread_eq_th h
  have e : s.takeTrap s.cur s.slot f = s.setTh (s.th.fail f) := by simp [State.takeTrap, hth, State.setTh]
  rw [e]
  refine ⟨⟨s.th, s.th.fail f, f, hth, State.thread_setTh _ _, rfl, rfl, rfl, rfl, rfl, rfl, rfl, rfl, rfl⟩, fun g => ?_,
    (OnlyThread.refl s).setTh _⟩
  exact State.file_setTh_same s (s.th.fail f) rfl g
theorem trapped_trap {s : State} (h : s.thread.isSome = true) (k : Nat) : Trapped s k 0 (s.trap k) :=
  trapped_takeTrap h { kind := k }
theorem trapped_trapAt {s : State} (h : s.thread.isSome = true) (k : Nat) (ea : Word) (a : Nat) : Trapped s k ea (s.trapAt k ea a) :=
  trapped_takeTrap h { kind := k, ea := ea, access := a }

theorem mapPut_mapPut {α : Type} (l : List (Nat × α)) (a : Nat) (x y : α) : mapPut (mapPut l a x) a y = mapPut l a y := by
  induction l with
  | nil => simp [mapPut]
  | cons p r ih =>
    obtain ⟨k, w⟩ := p
    by_cases h : a < k
    · simp [mapPut, h]
    · by_cases e : k = a
      · simp [mapPut, e]
      · simp [mapPut, h, e, ih]

end Sys2Proof.Machine
end

