-- ==== Sys2Proof/Laws/PerInstr.lean ====
section
/-! SUPPORT. Per instruction: the fields that the decoder reads from an instruction's own encoding are its operands. -/

namespace Sys2Proof.Laws

/-! ### The fields of the tail formats (R54) -/

@[simp] theorem packT2_d (d a b : BitVec 5) : (packT2 d a b).extractLsb' 11 5 = d :=
  (BitVec.extractLsb'_append_eq_of_le (w := 1) (start := 11) (len := 5) (by decide)).trans ((BitVec.extractLsb'_append_eq_of_le (w := 5) (start := 10) (len := 5) (by decide)).trans ((BitVec.extractLsb'_append_eq_of_le (w := 5) (start := 5) (len := 5) (by decide)).trans ((BitVec.extractLsb'_append_eq_of_add_le (w := 5) (start := 0) (len := 5) (by decide)).trans (BitVec.extractLsb'_eq_self))))
@[simp] theorem packT2_a (d a b : BitVec 5) : (packT2 d a b).extractLsb' 6 5 = a :=
  (BitVec.extractLsb'_append_eq_of_le (w := 1) (start := 6) (len := 5) (by decide)).trans ((BitVec.extractLsb'_append_eq_of_le (w := 5) (start := 5) (len := 5) (by decide)).trans ((BitVec.extractLsb'_append_eq_of_add_le (w := 5) (start := 0) (len := 5) (by decide)).trans (BitVec.extractLsb'_eq_self)))
@[simp] theorem packT2_b (d a b : BitVec 5) : (packT2 d a b).extractLsb' 1 5 = b :=
  (BitVec.extractLsb'_append_eq_of_le (w := 1) (start := 1) (len := 5) (by decide)).trans ((BitVec.extractLsb'_append_eq_of_add_le (w := 5) (start := 0) (len := 5) (by decide)).trans (BitVec.extractLsb'_eq_self))
@[simp] theorem packTI_d (d a : BitVec 5) (imm : BitVec 22) : (packTI d a imm).extractLsb' 27 5 = d :=
  (BitVec.extractLsb'_append_eq_of_le (w := 22) (start := 27) (len := 5) (by decide)).trans ((BitVec.extractLsb'_append_eq_of_le (w := 5) (start := 5) (len := 5) (by decide)).trans ((BitVec.extractLsb'_append_eq_of_add_le (w := 5) (start := 0) (len := 5) (by decide)).trans (BitVec.extractLsb'_eq_self)))
@[simp] theorem packTI_a (d a : BitVec 5) (imm : BitVec 22) : (packTI d a imm).extractLsb' 22 5 = a :=
  (BitVec.extractLsb'_append_eq_of_le (w := 22) (start := 22) (len := 5) (by decide)).trans ((BitVec.extractLsb'_append_eq_of_add_le (w := 5) (start := 0) (len := 5) (by decide)).trans (BitVec.extractLsb'_eq_self))
@[simp] theorem packTI_imm (d a : BitVec 5) (imm : BitVec 22) : (packTI d a imm).extractLsb' 0 22 = imm :=
  (BitVec.extractLsb'_append_eq_of_add_le (w := 22) (start := 0) (len := 22) (by decide)).trans (BitVec.extractLsb'_eq_self)
@[simp] theorem packTR_d (d a b : BitVec 5) (imm : BitVec 17) : (packTR d a b imm).extractLsb' 27 5 = d :=
  (BitVec.extractLsb'_append_eq_of_le (w := 17) (start := 27) (len := 5) (by decide)).trans ((BitVec.extractLsb'_append_eq_of_le (w := 5) (start := 10) (len := 5) (by decide)).trans ((BitVec.extractLsb'_append_eq_of_le (w := 5) (start := 5) (len := 5) (by decide)).trans ((BitVec.extractLsb'_append_eq_of_add_le (w := 5) (start := 0) (len := 5) (by decide)).trans (BitVec.extractLsb'_eq_self))))
@[simp] theorem packTR_a (d a b : BitVec 5) (imm : BitVec 17) : (packTR d a b imm).extractLsb' 22 5 = a :=
  (BitVec.extractLsb'_append_eq_of_le (w := 17) (start := 22) (len := 5) (by decide)).trans ((BitVec.extractLsb'_append_eq_of_le (w := 5) (start := 5) (len := 5) (by decide)).trans ((BitVec.extractLsb'_append_eq_of_add_le (w := 5) (start := 0) (len := 5) (by decide)).trans (BitVec.extractLsb'_eq_self)))
@[simp] theorem packTR_b (d a b : BitVec 5) (imm : BitVec 17) : (packTR d a b imm).extractLsb' 17 5 = b :=
  (BitVec.extractLsb'_append_eq_of_le (w := 17) (start := 17) (len := 5) (by decide)).trans ((BitVec.extractLsb'_append_eq_of_add_le (w := 5) (start := 0) (len := 5) (by decide)).trans (BitVec.extractLsb'_eq_self))
@[simp] theorem packTR_imm (d a b : BitVec 5) (imm : BitVec 17) : (packTR d a b imm).extractLsb' 0 17 = imm :=
  (BitVec.extractLsb'_append_eq_of_add_le (w := 17) (start := 0) (len := 17) (by decide)).trans (BitVec.extractLsb'_eq_self)
@[simp] theorem packTY_d (d a b aux : BitVec 5) (sync : BitVec 12) : (packTY d a b aux sync).extractLsb' 27 5 = d :=
  (BitVec.extractLsb'_append_eq_of_le (w := 12) (start := 27) (len := 5) (by decide)).trans ((BitVec.extractLsb'_append_eq_of_le (w := 5) (start := 15) (len := 5) (by decide)).trans ((BitVec.extractLsb'_append_eq_of_le (w := 5) (start := 10) (len := 5) (by decide)).trans ((BitVec.extractLsb'_append_eq_of_le (w := 5) (start := 5) (len := 5) (by decide)).trans ((BitVec.extractLsb'_append_eq_of_add_le (w := 5) (start := 0) (len := 5) (by decide)).trans (BitVec.extractLsb'_eq_self)))))
@[simp] theorem packTY_a (d a b aux : BitVec 5) (sync : BitVec 12) : (packTY d a b aux sync).extractLsb' 22 5 = a :=
  (BitVec.extractLsb'_append_eq_of_le (w := 12) (start := 22) (len := 5) (by decide)).trans ((BitVec.extractLsb'_append_eq_of_le (w := 5) (start := 10) (len := 5) (by decide)).trans ((BitVec.extractLsb'_append_eq_of_le (w := 5) (start := 5) (len := 5) (by decide)).trans ((BitVec.extractLsb'_append_eq_of_add_le (w := 5) (start := 0) (len := 5) (by decide)).trans (BitVec.extractLsb'_eq_self))))
@[simp] theorem packTY_b (d a b aux : BitVec 5) (sync : BitVec 12) : (packTY d a b aux sync).extractLsb' 17 5 = b :=
  (BitVec.extractLsb'_append_eq_of_le (w := 12) (start := 17) (len := 5) (by decide)).trans ((BitVec.extractLsb'_append_eq_of_le (w := 5) (start := 5) (len := 5) (by decide)).trans ((BitVec.extractLsb'_append_eq_of_add_le (w := 5) (start := 0) (len := 5) (by decide)).trans (BitVec.extractLsb'_eq_self)))
@[simp] theorem packTY_aux (d a b aux : BitVec 5) (sync : BitVec 12) : (packTY d a b aux sync).extractLsb' 12 5 = aux :=
  (BitVec.extractLsb'_append_eq_of_le (w := 12) (start := 12) (len := 5) (by decide)).trans ((BitVec.extractLsb'_append_eq_of_add_le (w := 5) (start := 0) (len := 5) (by decide)).trans (BitVec.extractLsb'_eq_self))
@[simp] theorem packTY_sync (d a b aux : BitVec 5) (sync : BitVec 12) : (packTY d a b aux sync).extractLsb' 0 12 = sync :=
  (BitVec.extractLsb'_append_eq_of_add_le (w := 12) (start := 0) (len := 12) (by decide)).trans (BitVec.extractLsb'_eq_self)
@[simp] theorem packTW_d (d a b c : BitVec 5) (aux sync : BitVec 12) : (packTW d a b c aux sync).extractLsb' 59 5 = d :=
  (BitVec.extractLsb'_append_eq_of_le (w := 12) (start := 59) (len := 5) (by decide)).trans ((BitVec.extractLsb'_append_eq_of_le (w := 20) (start := 47) (len := 5) (by decide)).trans ((BitVec.extractLsb'_append_eq_of_le (w := 12) (start := 27) (len := 5) (by decide)).trans ((BitVec.extractLsb'_append_eq_of_le (w := 5) (start := 15) (len := 5) (by decide)).trans ((BitVec.extractLsb'_append_eq_of_le (w := 5) (start := 10) (len := 5) (by decide)).trans ((BitVec.extractLsb'_append_eq_of_le (w := 5) (start := 5) (len := 5) (by decide)).trans (BitVec.extractLsb'_eq_self))))))
@[simp] theorem packTW_a (d a b c : BitVec 5) (aux sync : BitVec 12) : (packTW d a b c aux sync).extractLsb' 54 5 = a :=
  (BitVec.extractLsb'_append_eq_of_le (w := 12) (start := 54) (len := 5) (by decide)).trans ((BitVec.extractLsb'_append_eq_of_le (w := 20) (start := 42) (len := 5) (by decide)).trans ((BitVec.extractLsb'_append_eq_of_le (w := 12) (start := 22) (len := 5) (by decide)).trans ((BitVec.extractLsb'_append_eq_of_le (w := 5) (start := 10) (len := 5) (by decide)).trans ((BitVec.extractLsb'_append_eq_of_le (w := 5) (start := 5) (len := 5) (by decide)).trans ((BitVec.extractLsb'_append_eq_of_add_le (w := 5) (start := 0) (len := 5) (by decide)).trans (BitVec.extractLsb'_eq_self))))))
@[simp] theorem packTW_b (d a b c : BitVec 5) (aux sync : BitVec 12) : (packTW d a b c aux sync).extractLsb' 49 5 = b :=
  (BitVec.extractLsb'_append_eq_of_le (w := 12) (start := 49) (len := 5) (by decide)).trans ((BitVec.extractLsb'_append_eq_of_le (w := 20) (start := 37) (len := 5) (by decide)).trans ((BitVec.extractLsb'_append_eq_of_le (w := 12) (start := 17) (len := 5) (by decide)).trans ((BitVec.extractLsb'_append_eq_of_le (w := 5) (start := 5) (len := 5) (by decide)).trans ((BitVec.extractLsb'_append_eq_of_add_le (w := 5) (start := 0) (len := 5) (by decide)).trans (BitVec.extractLsb'_eq_self)))))
@[simp] theorem packTW_c (d a b c : BitVec 5) (aux sync : BitVec 12) : (packTW d a b c aux sync).extractLsb' 44 5 = c :=
  (BitVec.extractLsb'_append_eq_of_le (w := 12) (start := 44) (len := 5) (by decide)).trans ((BitVec.extractLsb'_append_eq_of_le (w := 20) (start := 32) (len := 5) (by decide)).trans ((BitVec.extractLsb'_append_eq_of_le (w := 12) (start := 12) (len := 5) (by decide)).trans ((BitVec.extractLsb'_append_eq_of_add_le (w := 5) (start := 0) (len := 5) (by decide)).trans (BitVec.extractLsb'_eq_self))))
@[simp] theorem packTW_aux (d a b c : BitVec 5) (aux sync : BitVec 12) : (packTW d a b c aux sync).extractLsb' 32 12 = aux :=
  (BitVec.extractLsb'_append_eq_of_le (w := 12) (start := 32) (len := 12) (by decide)).trans ((BitVec.extractLsb'_append_eq_of_le (w := 20) (start := 20) (len := 12) (by decide)).trans ((BitVec.extractLsb'_append_eq_of_add_le (w := 12) (start := 0) (len := 12) (by decide)).trans (BitVec.extractLsb'_eq_self)))
@[simp] theorem packTW_sync (d a b c : BitVec 5) (aux sync : BitVec 12) : (packTW d a b c aux sync).extractLsb' 0 12 = sync :=
  (BitVec.extractLsb'_append_eq_of_add_le (w := 12) (start := 0) (len := 12) (by decide)).trans (BitVec.extractLsb'_eq_self)
theorem packTR_low (d a b : BitVec 5) (imm : BitVec 17) (s k : Nat) (h : s + k ≤ 17) : (packTR d a b imm).extractLsb' s k = imm.extractLsb' s k :=
  BitVec.extractLsb'_append_eq_of_add_le (w := 17) h
theorem packTI_low (d a : BitVec 5) (imm : BitVec 22) (s k : Nat) (h : s + k ≤ 22) : (packTI d a imm).extractLsb' s k = imm.extractLsb' s k :=
  BitVec.extractLsb'_append_eq_of_add_le (w := 22) h
theorem packTY_low (d a b aux : BitVec 5) (sync : BitVec 12) (s k : Nat) (h : s + k ≤ 12) : (packTY d a b aux sync).extractLsb' s k = sync.extractLsb' s k :=
  BitVec.extractLsb'_append_eq_of_add_le (w := 12) h
@[simp] theorem packT2_d_0_2 (d a b : BitVec 5) : (packT2 d a b).extractLsb' 11 2 = d.extractLsb' 0 2 :=
  (BitVec.extractLsb'_append_eq_of_le (w := 1) (start := 11) (len := 2) (by decide)).trans ((BitVec.extractLsb'_append_eq_of_le (w := 5) (start := 10) (len := 2) (by decide)).trans ((BitVec.extractLsb'_append_eq_of_le (w := 5) (start := 5) (len := 2) (by decide)).trans ((BitVec.extractLsb'_append_eq_of_add_le (w := 5) (start := 0) (len := 2) (by decide)))))
@[simp] theorem packT2_a_0_2 (d a b : BitVec 5) : (packT2 d a b).extractLsb' 6 2 = a.extractLsb' 0 2 :=
  (BitVec.extractLsb'_append_eq_of_le (w := 1) (start := 6) (len := 2) (by decide)).trans ((BitVec.extractLsb'_append_eq_of_le (w := 5) (start := 5) (len := 2) (by decide)).trans ((BitVec.extractLsb'_append_eq_of_add_le (w := 5) (start := 0) (len := 2) (by decide))))
@[simp] theorem packT2_b_0_2 (d a b : BitVec 5) : (packT2 d a b).extractLsb' 1 2 = b.extractLsb' 0 2 :=
  (BitVec.extractLsb'_append_eq_of_le (w := 1) (start := 1) (len := 2) (by decide)).trans ((BitVec.extractLsb'_append_eq_of_add_le (w := 5) (start := 0) (len := 2) (by decide)))
@[simp] theorem packTY_aux_0_3 (d a b aux : BitVec 5) (sync : BitVec 12) : (packTY d a b aux sync).extractLsb' 12 3 = aux.extractLsb' 0 3 :=
  (BitVec.extractLsb'_append_eq_of_le (w := 12) (start := 12) (len := 3) (by decide)).trans ((BitVec.extractLsb'_append_eq_of_add_le (w := 5) (start := 0) (len := 3) (by decide)))
@[simp] theorem packTW_aux_0_5 (d a b c : BitVec 5) (aux sync : BitVec 12) : (packTW d a b c aux sync).extractLsb' 32 5 = aux.extractLsb' 0 5 :=
  (BitVec.extractLsb'_append_eq_of_le (w := 12) (start := 32) (len := 5) (by decide)).trans ((BitVec.extractLsb'_append_eq_of_le (w := 20) (start := 20) (len := 5) (by decide)).trans ((BitVec.extractLsb'_append_eq_of_add_le (w := 12) (start := 0) (len := 5) (by decide))))
@[simp] theorem lo_3_1 (x : BitVec 3) (y : BitVec 1) : (x ++ y : BitVec 4).extractLsb' 0 1 = y :=
  (BitVec.extractLsb'_append_eq_of_add_le (w := 1) (by decide)).trans BitVec.extractLsb'_eq_self
@[simp] theorem lo_2_2 (x : BitVec 2) (y : BitVec 2) : (x ++ y : BitVec 4).extractLsb' 0 2 = y :=
  (BitVec.extractLsb'_append_eq_of_add_le (w := 2) (by decide)).trans BitVec.extractLsb'_eq_self
@[simp] theorem lo_1_3 (x : BitVec 1) (y : BitVec 3) : (x ++ y : BitVec 4).extractLsb' 0 3 = y :=
  (BitVec.extractLsb'_append_eq_of_add_le (w := 3) (by decide)).trans BitVec.extractLsb'_eq_self
@[simp] theorem lo_12_5 (x : BitVec 12) (y : BitVec 5) : (x ++ y : BitVec 17).extractLsb' 0 5 = y :=
  (BitVec.extractLsb'_append_eq_of_add_le (w := 5) (by decide)).trans BitVec.extractLsb'_eq_self
@[simp] theorem lo_16_6 (x : BitVec 16) (y : BitVec 6) : (x ++ y : BitVec 22).extractLsb' 0 6 = y :=
  (BitVec.extractLsb'_append_eq_of_add_le (w := 6) (by decide)).trans BitVec.extractLsb'_eq_self
@[simp] theorem lo_17_5 (x : BitVec 17) (y : BitVec 5) : (x ++ y : BitVec 22).extractLsb' 0 5 = y :=
  (BitVec.extractLsb'_append_eq_of_add_le (w := 5) (by decide)).trans BitVec.extractLsb'_eq_self
@[simp] theorem lo_6_16 (x : BitVec 6) (y : BitVec 16) : (x ++ y : BitVec 22).extractLsb' 0 16 = y :=
  (BitVec.extractLsb'_append_eq_of_add_le (w := 16) (by decide)).trans BitVec.extractLsb'_eq_self
@[simp] theorem lo_10_12 (x : BitVec 10) (y : BitVec 12) : (x ++ y : BitVec 22).extractLsb' 0 12 = y :=
  (BitVec.extractLsb'_append_eq_of_add_le (w := 12) (by decide)).trans BitVec.extractLsb'_eq_self
@[simp] theorem lo_3_2 (x : BitVec 3) (y : BitVec 2) : (x ++ y : BitVec 5).extractLsb' 0 2 = y :=
  (BitVec.extractLsb'_append_eq_of_add_le (w := 2) (by decide)).trans BitVec.extractLsb'_eq_self
@[simp] theorem lo_2_3 (x : BitVec 2) (y : BitVec 3) : (x ++ y : BitVec 5).extractLsb' 0 3 = y :=
  (BitVec.extractLsb'_append_eq_of_add_le (w := 3) (by decide)).trans BitVec.extractLsb'_eq_self
@[simp] theorem lo_7_5 (x : BitVec 7) (y : BitVec 5) : (x ++ y : BitVec 12).extractLsb' 0 5 = y :=
  (BitVec.extractLsb'_append_eq_of_add_le (w := 5) (by decide)).trans BitVec.extractLsb'_eq_self
@[simp] theorem lo_4_8 (x : BitVec 4) (y : BitVec 8) : (x ++ y : BitVec 12).extractLsb' 0 8 = y :=
  (BitVec.extractLsb'_append_eq_of_add_le (w := 8) (by decide)).trans BitVec.extractLsb'_eq_self
@[simp] theorem hi_3_1 (x : BitVec 3) (y : BitVec 1) : (x ++ y : BitVec 4).extractLsb' 1 3 = x :=
  (BitVec.extractLsb'_append_eq_of_le (w := 1) (by decide)).trans BitVec.extractLsb'_eq_self
@[simp] theorem hi_1_3 (x : BitVec 1) (y : BitVec 3) : (x ++ y : BitVec 4).extractLsb' 3 1 = x :=
  (BitVec.extractLsb'_append_eq_of_le (w := 3) (by decide)).trans BitVec.extractLsb'_eq_self
@[simp] theorem imm_pos (l p : BitVec 6) : (0#5 ++ l ++ p : BitVec 17).extractLsb' 0 6 = p :=
  (BitVec.extractLsb'_append_eq_of_add_le (w := 6) (by decide)).trans BitVec.extractLsb'_eq_self
@[simp] theorem imm_len (l p : BitVec 6) : (0#5 ++ l ++ p : BitVec 17).extractLsb' 6 6 = l :=
  (BitVec.extractLsb'_append_eq_of_le (w := 6) (start := 6) (by decide)).trans
    ((BitVec.extractLsb'_append_eq_of_add_le (w := 6) (by decide)).trans BitVec.extractLsb'_eq_self)
@[simp] theorem x_sel (k : BitVec 2) : (0#1 ++ k ++ 0#1 : BitVec 4).extractLsb' 1 2 = k :=
  (BitVec.extractLsb'_append_eq_of_le (w := 1) (start := 1) (by decide)).trans
    ((BitVec.extractLsb'_append_eq_of_add_le (w := 2) (by decide)).trans BitVec.extractLsb'_eq_self)

/-! ### Every instruction -/

/-- An instruction's encoding names that instruction again. -/
def Encoding.Statement (i : Instr) : Prop := i.wf = true → ∀ e, encode i = some e → raw e.op e.x e.tail = some i

theorem Encoding.nop : Encoding.Statement .nop := by
  intro _ e h; cases h; simp [raw, raw0]
theorem Encoding.add (d a b) : Encoding.Statement (.add d a b) := by
  intro _ e h; cases h; simp [raw, raw0]
theorem Encoding.sub (d a b) : Encoding.Statement (.sub d a b) := by
  intro _ e h; cases h; simp [raw, raw0]
theorem Encoding.mul (d a b) : Encoding.Statement (.mul d a b) := by
  intro _ e h; cases h; simp [raw, raw0]
theorem Encoding.mulh (d a b) : Encoding.Statement (.mulh d a b) := by
  intro _ e h; cases h; simp [raw, raw0]
theorem Encoding.mulhu (d a b) : Encoding.Statement (.mulhu d a b) := by
  intro _ e h; cases h; simp [raw, raw0]
theorem Encoding.div (d a b) : Encoding.Statement (.div d a b) := by
  intro _ e h; cases h; simp [raw, raw0]
theorem Encoding.divu (d a b) : Encoding.Statement (.divu d a b) := by
  intro _ e h; cases h; simp [raw, raw0]
theorem Encoding.rem (d a b) : Encoding.Statement (.rem d a b) := by
  intro _ e h; cases h; simp [raw, raw0]
theorem Encoding.remu (d a b) : Encoding.Statement (.remu d a b) := by
  intro _ e h; cases h; simp [raw, raw0]
theorem Encoding.andR (d a b) : Encoding.Statement (.andR d a b) := by
  intro _ e h; cases h; simp [raw, raw0]
theorem Encoding.orR (d a b) : Encoding.Statement (.orR d a b) := by
  intro _ e h; cases h; simp [raw, raw0]
theorem Encoding.xorR (d a b) : Encoding.Statement (.xorR d a b) := by
  intro _ e h; cases h; simp [raw, raw0]
theorem Encoding.sll (d a b) : Encoding.Statement (.sll d a b) := by
  intro _ e h; cases h; simp [raw, raw0]
theorem Encoding.srl (d a b) : Encoding.Statement (.srl d a b) := by
  intro _ e h; cases h; simp [raw, raw0]
theorem Encoding.sra (d a b) : Encoding.Statement (.sra d a b) := by
  intro _ e h; cases h; simp [raw, raw0]
theorem Encoding.slt (d a b) : Encoding.Statement (.slt d a b) := by
  intro _ e h; cases h; simp [raw, raw1]
theorem Encoding.sltu (d a b) : Encoding.Statement (.sltu d a b) := by
  intro _ e h; cases h; simp [raw, raw1]
theorem Encoding.minR (d a b) : Encoding.Statement (.minR d a b) := by
  intro _ e h; cases h; simp [raw, raw1]
theorem Encoding.maxR (d a b) : Encoding.Statement (.maxR d a b) := by
  intro _ e h; cases h; simp [raw, raw1]
theorem Encoding.minu (d a b) : Encoding.Statement (.minu d a b) := by
  intro _ e h; cases h; simp [raw, raw1]
theorem Encoding.maxu (d a b) : Encoding.Statement (.maxu d a b) := by
  intro _ e h; cases h; simp [raw, raw1]
theorem Encoding.clz (d a) : Encoding.Statement (.clz d a) := by
  intro _ e h; cases h; simp [raw, raw1]
theorem Encoding.ctz (d a) : Encoding.Statement (.ctz d a) := by
  intro _ e h; cases h; simp [raw, raw1]
theorem Encoding.popc (d a) : Encoding.Statement (.popc d a) := by
  intro _ e h; cases h; simp [raw, raw1]
theorem Encoding.mov (d a) : Encoding.Statement (.mov d a) := by
  intro _ e h; cases h; simp [raw, raw1]
theorem Encoding.addi (d a imm) : Encoding.Statement (.addi d a imm) := by
  intro _ e h; cases h; simp [raw, raw2, packTI_low]
theorem Encoding.andi (d a imm) : Encoding.Statement (.andi d a imm) := by
  intro _ e h; cases h; simp [raw, raw2, packTI_low]
theorem Encoding.ori (d a imm) : Encoding.Statement (.ori d a imm) := by
  intro _ e h; cases h; simp [raw, raw2, packTI_low]
theorem Encoding.xori (d a imm) : Encoding.Statement (.xori d a imm) := by
  intro _ e h; cases h; simp [raw, raw2, packTI_low]
theorem Encoding.slti (d a imm) : Encoding.Statement (.slti d a imm) := by
  intro _ e h; cases h; simp [raw, raw2, packTI_low]
theorem Encoding.slli (d a sh) : Encoding.Statement (.slli d a sh) := by
  intro _ e h; cases h; simp [raw, raw2, packTI_low]
theorem Encoding.srli (d a sh) : Encoding.Statement (.srli d a sh) := by
  intro _ e h; cases h; simp [raw, raw2, packTI_low]
theorem Encoding.srai (d a sh) : Encoding.Statement (.srai d a sh) := by
  intro _ e h; cases h; simp [raw, raw2, packTI_low]
theorem Encoding.li (d imm) : Encoding.Statement (.li d imm) := by
  intro _ e h; cases h; simp [raw, raw2, packTI_low]
theorem Encoding.liL (d imm) : Encoding.Statement (.liL d imm) := by
  intro _ e h; cases h; simp [raw, raw2]
theorem Encoding.sel (d a b c) : Encoding.Statement (.sel d a b c) := by
  intro _ e h; cases h; simp [raw, raw2, packTR_low]
theorem Encoding.ext (d a pos len1) : Encoding.Statement (.ext d a pos len1) := by
  intro _ e h; cases h; simp [raw, raw2, packTR_low]
theorem Encoding.ins (d a b pos len1) : Encoding.Statement (.ins d a b pos len1) := by
  intro _ e h; cases h; simp [raw, raw2, packTR_low]
theorem Encoding.beq (a b idx off) : Encoding.Statement (.beq a b idx off) := by
  intro _ e h; cases h; simp [raw, raw4, packTR_low]
theorem Encoding.bne (a b idx off) : Encoding.Statement (.bne a b idx off) := by
  intro _ e h; cases h; simp [raw, raw4, packTR_low]
theorem Encoding.blt (a b idx off) : Encoding.Statement (.blt a b idx off) := by
  intro _ e h; cases h; simp [raw, raw4, packTR_low]
theorem Encoding.bge (a b idx off) : Encoding.Statement (.bge a b idx off) := by
  intro _ e h; cases h; simp [raw, raw4, packTR_low]
theorem Encoding.bltu (a b idx off) : Encoding.Statement (.bltu a b idx off) := by
  intro _ e h; cases h; simp [raw, raw4, packTR_low]
theorem Encoding.bgeu (a b idx off) : Encoding.Statement (.bgeu a b idx off) := by
  intro _ e h; cases h; simp [raw, raw4, packTR_low]
theorem Encoding.j (idx off) : Encoding.Statement (.j idx off) := by
  intro _ e h; cases h; simp [raw, raw4, packTR_low]
theorem Encoding.jal (l idx off) : Encoding.Statement (.jal l idx off) := by
  intro _ e h; cases h; simp [raw, raw4, packTR_low]
theorem Encoding.jr (a) : Encoding.Statement (.jr a) := by
  intro _ e h; cases h; simp [raw, raw4]
theorem Encoding.jalr (d a) : Encoding.Statement (.jalr d a) := by
  intro _ e h; cases h; simp [raw, raw4]
theorem Encoding.fadd (f d a b) : Encoding.Statement (.fadd f d a b) := by
  intro _ e h; cases h; simp [raw, raw5]
theorem Encoding.fsub (f d a b) : Encoding.Statement (.fsub f d a b) := by
  intro _ e h; cases h; simp [raw, raw5]
theorem Encoding.fmul (f d a b) : Encoding.Statement (.fmul f d a b) := by
  intro _ e h; cases h; simp [raw, raw5]
theorem Encoding.fdiv (f d a b) : Encoding.Statement (.fdiv f d a b) := by
  intro _ e h; cases h; simp [raw, raw5]
theorem Encoding.fsqrt (f d a) : Encoding.Statement (.fsqrt f d a) := by
  intro _ e h; cases h; simp [raw, raw5]
theorem Encoding.fmin (f d a b) : Encoding.Statement (.fmin f d a b) := by
  intro _ e h; cases h; simp [raw, raw5]
theorem Encoding.fmax (f d a b) : Encoding.Statement (.fmax f d a b) := by
  intro _ e h; cases h; simp [raw, raw5]
theorem Encoding.fcmp (pred f d a b) : Encoding.Statement (.fcmp pred f d a b) := by
  intro _ e h; cases h; simp [raw, raw5]
theorem Encoding.fclass (f d a) : Encoding.Statement (.fclass f d a) := by
  intro _ e h; cases h; simp [raw, raw5]
theorem Encoding.fsgn (op f d a b) : Encoding.Statement (.fsgn op f d a b) := by
  intro _ e h; cases h; simp [raw, raw5]
theorem Encoding.ffma (f d a b c) : Encoding.Statement (.ffma f d a b c) := by
  intro _ e h; cases h; simp [raw, raw5, packTR_low]
theorem Encoding.fcvt (x d a) : Encoding.Statement (.fcvt x d a) := by
  intro _ e h; cases h; simp [raw, raw5]
theorem Encoding.ld (size d a os off) : Encoding.Statement (.ld size d a os off) := by
  intro _ e h; cases h; simp [raw, raw7, packTR_low]
theorem Encoding.st (size os a b off) : Encoding.Statement (.st size os a b off) := by
  intro _ e h; cases h; simp [raw, raw7, packTR_low]
theorem Encoding.ldfe (size d a os off) : Encoding.Statement (.ldfe size d a os off) := by
  intro _ e h; cases h; simp [raw, raw7, packTR_low]
theorem Encoding.stfe (os a b off) : Encoding.Statement (.stfe os a b off) := by
  intro _ e h; cases h; simp [raw, raw7, packTR_low]
theorem Encoding.ldff (size d a os off) : Encoding.Statement (.ldff size d a os off) := by
  intro _ e h; cases h; simp [raw, raw7, packTR_low]
theorem Encoding.feset (st a off) : Encoding.Statement (.feset st a off) := by
  intro _ e h; cases h; simp [raw, raw7, packTR_low]
theorem Encoding.amoAdd (size d a b os) : Encoding.Statement (.amoAdd size d a b os) := by
  intro _ e h; cases h; simp [raw, raw7, packTR_low]
theorem Encoding.amoAnd (size d a b os) : Encoding.Statement (.amoAnd size d a b os) := by
  intro _ e h; cases h; simp [raw, raw7, packTR_low]
theorem Encoding.amoOr (size d a b os) : Encoding.Statement (.amoOr size d a b os) := by
  intro _ e h; cases h; simp [raw, raw7, packTR_low]
theorem Encoding.amoXor (size d a b os) : Encoding.Statement (.amoXor size d a b os) := by
  intro _ e h; cases h; simp [raw, raw7, packTR_low]
theorem Encoding.amoMin (size d a b os) : Encoding.Statement (.amoMin size d a b os) := by
  intro _ e h; cases h; simp [raw, raw7, packTR_low]
theorem Encoding.amoMax (size d a b os) : Encoding.Statement (.amoMax size d a b os) := by
  intro _ e h; cases h; simp [raw, raw7, packTR_low]
theorem Encoding.amoMinu (size d a b os) : Encoding.Statement (.amoMinu size d a b os) := by
  intro _ e h; cases h; simp [raw, raw7, packTR_low]
theorem Encoding.amoMaxu (size d a b os) : Encoding.Statement (.amoMaxu size d a b os) := by
  intro _ e h; cases h; simp [raw, raw7, packTR_low]
theorem Encoding.amoSwap (size d a b os) : Encoding.Statement (.amoSwap size d a b os) := by
  intro _ e h; cases h; simp [raw, raw7, packTR_low]
theorem Encoding.amoCas (size d a b c os sync) : Encoding.Statement (.amoCas size d a b c os sync) := by
  intro _ e h; cases h; simp [raw, raw7]
theorem Encoding.amoFadd (size d a b os) : Encoding.Statement (.amoFadd size d a b os) := by
  intro _ e h; cases h; simp [raw, raw8, packTR_low]
theorem Encoding.fence (o scope) : Encoding.Statement (.fence o scope) := by
  intro _ e h; cases h; simp [raw, raw8]
theorem Encoding.lea (x d a b off) : Encoding.Statement (.lea x d a b off) := by
  intro _ e h; cases h; simp [raw, raw8, packTR_low]
theorem Encoding.segq (q d a) : Encoding.Statement (.segq q d a) := by
  intro _ e h; cases h; simp [raw, raw8]
theorem Encoding.mig (a) : Encoding.Statement (.mig a) := by
  intro _ e h; cases h; simp [raw, raw9]
theorem Encoding.tmask (x d a imm) : Encoding.Statement (.tmask x d a imm) := by
  intro _ e h; cases h; simp [raw, raw9, packTI_low]
theorem Encoding.fork (jn a b idx off) : Encoding.Statement (.fork jn a b idx off) := by
  intro _ e h; cases h; simp [raw, raw9, packTR_low]
theorem Encoding.join (a) : Encoding.Statement (.join a) := by
  intro _ e h; cases h; simp [raw, raw9]
theorem Encoding.yield : Encoding.Statement .yield := by
  intro _ e h; cases h; simp [raw, raw9]
theorem Encoding.halt : Encoding.Statement .halt := by
  intro _ e h; cases h; simp [raw, raw9]
theorem Encoding.resamp (d a) : Encoding.Statement (.resamp d a) := by
  intro _ e h; cases h; simp [raw, raw9]
theorem Encoding.wset (a) : Encoding.Statement (.wset a) := by
  intro _ e h; cases h; simp [raw, raw9]
theorem Encoding.barArrive (kind d a b) : Encoding.Statement (.barArrive kind d a b) := by
  intro _ e h; cases h; simp [raw, raw9]
theorem Encoding.barWait (kind a b) : Encoding.Statement (.barWait kind a b) := by
  intro _ e h; cases h; simp [raw, raw9]
theorem Encoding.barSync (kind a b) : Encoding.Statement (.barSync kind a b) := by
  intro _ e h; cases h; simp [raw, raw9]
theorem Encoding.msend (any t c v) : Encoding.Statement (.msend any t c v) := by
  intro _ e h; cases h; simp [raw, raw9]
theorem Encoding.mwait (own) : Encoding.Statement (.mwait own) := by
  intro _ e h; cases h; simp [raw, raw9]
theorem Encoding.mpop (own d m) : Encoding.Statement (.mpop own d m) := by
  intro _ e h; cases h; simp [raw, raw9]
theorem Encoding.cbwait (n d) : Encoding.Statement (.cbwait n d) := by
  intro _ e h; cases h; simp [raw, raw9]
theorem Encoding.cbrel (n) : Encoding.Statement (.cbrel n) := by
  intro _ e h; cases h; simp [raw, raw9]
theorem Encoding.cbput (n d a) : Encoding.Statement (.cbput n d a) := by
  intro _ e h; cases h; simp [raw, rawA]
theorem Encoding.dwait (wait) : Encoding.Statement (.dwait wait) := by
  intro _ e h; cases h; simp [raw, rawA, packTY_low]
theorem Encoding.nqput (d a b) : Encoding.Statement (.nqput d a b) := by
  intro _ e h; cases h; simp [raw, rawA]
theorem Encoding.nqdone (a) : Encoding.Statement (.nqdone a) := by
  intro _ e h; cases h; simp [raw, rawA]
theorem Encoding.cxsave (a) : Encoding.Statement (.cxsave a) := by
  intro _ e h; cases h; simp [raw, rawA]
theorem Encoding.cxload (a) : Encoding.Statement (.cxload a) := by
  intro _ e h; cases h; simp [raw, rawA]
theorem Encoding.stepmark (d a) : Encoding.Statement (.stepmark d a) := by
  intro _ e h; cases h; simp [raw, rawA]
theorem Encoding.vclaim (d a) : Encoding.Statement (.vclaim d a) := by
  intro _ e h; cases h; simp [raw, rawB]
theorem Encoding.vrenew (d) : Encoding.Statement (.vrenew d) := by
  intro _ e h; cases h; simp [raw, rawB]
theorem Encoding.vfree : Encoding.Statement .vfree := by
  intro _ e h; cases h; simp [raw, rawB]
theorem Encoding.vlen (d) : Encoding.Statement (.vlen d) := by
  intro _ e h; cases h; simp [raw, rawB]
theorem Encoding.mmode (m) : Encoding.Statement (.mmode m) := by
  intro _ e h; cases h; simp [raw, rawB]
theorem Encoding.vld (x d a b off) : Encoding.Statement (.vld x d a b off) := by
  intro _ e h; cases h; simp [raw, rawB, packTR_low]
theorem Encoding.vst (x d a b off) : Encoding.Statement (.vst x d a b off) := by
  intro _ e h; cases h; simp [raw, rawB, packTR_low]
theorem Encoding.vldx (x d a b off) : Encoding.Statement (.vldx x d a b off) := by
  intro _ e h; cases h; simp [raw, rawB, packTR_low]
theorem Encoding.vstx (x d a b off) : Encoding.Statement (.vstx x d a b off) := by
  intro _ e h; cases h; simp [raw, rawB, packTR_low]
theorem Encoding.vadd (x d a b) : Encoding.Statement (.vadd x d a b) := by
  intro _ e h; cases h; simp [raw, rawB]
theorem Encoding.vsub (x d a b) : Encoding.Statement (.vsub x d a b) := by
  intro _ e h; cases h; simp [raw, rawB]
theorem Encoding.vmul (x d a b) : Encoding.Statement (.vmul x d a b) := by
  intro _ e h; cases h; simp [raw, rawB]
theorem Encoding.vmin (x d a b) : Encoding.Statement (.vmin x d a b) := by
  intro _ e h; cases h; simp [raw, rawB]
theorem Encoding.vmax (x d a b) : Encoding.Statement (.vmax x d a b) := by
  intro _ e h; cases h; simp [raw, rawB]
theorem Encoding.vabs (x d a) : Encoding.Statement (.vabs x d a) := by
  intro _ e h; cases h; simp [raw, rawB]
theorem Encoding.vneg (x d a) : Encoding.Statement (.vneg x d a) := by
  intro _ e h; cases h; simp [raw, rawB]
theorem Encoding.vand (x d a b) : Encoding.Statement (.vand x d a b) := by
  intro _ e h; cases h; simp [raw, rawC]
theorem Encoding.vor (x d a b) : Encoding.Statement (.vor x d a b) := by
  intro _ e h; cases h; simp [raw, rawC]
theorem Encoding.vxor (x d a b) : Encoding.Statement (.vxor x d a b) := by
  intro _ e h; cases h; simp [raw, rawC]
theorem Encoding.vshl (x d a b) : Encoding.Statement (.vshl x d a b) := by
  intro _ e h; cases h; simp [raw, rawC]
theorem Encoding.vshr (x d a b) : Encoding.Statement (.vshr x d a b) := by
  intro _ e h; cases h; simp [raw, rawC]
theorem Encoding.vsra (x d a b) : Encoding.Statement (.vsra x d a b) := by
  intro _ e h; cases h; simp [raw, rawC]
theorem Encoding.vfadd (x d a b) : Encoding.Statement (.vfadd x d a b) := by
  intro _ e h; cases h; simp [raw, rawC]
theorem Encoding.vfsub (x d a b) : Encoding.Statement (.vfsub x d a b) := by
  intro _ e h; cases h; simp [raw, rawC]
theorem Encoding.vfmul (x d a b) : Encoding.Statement (.vfmul x d a b) := by
  intro _ e h; cases h; simp [raw, rawC]
theorem Encoding.vffma (x d a b c) : Encoding.Statement (.vffma x d a b c) := by
  intro _ e h; cases h; simp [raw, rawC, packTR_low]
theorem Encoding.vfmin (x d a b) : Encoding.Statement (.vfmin x d a b) := by
  intro _ e h; cases h; simp [raw, rawC]
theorem Encoding.vfmax (x d a b) : Encoding.Statement (.vfmax x d a b) := by
  intro _ e h; cases h; simp [raw, rawC]
theorem Encoding.vfdiv (x d a b) : Encoding.Statement (.vfdiv x d a b) := by
  intro _ e h; cases h; simp [raw, rawC]
theorem Encoding.vcvt (x d a c) : Encoding.Statement (.vcvt x d a c) := by
  intro _ e h; cases h; simp [raw, rawC]
theorem Encoding.vcmp (cond p a b) : Encoding.Statement (.vcmp cond p a b) := by
  intro _ e h; cases h; simp [raw, rawC]
theorem Encoding.vsel (k d a b) : Encoding.Statement (.vsel k d a b) := by
  intro _ e h; cases h; simp [raw, rawC]
theorem Encoding.vpand (d a b) : Encoding.Statement (.vpand d a b) := by
  intro _ e h; cases h; simp [raw, rawD]
theorem Encoding.vpor (d a b) : Encoding.Statement (.vpor d a b) := by
  intro _ e h; cases h; simp [raw, rawD]
theorem Encoding.vpnot (d a) : Encoding.Statement (.vpnot d a) := by
  intro _ e h; cases h; simp [raw, rawD]
theorem Encoding.vredadd (x d a) : Encoding.Statement (.vredadd x d a) := by
  intro _ e h; cases h; simp [raw, rawD]
theorem Encoding.vredmin (x d a) : Encoding.Statement (.vredmin x d a) := by
  intro _ e h; cases h; simp [raw, rawD]
theorem Encoding.vredmax (x d a) : Encoding.Statement (.vredmax x d a) := by
  intro _ e h; cases h; simp [raw, rawD]
theorem Encoding.vbcast (x d a) : Encoding.Statement (.vbcast x d a) := by
  intro _ e h; cases h; simp [raw, rawD]
theorem Encoding.vslide (x d a b k) : Encoding.Statement (.vslide x d a b k) := by
  intro _ e h; cases h; simp [raw, rawD, packTR_low]
theorem Encoding.vperm (x d a b) : Encoding.Statement (.vperm x d a b) := by
  intro _ e h; cases h; simp [raw, rawD]
theorem Encoding.vexp2 (p d a) : Encoding.Statement (.vexp2 p d a) := by
  intro _ e h; cases h; simp [raw, rawD]
theorem Encoding.vlog2 (p d a) : Encoding.Statement (.vlog2 p d a) := by
  intro _ e h; cases h; simp [raw, rawD]
theorem Encoding.vrcp (p d a) : Encoding.Statement (.vrcp p d a) := by
  intro _ e h; cases h; simp [raw, rawD]
theorem Encoding.vrsq (p d a) : Encoding.Statement (.vrsq p d a) := by
  intro _ e h; cases h; simp [raw, rawD]
theorem Encoding.vsqrt (p d a) : Encoding.Statement (.vsqrt p d a) := by
  intro _ e h; cases h; simp [raw, rawD]
theorem Encoding.vsinpi (p d a) : Encoding.Statement (.vsinpi p d a) := by
  intro _ e h; cases h; simp [raw, rawD]
theorem Encoding.vcospi (p d a) : Encoding.Statement (.vcospi p d a) := by
  intro _ e h; cases h; simp [raw, rawD]
theorem Encoding.vrtri (x d o r t) : Encoding.Statement (.vrtri x d o r t) := by
  intro _ e h; cases h; simp [raw, rawD]
theorem Encoding.mop (t a sync) : Encoding.Statement (.mop t a sync) := by
  intro _ e h; cases h; simp [raw, rawE, packTY_low]
theorem Encoding.bload (a b sync) : Encoding.Statement (.bload a b sync) := by
  intro _ e h; cases h; simp [raw, rawE, packTY_low]
theorem Encoding.bpass (sync) : Encoding.Statement (.bpass sync) := by
  intro _ e h; cases h; simp [raw, rawE, packTY_low]
theorem Encoding.bpassDrop (sync) : Encoding.Statement (.bpassDrop sync) := by
  intro _ e h; cases h; simp [raw, rawE, packTY_low]
theorem Encoding.mzero (t) : Encoding.Statement (.mzero t) := by
  intro _ e h; cases h; simp [raw, rawE]
theorem Encoding.tbset (a b) : Encoding.Statement (.tbset a b) := by
  intro _ e h; cases h; simp [raw, rawE]
theorem Encoding.fmtset (a) : Encoding.Statement (.fmtset a) := by
  intro _ e h; cases h; simp [raw, rawE]
theorem Encoding.sclset (a b) : Encoding.Statement (.sclset a b) := by
  intro _ e h; cases h; simp [raw, rawE]
theorem Encoding.crpool (kind a b l sync) : Encoding.Statement (.crpool kind a b l sync) := by
  intro _ e h; cases h; simp [raw, rawE, packTY_low]
theorem Encoding.crsub (x d a b sync) : Encoding.Statement (.crsub x d a b sync) := by
  intro _ e h; cases h; simp [raw, rawE, packTY_low]
theorem Encoding.crunsub (x d a b sync) : Encoding.Statement (.crunsub x d a b sync) := by
  intro _ e h; cases h; simp [raw, rawE, packTY_low]
theorem Encoding.crskip (a sync) : Encoding.Statement (.crskip a sync) := by
  intro _ e h; cases h; simp [raw, rawE, packTY_low]
theorem Encoding.crpromote (a sync) : Encoding.Statement (.crpromote a sync) := by
  intro _ e h; cases h; simp [raw, rawE, packTY_low]
theorem Encoding.crlap (d a sync) : Encoding.Statement (.crlap d a sync) := by
  intro _ e h; cases h; simp [raw, rawE, packTY_low]
theorem Encoding.crlapW (d a sync) : Encoding.Statement (.crlapW d a sync) := by
  intro _ e h; cases h; simp [raw, rawE, packTY_low]
theorem Encoding.cpy (a sync) : Encoding.Statement (.cpy a sync) := by
  intro _ e h; cases h; simp [raw, rawF, packTY_low]
theorem Encoding.cpgx (a sync) : Encoding.Statement (.cpgx a sync) := by
  intro _ e h; cases h; simp [raw, rawF, packTY_low]
theorem Encoding.cpsx (a sync) : Encoding.Statement (.cpsx a sync) := by
  intro _ e h; cases h; simp [raw, rawF, packTY_low]
theorem Encoding.cpmc (a sync) : Encoding.Statement (.cpmc a sync) := by
  intro _ e h; cases h; simp [raw, rawF, packTY_low]
theorem Encoding.cpclose : Encoding.Statement .cpclose := by
  intro _ e h; cases h; simp [raw, rawF]
theorem Encoding.cpwait (n) : Encoding.Statement (.cpwait n) := by
  intro _ e h; cases h; simp [raw, rawF, packTI_low]
theorem Encoding.cpinval (a) : Encoding.Statement (.cpinval a) := by
  intro _ e h; cases h; simp [raw, rawF]
theorem Encoding.cpinvalAll : Encoding.Statement .cpinvalAll := by
  intro _ e h; cases h; simp [raw, rawF]
theorem Encoding.publish (a scope sync) : Encoding.Statement (.publish a scope sync) := by
  intro _ e h; cases h; simp [raw, rawF, packTY_low]
theorem Encoding.trap (d a n) : Encoding.Statement (.trap d a n) := by
  intro _ e h; cases h; simp [raw, rawF, packTI_low]
theorem Encoding.eret : Encoding.Statement .eret := by
  intro _ e h; cases h; simp [raw, rawF]
theorem Encoding.wfi : Encoding.Statement .wfi := by
  intro _ e h; cases h; simp [raw, rawF]
theorem Encoding.ptsync : Encoding.Statement .ptsync := by
  intro _ e h; cases h; simp [raw, rawF]
theorem Encoding.rdsys (d num) : Encoding.Statement (.rdsys d num) := by
  intro _ e h; cases h; simp [raw, rawF, packTI_low]
theorem Encoding.brk (code) : Encoding.Statement (.brk code) := by
  intro _ e h; cases h; simp [raw, rawF]
theorem Encoding.tmark (a code) : Encoding.Statement (.tmark a code) := by
  intro _ e h; cases h; simp [raw, rawF, packTI_low]
theorem Encoding.tlbinv (a) : Encoding.Statement (.tlbinv a) := by
  intro _ e h; cases h; simp [raw, rawF]
theorem Encoding.cflush (a) : Encoding.Statement (.cflush a) := by
  intro _ e h; cases h; simp [raw, rawF]
theorem Encoding.pendingBeat : Encoding.Statement .pendingBeat := fun _ _ h => nomatch h
theorem Encoding.dbgctlStop (v0) : Encoding.Statement (.dbgctlStop v0) := fun _ _ h => nomatch h
theorem Encoding.dbgctlResume (v0) : Encoding.Statement (.dbgctlResume v0) := fun _ _ h => nomatch h
theorem Encoding.lineFetch (v0 v1) : Encoding.Statement (.lineFetch v0 v1) := fun _ _ h => nomatch h
theorem Encoding.resultLanding (v0 v1 v2) : Encoding.Statement (.resultLanding v0 v1 v2) := fun _ _ h => nomatch h
theorem Encoding.acknowledgement (v0) : Encoding.Statement (.acknowledgement v0) := fun _ _ h => nomatch h
theorem Encoding.negativeAcknowledgement (v0) : Encoding.Statement (.negativeAcknowledgement v0) := fun _ _ h => nomatch h
theorem Encoding.remoteRequest (v0) : Encoding.Statement (.remoteRequest v0) := fun _ _ h => nomatch h
theorem Encoding.pageWalk (v0 v1) : Encoding.Statement (.pageWalk v0 v1) := fun _ _ h => nomatch h
theorem Encoding.faultRecord (v0 v1) : Encoding.Statement (.faultRecord v0 v1) := fun _ _ h => nomatch h
theorem Encoding.wake (v0 v1 v2) : Encoding.Statement (.wake v0 v1 v2) := fun _ _ h => nomatch h
theorem Encoding.faultHoldExpiry (v0 v1) : Encoding.Statement (.faultHoldExpiry v0 v1) := fun _ _ h => nomatch h
theorem Encoding.migrationPack (v0 v1) : Encoding.Statement (.migrationPack v0 v1) := fun _ _ h => nomatch h
theorem Encoding.arrival (v0) : Encoding.Statement (.arrival v0) := fun _ _ h => nomatch h
theorem Encoding.chunkAllocation (v0 v1 v2) : Encoding.Statement (.chunkAllocation v0 v1 v2) := fun _ _ h => nomatch h
theorem Encoding.slotOffer (v0) : Encoding.Statement (.slotOffer v0) := fun _ _ h => nomatch h
theorem Encoding.feRecheckRound (v0 v1) : Encoding.Statement (.feRecheckRound v0 v1) := fun _ _ h => nomatch h
theorem Encoding.feTimeout (v0 v1) : Encoding.Statement (.feTimeout v0 v1) := fun _ _ h => nomatch h
theorem Encoding.requestResend (v0) : Encoding.Statement (.requestResend v0) := fun _ _ h => nomatch h
theorem Encoding.mailboxArrival (v0) : Encoding.Statement (.mailboxArrival v0) := fun _ _ h => nomatch h
theorem Encoding.latchQueueStart (v0) : Encoding.Statement (.latchQueueStart v0) := fun _ _ h => nomatch h
theorem Encoding.fillComplete (v0) : Encoding.Statement (.fillComplete v0) := fun _ _ h => nomatch h
theorem Encoding.passRound (v0) : Encoding.Statement (.passRound v0) := fun _ _ h => nomatch h
theorem Encoding.mopComplete (v0 v1) : Encoding.Statement (.mopComplete v0 v1) := fun _ _ h => nomatch h
theorem Encoding.resampleComplete (v0) : Encoding.Statement (.resampleComplete v0) := fun _ _ h => nomatch h
theorem Encoding.copyAccept (v0 v1) : Encoding.Statement (.copyAccept v0 v1) := fun _ _ h => nomatch h
theorem Encoding.copyCompletion (v0 v1 v2) : Encoding.Statement (.copyCompletion v0 v1 v2) := fun _ _ h => nomatch h
theorem Encoding.publishSwap (v0 v1) : Encoding.Statement (.publishSwap v0 v1) := fun _ _ h => nomatch h
theorem Encoding.writeIndex (v0 v1) : Encoding.Statement (.writeIndex v0 v1) := fun _ _ h => nomatch h
theorem Encoding.nopPacket (v0) : Encoding.Statement (.nopPacket v0) := fun _ _ h => nomatch h
theorem Encoding.launch (v0) : Encoding.Statement (.launch v0) := fun _ _ h => nomatch h
theorem Encoding.launchReady (v0) : Encoding.Statement (.launchReady v0) := fun _ _ h => nomatch h
theorem Encoding.kernelCompletion (v0) : Encoding.Statement (.kernelCompletion v0) := fun _ _ h => nomatch h
theorem Encoding.copyPacket (v0) : Encoding.Statement (.copyPacket v0) := fun _ _ h => nomatch h
theorem Encoding.signalWait (v0) : Encoding.Statement (.signalWait v0) := fun _ _ h => nomatch h
theorem Encoding.signalStore (v0) : Encoding.Statement (.signalStore v0) := fun _ _ h => nomatch h
theorem Encoding.signalDecrement (v0) : Encoding.Statement (.signalDecrement v0) := fun _ _ h => nomatch h
theorem Encoding.barrierAnd (v0) : Encoding.Statement (.barrierAnd v0) := fun _ _ h => nomatch h
theorem Encoding.carouselStart (v0) : Encoding.Statement (.carouselStart v0) := fun _ _ h => nomatch h
theorem Encoding.carouselStop (v0) : Encoding.Statement (.carouselStop v0) := fun _ _ h => nomatch h
theorem Encoding.carouselReplace (v0) : Encoding.Statement (.carouselReplace v0) := fun _ _ h => nomatch h
theorem Encoding.carouselPeriod (v0) : Encoding.Statement (.carouselPeriod v0) := fun _ _ h => nomatch h
theorem Encoding.segmentRead (v0 v1) : Encoding.Statement (.segmentRead v0 v1) := fun _ _ h => nomatch h
theorem Encoding.slotOpen (v0 v1) : Encoding.Statement (.slotOpen v0 v1) := fun _ _ h => nomatch h
theorem Encoding.delivery (v0 v1 v2) : Encoding.Statement (.delivery v0 v1 v2) := fun _ _ h => nomatch h
theorem Encoding.primitiveBatch (v0) : Encoding.Statement (.primitiveBatch v0) := fun _ _ h => nomatch h
theorem Encoding.weightload (v0) : Encoding.Statement (.weightload v0) := fun _ _ h => nomatch h
theorem Encoding.shardTimeout (v0 v1) : Encoding.Statement (.shardTimeout v0 v1) := fun _ _ h => nomatch h
theorem Encoding.loadBarrierTimeout (v0) : Encoding.Statement (.loadBarrierTimeout v0) := fun _ _ h => nomatch h
theorem Encoding.loadBarrier (v0 v1) : Encoding.Statement (.loadBarrier v0 v1) := fun _ _ h => nomatch h
theorem Encoding.weightReplace (v0) : Encoding.Statement (.weightReplace v0) := fun _ _ h => nomatch h
theorem Encoding.traceOpen (v0) : Encoding.Statement (.traceOpen v0) := fun _ _ h => nomatch h
theorem Encoding.traceClose (v0) : Encoding.Statement (.traceClose v0) := fun _ _ h => nomatch h
theorem Encoding.gangAck (v0 v1) : Encoding.Statement (.gangAck v0 v1) := fun _ _ h => nomatch h
theorem Encoding.gangAbort (v0 v1) : Encoding.Statement (.gangAbort v0 v1) := fun _ _ h => nomatch h
theorem Encoding.gangTimeout (v0) : Encoding.Statement (.gangTimeout v0) := fun _ _ h => nomatch h
theorem Encoding.gangDone (v0 v1) : Encoding.Statement (.gangDone v0 v1) := fun _ _ h => nomatch h
theorem Encoding.gangPhase (v0 v1 v2) : Encoding.Statement (.gangPhase v0 v1 v2) := fun _ _ h => nomatch h
theorem Encoding.preEmption (v0 v1) : Encoding.Statement (.preEmption v0 v1) := fun _ _ h => nomatch h
theorem Encoding.graceExpiry (v0 v1) : Encoding.Statement (.graceExpiry v0 v1) := fun _ _ h => nomatch h
theorem Encoding.resume (v0 v1) : Encoding.Statement (.resume v0 v1) := fun _ _ h => nomatch h
theorem Encoding.thermalMigration (v0) : Encoding.Statement (.thermalMigration v0) := fun _ _ h => nomatch h
theorem Encoding.clcPoll (v0 v1) : Encoding.Statement (.clcPoll v0 v1) := fun _ _ h => nomatch h
theorem Encoding.containment (v0 v1) : Encoding.Statement (.containment v0 v1) := fun _ _ h => nomatch h
theorem Encoding.scrub (v0 v1 v2) : Encoding.Statement (.scrub v0 v1 v2) := fun _ _ h => nomatch h
theorem Encoding.timeCorrection (v0 v1) : Encoding.Statement (.timeCorrection v0 v1) := fun _ _ h => nomatch h
theorem Encoding.samplingPulse (v0) : Encoding.Statement (.samplingPulse v0) := fun _ _ h => nomatch h
theorem Encoding.pmcOverflow (v0 v1) : Encoding.Statement (.pmcOverflow v0 v1) := fun _ _ h => nomatch h
theorem Encoding.flitRetry (v0) : Encoding.Statement (.flitRetry v0) := fun _ _ h => nomatch h
theorem Encoding.portDown (v0) : Encoding.Statement (.portDown v0) := fun _ _ h => nomatch h
theorem Encoding.linkDown (v0) : Encoding.Statement (.linkDown v0) := fun _ _ h => nomatch h
theorem Encoding.reset (v0 v1 v2) : Encoding.Statement (.reset v0 v1 v2) := fun _ _ h => nomatch h
theorem Encoding.createPartition (v0 v1 v2 v3 v4) : Encoding.Statement (.createPartition v0 v1 v2 v3 v4) := fun _ _ h => nomatch h
theorem Encoding.destroyPartition (v0) : Encoding.Statement (.destroyPartition v0) := fun _ _ h => nomatch h
theorem Encoding.createContext (v0 v1) : Encoding.Statement (.createContext v0 v1) := fun _ _ h => nomatch h
theorem Encoding.createQueue (v0 v1 v2 v3 v4) : Encoding.Statement (.createQueue v0 v1 v2 v3 v4) := fun _ _ h => nomatch h
theorem Encoding.resumeQueue (v0) : Encoding.Statement (.resumeQueue v0) := fun _ _ h => nomatch h
theorem Encoding.resetQueue (v0) : Encoding.Statement (.resetQueue v0) := fun _ _ h => nomatch h
theorem Encoding.killContext (v0) : Encoding.Statement (.killContext v0) := fun _ _ h => nomatch h
theorem Encoding.quote (v0 v1) : Encoding.Statement (.quote v0 v1) := fun _ _ h => nomatch h
theorem Encoding.liveUpdate (v0 v1 v2) : Encoding.Statement (.liveUpdate v0 v1 v2) := fun _ _ h => nomatch h
theorem Encoding.version (v0 v1) : Encoding.Statement (.version v0 v1) := fun _ _ h => nomatch h
theorem Encoding.gracePeriod (v0 v1) : Encoding.Statement (.gracePeriod v0 v1) := fun _ _ h => nomatch h
theorem Encoding.retiredClusters (v0 v1) : Encoding.Statement (.retiredClusters v0 v1) := fun _ _ h => nomatch h
theorem Encoding.memorySliceAccess (v0) : Encoding.Statement (.memorySliceAccess v0) := fun _ _ h => nomatch h
theorem Encoding.destroyContext (v0) : Encoding.Statement (.destroyContext v0) := fun _ _ h => nomatch h
theorem Encoding.destroyQueue (v0) : Encoding.Statement (.destroyQueue v0) := fun _ _ h => nomatch h
theorem Encoding.portTrained (v0) : Encoding.Statement (.portTrained v0) := fun _ _ h => nomatch h
theorem Encoding.offsetAbsorbed : Encoding.Statement .offsetAbsorbed := fun _ _ h => nomatch h
theorem Encoding.sliceOrSwitchFailure (v0 v1) : Encoding.Statement (.sliceOrSwitchFailure v0 v1) := fun _ _ h => nomatch h
theorem Encoding.shardArrival (v0 v1 v2) : Encoding.Statement (.shardArrival v0 v1 v2) := fun _ _ h => nomatch h

/-! ### `wrsys` (R108): its rows by register number -/

/-- What the decoder reads from the encoding of a `wrsys`. -/
theorem rawWrsys_packTI (a : BitVec 5) (imm : BitVec 22) : raw 0xFB#8 0 (packTI 0 a imm) = some (
    if imm.extractLsb' 0 12 = 0x000#12 then .wrsysStat a else
    if imm.extractLsb' 0 12 = 0x001#12 then .wrsysTm a else
    if imm.extractLsb' 4 8 = 0x07#8 then .wrsysSegment (imm.extractLsb' 1 3) (imm.extractLsb' 0 1) a else
    if imm.extractLsb' 2 10 = 0x018#10 then .wrsysWin (imm.extractLsb' 0 2) a else
    if imm.extractLsb' 2 10 = 0x028#10 then .wrsysCb (imm.extractLsb' 0 2) a else
    if imm.extractLsb' 0 12 = 0x0A9#12 then .wrsysMcbase a else
    if imm.extractLsb' 2 10 = 0x039#10 then .wrsysPmsel (imm.extractLsb' 0 2) a else
    if imm.extractLsb' 2 10 = 0x038#10 then .wrsysPmc (imm.extractLsb' 0 2) a else .wrsys (imm.extractLsb' 0 12) a) := by
  simp [raw, rawF, rawWrsys, packTI_low]
theorem Encoding.wrsysStat (a) : Encoding.Statement (.wrsysStat a) := by
  intro _ e h; cases h; exact rawWrsys_packTI a _
theorem Encoding.wrsysTm (a) : Encoding.Statement (.wrsysTm a) := by
  intro _ e h; cases h; exact rawWrsys_packTI a _
theorem Encoding.wrsysMcbase (a) : Encoding.Statement (.wrsysMcbase a) := by
  intro _ e h; cases h; exact rawWrsys_packTI a _
theorem Encoding.wrsysSegment (n kd a) : Encoding.Statement (.wrsysSegment n kd a) := by
  intro _ e h; cases h
  refine (rawWrsys_packTI a _).trans (congrArg some ?_)
  have k : ∀ n : BitVec 3, ∀ kd : BitVec 1, (0#15 ++ 7#3 ++ n ++ kd : BitVec 22).extractLsb' 0 12 ≠ 0x000#12 ∧
      (0#15 ++ 7#3 ++ n ++ kd : BitVec 22).extractLsb' 0 12 ≠ 0x001#12 ∧
      (0#15 ++ 7#3 ++ n ++ kd : BitVec 22).extractLsb' 4 8 = 0x07#8 ∧
      (0#15 ++ 7#3 ++ n ++ kd : BitVec 22).extractLsb' 1 3 = n ∧
      (0#15 ++ 7#3 ++ n ++ kd : BitVec 22).extractLsb' 0 1 = kd := by decide
  simp only [k, if_true, if_false]
  try rfl
theorem Encoding.wrsysWin (m a) : Encoding.Statement (.wrsysWin m a) := by
  intro _ e h; cases h
  refine (rawWrsys_packTI a _).trans (congrArg some ?_)
  have k : ∀ m : BitVec 2, (0#14 ++ 0x18#6 ++ m : BitVec 22).extractLsb' 0 12 ≠ 0x000#12 ∧
      (0#14 ++ 0x18#6 ++ m : BitVec 22).extractLsb' 0 12 ≠ 0x001#12 ∧
      (0#14 ++ 0x18#6 ++ m : BitVec 22).extractLsb' 4 8 ≠ 0x07#8 ∧
      (0#14 ++ 0x18#6 ++ m : BitVec 22).extractLsb' 2 10 = 0x018#10 ∧
      (0#14 ++ 0x18#6 ++ m : BitVec 22).extractLsb' 0 2 = m := by decide
  simp only [k, if_true, if_false]
  try rfl
theorem Encoding.wrsysCb (n a) : Encoding.Statement (.wrsysCb n a) := by
  intro _ e h; cases h
  refine (rawWrsys_packTI a _).trans (congrArg some ?_)
  have k : ∀ n : BitVec 2, (0#14 ++ 0x28#6 ++ n : BitVec 22).extractLsb' 0 12 ≠ 0x000#12 ∧
      (0#14 ++ 0x28#6 ++ n : BitVec 22).extractLsb' 0 12 ≠ 0x001#12 ∧
      (0#14 ++ 0x28#6 ++ n : BitVec 22).extractLsb' 4 8 ≠ 0x07#8 ∧
      (0#14 ++ 0x28#6 ++ n : BitVec 22).extractLsb' 2 10 ≠ 0x018#10 ∧
      (0#14 ++ 0x28#6 ++ n : BitVec 22).extractLsb' 2 10 = 0x028#10 ∧
      (0#14 ++ 0x28#6 ++ n : BitVec 22).extractLsb' 0 2 = n := by decide
  simp only [k, if_true, if_false]
  try rfl
theorem Encoding.wrsysPmsel (n a) : Encoding.Statement (.wrsysPmsel n a) := by
  intro _ e h; cases h
  refine (rawWrsys_packTI a _).trans (congrArg some ?_)
  have k : ∀ n : BitVec 2, (0#14 ++ 0x39#6 ++ n : BitVec 22).extractLsb' 0 12 ≠ 0x000#12 ∧
      (0#14 ++ 0x39#6 ++ n : BitVec 22).extractLsb' 0 12 ≠ 0x001#12 ∧
      (0#14 ++ 0x39#6 ++ n : BitVec 22).extractLsb' 4 8 ≠ 0x07#8 ∧
      (0#14 ++ 0x39#6 ++ n : BitVec 22).extractLsb' 2 10 ≠ 0x018#10 ∧
      (0#14 ++ 0x39#6 ++ n : BitVec 22).extractLsb' 2 10 ≠ 0x028#10 ∧
      (0#14 ++ 0x39#6 ++ n : BitVec 22).extractLsb' 0 12 ≠ 0x0A9#12 ∧
      (0#14 ++ 0x39#6 ++ n : BitVec 22).extractLsb' 2 10 = 0x039#10 ∧
      (0#14 ++ 0x39#6 ++ n : BitVec 22).extractLsb' 0 2 = n := by decide
  simp only [k, if_true, if_false]
  try rfl
theorem Encoding.wrsysPmc (n a) : Encoding.Statement (.wrsysPmc n a) := by
  intro _ e h; cases h
  refine (rawWrsys_packTI a _).trans (congrArg some ?_)
  have k : ∀ n : BitVec 2, (0#14 ++ 0x38#6 ++ n : BitVec 22).extractLsb' 0 12 ≠ 0x000#12 ∧
      (0#14 ++ 0x38#6 ++ n : BitVec 22).extractLsb' 0 12 ≠ 0x001#12 ∧
      (0#14 ++ 0x38#6 ++ n : BitVec 22).extractLsb' 4 8 ≠ 0x07#8 ∧
      (0#14 ++ 0x38#6 ++ n : BitVec 22).extractLsb' 2 10 ≠ 0x018#10 ∧
      (0#14 ++ 0x38#6 ++ n : BitVec 22).extractLsb' 2 10 ≠ 0x028#10 ∧
      (0#14 ++ 0x38#6 ++ n : BitVec 22).extractLsb' 0 12 ≠ 0x0A9#12 ∧
      (0#14 ++ 0x38#6 ++ n : BitVec 22).extractLsb' 2 10 ≠ 0x039#10 ∧
      (0#14 ++ 0x38#6 ++ n : BitVec 22).extractLsb' 2 10 = 0x038#10 ∧
      (0#14 ++ 0x38#6 ++ n : BitVec 22).extractLsb' 0 2 = n := by decide
  simp only [k, if_true, if_false]
  try rfl
theorem Encoding.wrsys (num a) : Encoding.Statement (.wrsys num a) := by
  intro hw e h; cases h
  refine (rawWrsys_packTI a _).trans (congrArg some ?_)
  have hg : generalNum num = true := hw
  rw [lo_10_12]
  simp only [generalNum, Bool.not_eq_true', Bool.or_eq_false_iff, Bool.and_eq_false_iff, decide_eq_false_iff_not, beq_eq_false_iff_ne] at hg
  have s4 : (0#10 ++ num : BitVec 22).extractLsb' 4 8 = num.extractLsb' 4 8 :=
    BitVec.extractLsb'_append_eq_of_add_le (w := 12) (by decide)
  have s2 : (0#10 ++ num : BitVec 22).extractLsb' 2 10 = num.extractLsb' 2 10 :=
    BitVec.extractLsb'_append_eq_of_add_le (w := 12) (by decide)
  have n4 : (num.extractLsb' 4 8).toNat = num.toNat / 16 % 256 := by simp [BitVec.extractLsb'_toNat, Nat.shiftRight_eq_div_pow]
  have n2 : (num.extractLsb' 2 10).toNat = num.toNat / 4 % 1024 := by simp [BitVec.extractLsb'_toNat, Nat.shiftRight_eq_div_pow]
  have hlt := num.isLt
  rw [s4, s2, if_neg, if_neg, if_neg, if_neg, if_neg, if_neg, if_neg, if_neg] <;> (intro hc; have hd := congrArg BitVec.toNat hc; (try simp only [n4, n2] at hd); simp at hd; omega)

end Sys2Proof.Laws
end

