-- ==== Sys2Proof/Laws/Turn.lean ====
section
/-! SUPPORT. What the next step is, said once: the agenda's first item where nothing comes before it, what comes before it, and that a
core takes one turn in a cycle; what a boundary, a counter's selection and an agent's update come to. -/

namespace Sys2Proof.Machine

/-- A core that has begun in this cycle does not begin again (R91). -/
theorem State.nextSlot_begun {s : State} {c : Nat} (h : (s.core c).lastTurn = some s.cycle) : s.nextSlot c ≠ some none := by
  simp [State.nextSlot, h]
/-- A core that begins a cycle takes the slot that `choice` names (R91). -/
theorem State.beginTurn_pick (s : State) (c : Nat) : ((s.beginTurn c).core c).pick = (s.choice c).1 := by
  simp only [State.beginTurn, State.count]
  split <;> exact congrArg CoreState.pick (State.core_setCore_self ..)
/-- What a core's service is: it begins, or serves a slot. -/
theorem State.service_cases (s : State) (c : Nat) (o : Option (Fin 16)) :
    s.service c o = .next (({ s with phase := beginPlace c } : State).beginTurn c) ∨
    ∃ i, o = some i ∧ s.service c o = ({ s with phase := servePlace c i.val } : State).serveSlot c i := by
  cases o with
  | none => exact .inl rfl
  | some i => exact .inr ⟨i, rfl, rfl⟩
/-- Where nothing comes before the agenda's first item, the step takes it. -/
theorem State.advanceAgenda_item {s : State} {a : Agenda} {r : List Agenda} (h : s.agenda = a :: r) (ha : s.ahead a = none) :
    s.advanceAgenda = { s with agenda := r, phase := s.placeOf a }.item a := by
  simp [State.advanceAgenda, h, ha]
/-- What comes before an item is what the step does, and the item stays where it is. -/
theorem State.advanceAgenda_ahead {s : State} {a : Agenda} {r : List Agenda} {o : Out} (h : s.agenda = a :: r)
    (ha : s.ahead a = some o) : s.advanceAgenda = o := by
  simp [State.advanceAgenda, h, ha]
/-- All that can come before an item: the end of the cycle in which its place has passed, or what the cycle must bring first. -/
theorem State.ahead_cases {s : State} {a : Agenda} {o : Out} (h : s.ahead a = some o) :
    (s.placeOf a < s.phase ∧ o = s.endCycle) ∨ (s.phase ≤ s.placeOf a ∧ s.before (s.placeOf a) = some o) := by
  unfold State.ahead at h
  split at h
  · exact .inl ⟨‹_›, (Option.some.inj h).symm⟩
  · exact .inr ⟨by omega, h⟩
/-- All that a cycle can bring before a place: a re-check round, a seeded thread, a core's service, an atomic of a core's own, what a
replay's log or a waiting producer brings, a kernel's completion, or an end that a deadline brings. -/
theorem State.before_cases {s : State} {limit : Nat} {o : Out} (h : s.before limit = some o) :
    (∃ c w, s.dueRound = some (c, w) ∧ o = .next ({ s with phase := placeIn 0 2 }.feRecheck c w)) ∨
    (∃ c, s.dueSeed limit = some c ∧ o = .next ({ s with phase := offerPlace c }.offer c)) ∨
    (∃ c i, s.dueSlot limit = some (c, i) ∧ o = s.service c i) ∨
    (∃ a r, s.amos = a :: r ∧ o = .next ({ s with amos := r, phase := max s.phase (placeIn 5 0) }.ownAtomic a)) ∨
    (∃ t, (s.dueReplay = some t ∨ s.dueProducer = some t) ∧ o = .next { t with phase := max s.phase (placeIn 5 0) }) ∨
    (placeIn 8 0 ≤ limit ∧ ∃ k, s.dueKernel = some k ∧ o = .next ({ s with phase := max s.phase (placeIn 7 1) }.tryComplete k)) ∨
    (placeIn 8 0 ≤ limit ∧ ∃ t, s.firstChange (s.deadlines.filter (fun f => decide (f.1 < limit))) = some t ∧ o = .next t) := by
  unfold State.before at h
  split at h
  · next c w hr => split at hr
                   · exact .inl ⟨c, w, hr, (Option.some.inj h).symm⟩
                   · cases hr
  · split at h
    · exact .inr (.inl ⟨_, ‹_›, (Option.some.inj h).symm⟩)
    · split at h
      · exact .inr (.inr (.inl ⟨_, _, ‹_›, (Option.some.inj h).symm⟩))
      · split at h
        · cases h
        · split at h
          · exact .inr (.inr (.inr (.inl ⟨_, _, ‹_›, (Option.some.inj h).symm⟩)))
          · split at h
            · next u hu =>
              refine .inr (.inr (.inr (.inr (.inl ⟨u, ?_, (Option.some.inj h).symm⟩))))
              split at hu
              · exact .inl (hu ▸ ‹_›)
              · exact .inr hu
            · split at h
              · cases h
              · split at h
                · exact .inr (.inr (.inr (.inr (.inr (.inl ⟨by omega, _, ‹_›, (Option.some.inj h).symm⟩)))))
                · obtain ⟨t, ht, rfl⟩ := Option.map_eq_some_iff.mp h
                  exact .inr (.inr (.inr (.inr (.inr (.inr ⟨by omega, t, ht, rfl⟩)))))
/-- A cycle passes only when it has nothing left to bring. -/
theorem State.endCycle_tick {s : State} (h : s.before (placeIn 9 0) = none) : s.endCycle = .next s.tick := by
  simp [State.endCycle, h]
/-- R209, R210: a save keeps every strip of a thread in matrix mode. -/
theorem State.keptStrips_matrix (s : State) (c : Nat) (i : Fin 16) {t : Thread} (h : statM t.stat = true) :
    s.keptStrips c i t = t.claim.strips := by simp [State.keptStrips, h]
/-- R66: a thread that leaves its core keeps the line of an instruction in progress, and no other. -/
theorem Thread.dropLine_held (t : Thread) : t.dropLine.latched.isSome = true ∨ t.dropLine.held = none := by
  unfold Thread.dropLine
  split
  · exact .inl ‹_›
  · exact .inr rfl
/-- R66: so does a saved thread. -/
theorem State.savedThread_held (s : State) (c : Nat) (i : Fin 16) (t : Thread) :
    (s.savedThread c i t).latched.isSome = true ∨ (s.savedThread c i t).held = none := Thread.dropLine_held _
/-- R246: with no request pending a boundary is passed over. -/
theorem State.boundary_none {s : State} (k : State → State) (h : s.boundaryDue s.cur s.th = false) : s.boundary k = k s := by
  simp [State.boundary, h]
/-- R246: with one pending the thread is held as the instruction leaves it. -/
theorem State.boundary_due {s : State} (k : State → State) (h0 : s.th.stage = 0) (h : s.boundaryDue s.cur s.th = true) :
    s.boundary k = (k s).holdSame s.th.uid := by simp [State.boundary, h, h0]
/-- R396: a counter whose selection has not been written in this cycle counts what it selects. -/
theorem State.selects_settled {s : State} {c : Nat} {n : Fin 4} (h : ∀ e, (s.core c).selWas[n] ≠ some (s.cycle, e)) :
    s.selects c n = (s.core c).pmsel[n] := by
  unfold State.selects
  split
  · next m e he => split
                   · next hm => exact absurd (hm ▸ he) (h e)
                   · rfl
  · rfl
/-- R230, R372: an update with none of its context before it is done at once at a home that can be reached. -/
theorem State.update_done {s : State} {u : Update} {h : Home} (h0 : s.updates = []) (hh : s.updateHome u.ctx u.dva = .ok h) :
    s.update u = s.updateAt u.ctx h u.kind := by simp [State.update, h0, hh]
/-- R372: no access waits at a home of this package. -/
@[simp] theorem State.reachable_own (s : State) {h : Home} (hh : h.remote = false) : s.reachable h = true := by
  simp [State.reachable, hh]

end Sys2Proof.Machine
end

