-- ==== Sys2Proof/Tests/Slice0.lean ====
section
/-! SUPPORT. Tests: words of every encoding, written out from the manual, decode as they should; ill-formed terms are refused; and for
every obligation with hypotheses a state and operands that meet them, clause by clause: `witness_X` for the obligation `X`, and for the obligations that gather several drafts: ScalarResults:
IntegerResults, IntegerImmediates, FloatResults, FloatCompare; LocalAccesses: LocalLoads, LocalStores; RemoteAccesses: RemoteLoads,
RemoteStores; Atomics: LocalAtomics, DeviceAtomics; FullEmptyAccesses: FullEmpty, FullEmptyWaits, RecheckRounds; RequestsAndReplies: RemoteRequests, Replies; ThreadsMove:
PackAndArrive, SlotOffers; ForksAndJoins: Forks, Joins; ResampleDealsAndCompletes: CombDealsAll, ResampleCompletes; Barriers:
GroupBarriers, BarrierTraps; Messages: Mailboxes, MailArrives; TracesAndTime: StepMarks, TraceAndTime; CarouselSteps:
CarouselCommands, CarouselSteps. -/

namespace Sys2Proof.Tests
open Sys2Proof Sys2Proof.Machine
set_option Elab.async false


/-! ### Decoding: words written from the encodings of the entries, of every instruction that has one -/

/-- Every word of a list, with its number of bits, decodes to the instruction beside it. -/
def decodesAll (l : List (Nat × Nat × Instr)) : Bool := l.all (fun r => decodeTableWord r.1 r.2.1 == some r.2.2)
/-- No word of a list decodes. -/
def refusesAll (l : List (Nat × Nat)) : Bool := l.all (fun r => decodeTableWord r.1 r.2 == none)

/-- R49 to R56, R70, R71, R112 to R128: words of the scalar family, in the order of the table. -/
def scalarWords1 : List (Nat × Nat × Instr) := [
  (16, 0x0000, .nop),
  (32, 0x40102CB6, .add 5 0x12 0x1b),
  (32, 0x40202CB6, .sub 5 0x12 0x1b),
  (32, 0x40302CB6, .mul 5 0x12 0x1b),
  (32, 0x40402CB6, .mulh 5 0x12 0x1b),
  (32, 0x40502CB6, .mulhu 5 0x12 0x1b),
  (32, 0x40602CB6, .div 5 0x12 0x1b),
  (32, 0x40702CB6, .divu 5 0x12 0x1b),
  (32, 0x40802CB6, .rem 5 0x12 0x1b),
  (32, 0x40902CB6, .remu 5 0x12 0x1b),
  (32, 0x40A02CB6, .andR 5 0x12 0x1b),
  (32, 0x40B02CB6, .orR 5 0x12 0x1b),
  (32, 0x40C02CB6, .xorR 5 0x12 0x1b),
  (32, 0x40D02CB6, .sll 5 0x12 0x1b),
  (32, 0x40E02CB6, .srl 5 0x12 0x1b),
  (32, 0x40F02CB6, .sra 5 0x12 0x1b),
  (32, 0x41002CB6, .slt 5 0x12 0x1b),
  (32, 0x41102CB6, .sltu 5 0x12 0x1b),
  (32, 0x41202CB6, .minR 5 0x12 0x1b),
  (32, 0x41302CB6, .maxR 5 0x12 0x1b),
  (32, 0x41402CB6, .minu 5 0x12 0x1b),
  (32, 0x41502CB6, .maxu 5 0x12 0x1b),
  (32, 0x41602C80, .clz 5 0x12),
  (32, 0x41702C80, .ctz 5 0x12)]
theorem test_decode_scalar1 : decodesAll scalarWords1 = true := by decide +kernel

/-- R49 to R56, R70, R71, R112 to R128: words of the scalar family, in the order of the table. -/
def scalarWords2 : List (Nat × Nat × Instr) := [
  (32, 0x41802C80, .popc 5 0x12),
  (32, 0x41902C80, .mov 5 0x12),
  (48, 0x82002CAABCDE, .addi 5 0x12 0x2abcde),
  (48, 0x82102CAABCDE, .andi 5 0x12 0x2abcde),
  (48, 0x82202CAABCDE, .ori 5 0x12 0x2abcde),
  (48, 0x82302CAABCDE, .xori 5 0x12 0x2abcde),
  (48, 0x82402CAABCDE, .slti 5 0x12 0x2abcde),
  (48, 0x82502C80002D, .slli 5 0x12 0x2d),
  (48, 0x82602C80002D, .srli 5 0x12 0x2d),
  (48, 0x82702C80002D, .srai 5 0x12 0x2d),
  (48, 0x8280282ABCDE, .li 5 0x2abcde),
  (80, 0xC297123456789ABCDEF0, .liL 7 0x123456789abcdef0),
  (48, 0x82A02CB6000C, .sel 5 0x12 0x1b 0xc),
  (48, 0x82B02C800248, .ext 5 0x12 8 9),
  (48, 0x82C02CB60248, .ins 5 0x12 0x1b 8 9),
  (48, 0x84002CB75432, .beq 0x12 0x1b 5 0x15432),
  (48, 0x84102CB75432, .bne 0x12 0x1b 5 0x15432),
  (48, 0x84202CB75432, .blt 0x12 0x1b 5 0x15432),
  (48, 0x84302CB75432, .bge 0x12 0x1b 5 0x15432),
  (48, 0x84402CB75432, .bltu 0x12 0x1b 5 0x15432),
  (48, 0x84502CB75432, .bgeu 0x12 0x1b 5 0x15432),
  (48, 0x846028015432, .j 5 0x15432),
  (48, 0x84702C815432, .jal 0x12 5 0x15432),
  (32, 0x44800480, .jr 0x12)]
theorem test_decode_scalar2 : decodesAll scalarWords2 = true := by decide +kernel

/-- R49 to R56, R70, R71, R112 to R128: words of the scalar family, in the order of the table. -/
def scalarWords3 : List (Nat × Nat × Instr) := [
  (32, 0x44902C80, .jalr 5 0x12),
  (32, 0x45012CB6, .fadd 1 5 0x12 0x1b),
  (32, 0x45112CB6, .fsub 1 5 0x12 0x1b),
  (32, 0x45212CB6, .fmul 1 5 0x12 0x1b),
  (32, 0x45312CB6, .fdiv 1 5 0x12 0x1b),
  (32, 0x45412C80, .fsqrt 1 5 0x12),
  (32, 0x45512CB6, .fmin 1 5 0x12 0x1b),
  (32, 0x45612CB6, .fmax 1 5 0x12 0x1b),
  (32, 0x45752CB6, .fcmp 2 1 5 0x12 0x1b),
  (32, 0x45812C80, .fclass 1 5 0x12),
  (32, 0x45952CB6, .fsgn 2 1 5 0x12 0x1b),
  (48, 0x85A12CB6000C, .ffma 1 5 0x12 0x1b 0xc),
  (32, 0x45B92C80, .fcvt 9 5 0x12)]
theorem test_decode_scalar3 : decodesAll scalarWords3 = true := by decide +kernel

/-- R149 to R159, R174: words of the memory family, in the order of the table. -/
def memoryWords : List (Nat × Nat × Instr) := [
  (48, 0x87062C9B5432, .ld 6 5 0x12 0xd 0x15432),
  (48, 0x8713A4B75432, .st 3 0x14 0x12 0x1b 0x15432),
  (48, 0x87262C895432, .ldfe 6 5 0x12 4 0x15432),
  (48, 0x87321CB75432, .stfe 3 0x12 0x1b 0x15432),
  (48, 0x87422C8B5432, .ldff 2 5 0x12 5 0x15432),
  (48, 0x875104815432, .feset 1 0x12 0x15432),
  (48, 0x87632CB6001D, .amoAdd 3 5 0x12 0x1b 0x1d),
  (48, 0x87732CB6001D, .amoAnd 3 5 0x12 0x1b 0x1d),
  (48, 0x87832CB6001D, .amoOr 3 5 0x12 0x1b 0x1d),
  (48, 0x87932CB6001D, .amoXor 3 5 0x12 0x1b 0x1d),
  (48, 0x87A32CB6001D, .amoMin 3 5 0x12 0x1b 0x1d),
  (48, 0x87B32CB6001D, .amoMax 3 5 0x12 0x1b 0x1d),
  (48, 0x87C32CB6001D, .amoMinu 3 5 0x12 0x1b 0x1d),
  (48, 0x87D32CB6001D, .amoMaxu 3 5 0x12 0x1b 0x1d),
  (48, 0x87E32CB6001D, .amoSwap 3 5 0x12 0x1b 0x1d),
  (80, 0xC7F22CB6C00B00000B41, .amoCas 2 5 0x12 0x1b 0xc 0xb 0xb41),
  (48, 0x88022CB60005, .amoFadd 2 5 0x12 0x1b 5),
  (16, 0x081D, .fence 1 5),
  (48, 0x88262CB75432, .lea 6 5 0x12 0x1b 0x15432),
  (32, 0x48312C80, .segq 1 5 0x12)]
theorem test_decode_memory : decodesAll memoryWords = true := by decide +kernel

/-- R95, R104 to R107, R244 to R264, R277, R280, R349: words of the thread family, in the order of the table. -/
def threadWords : List (Nat × Nat × Instr) := [
  (32, 0x49000480, .mig 0x12),
  (48, 0x8910280000F3, .tmask 0 5 0 0xf3),
  (48, 0x89212C995432, .fork 1 0x12 0xc 5 0x15432),
  (32, 0x49300480, .join 0x12),
  (16, 0x0940, .yield),
  (16, 0x0950, .halt),
  (32, 0x49602C80, .resamp 5 0x12),
  (32, 0x49700480, .wset 0x12),
  (32, 0x49812CB6, .barArrive 1 5 0x12 0x1b),
  (32, 0x499104B6, .barWait 1 0x12 0x1b),
  (32, 0x49A104B6, .barSync 1 0x12 0x1b),
  (32, 0x49B02CB6, .msend 0 5 0x12 0x1b),
  (16, 0x09C1, .mwait 1),
  (32, 0x49D12C80, .mpop 1 5 0x12),
  (32, 0x49E22800, .cbwait 2 5),
  (32, 0x49F20000, .cbrel 2),
  (32, 0x4A022C80, .cbput 2 5 0x12),
  (48, 0x8A1000000081, .dwait 0x81),
  (32, 0x4A202CB6, .nqput 5 0x12 0x1b),
  (32, 0x4A300480, .nqdone 0x12),
  (32, 0x4A400480, .cxsave 0x12),
  (32, 0x4A500480, .cxload 0x12),
  (32, 0x4A602C80, .stepmark 5 0x12)]
theorem test_decode_thread : decodesAll threadWords = true := by decide +kernel

/-- R58, R192, R195 to R210, R331: words of the vector family, in the order of the table. -/
def vectorWords1 : List (Nat × Nat × Instr) := [
  (32, 0x4B002C80, .vclaim 5 0x12),
  (32, 0x4B102800, .vrenew 5),
  (16, 0x0B20, .vfree),
  (32, 0x4B302800, .vlen 5),
  (16, 0x0B41, .mmode 1),
  (48, 0x8B5D2CB75432, .vld 0xd 5 0x12 0x1b 0x15432),
  (48, 0x8B602C815432, .vst 0 5 0x12 0 0x15432),
  (48, 0x8B7E2C935432, .vldx 0xe 5 0x12 9 0x15432),
  (48, 0x8B882C935432, .vstx 8 5 0x12 9 0x15432),
  (32, 0x4B9C2CB6, .vadd 0xc 5 0x12 0x1b),
  (32, 0x4BAC2CB6, .vsub 0xc 5 0x12 0x1b),
  (32, 0x4BBC2CB6, .vmul 0xc 5 0x12 0x1b),
  (32, 0x4BCC2CB6, .vmin 0xc 5 0x12 0x1b),
  (32, 0x4BDC2CB6, .vmax 0xc 5 0x12 0x1b),
  (32, 0x4BEC2C80, .vabs 0xc 5 0x12),
  (32, 0x4BFC2C80, .vneg 0xc 5 0x12),
  (32, 0x4C0C2CB6, .vand 0xc 5 0x12 0x1b),
  (32, 0x4C1C2CB6, .vor 0xc 5 0x12 0x1b),
  (32, 0x4C2C2CB6, .vxor 0xc 5 0x12 0x1b),
  (32, 0x4C3C2CB6, .vshl 0xc 5 0x12 0x1b),
  (32, 0x4C4C2CB6, .vshr 0xc 5 0x12 0x1b),
  (32, 0x4C5C2CB6, .vsra 0xc 5 0x12 0x1b),
  (32, 0x4C6C2CB6, .vfadd 0xc 5 0x12 0x1b),
  (32, 0x4C7C2CB6, .vfsub 0xc 5 0x12 0x1b)]
theorem test_decode_vector1 : decodesAll vectorWords1 = true := by decide +kernel

/-- R58, R192, R195 to R210, R331: words of the vector family, in the order of the table. -/
def vectorWords2 : List (Nat × Nat × Instr) := [
  (32, 0x4C8C2CB6, .vfmul 0xc 5 0x12 0x1b),
  (48, 0x8C9A2CB6000C, .vffma 0xa 5 0x12 0x1b 0xc),
  (32, 0x4CAC2CB6, .vfmin 0xc 5 0x12 0x1b),
  (32, 0x4CBC2CB6, .vfmax 0xc 5 0x12 0x1b),
  (32, 0x4CCC2CB6, .vfdiv 0xc 5 0x12 0x1b),
  (32, 0x4CDC2C9C, .vcvt 0xc 5 0x12 0xe),
  (32, 0x4CE710B6, .vcmp 7 2 2 0x1b),
  (32, 0x4CF42CB6, .vsel 2 5 0x12 0x1b),
  (32, 0x4D000886, .vpand 1 2 3),
  (32, 0x4D100886, .vpor 1 2 3),
  (32, 0x4D200880, .vpnot 1 2),
  (32, 0x4D3D2C80, .vredadd 0xd 5 0x12),
  (32, 0x4D4D2C80, .vredmin 0xd 5 0x12),
  (32, 0x4D5D2C80, .vredmax 0xd 5 0x12),
  (32, 0x4D6D2C80, .vbcast 0xd 5 0x12),
  (48, 0x8D7C2CB7FFFF, .vslide 0xc 5 0x12 0x1b 0x1ffff),
  (32, 0x4D8C2CB6, .vperm 0xc 5 0x12 0x1b),
  (32, 0x4D902CA4, .vexp2 0x12 5 0x12),
  (32, 0x4D912CA4, .vlog2 0x12 5 0x12),
  (32, 0x4D922CA4, .vrcp 0x12 5 0x12),
  (32, 0x4D932CA4, .vrsq 0x12 5 0x12),
  (32, 0x4D942CA4, .vsqrt 0x12 5 0x12),
  (32, 0x4D952CA4, .vsinpi 0x12 5 0x12),
  (32, 0x4D962CA4, .vcospi 0x12 5 0x12)]
theorem test_decode_vector2 : decodesAll vectorWords2 = true := by decide +kernel

/-- R58, R192, R195 to R210, R331: words of the vector family, in the order of the table. -/
def vectorWords3 : List (Nat × Nat × Instr) := [
  (80, 0xCDA82219200000000000, .vrtri 8 4 8 0xc 0x12)]
theorem test_decode_vector3 : decodesAll vectorWords3 = true := by decide +kernel

/-- R210 to R224, R285 to R294, R312, R327, R350, R365, R367, R394, R395: words of the system family, in the order of the table. -/
def systemWords1 : List (Nat × Nat × Instr) := [
  (48, 0x8E0104800B41, .mop 1 0x12 0xb41),
  (48, 0x8E1004B60B41, .bload 0x12 0x1b 0xb41),
  (48, 0x8E2000000B41, .bpass 0xb41),
  (48, 0x8E2100000B41, .bpassDrop 0xb41),
  (16, 0x0E31, .mzero 1),
  (32, 0x4E4004B6, .tbset 0x12 0x1b),
  (32, 0x4E500480, .fmtset 0x12),
  (32, 0x4E6004B6, .sclset 0x12 0x1b),
  (48, 0x8E8104B6CB41, .crpool 1 0x12 0x1b 0xc 0xb41),
  (48, 0x8E902CB60B41, .crsub 0 5 0x12 0x1b 0xb41),
  (48, 0x8EA500360B41, .crunsub 5 0 0 0x1b 0xb41),
  (48, 0x8EB004800B41, .crskip 0x12 0xb41),
  (48, 0x8EC004800B41, .crpromote 0x12 0xb41),
  (48, 0x8ED02C800B41, .crlap 5 0x12 0xb41),
  (48, 0x8ED12C800B41, .crlapW 5 0x12 0xb41),
  (48, 0x8F0004800B41, .cpy 0x12 0xb41),
  (48, 0x8F1004800B41, .cpgx 0x12 0xb41),
  (48, 0x8F2004800B41, .cpsx 0x12 0xb41),
  (48, 0x8F3004800B41, .cpmc 0x12 0xb41),
  (16, 0x0F40, .cpclose),
  (48, 0x8F5000000010, .cpwait 0x10),
  (32, 0x4F600480, .cpinval 0x12),
  (32, 0x4F610000, .cpinvalAll),
  (48, 0x8F7004802041, .publish 0x12 2 0x41)]
theorem test_decode_system1 : decodesAll systemWords1 = true := by decide +kernel

/-- R210 to R224, R285 to R294, R312, R327, R350, R365, R367, R394, R395: words of the system family, in the order of the table. -/
def systemWords2 : List (Nat × Nat × Instr) := [
  (48, 0x8F802C801234, .trap 5 0x12 0x1234),
  (16, 0x0F90, .eret),
  (16, 0x0F91, .wfi),
  (16, 0x0F92, .ptsync),
  (48, 0x8FA028000043, .rdsys 5 0x43),
  (48, 0x8FB0048000D0, .wrsys 0xd0 0x12),
  (48, 0x8FB004800000, .wrsysStat 0x12),
  (48, 0x8FB004800001, .wrsysTm 0x12),
  (48, 0x8FB00480007B, .wrsysSegment 5 1 0x12),
  (48, 0x8FB004800062, .wrsysWin 2 0x12),
  (48, 0x8FB0048000A3, .wrsysCb 3 0x12),
  (48, 0x8FB0048000A9, .wrsysMcbase 0x12),
  (48, 0x8FB0048000E6, .wrsysPmsel 2 0x12),
  (48, 0x8FB0048000E1, .wrsysPmc 1 0x12),
  (16, 0x0FC9, .brk 9),
  (48, 0x8FD004800012, .tmark 0x12 0x12),
  (32, 0x4FE00480, .tlbinv 0x12),
  (32, 0x4FF00480, .cflush 0x12)]
theorem test_decode_system2 : decodesAll systemWords2 = true := by decide +kernel

/-- The words of the manual's worked listings (R196, R327; the listings of chapters 11, 18, 29). -/
def manualWords : List (Nat × Nat × Instr) := [
  (48, 0x8B5028800040, .vld 0 5 2 0 64),
  (48, 0x8E90190A0000, .crsub 0 3 4 5 0),
  (48, 0x8F7001402000, .publish 5 2 0),
  (48, 0x8E10011A0800, .bload 4 13 0x800),
  (48, 0x8E0000C00001, .mop 0 3 1),
  (48, 0x8F0001000900, .cpy 4 0x900),
  (48, 0x8F5000000000, .cpwait 0),
  (16, 0x0E30, .mzero 0)]
theorem test_decode_manual : decodesAll manualWords = true := by decide +kernel

/-- Words that break one rule each: a reserved bit of the tail, an undefined X, an undefined opcode, a length code that is not the
opcode's, `ext` with pos + len above 64, a plain order on an atomic, SET without SE, `vp1` without PE, an odd register under `.e64`. -/
def brokenWords : List (Nat × Nat) := [
  (32, 0x40102CB7), (32, 0x40112CB6), (16, 0x0FF0), (48, 0x801000002CB6), (48, 0x82B02C800FFF), (48, 0x87632CB60007), (48, 0x8F0001000100),
  (32, 0x4B9208C4), (32, 0x4B912884)]
theorem test_decode_refuses : refusesAll brokenWords = true := by decide +kernel

/-! ### Well-formedness: a term that breaks each check is refused, beside one that meets it -/

theorem test_wf_sync : syncOk 0x100 = false ∧ syncOk 0x900 = true ∧ (Instr.amoCas 2 1 2 3 4 0 0x700).wf = false ∧
    (Instr.mop 0 1 0x100).wf = false ∧ (Instr.publish 1 2 0x800).wf = false ∧ (Instr.publish 1 6 0).wf = false := by decide
theorem test_wf_order : osOk true [0, 1] 0x07 = true ∧ osOk true [0, 1] 0x0F = false ∧ osOk true [0, 1] 0x10 = false ∧
    osOk true [0, 1] 0x06 = false ∧ osOk false [0] 0x07 = false ∧ (Instr.ld 2 1 2 0x10 0).wf = false ∧
    (Instr.st 2 0x08 1 2 0).wf = false ∧ (Instr.stfe 0x08 1 2 0).wf = false ∧ (Instr.amoAdd 2 1 2 3 0x07).wf = false := by decide
theorem test_wf_size : (Instr.ld 7 1 2 0 0).wf = false ∧ (Instr.st 4 0 1 2 0).wf = false ∧ (Instr.ldfe 3 1 2 0 0).wf = false ∧
    (Instr.ldff 1 1 2 0 0).wf = false ∧ (Instr.amoFadd 4 1 2 3 0).wf = false ∧ (Instr.ld 6 1 2 0 0).wf = true := by decide
theorem test_wf_scalar : (Instr.ext 1 2 1 63).wf = false ∧ (Instr.ext 1 2 0 63).wf = true ∧ (Instr.ins 1 2 3 63 1).wf = false ∧
    (Instr.fcmp 4 0 1 2 3).wf = false ∧ (Instr.fsgn 3 0 1 2 3).wf = false ∧ (Instr.fence 0 6).wf = false ∧
    (Instr.lea 8 1 2 0 0).wf = false ∧ (Instr.lea 1 1 2 0 0).wf = false ∧ (Instr.lea 0 1 2 3 0).wf = false := by decide
theorem test_wf_thread : (Instr.tmask 2 1 0 0).wf = false ∧ (Instr.tmask 0 1 2 0).wf = false ∧ (Instr.tmask 0 1 0 0x10000).wf = false ∧
    (Instr.tmask 1 1 2 1).wf = false ∧ (Instr.fork 0 1 2 3 0).wf = false ∧ (Instr.fork 1 1 13 3 0).wf = false ∧
    (Instr.barArrive 3 1 0 0).wf = false ∧ (Instr.barArrive 0 1 2 0).wf = false ∧ (Instr.barWait 2 0 1).wf = false ∧
    (Instr.barSync 0 0 1).wf = false ∧ (Instr.msend 1 1 2 3).wf = false := by decide
theorem test_wf_vector : (Instr.vadd 2 1 2 3).wf = false ∧ (Instr.vadd 0 16 2 3).wf = false ∧ (Instr.vadd 1 3 2 4).wf = false ∧
    (Instr.vadd 1 2 17 4).wf = true ∧ (Instr.vld 0 1 2 3 0).wf = false ∧ (Instr.vldx 1 2 2 4 0).wf = false ∧
    (Instr.vcvt 0 1 2 16).wf = false ∧ (Instr.vcvt 1 2 2 0).wf = false ∧ (Instr.vcmp 10 0 1 2).wf = false ∧ (Instr.vsel 0 16 1 2).wf = false ∧
    (Instr.vredadd 2 1 2).wf = false ∧ (Instr.vslide 1 2 2 4 0).wf = false ∧ (Instr.vperm 0 16 2 4).wf = false ∧
    (Instr.vexp2 4 1 2).wf = false ∧ (Instr.vexp2 1 1 2).wf = false ∧ (Instr.vexp2 0x11 1 2).wf = true ∧
    (Instr.vrtri 0 5 8 12 1).wf = false ∧ (Instr.vrtri 0 4 20 12 1).wf = false := by decide
theorem test_wf_system : (Instr.wrsys 0x001 1).wf = false ∧ (Instr.wrsys 0x063 1).wf = false ∧ (Instr.wrsys 0x07F 1).wf = false ∧
    (Instr.wrsys 0x0A3 1).wf = false ∧ (Instr.wrsys 0x0A9 1).wf = false ∧ (Instr.wrsys 0x0E7 1).wf = false ∧ (Instr.wrsys 0x0D0 1).wf = true ∧
    (Instr.cpwait 17).wf = false ∧ (Instr.crsub 0xB 0 0 1 0).wf = false ∧ (Instr.crsub 1 1 0 1 0).wf = false ∧
    (Instr.crsub 9 0 0 1 0).wf = true ∧ (Instr.crunsub 2 0 0 1 0).wf = false := by decide

/-! ### Witnesses: for every obligation, states and operands that meet the hypotheses of its clauses -/

/-- A Running thread of context 0 at instruction 1 of line 1. Segment k1 is LOCAL from the start of core 8, k2 GLOBAL from 0, each with
every right but X for k1; g1 names byte 0x2000 of the own store, g2 byte 64 of core 9, g3 DVA 0x8000, g4 is 5, g5 is −3, g6 is 0. -/
def th : Thread :=
  { uid := 7
    st := .running
    pc := 65
    g := ((((Vector.replicate 16 (0 : Word)).set 1 0x2000000000002000).set 2 0x2000000000040040).set 3 0x4000000000008000).set 4 5
      |>.set 5 0xFFFFFFFFFFFFFFFD
    kb := (Vector.replicate 8 (0 : Word)).set 1 0x200000
    kd := ((Vector.replicate 8 (0 : Word)).set 1 0xB4000000000FFFFF).set 2 0x7C0000003FFFFFFF
    claim := ⟨1, [0]⟩ }
/-- That thread in slot 3 of core 8, which runs it for context 0 of partition 1, with slice 0. -/
def st (t : Thread) : State :=
  { State.reset with
    cur := 8
    slot := 3
    nextUid := 100
    nextId := 50
    partitions := [(1, { slices := [0] })]
    contexts := [(0, { partition := 1, st := .active })]
    cores := [(8, { ctx := some 0, slots := (Vector.replicate 16 (none : Option Thread)).set 3 (some t) })] }
/-- The state with the issuing core changed. -/
def inCore (s : State) (f : CoreState → CoreState) : State := { s with cores := s.cores.map (fun p => (p.1, f p.2)) }
/-- The state with one page of 1 GiB, DVA 0 at address 0, in the port of cluster 1. -/
def mapped (s : State) : State := { s with clusters := [(1, { tlb := [⟨0, 30, 0, 0xE200000000000000⟩] })] }
/-- Page tables at 0x1000 that map DVA 0 to 2³⁰ − 1 at the same addresses. -/
def tables : Memory :=
  Memory.putNum (Memory.putNum (Memory.putNum [] 0x1000 8 0x8000000000002000) 0x2000 8 0x8000000000003000) 0x3000 8 0xE200000000000000
/-- What holds of every value an option holds, where a check of the option says so. -/
theorem of_all {α : Type} {o : Option α} {p : α → Bool} (h : o.all p = true) : ∀ u, o = some u → p u = true := by
  rintro u rfl; exact h

/-- Every scalar integer instruction but division has a result, written out for these operands: 5 and −3. -/
theorem witness_IntegerResults : (st th).thread.isSome = true ∧
    intResult .nop (st th) = some (0x1F, 0) ∧
    intResult (.add 7 4 5) (st th) = some (7, 2) ∧ intResult (.sub 7 4 5) (st th) = some (7, 8) ∧
    intResult (.mul 7 4 5) (st th) = some (7, 0xFFFFFFFFFFFFFFF1) ∧ intResult (.mulh 7 4 5) (st th) = some (7, 0xFFFFFFFFFFFFFFFF) ∧
    intResult (.mulhu 7 4 5) (st th) = some (7, 4) ∧ intResult (.andR 7 4 5) (st th) = some (7, 5) ∧
    intResult (.orR 7 4 5) (st th) = some (7, 0xFFFFFFFFFFFFFFFD) ∧ intResult (.xorR 7 4 5) (st th) = some (7, 0xFFFFFFFFFFFFFFF8) ∧
    intResult (.sll 7 4 5) (st th) = some (7, 0xA000000000000000) ∧ intResult (.srl 7 5 5) (st th) = some (7, 7) ∧
    intResult (.sra 7 5 4) (st th) = some (7, 0xFFFFFFFFFFFFFFFF) ∧ intResult (.slt 7 5 4) (st th) = some (7, 1) ∧
    intResult (.sltu 7 5 4) (st th) = some (7, 0) ∧ intResult (.minR 7 4 5) (st th) = some (7, 0xFFFFFFFFFFFFFFFD) ∧
    intResult (.maxR 7 4 5) (st th) = some (7, 5) ∧ intResult (.minu 7 4 5) (st th) = some (7, 5) ∧
    intResult (.maxu 7 4 5) (st th) = some (7, 0xFFFFFFFFFFFFFFFD) ∧ intResult (.clz 7 6) (st th) = some (7, 64) ∧
    intResult (.ctz 7 6) (st th) = some (7, 64) ∧ intResult (.popc 7 5) (st th) = some (7, 63) ∧ intResult (.mov 7 0x1E) (st th) = some (7, 8) := by
  and_intros <;> decide +kernel
theorem witness_IntegerImmediates : intResult (.addi 7 4 0x3FFFFF) (st th) = some (7, 4) ∧
    intResult (.andi 7 5 0x200000) (st th) = some (7, 0xFFFFFFFFFFE00000) ∧ intResult (.ori 7 4 0x3FFFF0) (st th) = some (7, 0xFFFFFFFFFFFFFFF5) ∧
    intResult (.xori 7 4 1) (st th) = some (7, 4) ∧ intResult (.slti 7 5 0x3FFFFE) (st th) = some (7, 1) ∧
    intResult (.slli 7 4 63) (st th) = some (7, 0x8000000000000000) ∧ intResult (.srli 7 5 63) (st th) = some (7, 1) ∧
    intResult (.srai 7 5 63) (st th) = some (7, 0xFFFFFFFFFFFFFFFF) ∧ intResult (.li 7 0x200000) (st th) = some (7, 0xFFFFFFFFFFE00000) ∧
    intResult (.liL 7 0x8000000000000001) (st th) = some (7, 0x8000000000000001) ∧ intResult (.sel 7 4 5 6) (st th) = some (7, 0xFFFFFFFFFFFFFFFD) ∧
    intResult (.ext 7 5 60 3) (st th) = some (7, 15) ∧ intResult (.ins 7 4 6 60 3) (st th) = some (7, 0x5000000000000000) ∧
    intResult (.lea 7 7 4 4 0x1FFFF) (st th) = some (7, 44) ∧ intResult (.segq 0 7 1) (st th) = some (7, 0xB4000000000FE000) ∧
    intResult (.segq 1 7 1) (st th) = some (7, 0x202000) ∧ intResult (.vlen 7) (st th) = some (7, 16) := by
  and_intros <;> decide +kernel
/-- R118's own example: `ins` of four bits of 0xAB into 0xFFFF at 8 is 0xFBFF. -/
theorem test_ins : intResult (.ins 7 1 2 8 3) (st { th with g := (th.g.set 1 0xAB).set 2 0xFFFF }) = some (7, 0xFBFF) := by decide +kernel

theorem witness_DiscardedWrites : (st th).thread.isSome = true ∧ intResult (.add 0x1E 4 5) (st th) = some (0x1E, 2) ∧
    intResult (.add 0x1F 4 5) (st th) = some (0x1F, 2) ∧ (floatResult (.fadd 0 0x1F 4 5) (st th)).isSome = true ∧
    transfer (.jal 0x1E 3 0x1FFFE) (st th) = some (0x1E, 129, 0xFFFFFFFFFFFFFFC3) ∧ transfer (.jalr 0x1F 4) (st th) = some (0x1F, 129, 5) ∧
    divResult (.div 0x1F 4 6) (st th) = some (0x1F, 0xFFFFFFFFFFFFFFFF) ∧ (lateFloat (.fsqrt 0 0x1E 4) (st th)).isSome = true ∧
    (st th).sysRead (0x040 : BitVec 12).toNat = some 8 ∧ (st th).th.replay = none ∧ (osOrder 0).acquires = false ∧
    (st th).check (st th).th ((st th).reg 1 + (8 : BitVec 17).signExtend 64) 8 .read false = .ok (.store (st th).cur 0x2008) ∧
    listClosed ((st th).core (st th).cur) 0x2008 8 = false ∧ (st th).unwatched ((st th).reg 1 + (8 : BitVec 17).signExtend 64) 8 false ∧
    (let p : Pending := ⟨0, .scalar 0x1F, [(0, 5)], 0, none, none⟩
     let t : Thread := { th with pending := [p] }
     (st t).threadAt 8 3 = some t ∧ t.pending[0]? = some p ∧ p.missing = 0) := by
  unfold State.unwatched
  and_intros <;> decide +kernel

/-- R113's table: division by zero, and the most negative number by −1. -/
theorem witness_LateResults :
    let s := st { th with g := (th.g.set 7 0x8000000000000000).set 8 0xFFFFFFFFFFFFFFFF }
    s.thread.isSome = true ∧ divResult (.div 9 5 4) s = some (9, 0) ∧ divResult (.rem 9 5 4) s = some (9, 0xFFFFFFFFFFFFFFFD) ∧
    divResult (.div 9 4 6) s = some (9, 0xFFFFFFFFFFFFFFFF) ∧ divResult (.rem 9 4 6) s = some (9, 5) ∧
    divResult (.div 9 7 8) s = some (9, 0x8000000000000000) ∧ divResult (.rem 9 7 8) s = some (9, 0) ∧
    divResult (.divu 9 5 4) s = some (9, 0x3333333333333332) ∧ divResult (.remu 9 5 4) s = some (9, 3) ∧
    divResult (.divu 9 4 6) s = some (9, 0xFFFFFFFFFFFFFFFF) ∧ divResult (.remu 9 4 6) s = some (9, 5) ∧
    (lateFloat (.fdiv 1 9 4 5) s).isSome = true ∧ (lateFloat (.fsqrt 0 9 4) s).isSome = true := by
  and_intros <;> decide +kernel

/-- 1.5 and −2.0 in binary32. -/
def ft : Thread := { th with g := (th.g.set 7 0x3FC00000).set 8 0xC0000000 }
theorem witness_FloatResults : (st ft).thread.isSome = true ∧
    floatResult (.fadd 0 9 7 8) (st ft) = some (9, 0xBF000000) ∧ floatResult (.fsub 0 9 7 8) (st ft) = some (9, 0x40600000) ∧
    floatResult (.fmul 0 9 7 8) (st ft) = some (9, 0xC0400000) ∧ floatResult (.ffma 0 9 7 8 7) (st ft) = some (9, 0xBFC00000) ∧
    floatResult (.fmin 0 9 7 8) (st ft) = some (9, 0xC0000000) ∧ floatResult (.fmax 0 9 7 8) (st ft) = some (9, 0x3FC00000) ∧
    (floatResult (.fclass 0 9 7) (st ft)).isSome = true ∧ floatResult (.fsgn 0 0 9 7 8) (st ft) = some (9, 0xBFC00000) ∧
    floatResult (.fsgn 1 0 9 7 8) (st ft) = some (9, 0x3FC00000) ∧ floatResult (.fsgn 2 0 9 8 8) (st ft) = some (9, 0x40000000) ∧
    (floatResult (.fcvt 0 9 7) (st ft)).isSome = true ∧ (floatResult (.fcvt 15 9 7) (st ft)).isSome = true := by
  and_intros <;> decide +kernel
theorem witness_FloatCompare : (st ft).thread.isSome = true ∧ (fvalue 0 0xC0000000).lt (fvalue 0 0x3FC00000) = true ∧
    (fvalue 0 0x7FC00000).isNan = true := by
  and_intros <;> decide +kernel

theorem witness_Transfers : (st th).thread.isSome = true ∧ transfer (.beq 4 4 1 0x1FFFF) (st th) = some (0x1F, 0, 1) ∧
    transfer (.bne 4 4 1 0) (st th) = some (0x1F, 0, 129) ∧ transfer (.blt 5 4 2 1) (st th) = some (0x1F, 0, 130) ∧
    transfer (.bge 5 4 2 1) (st th) = some (0x1F, 0, 129) ∧ transfer (.bltu 5 4 2 1) (st th) = some (0x1F, 0, 129) ∧
    transfer (.bgeu 5 4 2 0x0FFFF) (st th) = some (0x1F, 0, 0x400002) ∧ transfer (.j 3 0) (st th) = some (0x1F, 0, 67) ∧
    transfer (.jal 9 3 0x1FFFE) (st th) = some (9, 129, 0xFFFFFFFFFFFFFFC3) ∧ transfer (.jr 4) (st th) = some (0x1F, 0, 5) ∧
    transfer (.jalr 9 4) (st th) = some (9, 129, 5) := by
  and_intros <;> decide +kernel

/-- `fmtset` with both fields at 8, and with one at 9; the KD word malformed by its kind, by CONST with W, and well formed. -/
theorem witness_ThreadSettings :
    let a (v : Word) : State := st { th with g := th.g.set 7 v, stat := 0xF80001 }
    (a 0).thread.isSome = true ∧ statPriv (a 0).th.stat ≠ 0 ∧ ((a 0x88).reg 7).toNat % 16 ≤ 8 ∧ ((a 0x88).reg 7).toNat / 16 % 16 ≤ 8 ∧
    ((a 0x09).reg 7).toNat % 16 > 8 ∧ ((a 0x90).reg 7).toNat / 16 % 16 > 8 ∧
    ((a 0xC000000000000000).reg 7).toNat / 2 ^ 62 = 3 ∧
    (((a 0x5200000000000000).reg 7).getLsbD 57 = true ∧ ((a 0x5200000000000000).reg 7).getLsbD 60 = true) ∧
    (((a 0x4600000000000000).reg 7).getLsbD 57 = true ∧ ((a 0x4600000000000000).reg 7).getLsbD 58 = true) ∧
    ((a 0x6200000000000000).reg 7).toNat / 2 ^ 62 ≠ 3 ∧ ((a 0x6200000000000000).reg 7).getLsbD 57 = true ∧
    ((a 0x6200000000000000).reg 7).getLsbD 60 = false ∧ ((a 0x6200000000000000).reg 7).getLsbD 58 = false := by
  and_intros <;> decide +kernel

/-- Every branch of the settings of a core: windows, MCBASE at its end and past it, a buffer that is malformed, busy, and free, PMSEL 8
and 9, a counter without an overflow, and a firmware thread. -/
theorem witness_CoreSettings :
    let a (v : Word) : State := st { th with g := th.g.set 7 v, stat := 0xF80002 }
    let v (w : Word) : Nat := ((a w).reg 7).toNat
    (a 0).thread.isSome = true ∧ statPriv (a 0).th.stat ≠ 0 ∧ statPriv (a 0).th.stat = 2 ∧
    (v 0x8C00000000000000 / 2 ^ 36 % 2 ^ 22 = 0 ∧ v 0x8C00000000000000 / 2 ^ 58 % 8 = 3) ∧ v 0x9000000000000000 / 2 ^ 58 % 8 = 4 ∧
    v 0x3FFFF < 2 ^ 18 ∧ ¬v 0x40000 < 2 ^ 18 ∧
    (v 0x7F03FFC0 / 2 ^ 57 = 0 ∧ v 0x7F03FFC0 % 64 = 0 ∧
      v 0x7F03FFC0 % 2 ^ 18 + 64 * (v 0x7F03FFC0 / 2 ^ 18 % 64 + 1) * (v 0x7F03FFC0 / 2 ^ 24 % 64 + 1) > 0x40000) ∧
    (v 0x40000000 / 2 ^ 57 = 0 ∧ v 0x40000000 % 64 = 0 ∧ v 0x40000000 % 2 ^ 18 + 64 ≤ 0x40000) ∧
    (((a 0x40000000).core 8).cb[0].slots = [] ∧ ((a 0x40000000).core 8).cb[0].waiters = []) ∧
    .held ∈ ((inCore (a 0) (fun k => { k with cb := k.cb.set 0 { slots := [.held] } })).core 8).cb[0].slots ∧
    v 8 ≤ 8 ∧ ¬v 9 ≤ 8 ∧ (a 0).wrapped 8 3 = none ∧ v 0x8000FFFFFFFFFFFF / 2 ^ 48 % 2 ^ 15 = 0 ∧
    (((a 1).reg 7).getLsbD 1 = false ∧ (a 3).tracing 0 3 = false) ∧
    (let t : State := { a 3 with contexts := [(0, { partition := 1, st := .active, session := some {
        ring := 0x10000, size := 4096, head := 0x8000, src := 8, per := 0, queue := 5, start := 0 } })] }
     (t.reg 7).getLsbD 1 = true ∧ (t.core 8).stopped = false ∧ (t.core 8).ctx = some 0 ∧ t.tracing 0 3 = true) := by
  and_intros <;> decide +kernel

theorem witness_SystemRegisters : (st th).thread.isSome = true ∧ (0x0E8 : BitVec 12).toNat ≥ 0x0E8 ∧ (0x00F : BitVec 12).toNat ≥ 0x00F ∧
    (0x05F : BitVec 12).toNat < 0x060 ∧ (∀ q ∈ (st th).th.claim.strips, q < 32) ∧ (st th).th.claim.strips.Nodup ∧ (st th).th.claim.req ≤ 32 ∧
    ((st th).core 8).ctx = some 0 := by
  and_intros <;> decide +kernel
theorem witness_PrivilegeTraps : (st th).thread.isSome = true ∧ statPriv (st th).th.stat = 0 ∧
    statPriv (st { th with stat := 0xF80001 }).th.stat ≠ 2 := by
  and_intros <;> decide +kernel

/-- The five outcomes: no kind, beyond the limit by one byte, misaligned, a device address and the last byte of the own store. -/
theorem witness_AccessChecks :
    let s := st th
    let t := th
    let kd (ea : Word) : Nat := (t.kd[segIndex ea]).toNat
    let kb (ea : Word) : Nat := (t.kb[segIndex ea]).toNat
    0 < 8 ∧ kd 0x10 / 2 ^ 62 = 0 ∧ kd 0x4000000000000000 / 2 ^ 62 = 1 ∧ (t.kd[segIndex 0x2000000000000000]).getLsbD 61 = true ∧
    (0x20000000000FFFF9 : Word).toNat % 2 ^ 61 + 8 - 1 > kd 0x20000000000FFFF9 % 2 ^ 57 ∧
    ((0x2000000000000001 : Word).toNat % 2 ^ 61 + 8 - 1 ≤ kd 0x2000000000000001 % 2 ^ 57 ∧
      s.coreOk t.ctx ((kb 0x2000000000000001 + 1) / 2 ^ 18) = true ∧ (kb 0x2000000000000001 + 1) % 8 ≠ 0) ∧
    (kd 0x2000000000000000 / 2 ^ 62 = 2 ∧ kb 0x2000000000000000 + 7 < 2 ^ 30 ∧ s.coreOk t.ctx (kb 0x2000000000000000 / 2 ^ 18) = true ∧
      kb 0x2000000000000000 % 8 = 0) ∧
    ((0x400000003FFFFFF8 : Word).toNat % 2 ^ 61 + 8 - 1 ≤ kd 0x400000003FFFFFF8 % 2 ^ 57 ∧
      (kb 0x400000003FFFFFF8 + 0x3FFFFFF8) % 8 = 0) := by
  and_intros <;> decide +kernel

/-- A register with no segment, on every kind of access; the `amocas` with a sync tail that meets no wait. -/
theorem witness_FailedChecks : (st th).thread.isSome = true ∧ (st th).th.stage = 0 ∧ (st th).th.replay = none ∧
    (st th).check (st th).th ((st th).reg 4 + (0 : BitVec 17).signExtend 64) 1 .read false = .error 22 ∧
    (st th).check (st th).th ((st th).reg 1 + (1 : BitVec 17).signExtend 64) 8 .write false = .error 20 ∧
    (st th).check (st th).th ((st th).reg 3 + (0 : BitVec 17).signExtend 64) 4 .readWrite true = .error 22 ∧
    (st th).check (st th).th ((st th).reg 3 + (0 : BitVec 17).signExtend 64) 4 .read true = .error 22 ∧
    (st th).check (st th).th ((st th).reg 3 + (0 : BitVec 17).signExtend 64) 4 .write true = .error 22 ∧
    (st th).check (st th).th ((st th).reg 4) 4 .atomic false = .error 22 ∧ (st th).th.syncReady 0x801 ∧ (st th).th.blocked = none := by
  unfold Thread.syncReady
  and_intros <;> decide +kernel

/-- The last eight bytes of the own store, plain and with an acquire. -/
theorem witness_LocalLoads :
    let s := st { th with g := th.g.set 7 0x200000000003FFF8 }
    s.thread.isSome = true ∧ s.th.replay = none ∧
    s.check s.th (s.reg 7 + (0 : BitVec 17).signExtend 64) 8 .read false = .ok (.store s.cur 0x3FFF8) ∧
    listClosed (s.core s.cur) 0x3FFF8 8 = false ∧ s.unwatched (s.reg 7 + (0 : BitVec 17).signExtend 64) 8 false ∧
    (osOrder 7).acquires = false ∧ (osOrder 0x0D).acquires = true := by
  unfold State.unwatched
  and_intros <;> decide +kernel

theorem witness_LocalStores :
    let s := st { th with g := th.g.set 7 0x200000000003FFF8 }
    s.thread.isSome = true ∧ s.th.stage = 0 ∧
    s.check s.th (s.reg 7 + (0 : BitVec 17).signExtend 64) 8 .write false = .ok (.store s.cur 0x3FFF8) ∧
    listClosed (s.core s.cur) 0x3FFF8 8 = false ∧ s.unwatched (s.reg 7 + (0 : BitVec 17).signExtend 64) 8 true ∧
    s.released 0x15 := by
  unfold State.unwatched State.released
  and_intros <;> decide +kernel

/-- A device address that the port translates, for a load, a plain load of a CONST segment, an acquire and a store, and one that it does
not. -/
theorem witness_DeviceAccesses :
    let s := mapped (st th)
    s.thread.isSome = true ∧ s.th.replay = none ∧ s.th.stage = 0 ∧
    s.check s.th (s.reg 3 + (0 : BitVec 17).signExtend 64) 4 .read false = .ok (.device 0x8000) ∧
    s.hit (clusterOf s.cur) s.th.ctx 0x8000 false = some ⟨false, 0, 0x8000⟩ ∧
    (s.th.kd[segIndex (s.reg 3 + (0 : BitVec 17).signExtend 64)]).getLsbD 57 = false ∧ (osOrder 7).acquires = false ∧
    (osOrder 0x0D).acquires = true ∧ (osOrder 7 = .plain ∧ ((th.kd.set 2 0x6E0000003FFFFFFF)[segIndex (s.reg 3 + (0 : BitVec 17).signExtend 64)]).getLsbD 57 = true) ∧
    s.unwatched (s.reg 3 + (0 : BitVec 17).signExtend 64) 4 false ∧
    s.check s.th (s.reg 3 + (0 : BitVec 17).signExtend 64) 4 .write false = .ok (.device 0x8000) ∧
    s.hit (clusterOf s.cur) s.th.ctx 0x8000 true = some ⟨false, 0, 0x8000⟩ ∧ s.released 0x15 ∧
    s.unwatched (s.reg 3 + (0 : BitVec 17).signExtend 64) 4 true ∧ (st th).hit (clusterOf 8) 0 0x8000 false = none := by
  unfold State.unwatched State.released
  and_intros <;> decide +kernel

/-- A byte of core 9, out of and in matrix mode. -/
theorem witness_RemoteLoads : (st th).thread.isSome = true ∧ (st th).th.replay = none ∧
    (st th).check (st th).th ((st th).reg 2 + (0 : BitVec 17).signExtend 64) 4 .read false = .ok (.store 9 0x40) ∧ 9 ≠ (st th).cur ∧
    statM (st th).th.stat = false ∧ statM (st { th with stat := 0xF80020 }).th.stat = true ∧
    (st { th with stat := 0xF80020 }).check { th with stat := 0xF80020 } 0x2000000000040040 4 .read false = .ok (.store 9 0x40) := by
  and_intros <;> decide +kernel

/-- An atomic word of the own store, for each operation, and `amocas` with slot 2 set. -/
theorem witness_LocalAtomics :
    let s := st th
    s.thread.isSome = true ∧ s.th.stage = 0 ∧
    (∀ i ∈ [Instr.amoAdd 3 7 1 4 0, .amoAnd 3 7 1 4 0, .amoOr 3 7 1 4 0, .amoXor 3 7 1 4 0, .amoMin 3 7 1 4 0, .amoMax 3 7 1 4 0,
      .amoMinu 3 7 1 4 0, .amoMaxu 3 7 1 4 0, .amoSwap 3 7 1 4 0, .amoFadd 3 7 1 4 0],
      (amoForm i).map (fun r => (r.2.1, r.2.2.2.1)) = some (3, 1)) ∧
    s.check s.th (s.reg 1) 8 .atomic false = .ok (.store s.cur 0x2000) ∧ listClosed (s.core s.cur) 0x2000 8 = false ∧
    s.unwatched (s.reg 1) 8 true ∧ s.unwatched (s.reg 1) 8 false ∧ s.released 0 ∧ (osOrder 0).acquires = false ∧
    s.released 0x0D ∧ (osOrder 0x0D).acquires = true ∧ s.th.syncReady 0xA01 ∧
    (let y : OwnAtomic := s.ownRequest .cas 0x2000 8 0 5
     mapGet (s.context y.ctx).saved y.core = none ∧ (s.core y.core).ctx = some y.ctx ∧ s.threadAt 8 3 = some th ∧ th.uid = y.uid) := by
  unfold State.unwatched State.released Thread.syncReady
  and_intros <;> decide +kernel

theorem witness_DeviceAtomics :
    let s := mapped (st th)
    s.thread.isSome = true ∧ s.th.stage = 0 ∧ (amoForm (.amoAdd 2 7 3 4 0)).map (fun r => (r.2.1, r.2.2.2.1)) = some (2, 3) ∧
    s.check s.th (s.reg 3) 4 .atomic false = .ok (.device 0x8000) ∧
    s.hit (clusterOf s.cur) s.th.ctx 0x8000 true = some ⟨false, 0, 0x8000⟩ ∧
    s.unwatched (s.reg 3) 4 true ∧ s.unwatched (s.reg 3) 4 false ∧ s.released 0 ∧ s.th.syncReady 0xA01 := by
  unfold State.unwatched State.released Thread.syncReady
  and_intros <;> decide +kernel

/-- A store and an atomic to core 9 as they issue, acknowledged, and refused. -/
theorem witness_RemoteStores :
    let s := st th
    s.thread.isSome = true ∧ s.th.replay = none ∧ s.th.stage = 0 ∧
    s.check s.th (s.reg 2 + (0 : BitVec 17).signExtend 64) 4 .write false = .ok (.store 9 0x40) ∧ 9 ≠ s.cur ∧
    s.unwatched (s.reg 2 + (0 : BitVec 17).signExtend 64) 4 true ∧ s.released 7 ∧
    (s.check s.th (s.reg 2) 4 .atomic false = .ok (.store 9 0x40) ∧ s.unwatched (s.reg 2) 4 true ∧ s.unwatched (s.reg 2) 4 false ∧
      s.released 0 ∧ s.th.syncReady 0xA01 ∧ amoForm (.amoAdd 2 7 2 4 0) = some (.add, 2, 7, 2, 4, 0)) ∧
    ((st { th with stage := 2, granted := true }).th.stage = 2 ∧ (st { th with stage := 2, granted := true }).th.granted = true) ∧
    ((st { th with stage := 2, refused := true }).th.granted = false ∧ (st { th with stage := 2, refused := true }).th.refused = true) := by
  unfold State.unwatched State.released Thread.syncReady
  and_intros <;> decide +kernel

/-- A word that is Full, and one that is Empty. -/
theorem witness_FullEmpty :
    let s := st th
    let e := inCore (st th) (fun k => { k with emptyWords := [0x800] })
    let ea := s.reg 1 + (0 : BitVec 17).signExtend 64
    s.thread.isSome = true ∧ s.th.replay = none ∧ s.th.granted = false ∧ listClosed (s.core s.cur) 0x2000 4 = false ∧
    s.check s.th ea 4 .readWrite true = .ok (.store s.cur 0x2000) ∧ s.check s.th ea 4 .read true = .ok (.store s.cur 0x2000) ∧
    e.check e.th ea 4 .write true = .ok (.store e.cur 0x2000) ∧ s.unwatched ea 4 false ∧ e.unwatched ea 4 true ∧
    (s.core s.cur).full 0x800 = true ∧ (e.core e.cur).full 0x800 = false ∧ e.releasable e.cur e.th ((0x1D : Field).toNat % 8) = true := by
  unfold State.unwatched
  and_intros <;> decide +kernel
theorem witness_FullEmptyWaits :
    let s := st th
    let e := inCore (st th) (fun k => { k with emptyWords := [0x800] })
    let ea := s.reg 1 + (0 : BitVec 17).signExtend 64
    e.thread.isSome = true ∧ e.th.replay = none ∧ e.th.granted = false ∧ listClosed (e.core e.cur) 0x2000 4 = false ∧
    e.check e.th ea 4 .readWrite true = .ok (.store e.cur 0x2000) ∧ e.check e.th ea 4 .read true = .ok (.store e.cur 0x2000) ∧
    s.check s.th ea 4 .write true = .ok (.store s.cur 0x2000) ∧ e.unwatched ea 4 false ∧ s.unwatched ea 4 true ∧
    (e.core e.cur).full 0x800 = false ∧ (s.core s.cur).full 0x800 = true ∧ s.releasable s.cur s.th ((5 : Field).toNat % 8) = true := by
  unfold State.unwatched
  and_intros <;> decide +kernel

/-- No access outstanding, and a store on its way; slot 2 at 0 and at 1. -/
theorem witness_Fences :
    let s := st th
    let w : State := { s with flight := [{ uid := 7, ctx := 0, seq := 1, op := .store, addr := 64, size := 4 }] }
    s.thread.isSome = true ∧ s.th.blocked = none ∧ s.releasable s.cur s.th (5 : BitVec 3).toNat = true ∧
    w.releasable w.cur w.th (5 : BitVec 3).toNat = false ∧ (∀ k : Fin 8, (4 : BitVec 8).getLsbD k.val = true → s.th.dep[k] = 0) ∧
    (∃ k : Fin 8, (4 : BitVec 8).getLsbD k.val = true ∧ (st { th with dep := th.dep.set 2 1 }).th.dep[k] ≠ 0) := by
  and_intros <;> decide +kernel

/-- A write and an atomic from core 9 that the window of core 8 admits, the same with no window, and at the interface of a core that is being
remapped. -/
theorem witness_RemoteRequests :
    let m (b : MsgBody) : Msg := { seq := 1, src := 9, dst := 8, uid := 20, body := b }
    let wr : MsgBody := .write 0 8 5
    let am : MsgBody := .atomic .add 0x3FFF8 8 5 0 0
    let s (b : MsgBody) : State := { inCore (st th) (fun k => { k with win := k.win.set 0 0xEC00000FFFFC0000 }) with msgs := [m b] }
    let n (b : MsgBody) : State := { st th with msgs := [m b] }
    (s wr).msgAt 0 = some (m wr) ∧ mapGet ((s wr).context 0).saved 8 = none ∧ (s wr).admits 0 9 8 0 8 false = true ∧
    (n wr).msgAt 0 = some (m wr) ∧ (n wr).admits 0 9 8 0 8 false = false ∧
    (s am).msgAt 0 = some (m am) ∧ (s am).admits 0 9 8 0x3FFF8 8 true = true ∧ ((s wr).core 8).ctx = some 0 ∧
    (.cas = AmoOp.cas ∧ ((s am).core 8).ls.num 0x3FFF8 8 ≠ (5 : Word).toNat % 2 ^ (8 * 8)) ∧ AmoOp.add ≠ .cas ∧ (n am).admits 0 9 8 0x3FFF8 8 true = false ∧
    ((s wr).core (m wr).dst).remapStep ≠ 3 ∧ (let z := inCore (n wr) (fun k => { k with remapStep := 3 }); z.msgAt 0 = some (m wr) ∧ (z.core 8).remapStep = 3) := by
  and_intros <;> decide +kernel
theorem witness_Replies :
    let m (b : MsgBody) : Msg := { seq := 1, src := 9, dst := 8, uid := 7, body := b }
    let s (b : MsgBody) : State := { st th with msgs := [m b] }
    (s (.ack (some 5))).msgAt 0 = some (m (.ack (some 5))) ∧ (s .nack).msgAt 0 = some (m .nack) ∧
    (let l (n : Nat) : State := { st th with msgs := [{ m .nack with lost := true }], cycle := n };
      (l 65536).msgs[0]? = some { m .nack with lost := true } ∧ (m .nack).since + 65536 ≤ (l 65536).cycle ∧
      (m .nack).dstLeaf ∉ (l 65536).package.deadLeaves ∧
      (let z : State := { l 65536 with package := { (l 65536).package with deadLeaves := [(m .nack).dstLeaf] } };
        (m .nack).dstLeaf ∈ z.package.deadLeaves ∧ (z.context (m .nack).ctx).st = .active) ∧ (l 65535).cycle < (m .nack).since + 65536) := by
  and_intros <;> decide +kernel

theorem witness_AccessesPerformed :
    let a (op : AccessOp) (r : Option Nat) : Access := { uid := 7, ctx := 0, seq := 1, op := op, addr := 0x8000, size := 4, result := r }
    let s (op : AccessOp) (r : Option Nat) : State := { st th with flight := [a op r] }
    (s (.amo .add) (some 0)).nextAt 0 = some (a (.amo .add) (some 0)) ∧
    (∀ p ∈ (s .store none).cores, ∀ o ∈ p.2.slots.toList, ∀ t, o = some t → ∀ d, t.st ≠ .parked (.join d)) ∧
    (s .store none).nextAt 0 = some (a .store none) ∧ (a .store none).remote = false ∧ (a .store none).cached = none ∧
    (s .load (some 0)).nextAt 0 = some (a .load (some 0)) ∧ (s .load (some 0)).poison.contains (0x8000 / 64) = false := by
  and_intros
  · decide +kernel
  · intro p hp o ho t ht d
    simp only [st, List.mem_singleton] at hp
    subst hp
    have h : ∀ o ∈ ((Vector.replicate 16 (none : Option Thread)).set 3 (some th)).toList, o.all (fun t => decide (t.st = .running)) = true := by
      decide +kernel
    have := of_all (h o ho) t ht
    rw [of_decide_eq_true this]; exact fun hc => nomatch hc
  all_goals decide +kernel

theorem witness_ResultsLand :
    let p : Pending := ⟨0, .scalar 0x12, [(0, 5)], 0, some 2, some 9⟩
    let q : Pending := ⟨1, .vector 15, [(15, 5)], 0, none, none⟩
    let t : Thread := { th with pending := [p, q], st := .parked (.landing 0), dep := th.dep.set 2 1 }
    (st t).threadAt 8 3 = some t ∧ (p.bank = some 9 ∧ mapGet ((st t).context 0).saved 9 = none ∧
      ((({ st t with cores := (9, { ctx := some 0 }) :: (st t).cores } : State)).core 9).ctx = some 0 ∧
      (mapGet (({ st t with contexts := [(0, { partition := 1, st := .active, saved := [(9, {})] })] } : State).context 0).saved 9).isSome = true) ∧
    t.pending[0]? = some p ∧ t.pending[1]? = some q ∧ p.missing = 0 ∧ q.missing = 0 ∧ 15 < t.vl := by
  and_intros <;> decide +kernel

/-- A word that changed in an earlier cycle: Full with an `ldff` in slot 1 and `ldfe`s in slots 2 and 3, then Empty with `stfe`s; the same word
in a closed list; a word that changed in this cycle; a retry limit reached, not reached, and not asked for. -/
theorem witness_RecheckRounds :
    let t (u : Nat) (op : FeOp) : Thread := { th with uid := u, stat := 0, st := .parked (.fullEmpty 0x800), fe := some { word := 0x800, op := op, value := 5 } }
    let s : State := { st (t 23 .ldfe) with
      cycle := 9
      cores := [(8, { ctx := some 0, dirty := [(0x800, 8), (0x801, 9)], slots := ((((Vector.replicate 16 (none : Option Thread)).set 1 (some (t 21 .ldff))).set 2 (some (t 22 .ldfe))).set 3 (some (t 23 .ldfe))).set 4 (some (t 24 .stfe)) })] }
    let e := inCore s (fun k => { k with emptyWords := [0x800] })
    let z := inCore e (fun k => { k with pool := { k.pool with valid := true, list := 0x2000 } })
    let u (st : Word) (n : Nat) : Thread := { t 23 .ldfe with stat := st, feCount := n }
    ((0x800, 8) ∈ (s.core 8).dirty ∧ 8 < s.cycle) ∧ (¬∃ n, (0x801, n) ∈ (s.core 8).dirty ∧ n < s.cycle) ∧
    (s.core 8).full 0x800 = true ∧ (e.core 8).full 0x800 = false ∧ listClosed (e.core 8) (4 * 0x800) 4 = false ∧
    listClosed (z.core 8) (4 * 0x800) 4 = true ∧
    s.threadAt 8 1 = some (t 21 .ldff) ∧ s.threadAt 8 2 = some (t 22 .ldfe) ∧ s.threadAt 8 3 = some (t 23 .ldfe) ∧
    s.threadAt 8 4 = some (t 24 .stfe) ∧ s.threadAt 8 0 = none ∧ statFte (t 23 .ldfe).stat = false ∧
    (st (u 0x080000 2)).threadAt 8 3 = some (u 0x080000 2) ∧ (u 0x080000 2).fe.isSome = true ∧ statFte (u 0x080000 2).stat = true ∧
    (u 0x080000 2).feCount ≥ 2 ^ (statFrl (u 0x080000 2).stat + 1) ∧ (u 0x080000 1).feCount < 2 ^ (statFrl (u 0x080000 1).stat + 1) ∧
    statFte (u 0 9).stat = false := by
  refine ⟨?_, ?_, ?_⟩
  · exact ⟨by decide +kernel, by decide +kernel⟩
  · rintro ⟨n, h, hn⟩
    have : ∀ p ∈ ([(0x800, 8), (0x801, 9)] : List (Nat × Nat)), p.1 = 0x801 → ¬p.2 < 9 := by decide
    exact this _ h rfl hn
  · and_intros <;> decide +kernel

/-- A kernel of context 0 with KID 0 and two live threads, and its group 0 with two members and room for four. -/
def kn : Kernel := { ctx := 0, kid := 0, n := 2, next := 2, live := 2, nslice := 1 }
def gr : Group := { ctx := 0, kid := 0, gid := 0, pop := 2, next := 2, limit := 4 }
/-- The state with that kernel and group. -/
def inGroup (s : State) (k : Kernel) (g : Group) : State := { s with kernels := [k], groups := [g] }

/-- Core numbers 4096 and 72 (no core of the partition), 8 (the own core) and 9; a thread with nothing outstanding; a boundary that is due
and one that is not. For `yield`: nobody waits; a claim; every slot taken and one thread waiting, with a result outstanding, without, and
with the arrival queue full and a thread in the ring. -/
theorem witness_Migration :
    let a (c w : Word) : State := st { th with g := th.g.set 7 c, stat := w }
    (a 8 0).thread.isSome = true ∧ (a 8 0).th.stage = 0 ∧ ((a 4096 0).reg 7).toNat ≥ 4096 ∧
    (a 72 0).coreOk (a 72 0).th.ctx ((a 72 0).reg 7).toNat = false ∧
    (((a 71 0x20).reg 7).toNat < 4096 ∧ (a 71 0x20).coreOk 0 ((a 71 0x20).reg 7).toNat = true ∧ statM (a 71 0x20).th.stat = true) ∧
    (((a 8 0).reg 7).toNat = (a 8 0).cur ∧ (a 8 0).coreOk 0 ((a 8 0).reg 7).toNat = true ∧ statM (a 8 0).th.stat = false) ∧
    (((a 9 0).reg 7).toNat ≠ (a 9 0).cur ∧ (a 9 0).coreOk 0 ((a 9 0).reg 7).toNat = true ∧ statM (a 9 0).th.stat = false ∧
      (a 9 0).th.packable = true ∧ (a 9 0).th.hold = false) ∧
    (a 8 0).boundaryDue (a 8 0).cur (a 8 0).th = false ∧ ((a 8 0).core (a 8 0).cur).arrivals = [] ∧
    (inCore (st th) (fun k => { k with remapStep := 1 })).boundaryDue 8 th = true ∧
    statCP (a 8 0x40).th.stat = true ∧
    (let full (t : Thread) (q r : List Thread) : State := inCore (st t) (fun k => { k with
       slots := (Vector.replicate 16 (some { th with uid := 20 })).set 3 (some t), arrivals := q, spill := r
       spillChunks := [0x7000000], spillAt := r.map (fun _ => 0x7000000) })
     let h : Thread := { th with uid := 21 }
     let p : Thread := { th with pending := [⟨0, .scalar 9, [(0, 5)], 0, none, none⟩] }
     let f := full th [h] []
     let g := full th (List.replicate 16 h) [h]
     f.boundaryDue f.cur f.th = false ∧ (f.core f.cur).arrivals = h :: [] ∧ f.freeSlot f.cur = none ∧ statCP f.th.stat = false ∧
     statM f.th.stat = false ∧ (∀ k : Fin 8, f.th.dep[k] = 0) ∧ f.th.pending = [] ∧ f.th.beats = none ∧ h.uid ≠ 0 ∧
     (f.core f.cur).ctx = some h.ctx ∧ (f.core f.cur).spill = [] ∧ ([] : List Thread).length < 16 ∧
     (full p [h] []).th.pending ≠ [] ∧ (full p [h] []).freeSlot 8 = none ∧
     (g.core g.cur).arrivals = h :: List.replicate 15 h ∧ (g.core g.cur).spill = h :: [] ∧ (List.replicate 15 h).length = 15 ∧
     g.th.ctx = h.ctx ∧ mapGet (g.context g.th.ctx).saved g.cur = none ∧ (g.core g.cur).takeArrival.ringRoom = true) := by
  and_intros <;> decide +kernel

/-- A thread that waits to migrate with nothing outstanding; its packet, alone on the way to a core of its context with a free slot. -/
theorem witness_PackAndArrive :
    let t : Thread := { th with st := .parked .migrate }
    let p : Packet := ⟨9, 0, 8, { th with uid := 20 }⟩
    let s : State := { st th with transit := [p] }
    (st t).threadAt 8 3 = some t ∧ t.st = .parked .migrate ∧ t.packable = true ∧ t.hold = false ∧
    ((s.context p.thread.ctx).st = .active ∧ (s.core p.dst).remapStep ≠ 3) ∧ s.transit = [p] ∧ p.thread.uid ≠ 0 ∧ (s.context p.thread.ctx).saved = [] ∧
    (s.core p.dst).ctx = some p.thread.ctx ∧ (s.core p.dst).arrivals = [] ∧ (s.core p.dst).spill = [] ∧
    (s.core p.dst).stopped = false ∧ (s.core p.dst).lastAccept ≠ some s.cycle ∧ s.freeSlot p.dst = some 0 ∧
    (let b := inCore s (fun k => { k with lastAccept := some 0 })
     b.transit[0]? = some p ∧ mapGet (b.context p.thread.ctx).saved p.dst = none ∧ (b.core p.dst).lastAccept = some b.cycle) := by
  and_intros <;> decide +kernel

theorem witness_SlotOffers :
    let t : Thread := { th with uid := 20 }
    let s := inCore (st th) (fun k => { k with arrivals := [t] })
    let f := inCore (st th) (fun k => { k with slots := Vector.replicate 16 (some th) })
    f.freeSlot 8 = none ∧ s.freeSlot 8 = some 0 ∧ s.namesCore 8 = true ∧ (s.core 8).stopped = false ∧ (s.core 8).arrivals = t :: [] ∧
    (s.core 8).spill = [] ∧ (s.core 8).ctx = some t.ctx ∧ t.uid ≠ 0 := by
  and_intros <;> decide +kernel

theorem witness_Halts :
    let s := inGroup (st th) kn gr
    s.thread.isSome = true ∧ s.th.pending = [] ∧ s.th.dep = Vector.replicate 8 0 ∧ s.th.beats = none ∧
    s.releasable s.cur s.th 5 = true ∧ s.kernels = [kn] ∧ kn.ctx = s.th.ctx ∧ kn.kid = s.th.kid ∧ kn.gang = none ∧ kn.node = none ∧
    (s.core s.cur).ctx = some s.th.ctx ∧ s.groups = [gr] ∧ gr.ctx = s.th.ctx ∧ gr.kid = s.th.kid ∧ gr.gid = s.th.gid ∧ gr.joins = [] := by
  and_intros <;> decide +kernel

/-- A group with room for two more, a full one, and one whose LINs have run out; a counter in device memory, with no right to it, and in a
local store. -/
theorem witness_Forks :
    let s := inGroup (st th) kn gr
    s.thread.isSome = true ∧ s.kernels = [kn] ∧ kn.ctx = s.th.ctx ∧ kn.kid = s.th.kid ∧ s.groups = [gr] ∧ gr.ctx = s.th.ctx ∧
    gr.kid = s.th.kid ∧ gr.gid = s.th.gid ∧ s.releasable s.cur s.th 5 = true ∧ gr.pop ≠ gr.limit ∧ gr.next < 2 ^ 32 ∧
    { gr with pop := 4 }.pop = { gr with pop := 4 }.limit ∧ { gr with next := 2 ^ 32 }.next ≥ 2 ^ 32 ∧
    s.check s.th (s.reg 4) 4 .atomic false = .error 22 ∧ s.check s.th (s.reg 1) 4 .atomic false = .ok (.store 8 0x2000) ∧
    (let m := mapped s
     m.check m.th (m.reg 3) 4 .atomic false = .ok (.device 0x8000) ∧ m.hit (clusterOf m.cur) m.th.ctx 0x8000 true = some ⟨false, 0, 0x8000⟩ ∧
     m.reachable ⟨false, 0, 0x8000⟩ = true ∧ m.laneClear m.cur m.th.uid false 0 0x8000 4 = true ∧ m.unwatched (m.reg 3) 4 true ∧
     m.unwatched (m.reg 3) 4 false ∧ (m.core m.cur).deque.length < 32 ∧ m.releasable m.cur m.th 5 = true) := by
  unfold State.unwatched
  and_intros <;> decide +kernel

/-- A counter that reads 0, and one that reads 1. -/
theorem witness_Joins :
    let s := mapped (st th)
    s.thread.isSome = true ∧ s.th.blocked = none ∧ s.th.granted = false ∧
    s.check s.th (s.reg 3) 4 .read false = .ok (.device 0x8000) ∧
    s.hit (clusterOf s.cur) s.th.ctx 0x8000 false = some ⟨false, 0, 0x8000⟩ ∧ s.reachable ⟨false, 0, 0x8000⟩ = true ∧
    s.laneClear s.cur s.th.uid false 0 0x8000 4 = true ∧ s.unwatched (s.reg 3) 4 false ∧ s.homeRead ⟨false, 0, 0x8000⟩ 4 = 0 ∧
    ({ s with mem := [(0x8000, 1)] } : State).homeRead ⟨false, 0, 0x8000⟩ 4 ≠ 0 := by
  unfold State.unwatched
  and_intros <;> decide +kernel

/-- N of 0, of 5 with room for 4, and of 4; another N in wait; a thread whose collective has dealt it its share. -/
theorem witness_Resamples :
    let a (n : Word) (g : Group) : State := inGroup (st { th with g := th.g.set 7 n }) kn g
    let g (n : Nat) : Group := { gr with arrivals := [⟨20, 1, 1, n, 0⟩] }
    let s := a 4 gr
    s.thread.isSome = true ∧ s.th.stage = 0 ∧ s.boundaryDue s.cur s.th = false ∧ ((a 0 gr).reg 7).toNat = 0 ∧
    ((a 5 gr).reg 7).toNat > ((a 5 gr).groupOf (a 5 gr).th).limit ∧ ((s.reg 7).toNat ≠ 0 ∧ (s.reg 7).toNat ≤ (s.groupOf s.th).limit) ∧
    (s.kernelOf s.th).desc.cls ≠ 1 ∧
    (let c (q : Nat) : State := { s with kernels := [{ kn with desc := { cls := 1, quota := q } }] }
     ((c 0).kernelOf th).desc.cls = 1 ∧ 4 + (((c 0).kernelOf th).live - ((c 0).groupOf th).pop) >
       ((c 0).kernelOf th).desc.quota * ((c 0).eligible ((c 0).kernelOf th)).length ∧
     4 + (((c 1).kernelOf th).live - ((c 1).groupOf th).pop) ≤ ((c 1).kernelOf th).desc.quota * ((c 1).eligible ((c 1).kernelOf th)).length) ∧
    s.th.pending = [] ∧ s.th.dep = Vector.replicate 8 0 ∧ s.th.beats = none ∧
    s.releasable s.cur s.th 5 = true ∧ ((a 4 (g 3)).groupOf th).arrivals = ⟨20, 1, 1, 3, 0⟩ :: [] ∧ 3 ≠ ((a 4 (g 3)).reg 7).toNat ∧
    (∀ x ∈ ((a 4 (g 4)).groupOf th).arrivals, x.n = ((a 4 (g 4)).reg 7).toNat) ∧
    (st { th with stage := 2, granted := true }).th.stage = 2 ∧ (st { th with stage := 2, granted := true }).th.granted = true := by
  and_intros <;> decide +kernel

theorem witness_CombDealsAll : let arr : List Arrival := [⟨7, 0, 0, 3, 0⟩, ⟨20, 1, 5, 3, 0⟩]
    arr ≠ [] ∧ 0 < 3 ∧ (∀ a ∈ arr, a.n = 3) := by
  and_intros <;> decide +kernel

/-- The state of `st` lists no thread but its own. -/
theorem threadAt_st (t : Thread) (c : Nat) (i : Fin 16) (u : Thread) (h : (st t).threadAt c i = some u) : (c, i) = (8, 3) ∧ u = t := by
  unfold State.threadAt State.core st at h
  simp only [mapGet] at h
  split at h
  · next hc => simp only [Option.getD_some, Fin.getElem_fin, Vector.getElem_set] at h
               split at h
               · next hi => exact ⟨Prod.ext hc.symm (Fin.ext (by simpa using hi.symm)), by cases h; rfl⟩
               · simp at h
  · simp at h

/-- A group of two with one arrival, and a group of one whose only member has arrived and asks for two: with cores 8 to 15 open to its clone, and
with all of them stopped. -/
theorem witness_ResampleCompletes :
    let x : Arrival := ⟨7, 0, 1, 2, 9⟩
    let g : Group := { gr with pop := 1, arrivals := [x] }
    let t : Thread := { th with st := .parked (.resample 0), stage := 2 }
    let k : Kernel := { kn with live := 1 }
    let s : State := inGroup (st t) k g
    let z : State := inGroup { st t with cores := (List.range 8).map (fun j => (8 + j, if j = 0 then { (st t).core 8 with stopped := true } else { stopped := true })) } k g
    ({ st th with groups := [{ gr with arrivals := [x] }] } : State).groups[0]? = some { gr with arrivals := [x] } ∧
    { gr with arrivals := [x] }.arrivals.length < gr.pop ∧ s.groups = [g] ∧ s.kernels = [k] ∧ k.ctx = g.ctx ∧ k.kid = g.kid ∧ k.gang = none ∧
    k.node = none ∧ k.bar = {} ∧ g.bar = {} ∧ g.joins = [] ∧ s.tracing g.ctx 0 = false ∧ g.arrivals ≠ [] ∧ g.pop ≤ g.arrivals.length ∧ 0 < 2 ∧
    (∀ y ∈ g.arrivals, y.n = 2 ∧ y.uid < s.nextUid ∧ s.locate y.uid = some (8, 3) ∧ (s.core 8).ctx = some g.ctx ∧ s.threadAt 8 3 = some t ∧
      t.uid = y.uid ∧ t.ctx = g.ctx) ∧
    (∀ y ∈ g.arrivals, z.locate y.uid = some (8, 3) ∧ (z.core 8).ctx = some g.ctx ∧ z.threadAt 8 3 = some t) ∧
    (g.arrivals.map (·.uid)).Nodup ∧ (clusterOf 9 = clusterOf 8 ∧ (s.freeSlot 9).isSome = true ∧ (s.core 9).stopped = false ∧ s.openTo 9 g.ctx = true) ∧
    (∀ j, j < 8 → (z.core (8 + j)).stopped = true) ∧ (∀ c i u, s.threadAt c i = some u → ∀ y ∈ g.arrivals, u.uid = y.uid → (c, i) = (8, 3)) := by
  and_intros
  rotate_right 1
  · intro c i u h _ _ _
    exact (threadAt_st _ c i u h).1
  all_goals decide +kernel

/-- A group of two, and a group of one; tokens one phase and 2³¹ − 1 phases back, and of the open phase. -/
theorem witness_GroupBarriers :
    let a (v : Word) (g : Group) : State := inGroup (st { th with g := th.g.set 7 v }) kn g
    let s := a 0 gr
    s.thread.isSome = true ∧ s.th.stage = 0 ∧ s.th.blocked = none ∧ s.groups = [gr] ∧ gr.ctx = s.th.ctx ∧ gr.kid = s.th.kid ∧
    gr.gid = s.th.gid ∧ (∀ c i, ∀ t, s.threadAt c i = some t → ∀ k j p, t.st ≠ .parked (.barrier k j p)) ∧
    (∀ p ∈ s.contexts, p.2.saved = []) ∧ s.releasable s.cur s.th 5 = true ∧ s.boundaryDue s.cur s.th = false ∧
    s.th.uid ∉ gr.bar.arrived ∧ gr.bar.arrived.length + 1 ≠ gr.pop ∧
    { gr with pop := 1 }.bar.arrived.length + 1 = { gr with pop := 1 }.pop ∧
    1 ≤ (gr.bar.cph - ((a 0xFFFFFFFF gr).reg 7).truncate 32).toNat ∧ (gr.bar.cph - ((a 0xFFFFFFFF gr).reg 7).truncate 32).toNat < 2 ^ 31 ∧
    (gr.bar.cph - ((a 0x80000001 gr).reg 7).truncate 32).toNat < 2 ^ 31 ∧ gr.bar.cph = ((a 0 gr).reg 7).truncate 32 := by
  and_intros
  rotate_left 7
  · intro c i t h k j p e
    rw [(threadAt_st _ c i t h).2] at e
    cases e
  all_goals decide +kernel

/-- A launch that is not concurrent; counts of 0, of 5 with room for 4; an open phase of two, where a thread brings three. -/
theorem witness_BarrierTraps :
    let a (n : Word) (g : Group) : State := inGroup (st { th with g := th.g.set 7 n }) kn g
    let g : Group := { gr with named := [(0, { arrived := [1], count := 2 })] }
    let s := a 3 g
    s.thread.isSome = true ∧ s.th.stage = 0 ∧ s.boundaryDue s.cur s.th = false ∧ (s.kernelOf s.th).desc.cls ≠ 1 ∧
    ((a 0 gr).reg 7).toNat = 0 ∧ ((a 5 gr).reg 7).toNat > ((a 5 gr).groupOf th).limit ∧ (s.reg 7).toNat ≠ 0 ∧
    (s.reg 7).toNat ≤ (s.groupOf s.th).limit ∧ s.releasable s.cur s.th 5 = true ∧
    ((mapGet (s.groupOf s.th).named ((s.reg 6).toNat % 16)).getD {}).arrived ≠ [] ∧
    (s.reg 7).toNat ≠ ((mapGet (s.groupOf s.th).named ((s.reg 6).toNat % 16)).getD {}).count := by
  and_intros <;> decide +kernel

/-- A message to a core that is not the partition's, one as it issues, acknowledged, and refused; a mailbox with no entry and with one. -/
theorem witness_Mailboxes :
    let a (c : Word) : State := st { th with g := th.g.set 7 c }
    let e : Mail := { d := 1, tt := 0, ktag := 0, kind := 0, sender := 9 }
    let f := inCore (st th) (fun k => { k with mailbox := [e] })
    (a 9).thread.isSome = true ∧ (a 9).th.blocked = none ∧ (a 9).th.stage = 0 ∧ ((a 4096).reg 7).toNat ≥ 4096 ∧
    (a 72).coreOk (a 72).th.ctx ((a 72).reg 7).toNat = false ∧
    (((a 9).reg 7).toNat < 4096 ∧ (a 9).coreOk (a 9).th.ctx ((a 9).reg 7).toNat = true ∧ (a 9).releasable (a 9).cur (a 9).th 5 = true) ∧
    ((st { th with stage := 2, granted := true }).th.stage = 2 ∧ (st { th with stage := 2, granted := true }).th.granted = true) ∧
    ((st { th with stage := 2, refused := true }).th.granted = false ∧ (st { th with stage := 2, refused := true }).th.refused = true) ∧
    ((st th).core 8).mailbox.any ((st th).mailSeen th ((1 : BitVec 1) == 1)) = false ∧
    (f.core f.cur).mailbox.any (f.mailSeen f.th ((0 : BitVec 1) == 1)) = true ∧ (f.core f.cur).mailbox = e :: [] ∧ (f.core f.cur).held = [] ∧
    f.mailSeen f.th ((1 : BitVec 1) == 1) e = true := by
  and_intros <;> decide +kernel

/-- A message for a core with room, for one with 24 messages, and for one that the context does not hold. -/
theorem witness_MailArrives :
    let e : Mail := { d := 1, tt := 0, ktag := 0, kind := 0, sender := 9 }
    let m (dst : Nat) : Msg := { seq := 1, src := 9, dst := dst, uid := 20, body := .mail e false }
    let s : State := { st th with kernels := [kn], msgs := [m 8] }
    let n : State := { st th with kernels := [kn], msgs := [m 10], cores := (10, { ctx := some 1 }) :: (st th).cores }
    let f := inCore s (fun k => { k with mailbox := List.replicate 24 e })
    ((s.core (m 8).dst).remapStep ≠ 3 ∧ ((inCore s (fun k => { k with remapStep := 3 })).core (m 8).dst).remapStep = 3 ∧
      (inCore s (fun k => { k with remapStep := 3 })).msgAt 0 = some (m 8) ∧ (n.core (m 10).dst).remapStep ≠ 3) ∧ s.msgAt 0 = some (m 8) ∧ (m 8).body = .mail e false ∧ (s.context (m 8).ctx).saved = [] ∧ n.msgAt 0 = some (m 10) ∧
    (n.core 10).ctx = some 1 ∧ 1 ≠ (m 10).ctx ∧ f.msgAt 0 = some (m 8) ∧ (f.core 8).ctx = some (m 8).ctx ∧
    messages (f.core 8).mailbox + messages (f.core 8).held ≥ 24 ∧ (s.core 8).ctx = some (m 8).ctx ∧ (s.core 8).held = [] ∧ e.kind = 0 ∧
    messages (s.core 8).mailbox < 24 ∧ (s.core 8).mailbox.length < 32 ∧ s.mailLive (m 8).ctx e = true := by
  and_intros <;> decide +kernel

/-- A buffer that is not enabled; one of two slots at the end of the store, with its head Filled, Held, and its tail Free. -/
theorem witness_CircularBuffers :
    let w (l : List SlotState) (h : List Nat) : State := inCore (st { th with g := th.g.set 7 0x2000000000000000 }) (fun k =>
      { k with cb := k.cb.set 1 { en := true, cnt := 1, sz := 0, base := 0x3FF80, slots := l, heldOrder := h } })
    let b (s : State) : CircBuf := (s.core s.cur).cb[(1 : BitVec 2).toFin]
    let f := w [.filled, .free] []
    let h := w [.held, .free] [0]
    let e := w [.free, .free] []
    f.thread.isSome = true ∧ f.th.blocked = none ∧ (b (st th)).en = false ∧ (b f).en = true ∧ (b f).slots.getD (b f).head .free = .filled ∧
    (∀ i u, f.threadAt f.cur i = some u → u.blocked = none) ∧ (b h).en = true ∧ (b h).slots.getD (b h).head .free ≠ .filled ∧
    ((b e).en = true ∧ (b e).heldOrder = []) ∧ (b h).heldOrder = 0 :: [] ∧ h.releasable h.cur h.th 5 = true ∧
    e.checkNear e.cur e.th (e.reg 7) (64 * ((b e).sz + 1)) = .ok 0x200000 ∧ (e.reg 7).toNat % 64 = 0 ∧ e.releasable e.cur e.th 5 = true ∧
    (b e).mayTake (.thread e.th.uid) e.cycle = true ∧
    (let z := w [.held, .filled] [0]
     (b z).mayTake (.thread z.th.uid) z.cycle = false ∧ z.checkNear z.cur z.th (z.reg 7) (64 * ((b z).sz + 1)) = .ok 0x200000) ∧
    e.checkNear e.cur e.th (e.reg 4) (64 * ((b e).sz + 1)) = .error 22 ∧
    (let o := inCore (st { th with g := th.g.set 7 0x2000000000000010 }) (fun k => { k with cb := (e.core 8).cb })
     o.checkNear o.cur o.th (o.reg 7) (64 * ((b o).sz + 1)) = .ok 0x200010 ∧ (o.reg 7).toNat % 64 ≠ 0) ∧
    listClosed (e.core e.cur) ((b e).base + 64 * ((b e).sz + 1) * (b e).tail) (64 * ((b e).sz + 1)) = false := by
  and_intros
  rotate_left 5
  · intro i u h
    have : ∀ i : Fin 16, ((inCore (st { th with g := th.g.set 7 0x2000000000000000 }) (fun k =>
      { k with cb := k.cb.set 1 { en := true, cnt := 1, sz := 0, base := 0x3FF80, slots := [.filled, .free] } })).threadAt 8 i).all
        (fun u => u.blocked.isNone) = true := by decide +kernel
    simpa using of_all (this i) u h
  all_goals decide +kernel

/-- A node that is there and deeper than its producer, one that is not there, one that is not deeper, and a record that is not readable;
a consumer that holds a record, with its address and with another, and a thread that holds none. -/
theorem witness_NodeQueues :
    let v : Node := { kid := 2, pool := 0x8000, rsize := 16, depth := 1, records := [.free] }
    let k : Kernel := { kn with nodes := [v] }
    let a (n : Word) (j : Kernel) : State := mapped { st { th with g := th.g.set 7 n } with kernels := [j] }
    let s := a 0 k
    let c : Thread := { th with kid := 2, g := th.g.set 7 0x8000 }
    let r : Kernel := { k with nodes := [{ v with records := [.held], holders := [(0, c.uid)] }] }
    let q : State := mapped { st c with kernels := [r, { kn with kid := 2, root := some 0, node := some 0 }] }
    s.thread.isSome = true ∧ s.th.blocked = none ∧ (s.rootOf (s.kernelOf s.th)).nodes[(s.reg 7).toNat]? = some v ∧
    ((a 1 k).rootOf ((a 1 k).kernelOf (a 1 k).th)).nodes[((a 1 k).reg 7).toNat]? = none ∧
    { v with depth := 0 }.depth ≤ (a 0 { kn with nodes := [{ v with depth := 0 }] }).depthOf { kn with nodes := [{ v with depth := 0 }] } ∧
    s.depthOf (s.kernelOf s.th) < v.depth ∧ s.checkSpan s.th (s.reg 4) v.rsize .read = .error 22 ∧ s.kernels = [k] ∧ k.ctx = s.th.ctx ∧
    k.kid = s.th.kid ∧ k.root = none ∧ k.node = none ∧ k.nodes = [v] ∧ (s.reg 7).toNat = 0 ∧ v.kid ≠ k.kid ∧ 0 < v.depth ∧ v.rsize = 16 ∧
    v.waiters = [] ∧ v.records = [.free] ∧ v.tags = [] ∧ v.pool % 4096 = 0 ∧
    s.checkSpan s.th (s.reg 1) 16 .read = .ok (.store s.cur 0x2000) ∧ 0x2000 + 16 ≤ 2 ^ 18 ∧ (s.reg 1).toNat % 16 = 0 ∧
    s.releasable s.cur s.th 5 = true ∧ s.hit (clusterOf s.cur) s.th.ctx v.pool true = some ⟨false, 0, 0x8000⟩ ∧
    s.hit (clusterOf s.cur) s.th.ctx (v.pool + 8) true = some ⟨false, 0, 0x8008⟩ ∧
    s.heldRecord s.th = none ∧ (q.heldRecord q.th).map (fun p => (p.1, p.2.2)) = some (0, 0) ∧
    q.reg 4 ≠ BitVec.ofNat 64 (v.pool + v.rsize * 0) ∧ q.reg 7 = BitVec.ofNat 64 (v.pool + v.rsize * 0) ∧
    q.releasable q.cur q.th 5 = true ∧ (q.kernel q.th.ctx v.kid).isSome = true ∧ v.kid ≠ r.kid ∧
    (s.checkSpan s.th (s.reg 2) v.rsize .read = .ok (.store 9 0x40) ∧ 9 ≠ s.cur) ∧
    (let o := a 0 { k with nodes := [{ v with rsize := 32 }] }
     let t : Thread := { o.th with g := o.th.g.set 8 0x200000000003FFF0 }
     (o.setTh t).checkSpan t 0x200000000003FFF0 32 .read = .ok (.store o.cur 0x3FFF0) ∧ 0x3FFF0 + 32 > 2 ^ 18) ∧
    s.checkSpan s.th (s.reg 3) v.rsize .read = .ok (.device 0x8000) ∧ (s.reg 3).toNat % 16 = 0 ∧ v.first .free = some 0 ∧
    { v with records := [.held] }.first .free = none ∧
    (let m := st { th with g := th.g.set 9 0x2000000000000008 }
     m.checkSpan m.th (m.reg 9) 16 .read = .ok (.store m.cur 8) ∧ (m.reg 9).toNat % 16 ≠ 0) ∧
    (∀ j : Fin 16, s.portHome (0x8000 + j.val) true = some ⟨false, 0, 0x8000 + j.val⟩ ∧
      s.portHome (0x8000 + j.val) false = some ⟨false, 0, 0x8000 + j.val⟩ ∧ s.reachable ⟨false, 0, 0x8000 + j.val⟩ = true) ∧
    (let z : State := { s with kernels := [k, { kn with kid := 2, root := some 0, node := some 0 }] }
     (z.kernel z.th.ctx v.kid).isSome = true) ∧ s.laneEmpty := by
  unfold State.laneEmpty
  and_intros <;> decide +kernel

theorem witness_StepMarks : (st th).thread.isSome = true ∧ (st th).th.stage = 0 ∧ (st th).boundaryDue (st th).cur (st th).th = false ∧
    (st th).tracing (st th).th.ctx 0 = false := by
  and_intros <;> decide +kernel

/-- Element 15 of a claim of one strip; a beat of three, and the last. -/
theorem witness_VectorWrites :
    let t (n : Nat) : Thread := { th with beats := some ⟨n, []⟩ }
    15 < th.vl ∧ (st (t 3)).thread = some (t 3) ∧ (t 3).beats = some ⟨3, []⟩ ∧ 2 ≤ 3 ∧ (st (t 2)).thread = some (t 2) ∧
    (st (t 1)).thread = some (t 1) ∧ (t 1).beats = some ⟨1, []⟩ := by
  and_intros <;> decide +kernel

/-- Every vector arithmetic instruction has its operation; both widths. -/
theorem witness_VectorArithmetic : (st th).thread.isSome = true ∧ (0 : BitVec 4).getLsbD 0 = false ∧ (1 : BitVec 4).getLsbD 0 = true ∧
    (∀ i ∈ [Instr.vadd 0 2 4 6, .vsub 0 2 4 6, .vmul 0 2 4 6, .vmin 0 2 4 6, .vmax 0 2 4 6, .vabs 0 2 4, .vneg 0 2 4, .vand 0 2 4 6,
      .vor 0 2 4 6, .vxor 0 2 4 6, .vshl 0 2 4 6, .vshr 0 2 4 6, .vsra 0 2 4 6],
      (vectorInt i).map (fun r => (r.1, r.2.1, r.2.2.1)) = some (0, 2, 4)) ∧
    (∀ i ∈ [Instr.vfadd 1 2 4 6, .vfsub 1 2 4 6, .vfmul 1 2 4 6, .vfdiv 1 2 4 6],
      (vectorFloat i).map (fun r => (r.1, r.2.1, r.2.2.1)) = some (1, 2, 4)) := by
  and_intros <;> decide +kernel

theorem witness_VectorMoves : (st th).thread.isSome = true ∧ (0 : BitVec 4).getLsbD 0 = false ∧ (1 : BitVec 4).getLsbD 0 = true := by
  and_intros <;> decide +kernel

/-- Encodings of each class of R48's table: NaNs, infinities, zeros, a negative, integers, half-integers, and powers of 2 and 4, at the ends of
the ranges of the clauses. -/
theorem witness_VectorSpecials :
    let fin (w : Nat) (x : ℚ) : Prop := w < 2 ^ 32 ∧ w / 2 ^ 23 % 256 ≠ 255 ∧ (fp32.decode w).rat = x
    (st th).thread.isSome = true ∧
    (∀ i ∈ [Instr.vexp2 0 2 4, .vlog2 0 2 4, .vrcp 0 2 4, .vrsq 0 2 4, .vsqrt 0 2 4, .vsinpi 0 2 4, .vcospi 0 2 4],
      (vectorSpecial 0 i).map (fun r => (r.1, r.2.1, r.2.2.1)) = some (0, 2, 4)) ∧
    0x7FC00000 < 2 ^ 32 ∧ fp32.decode 0x7FC00000 = .nan ∧ fp32.decode 0xFFFFFFFF = .nan ∧ fp32.decode 0x7F800000 = .inf false ∧
    fp32.decode 0xFF800000 = .inf true ∧ fin 0 0 ∧ fin 0x80000000 0 ∧ fin 0xBF800000 (-1 : Int) ∧ fin 0x3F800000 (1 : Int) ∧
    fin 0xC3150000 (-149 : Int) ∧ fin 0x42FE0000 (127 : Int) ∧ fin 0x43000000 128 ∧ fin 0xC3160000 (-150) ∧ fin 0xC3170000 (-151) ∧
    fin 0x3F000000 ((0 : Int) + 1 / 2) ∧ fin 0xBF000000 ((-1 : Int) + 1 / 2) ∧ fin 0x00000001 (2 ^ (-149 : Int)) ∧ fin 0x7F000000 (2 ^ (127 : Int)) ∧
    fin 0x3F800000 (2 ^ (0 : Int)) ∧ fin 0x00000002 (4 ^ (-74 : Int)) ∧ fin 0x7E800000 (4 ^ (63 : Int)) := by
  and_intros <;> decide +kernel

/-- An ordinary argument of each function, and a splat's opacity and exponent. -/
theorem witness_SpecialAccuracy :
    let x (w : Nat) : ℚ := (fp32.decode w).rat
    0x40490FDB < 2 ^ 32 ∧ 0x40490FDB / 2 ^ 23 % 256 ≠ 255 ∧ x 0x40490FDB < 128 ∧ 0 < x 0x40490FDB ∧ x 0x40490FDB ≠ 0 ∧
    0x3F7FFFFF < 2 ^ 31 ∧ 0x3F7FFFFF / 2 ^ 23 % 256 ≠ 255 ∧ 0 < 3 := by
  and_intros <;> decide +kernel

/-- A ray through a triangle and one past it; a primitive with its drop bit set, one that the current hit is nearer than, and one that is nearer; a
splat at the ray, for a k-buffer with three entries and one with four; and for `vrtri` a triangle at the last 40 bytes of the own store, and
one that runs past it. -/
theorem witness_RayTests :
    let one : Nat := 0x3F800000
    let words (l : List Nat) : Memory := (l.zipIdx.foldl (fun m p => Memory.putNum m (4 * p.2) 4 p.1) [])
    let ray (t : Nat) (k : List (Nat × Nat)) : Memory :=
      words ([0, 0, 0, 0, 0, 0, one, t, 0xFFFFFFFF, 0, 0, 0, 0, 0, 0, 0] ++ k.flatMap (fun e => [e.1, e.2, 100, 0]))
    let tri (drop : Nat) : Memory := words [0xBF800000, 0xBF800000, one, one, 0xBF800000, one, 0, one, one, 5 + drop]
    let splat : Memory := words [0, 0, one, one, 0, 0, one, 0, one, 0x3F000000, 5]
    let f (m : Memory) (a : Nat) : FVal := fp32.decode (m.num a 4)
    let v (m : Memory) (a : Nat) : V3 := ⟨f m a, f m (a + 4), f m (a + 8)⟩
    let hit (m p : Memory) := tritest (v m 0) (v m 16) (v p 0) (v p 12) (v p 24)
    let sp (m : Memory) := splatted (v m 0) (v m 16) (f m 12) (f m 28) (v splat 0) ((List.range 6).map (fun i => f splat (12 + 4 * i))) (f splat 36)
    let free : Nat × Nat := (0x7F800000, 0xFFFFFFFF)
    let k3 := [(0x3F000000, 1), (one, 2), (0x40000000, 3), free]
    let k4 := [(0x3F000000, 1), (one, 2), (0x40000000, 3), (0x40400000, 4)]
    let a (ea : Word) : State := st { th with g := th.g.set 7 ea }
    7 < 2 ^ 16 ∧ hit (ray 0x7F800000 k3) (tri 0) = some (one, 0x3E800000, 0x3F000000) ∧ ((tri 0).num 36 4).testBit 16 = false ∧
    ((tri 65536).num 36 4).testBit 16 = true ∧ hit (ray 0x7F800000 k3) splat = none ∧
    within (fp32.decode one) (f (ray 0x7F800000 k3) 12) (f (ray 0x7F800000 k3) 28) ∧
    ¬within (fp32.decode one) (f (ray 0x3F000000 k3) 12) (f (ray 0x3F000000 k3) 28) ∧
    (fp32.decode one).lt (f (ray 0x7F800000 k3) 28) = true ∧
    sp (ray 0x7F800000 k3) = some (one, 128) ∧ sp (ray 0x3F000000 k3) = none ∧
    (∀ k ∈ [k3, k4], let es := ((List.range 4).map (fun i => ((ray 0x7F800000 k).num (64 + 16 * i) 4, (ray 0x7F800000 k).num (68 + 16 * i) 4,
        (ray 0x7F800000 k).num (72 + 16 * i) 4))).filter (fun e => e.2.1 != 0xFFFFFFFF)
      (es.length = 3 ∨ es.length = 4) ∧ (∀ e ∈ es, (fp32.decode e.1).isNan = false ∧ e.2.2 < 256) ∧
      es.Pairwise (fun a b => (fp32.decode a.1).lt (fp32.decode b.1) = true)) ∧
    (a 0x200000000003FFE0).checkTriangle ((a 0x200000000003FFE0).reg 7) = .error 25 ∧
    (a 0x200000000003FFD8).checkTriangle ((a 0x200000000003FFD8).reg 7) = .ok 0x3FFD8 ∧
    (a 0x200000000003FFD8).unwatched ((a 0x200000000003FFD8).reg 7) 40 false ∧
    (∀ k, k < 10 → listClosed ((a 0x200000000003FFD8).core 8) (0x3FFD8 + 4 * k) 4 = false) := by
  unfold State.unwatched within
  and_intros <;> decide +kernel

/-- The places of a vector access without a stride from a base, as the statement computes them. -/
def vOff (ea : Word) (e : Nat) : Int := (ea.toNat % 2 ^ 61 : Nat) + e * 4
def vAt (ea : Word) (e : Nat) : Nat := (th.kb[segIndex ea]).toNat + (vOff ea e).toNat
def vFits (s : State) (ea : Word) (e : Nat) : Bool :=
  let kd := (th.kd[segIndex ea]).toNat
  decide (0 ≤ vOff ea e ∧ vOff ea e + 3 ≤ (kd % 2 ^ 57 : Nat) ∧ (kd / 2 ^ 62 = 1 → vAt ea e + 3 < 2 ^ 57) ∧
    (kd / 2 ^ 62 = 2 → vAt ea e + 3 < 2 ^ 30 ∧ s.coreOk s.th.ctx (vAt ea e / 2 ^ 18) = true ∧
      s.coreOk s.th.ctx ((vAt ea e + 3) / 2 ^ 18) = true))
/-- No segment; the fifth element past the limit; the third element in core 9; a misaligned element, and one in a closed list; no active
element; all elements in the own store; in device memory, with its page in the port and without, and through a CONST segment. -/
theorem witness_VectorMemory :
    let a (ea : Word) : State := st { th with g := th.g.set 7 ea }
    let dv := mapped (st th)
    let loc : Word := 0x2000000000002000
    let dev : Word := 0x4000000000008000
    (a loc).thread.isSome = true ∧
    (∀ e : Nat, vOff loc e = ((loc + (0 : BitVec 17).signExtend 64).toNat % 2 ^ 61 : Nat) + e * (if (0 : BitVec 4).getLsbD 0 then 7 else 4)) ∧
    (st th).th.vdata = none ∧ (st th).activeX 0 = 0 :: (List.range 16).tail ∧ (th.kd[segIndex 5]).toNat / 2 ^ 62 = 0 ∧
    (st th).activeX 0 = [0, 1, 2, 3] ++ 4 :: (List.range 16).drop 5 ∧
    (th.kd[segIndex loc]).toNat / 2 ^ 62 = 2 ∧ (th.kd[segIndex loc]).getLsbD 60 = true ∧ (th.kd[segIndex loc]).getLsbD 61 = true ∧
    (∀ e ∈ [0, 1, 2, 3], vFits (st th) 0x20000000000FFFF0 e = true) ∧ vFits (st th) 0x20000000000FFFF0 4 = false ∧
    (∀ e ∈ (st th).activeX 0, vFits (st th) 0x200000000003FFF8 e = true) ∧
    (∀ e ∈ [0, 1], vAt 0x200000000003FFF8 e / 2 ^ 18 = 8) ∧ vAt 0x200000000003FFF8 2 / 2 ^ 18 ≠ 8 ∧
    (∀ e ∈ (st th).activeX 0, vFits (st th) loc e = true ∧ vAt loc e / 2 ^ 18 = 8 ∧ vAt loc e % 4 = 0 ∧
      listClosed ((st th).core 8) (vAt loc e % 2 ^ 18) 4 = false ∧
      (st th).unwatched (BitVec.ofNat 64 (2 ^ 61 + (vOff loc e).toNat)) 4 true ∧
      (st th).unwatched (BitVec.ofNat 64 (2 ^ 61 + (vOff loc e).toNat)) 4 false) ∧ (st th).activeX 0 ≠ [] ∧
    (th.kd[segIndex dev]).toNat / 2 ^ 62 = 1 ∧ (th.kd[segIndex dev]).getLsbD 57 = false ∧
    (∀ e ∈ dv.activeX 0, vFits dv dev e = true ∧ vAt dev e % 4 = 0 ∧ dv.unwatched (BitVec.ofNat 64 (2 * 2 ^ 61 + (vOff dev e).toNat)) 4 true) ∧
    (∀ e ∈ dv.activeX 0, dv.hit (clusterOf dv.cur) dv.th.ctx (vAt dev e) true = some ⟨false, 0, vAt dev e⟩) ∧
    (∃ e ∈ (st th).activeX 0, (st th).hit (clusterOf (st th).cur) (st th).th.ctx (vAt dev e) true = none) ∧
    (∀ e ∈ (st th).activeX 0, vFits (st th) 0x2000000000002002 e = true ∧ vAt 0x2000000000002002 e / 2 ^ 18 = 8) ∧
    vAt 0x2000000000002002 0 % 4 ≠ 0 ∧
    (let z := inCore (st th) (fun k => { k with pool := { k.pool with valid := true, list := 0x2008 } })
     listClosed (z.core 8) (vAt loc 2 % 2 ^ 18) 4 = true ∧ ∀ e ∈ [0, 1], listClosed (z.core 8) (vAt loc e % 2 ^ 18) 4 = false) ∧
    (st { th with vp := th.vp.set 1 (List.replicate 16 false) }).activeX 10 = [] ∧
    (let c := mapped (st { th with kd := th.kd.set 2 0x7E0000003FFFFFFF })
     (c.th.kd[segIndex dev]).getLsbD 57 = true ∧ (c.th.kd[segIndex dev]).toNat / 2 ^ 62 = 1 ∧
     ∀ e ∈ c.activeX 0, c.hit (clusterOf c.cur) c.th.ctx (vAt dev e) false = some ⟨false, 0, vAt dev e⟩) := by
  unfold State.unwatched
  and_intros
  rotate_left 1
  · intro e; rfl
  all_goals decide +kernel

/-- Matrix mode; claims of 0, 33, 1 and 32; a thread with nothing outstanding; a strip held that stays, and one free. -/
theorem witness_Claims :
    let a (v : Word) : State := st { th with g := th.g.set 7 v }
    (a 0).thread.isSome = true ∧ statM (st { th with stat := 0xF80020 }).th.stat = true ∧ ((a 0).reg 7).toNat = 0 ∧
    ((a 33).reg 7).toNat > 32 ∧ (a 1).th.beats = none ∧ (∀ p ∈ (a 1).th.pending, ∃ f, p.dst = .scalar f) ∧
    statM (a 1).th.stat = false ∧ (a 1).th.claim.strips.Nodup ∧ 1 ≤ ((a 1).reg 7).toNat ∧ ((a 32).reg 7).toNat ≤ 32 ∧
    (∀ q ∈ (a 1).th.claim.strips, q < 32) ∧ 4 * ((a 1).cur % 8) + (a 1).slot.val / 4 ∈ (a 1).th.claim.strips ∧
    ((a 1).setTh (a 1).th.marked).recalled 8 3 0 = false ∧ ((a 1).setTh (a 1).th.marked).pairFree 8 3 1 = true ∧
    ((a 1).setTh (a 1).th.marked).wanted 8 1 3 = false := by
  and_intros
  rotate_left 5
  · intro p h; exact absurd h (by decide +kernel +revert)
  all_goals decide +kernel

/-- A thread whose claim is its core's block (strips 0 to 3), in matrix mode and out of it, and one whose claim is strip 0 alone; a
`mop` that has completed; a legal pair of formats and one that is not; a panel of the own store, K 0, 8, and 72 with NF8 operands; a
queue with room, and a full one. -/
theorem witness_MatrixInstructions :
    let a (w : Word) (strips : List Nat) (fa fb : BitVec 4) (k : Word) : State :=
      st { th with stat := w, claim := ⟨4, strips⟩, fa := fa, fb := fb, g := (th.g.set 7 0x2000000000000000).set 8 k }
    let s := a 0xF80020 [0, 1, 2, 3] 0 0 8
    let f := inCore s (fun k => { k with latch := { queue := List.replicate 16 (.bpass none) } })
    s.thread.isSome = true ∧ statM s.th.stat = true ∧ (∀ q, q ∈ s.th.claim.strips ↔ q / 4 = s.cur % 8) ∧ s.th.beats = none ∧
    s.th.pending = [] ∧ statM (a 0 [0] 0 0 8).th.stat = false ∧ ¬(∀ q, q ∈ (a 0 [0] 0 0 8).th.claim.strips ↔ q / 4 = 8 % 8) ∧
    (∀ q ∈ (a 0 [0] 0 0 8).th.claim.strips, q < 32) ∧ (st { th with stage := 2, granted := true }).th.stage = 2 ∧
    (st { th with stage := 2, granted := true }).th.granted = true ∧ s.th.stage = 0 ∧ s.th.blocked = none ∧ s.th.syncReady 0x801 ∧
    mopPair (a 0xF80020 [0] 0 5 8).th.fa (a 0xF80020 [0] 0 5 8).th.fb = none ∧ (s.core s.cur).latch.queue.length < 16 ∧
    (mopPair s.th.fa s.th.fb).isSome = true ∧ (s.reg 8).toNat ≠ 0 ∧ (s.reg 8).toNat % 8 = 0 ∧ (s.reg 8).toNat ≤ 2048 / fmtBits s.th.fb ∧
    s.th.fb ≠ 8 ∧ s.checkOwn s.cur s.th (s.reg 7) (16 * (s.reg 8).toNat * fmtBits s.th.fb / 8) = .ok 0 ∧
    ((a 0 [0] 0 8 64).th.fb = 8 ∧ ((a 0 [0] 0 8 64).reg 8).toNat % 64 = 0 ∧ (a 0 [0] 0 8 64).th.sb.toNat % 8 = 0 ∧
      (a 0 [0] 0 8 64).th.sb.toNat + 128 * ((((a 0 [0] 0 8 64).reg 8).toNat + 255) / 256) ≤ 0x40000) ∧
    ((a 0 [0] 0 0 0).reg 8).toNat = 0 ∧ ((a 0 [0] 0 0 4).reg 8).toNat % 8 ≠ 0 ∧ ((a 0 [0] 0 0 72).reg 8).toNat > 2048 / fmtBits 0 ∧
    ((a 0 [0] 0 8 72).reg 8).toNat % 64 ≠ 0 ∧ (f.core f.cur).latch.hasRoom (.thread f.th.uid) = false ∧
    (s.core s.cur).latch.room = [] ∧ s.th.mop = none ∧
    (let w := st { s.th with dep := th.dep.set 2 1 }
     statM w.th.stat = true ∧ w.th.depsZero (syncWait 0x004) = false) ∧
    s.checkOwn s.cur s.th (s.reg 4) (16 * (s.reg 8).toNat * fmtBits s.th.fb / 8) = .error 22 ∧
    (let b (sb : BitVec 32) : Thread := { (a 0 [0] 0 8 64).th with sb := sb }
     (st (b 4)).checkOwn 8 (b 4) 0x2000000000000000 (16 * 64 * fmtBits 8 / 8) = .ok 0 ∧ (b 4).sb.toNat % 8 ≠ 0 ∧
     (b 0x3FF88).sb.toNat % 8 = 0 ∧ (b 0x3FF88).sb.toNat + 128 * ((64 + 255) / 256) > 0x40000) := by
  unfold Thread.syncReady
  and_intros
  rotate_left 2
  · intro q
    show q ∈ [0, 1, 2, 3] ↔ q / 4 = 0
    simp only [List.mem_cons, List.not_mem_nil, or_false]; omega
  rotate_left 3
  · intro h; exact absurd ((h 1).mpr (by decide)) (by decide +kernel)
  all_goals decide +kernel

/-- The heads of a latch queue with the latches that they act on; a fill that ends; a pass to an Empty latch, and none; a `mop` that may
start, one whose format is not the latch's, and one that has run no step yet of K = 8. -/
theorem witness_LatchSteps :
    let r : MopRun := { tile := 0, la := 0, sa := 0, step := 0, k := 8, fa := 0, fb := 0, table := resetTable.toList, started := true }
    let t : Thread := { th with mop := some r, aux := 0x2000000000000000, claim := ⟨4, [0, 1, 2, 3]⟩ }
    let a (l : Latch) : State := inCore (st t) (fun k => { k with latch := l })
    ((a { queue := [] }).core 8).latch.queue = [] ∧
    (((a { queue := [.bload 0 8 0 0 none] }).core 8).latch.queue = .bload 0 8 0 0 none :: [] ∧
      ((a { queue := [.bload 0 8 0 0 none] }).core 8).latch.st = .empty ∧ ((a { queue := [.bload 0 8 0 0 none] }).core 8).latch.coming = none ∧
      (a { queue := [.bload 0 8 0 0 none] }).passReady (8 / 8 * 8 + (8 % 8 + 7) % 8) = false) ∧
    (let p : State := { a { queue := [.bload 0 8 0 0 none] } with
       cores := (15, { latch := { queue := [.bpass none], st := .full } }) :: (a { queue := [.bload 0 8 0 0 none] }).cores }
     p.passReady (8 / 8 * 8 + (8 % 8 + 7) % 8) = true ∧ (p.core 8).latch.queue = .bload 0 8 0 0 none :: []) ∧
    (((a { queue := [.drop none], st := .full }).core 8).latch.st = .full ∧ ((a { queue := [.drop none], st := .full }).core 8).latch.rdr = 0) ∧
    (slotOf ((a { queue := [.mop 7], st := .full, k := 8 }).core 8) 7 = some 3 ∧
      (a { queue := [.mop 7], st := .full, k := 8 }).threadAt 8 3 = some t ∧ t.mop = some r ∧
      (a { queue := [.mop 7], st := .full, k := 8 }).mopStart 8 t r = .ok 0) ∧
    (a { queue := [.mop 7], st := .full, k := 8, lf := 1 }).mopStart 8 t r = .error 19 ∧
    ((a { fill := some (.bload 0 8 8 0 none) }).core 8).latch.fill = some (.bload 0 8 8 0 none) ∧
    ((a { queue := [.bpass none], st := .full }).passReady 8 = true ∧
      ((a { queue := [.bpass none], st := .full }).core (passDst 8)).latch.st = .empty ∧
      ∀ j : Fin 16, j.val / 8 = 8 / 8 → ((a { queue := [.bpass none], st := .full }).core j).latch.coming = none) ∧
    (∀ j : Fin 16, j.val / 8 = 8 / 8 → ((a {}).core j).latch.coming = none ∧ (a {}).passReady j = false) ∧
    (let p : Passing := { data := [], scale := [], k := 8, lf := 0, dep := none }
     ((a { coming := some p }).core 8).latch.coming = some p ∧
     (let z : State := { a { st := .passing } with cores := (9, { latch := { coming := some p } }) :: (a { st := .passing }).cores }
      (z.core 9).latch.coming = some p ∧ (z.core 8).latch.coming = none ∧ (z.core 8).latch.st = .passing)) ∧
    (t.mop = some r ∧ r.started = true ∧ t.hold = false ∧ r.step = 0 ∧
      (∀ j : Fin 16, j ≠ 3 → ∀ u, (a {}).threadAt 8 j = some u → u.mop = none) ∧ mopPair r.fa r.fb = some (1, false) ∧
      (let unit := if r.fa = 8 ∨ r.fb = 8 then 64 else 1
       r.k % unit = 0 ∧ r.k / unit ≤ 512) ∧ t.vl = 64 ∧ r.tile < 2 ∧
      r.since + r.k / 1 ≤ ({ a {} with cycle := 8 } : State).cycle ∧ (a {}).cycle < r.since + r.k / 1) := by
  and_intros <;> decide +kernel

/-- The page of `mapped` for the lending areas: DVA 0x1F000000000000 and up, at address 0. -/
def lending (s : State) : State := { s with clusters := [(1, { tlb := [⟨0, 30, 0x7C0000, 0xE200000000000000⟩] })] }
/-- A runtime thread with its kernel; a frame of zeros that names that kernel, one with a reserved bit, no kernel; the frame at the last
place of its page; an upcall kernel's frame in the lending area of slot 3 of core 8; segments that forbid. -/
theorem witness_FibreFrames :
    let t : Thread := { th with stat := 0xF80001, g := th.g.set 7 0x4000000000008F00 }
    let s : State := { mapped (st t) with kernels := [kn] }
    let bad : State := { s with mem := [(0x8F0B, 1)] }
    let e : State := { lending (st t) with kernels := [{ kn with desc := { upcall := 65 } }] }
    let y := s.th
    s.thread.isSome = true ∧ statPriv s.th.stat ≠ 0 ∧ 0x8F00 % 64 = 0 ∧ 0x8F00 % 4096 ≤ 3840 ∧
    s.checkGlobal y (s.reg 7) 256 .write = .ok 0x8F00 ∧ s.checkGlobal y (s.reg 7) 256 .read = .ok 0x8F00 ∧
    (∀ n, n < 256 → s.hit (clusterOf s.cur) y.ctx (0x8F00 + n) true = some ⟨false, 0, 0x8F00 + n⟩) ∧
    (∀ n, n < 256 → s.hit (clusterOf s.cur) y.ctx (0x8F00 + n) false = some ⟨false, 0, 0x8F00 + n⟩) ∧
    y.pending = [] ∧ y.dep = Vector.replicate 8 0 ∧ s.laneEmpty ∧ e.laneEmpty ∧ e.acked e.cur e.th.uid 5 = true ∧ s.releasable s.cur y 5 = true ∧ s.acked s.cur y.uid 5 = true ∧
    (∀ z ∈ s.dies.toList, ∀ e ∈ z.engines.toList, ∀ k ∈ e.commands, k.uid ≠ y.uid) ∧
    frameOk (s.mem.bytes 0x8F00 256) = true ∧
    (∃ k ∈ s.kernels, k.ctx = y.ctx ∧ k.kid = (frameWord (s.mem.bytes 0x8F00 256) 4).truncate 32 ∧ k.done = false) ∧
    frameOk (bad.mem.bytes 0x8F00 256) = false ∧
    ¬(∃ k ∈ (mapped (st t)).kernels, k.ctx = y.ctx ∧ k.kid = (frameWord (s.mem.bytes 0x8F00 256) 4).truncate 32 ∧ k.done = false) ∧
    ((e.kernelOf e.th).desc.upcall ≠ 0 ∧ 0x1F000000010600 = e.package.lendBase + 512 * (16 * e.cur + e.slot.val) ∧
      0x1F000000010600 % 4096 ≤ 3840 ∧
      (∀ n, n < 256 → e.hit (clusterOf e.cur) e.th.ctx (0x1F000000010600 + n) false = some ⟨false, 0, 0x10600 + n⟩) ∧
      frameOk (e.mem.bytes 0x10600 256) = true) ∧
    s.checkGlobal y (s.reg 4) 256 .write = .error 22 ∧ s.checkGlobal y (s.reg 1) 256 .read = .error 22 ∧
    (s.checkGlobal y (s.reg 7 + 4) 256 .write = .ok 0x8F04 ∧ s.checkGlobal y (s.reg 7 + 4) 256 .read = .ok 0x8F04 ∧ ((s.reg 7 + 4).toNat % 64 ≠ 0 ∨ 0x8F04 % 64 ≠ 0)) ∧ (s.reg 7).toNat % 64 = 0 := by
  and_intros <;> first | decide +kernel | (intro y h; cases h)

/-- A firmware thread and a user's, with work and without; a code line that may be fetched and is in the port, and one that is not. -/
theorem witness_SystemInstructions :
    let a (w : Word) : State := mapped (st { th with stat := w })
    let m := inCore (a 1) (fun k => { k with mailbox := [{ d := 1, tt := 0, ktag := 0, kind := 0, sender := 9 }] })
    let d := inCore (a 0) (fun k => { k with stopEn := true })
    (a 0).thread.isSome = true ∧ statPriv (a 1).th.stat ≠ 0 ∧ m.work m.cur m.th = true ∧ (a 1).work (a 1).cur (a 1).th = false ∧
    statPriv (a 2).th.stat = 2 ∧ (a 2).acked (a 2).cur (a 2).th.uid 5 = true ∧ (a 2).th.stage = 0 ∧ (∀ y ∈ (a 2).flight, y.ctx ≠ (a 2).th.ctx) ∧
    checkFetch (a 0).th (BitVec.ofNat 64 (((a 0).reg 3).toNat / 64 * 64)) = .ok 0x8000 ∧
    (a 0).hit (clusterOf (a 0).cur) (a 0).th.ctx 0x8000 false = some ⟨false, 0, 0x8000⟩ ∧
    checkFetch (a 0).th (BitVec.ofNat 64 (((a 0).reg 1).toNat / 64 * 64)) = .error 22 ∧ ((a 0).context (a 0).th.ctx).session = none ∧
    ((a 0).core (a 0).cur).stopEn = false ∧ ((a 0).core (a 0).cur).ctx = some (a 0).th.ctx ∧ (d.core d.cur).stopEn = true ∧ (d.core d.cur).ctx = some d.th.ctx ∧
    (a 0).tracing (a 0).th.ctx 4 = false := by
  and_intros <;> decide +kernel

/-- A thread that waits for the worked line at DVA 64, and one without a code segment; walks that find a leaf and that find none. -/
theorem witness_FetchAndWalk :
    let t : Thread := { th with st := .parked .fetch, kb := th.kb, kd := th.kd.set 0 0x480000003FFFFFFF }
    let s : State := { mapped (st t) with mem := Memory.putNum [] 64 64 workedLine.toNat }
    let n : Thread := { th with st := .parked .fetch }
    let w : WalkReq := ⟨0x4000000000008000, 0x8000, false, 0⟩
    let v : Thread := { th with st := .parked .walk, walk := some w }
    let ctx : Context := { partition := 1, st := .active, root := 0x1000 }
    let p : State := { st v with mem := tables, contexts := [(0, ctx)] }
    s.threadAt 8 3 = some t ∧ t.st = .parked .fetch ∧ t.held = none ∧ checkFetch t (BitVec.ofNat 64 (t.pc.toNat / 64 * 64)) = .ok 64 ∧
    s.hit (clusterOf 8) t.ctx 64 false = some ⟨false, 0, 64⟩ ∧ s.poison = [] ∧
    Line.ok (BitVec.ofNat 512 (s.mem.num 64 64)) (t.pc &&& 63).toNat = true ∧
    (st n).threadAt 8 3 = some n ∧ checkFetch n (BitVec.ofNat 64 (n.pc.toNat / 64 * 64)) = .error 22 ∧
    p.threadAt 8 3 = some v ∧ v.walk = some w ∧
    p.judge v.ctx w.dva w.write false (p.portWalk (clusterOf 8) v.ctx w.dva).2 = .ok 30 0xE200000000000000 ⟨false, 0, 0x8000⟩ ∧
    (p.reachable ⟨false, 0, 0x8000⟩ = true ∨ p.pathLost 0 = false) ∧
    (st v).judge v.ctx w.dva w.write false ((st v).portWalk (clusterOf 8) v.ctx w.dva).2 = .fault 1 4 := by
  and_intros <;> decide +kernel

/-- A block in device memory on a line of its own and across a line, in a segment that forbids; a slot that is waited for; a removal at its
first and at its second turn; a full batch tracker and one with room;
`cpwait` with its number reached and not; `publish` on a page in a region and on a plain one. -/
theorem witness_CopyInstructions :
    let s := mapped (st th)
    let pp : State := { st th with clusters := [(1, { tlb := [⟨0, 30, 0, 0xE600000000000000⟩] })] }
    let two : BatchTracker := { opened := 1, number := 2, live := 1, closed := [(1, 1)] }
    s.thread.isSome = true ∧ s.th.blocked = none ∧
    (∀ i ∈ [Instr.cpy 3 0x801, .cpgx 3 0x801, .cpsx 3 0x801, .cpmc 3 0x801], (copyForm i).map (fun r => (r.1, r.2.1)) = some (3, 0x801)) ∧
    (st { th with stage := 2, granted := true }).th.stage = 2 ∧ (st { th with stage := 2, granted := true }).th.granted = true ∧
    s.th.stage = 0 ∧ s.cur < 4096 ∧ (st { th with stage := 1 }).th.stage = 1 ∧
    ({ th with dep := th.dep.set 2 1 } : Thread).depsZero (syncWait 0x004) = false ∧ s.th.syncReady 0x801 ∧ s.checkGlobal s.th (s.reg 1) 64 .read = .error 22 ∧
    s.checkGlobal s.th (s.reg 3) 64 .read = .ok 0x8000 ∧ (s.reg 3).toNat % 64 = 0 ∧ 0x8000 % 64 = 0 ∧
    s.checkGlobal s.th (s.reg 3 + 4) 64 .read = .ok 0x8004 ∧ (s.reg 3 + 4).toNat % 64 ≠ 0 ∧ s.th.batch.opened ≠ 64 ∧
    s.releasable s.cur s.th 5 = true ∧ s.th.batch.opened = 0 ∧ s.th.batch.closed.length ≤ 0 ∧
    (two.opened ≠ 0 ∧ two.closed.length < 16 ∧ two.live ≠ 0 ∧ (two.closed ++ [(two.number, two.live)]).length > (1 : Field).toNat) ∧
    (let full : BatchTracker := { opened := 64, number := 20, live := 1, closed := List.replicate 16 (1, 1) }
     full.opened = 64 ∧ full.live ≠ 0 ∧ full.closed.length ≥ 16) ∧
    s.check s.th (s.reg 3) 4 .write false = .ok (.device 0x8000) ∧
    s.hit (clusterOf s.cur) s.th.ctx 0x8000 true = some ⟨false, 0, 0x8000⟩ ∧
    tlbHit (s.cluster (clusterOf s.cur)) s.th.ctx 0x8000 true = some ⟨0, 30, 0, 0xE200000000000000⟩ ∧
    (0xE200000000000000 : Word).getLsbD 58 = false ∧ (0xE600000000000000 : Word).getLsbD 58 = true ∧
    pp.hit (clusterOf pp.cur) pp.th.ctx 0x8000 true = some ⟨false, 0, 0x8000⟩ ∧
    tlbHit (pp.cluster (clusterOf pp.cur)) pp.th.ctx 0x8000 true = some ⟨0, 30, 0, 0xE600000000000000⟩ := by
  unfold Thread.syncReady
  and_intros <;> decide +kernel

/-- A block of one row of four bytes from 0x2000 to 0x3000 of the own store, in device memory at 0x8000. -/
def blockMem : Memory :=
  Memory.putNum (Memory.putNum (Memory.putNum (Memory.putNum tables 0x8004 4 4) 0x8008 8 0x2000000000002000) 0x8010 8 0x2000000000003000)
    0x8018 4 1
/-- The state with device memory walked from 0x1000. -/
def walked (s : State) (m : Memory) : State :=
  { s with mem := m, contexts := [(0, { partition := 1, st := .active, root := 0x1000 })] }
/-- A command with that block, at an engine of the thread's core. -/
def command (delivered : Option Nat) : Command :=
  { id := 1, op := .cpy, block := Block.parse (blockMem.bytes 0x8000 64), uid := 7, ctx := 0, core := 8, kid := 0, tidx := 0
    kb := th.kb, kd := th.kd, delivered := delivered }
theorem witness_CopySteps :
    let t : Thread := { th with st := .parked .engine, aux := 0x100008, stage := 2 }
    let s := walked (st t) blockMem
    let raw := leBytes (s.homeRead ⟨false, 0, 0x8000⟩ 64) 64
    let q (z : Option Nat) : State := { (walked (st th) blockMem).setEngine 0 1 { commands := [command z] } with cycle := 9 }
    let u : Thread := { th with st := .parked .publish, stage := 2, aux := 0x3005 }
    s.threadAt 8 3 = some t ∧ 8 < 4096 ∧ t.st = .parked .engine ∧ t.granted = false ∧ t.hold = false ∧
    (s.engine (dieOf 8) (engineOf 8)).commands.length < 64 ∧
    s.overtakes 8 t = false ∧ s.agentXlat t.ctx (t.aux.toNat / 32) false false = .ok 30 0xE200000000000000 ⟨false, 0, 0x8000⟩ ∧
    s.reachable ⟨false, 0, 0x8000⟩ = true ∧ (s.engine (dieOf 8) (engineOf 8)).cache = [] ∧ s.checkCommand 8 t (copyOp (t.aux.toNat % 4)) (Block.parse raw) raw = none ∧
    (let z := walked (st t) tables
     let raw := leBytes (z.homeRead ⟨false, 0, 0x8000⟩ 64) 64
     (z.checkCommand 8 t (copyOp (t.aux.toNat % 4)) (Block.parse raw) raw).isSome = true ∧
     z.agentXlat t.ctx (t.aux.toNat / 32) false false = .ok 30 0xE200000000000000 ⟨false, 0, 0x8000⟩) ∧
    (q none).threadAt 8 3 = some th ∧ ((q none).engine 0 1).commands[0]? = some (command none) ∧
    ((command none).op = .cpy ∧ (command none).block.nrow = 1 ∧ (command none).block.len = 4 ∧ (command none).block.mb = false ∧
      (command none).block.cb = false ∧ (command none).block.shd = false ∧ (command none).done = [] ∧ (command none).err = false ∧
      (command none).delivered = none ∧ (command none).packet = none ∧ (command none).fault = none ∧
      (command none).taken = [] ∧ (command none).words = [] ∧ 0x2000 % 4 = 0 ∧ 0x3000 % 4 = 0 ∧ ((q none).core 8).ctx = some (command none).ctx ∧ ((q none).core 8).remapStep ≠ 3) ∧
    ((q none).context 0).saved = [] ∧
    (q none).cmdPlace (command none) (command none).block.src.toNat 4 .read = some (.store 8 0x2000) ∧
    (q none).cmdPlace (command none) (command none).block.dst.toNat 4 .write = some (.store 8 0x3000) ∧
    ((q (some 8)).engine 0 1).commands[0]? = some (command (some 8)) ∧ 8 < (q (some 8)).cycle ∧
    (st u).threadAt 8 3 = some u ∧ u.st = .parked .publish ∧ u.granted = false ∧ u.hold = false ∧
    (st u).releasable 8 u (u.aux.toNat / 4096) = true ∧
    (∀ z ∈ (st u).dies.toList, ∀ e ∈ z.engines.toList, ∀ k ∈ e.commands, k.uid ≠ u.uid ∨ (st u).shadows k (u.aux.toNat % 4096) = false) := by
  and_intros <;> decide +kernel

/-- Carousel 2 of die 0, Running for partition 1, with triangle segment 7; a pool of core 8 with rays 0 and 1. -/
def spun (s : State) : State := s.setCar 0 2 { st := .running, partition := 1, sched := [{ dva := 0x8000, seg := 7, kind := 1 }] }
def pooled (s : State) : State := inCore s (fun k => { k with pool := { valid := true, count := 2, list := 0x10000, base := 0x2000 } })
/-- Names that are refused; a lap that can be read; an instruction as it issues, and as its effect is applied; a promotion queue with room,
with the segment, and full; pools of 0, 2048 and 2049 rays; a subscription that is new, that stands and has not begun, that has begun,
and a cluster that is full. -/
theorem witness_CarouselInstructions :
    let a (nm b l : Word) : State := spun (pooled (st { th with g := ((th.g.set 7 nm).set 8 b).set 9 l }))
    let s := a 0x20007 1 0
    let q : Sub := { core := 8, ray := some 1, car := 2, seg := 7, ctx := 0, tag := s.selfTag }
    let w (o : Option Nat) : Sub := { core := 8, ray := none, target := 4, car := 2, seg := 7, ctx := 0, opened := o }
    let subs (l : List Sub) (b : List IxJob) : State := { s with clusters := [(1, { subs := l, buffer := b })] }
    let wt (s : State) : State := s.setCar 0 2 { st := .running, partition := 1, sched := [{ dva := 0x8000, seg := 7, kind := 3 }] }
    let job : IxJob := { delivery := 5, car := 2, seg := 7, kind := 3, dva := 0, header := [], payload := [], begun := true }
    s.thread.isSome = true ∧ s.th.blocked = none ∧ s.th.syncReady 0x801 ∧ s.th.stage = 0 ∧ (0x40000 : Word).toNat ≥ 2 ^ 18 ∧
    ((0x10007 : Word).toNat < 2 ^ 18 ∧ (s.car (dieOf s.cur) ((0x10007 : Word).toNat / 2 ^ 16)).st = .off) ∧
    (a 0x40000 1 0).checkName ((a 0x40000 1 0).reg 7) = .error 40 ∧ (a 0x40000 1 0).checkSub 0 ((a 0x40000 1 0).reg 8) ((a 0x40000 1 0).reg 7) = .error 40 ∧
    (a 4 1 0).checkLap ((a 4 1 0).reg 7) = none ∧ (a 2 1 0).checkLap ((a 2 1 0).reg 7) = some 2 ∧ (s.car (dieOf s.cur) 2).lapn < 2 ^ 24 ∧
    s.th.refused = false ∧ (s.checkName (s.reg 7)).toOption = some (2, 7, { dva := 0x8000, seg := 7, kind := 1 }) ∧
    (let t := { s.th with stage := 3, blocked := some (.applying 0, 0) }
     t.stage = 3 ∧ ∀ m n, t.blocked ≠ some (.depZero m, n)) ∧
    (∀ p ∈ (s.car (dieOf s.cur) 2).promo, p.seg ≠ 7) ∧ (s.car (dieOf s.cur) 2).promo.length < 16 ∧ dieOf s.cur < 4 ∧
    (let p (n : Nat) : Promo := { seg := n, since := 0, deps := [] }
     let m (l : List Promo) : State := s.setCar 0 2 { s.car 0 2 with promo := l }
     (∃ x ∈ ((m [p 7]).car (dieOf s.cur) 2).promo, x.seg = 7) ∧ (∀ x ∈ ((m (List.replicate 16 (p 6))).car (dieOf s.cur) 2).promo, x.seg ≠ 7) ∧
     ((m (List.replicate 16 (p 6))).car (dieOf s.cur) 2).promo.length ≥ 16) ∧
    ((s.core s.cur).ctx = some s.th.ctx ∧ mapGet (s.context s.th.ctx).saved s.cur = none) ∧
    (∀ e ∈ (s.car (dieOf s.cur) 2).sched, e.seg = 7 → e.bad = false) ∧ (w none).ray = none ∧ q.ray = some 1 ∧
    ((subs [q] []).subscribed q = some q ∧ (subs [q] []).begun q = false) ∧
    (∀ z, ∀ q ∈ (s.cluster z).subs, q.seg ≠ 7) ∧ s.subsOf s.cur = [] ∧ (subs [q] []).subsOf 8 ≠ [] ∧ (a 0x20007 0 0).reg 8 = 0 ∧
    ((a 0x20007 2049 0).reg 8).toNat > 2048 ∧
    (let p := a 0x2000000000000000 2048 0x36000
     p.reg 8 ≠ 0 ∧ (p.reg 8).toNat ≤ 2048 ∧ (p.th.kd[segIndex (p.reg 7)]).getLsbD 60 = true ∧
     p.checkOwn p.cur p.th (p.reg 7) ((p.reg 8).toNat * 64) = .ok 0 ∧ (p.reg 9).toNat % 64 = 0 ∧ (p.reg 9).toNat + 0xA000 ≤ 0x40000 ∧
     0 + (p.reg 8).toNat * 64 ≤ (p.reg 9).toNat) ∧
    s.checkSub 0 (s.reg 8) (s.reg 7) = .ok q ∧ s.subscribed q = none ∧ (s.subsOf s.cur).length < 4096 ∧ s.pendingOf q.ctx q.core 1 < 65535 ∧
    (wt s).checkSub 9 (s.reg 6) (s.reg 7) = .ok { q with ray := none, target := 4, tag := (wt s).selfTag } ∧
    ((subs (List.replicate 4096 q) []).subsOf 8).length ≥ 4096 ∧
    ((subs (List.replicate 4096 { q with seg := 6 }) []).subscribed q = none) ∧
    ((subs [w none] []).subscribed (w none) = some (w none) ∧ (subs [w none] []).begun (w none) = false ∧ (w none).ray = none ∧
      (w none).core = s.cur) ∧
    ((subs [w (some 5)] [job]).subscribed (w none) = some (w (some 5)) ∧ (subs [w (some 5)] [job]).begun (w (some 5)) = true) ∧
    (let r := spun (st { th with stage := 2, aux := 1, g := th.g.set 7 2 })
     r.th.stage = 2 ∧ r.tracing r.th.ctx 0 = false ∧ (r.car (dieOf r.cur) ((r.reg 7).toNat % 4)).lapn ≠ r.th.aux.toNat % 2 ^ 24) := by
  unfold Thread.syncReady
  and_intros <;> first | decide +kernel | (intro m n h; cases h)

/-- A core that begins, then its turn: the single instruction 1, the pair 2 and 3, an instruction that is none, and an illegal pair. -/
theorem witness_StepRunsInstruction :
    let a (l : Line) (pc : Word) : State := { st { th with pc := pc, held := some (64, l) } with agenda := [.turn 8] }
    let b (l : Line) (pc : Word) : State := { ({ a l pc with phase := beginPlace 8 } : State).beginTurn 8 with agenda := [.turn 8] }
    let s := b workedLine 65
    let p (s : State) : State :=
      let r : State := { s with phase := servePlace 8 3 }
      { (r.setCore 8 { r.core 8 with served := 4 }).tendSlot 8 3 with slot := 3 }
    let t := (p s).th
    let r2 := p (b workedLine 66)
    let q2 := ((r2.mark.setTh { r2.th.beat with st := .running }).count r2.cur 2 1).lendIf true
    (a workedLine 65).dueSlot ((a workedLine 65).placeOf (.turn 8)) = some (8, none) ∧ (a workedLine 65).dueRound = none ∧
    (a workedLine 65).dueSeed ((a workedLine 65).placeOf (.turn 8)) = none ∧
    s.agenda = .turn 8 :: [] ∧ s.phase ≤ s.placeOf (.turn 8) ∧ s.dueRound = none ∧ s.dueSeed (s.placeOf (.turn 8)) = none ∧
    s.dueSlot (s.placeOf (.turn 8)) = some (8, some 3) ∧ (s.core 8).pick = some 3 ∧ ((p s).core 8).stopped = false ∧
    (p s).thread = some t ∧ t.eligible = true ∧ t.beatsOnly = false ∧
    t.held = some (64, workedLine) ∧
    breakAt ((p s).core (p s).cur) t.pc = none ∧ t.beats = none ∧
    bundleAt workedLine (t.pc &&& 63).toNat = .one ∧ workedLine.decodeAt (t.pc &&& 63).toNat = .ok (.addi 1 1 5) ∧
    bundleAt workedLine (r2.th.pc &&& 63).toNat = .two ∧ workedLine.decodeAt (r2.th.pc &&& 63).toNat = .ok (.add 2 1 3) ∧
    workedLine.decodeAt ((r2.th.pc &&& 63).toNat + 1) = .ok (.vadd 0 1 1 2) ∧ q2.th.replay = none ∧
    (match exec (.add 2 1 3) { q2 with bundle := some (q2.th.latched.getD ⟨q2.th.g, (q2.core q2.cur).shared⟩) } with
      | .next u => u.thread.any (fun v => v.st == .running && v.pc == q2.th.pc + 1)
      | _ => false) = true ∧
    (Line.single 0x0FF0 0).decodeAt 1 = .error .malformed ∧ bundleAt (Line.single 0x1000 0) 1 = .illegal ∧
    (let am : OwnAtomic := ⟨7, 0, 8, 0x100, 4, .add, 5, 0, 0, 0⟩
     let z : State := { s with phase := servePlace 8 15, amos := [am], agenda := [.tick], cores := s.cores.map (fun p => (p.1, { p.2 with served := 16 })) }
     placeIn 5 0 < z.placeOf .tick ∧ z.dueSlot (z.placeOf .tick) = none ∧ z.phase ≤ z.placeOf .tick ∧ z.dueRound = none ∧
      z.dueSeed (z.placeOf .tick) = none) := by
  and_intros <;> decide +kernel

/-- A well-formed instruction with an encoding, and an encoding that decodes. -/
theorem witness_EncodeDecode : (Instr.amoCas 3 1 2 3 4 0x0B 0xB41).wf = true ∧ (encode (.amoCas 3 1 2 3 4 0x0B 0xB41)).isSome = true ∧
    decode ⟨0x29, 5, 3, 0x123456789ABCDEF0⟩ = .ok (.liL 5 0x123456789ABCDEF0) := by
  and_intros <;> decide +kernel

/-- Reset, with a NOP placed where the step fetches, steps; its memory is canonical, and so is the next state's. -/
theorem witness_MemoryStaysCanonical : State.reset.MemOk ∧
    (match step (State.reset.withFetchWord 16 0) with | .next t => t.mem.wf && t.rmem.wf | _ => false) = true := by
  unfold State.MemOk
  and_intros <;> decide +kernel

/-- Device memory with page tables and fields of some bytes at some addresses. -/
def fields (l : List (Nat × Nat × Nat)) : Memory := l.foldl (fun m p => m.putNum p.1 p.2.1 p.2.2) tables
/-- Queue 1 of context 0: a ring of 16 packets at 0x10000, RI at 0x9000, one packet written. -/
def qu : Queue := { ctx := 0, ring := 0x10000, size := 16, riDva := 0x9000, wi := 1 }
/-- The state with that queue and some fields of device memory. -/
def ringed (s : State) (l : List (Nat × Nat × Nat)) : State := { walked s (fields l) with queues := [(1, qu)] }
/-- The packet's bytes there. -/
def packetOf (s : State) : List Byte := s.mem.bytes 0x10000 64
/-- A queue with that packet may start it. -/
theorem offers {s : State} (h : (mapGet s.queues 1 = some qu ∧ (s.context 0).st = .active) ∧ s.launches = [] ∧
    s.fetchBytes 0 0x10000 8 = .ok (packetOf s) ∧ packetBad (packetOf s) (fun n => (s.slicesOf 0).contains n) = false ∧ s.poison = []) :
    s.offered 1 qu (packetOf s) :=
  ⟨h.1.1, ⟨rfl, h.1.2⟩, by decide, ⟨rfl, rfl, fun l m => by rw [h.2.1] at m; cases m⟩, h.2.2.1, h.2.2.2.1, h.2.2.2.2⟩

/-- A signal word of one producer; the end of the ring and past it; a malformed packet; each packet that the front end runs itself; a
head that is held until its word reads 0. -/
theorem witness_QueuePackets :
    let s := ringed (st th)
    let nop := s []
    let store := s [(0x10000, 1, 4), (0x10008, 8, 0xA000), (0x10010, 1, 1), (0x10018, 8, 5)]
    let decr := s [(0x10000, 1, 4), (0x10008, 8, 0xA000), (0x10010, 1, 2)]
    let wait := s [(0x10000, 1, 4), (0x10008, 8, 0xA000), (0xA000, 8, 3)]
    let barr := s [(0x10000, 1, 5)]
    let copy := s [(0x10000, 1, 2), (0x10008, 8, 0x8000), (0x8004, 4, 4), (0x8018, 4, 1)]
    let held : State := { s [] with queues := [(1, { qu with holding := some (0, false, [0xA000]) })] }
    5 < 2 ^ 64 ∧ 5 % 2 ^ 56 ≠ 0 ∧ 127 < 128 ∧ nop.package.logging = false ∧ mapGet nop.queues 1 = some qu ∧
    (qu.ri ≤ 16 ∧ 16 ≤ qu.ri + qu.size ∧ qu.st ≠ .destroyed) ∧ qu.ri + qu.size < 17 ∧ qu.st = .active ∧
    ((s [(0x10000, 1, 8)]).fetchBytes 0 0x10000 8 = .ok (packetOf (s [(0x10000, 1, 8)])) ∧
      packetBad (packetOf (s [(0x10000, 1, 8)])) (fun n => ((s [(0x10000, 1, 8)]).slicesOf 0).contains n) = true ∧
      ((s [(0x10000, 1, 8)]).context 0).st = .active ∧ qu.ri < qu.wi ∧ qu.holding = none ∧ (s [(0x10000, 1, 8)]).launches = []) ∧
    (nop.offered 1 qu (packetOf nop) ∧ bytesNum (packetOf nop) 0 1 = 0) ∧
    (store.offered 1 qu (packetOf store) ∧ bytesNum (packetOf store) 0 1 = 4 ∧ bytesNum (packetOf store) 16 1 = 1) ∧
    (decr.offered 1 qu (packetOf decr) ∧ bytesNum (packetOf decr) 0 1 = 4 ∧ bytesNum (packetOf decr) 16 1 = 2) ∧
    (wait.offered 1 qu (packetOf wait) ∧ bytesNum (packetOf wait) 0 1 = 4 ∧ bytesNum (packetOf wait) 16 1 = 0 ∧
      bytesNum (packetOf wait) 8 8 ≠ 0 ∧ (wait.passedPacket 1 qu 0).sigAt 0 0xA000 = some 3 ∧ 3 % 2 ^ 56 ≠ 0) ∧
    (barr.offered 1 qu (packetOf barr) ∧ bytesNum (packetOf barr) 0 1 = 5 ∧
      (∀ j, j < 6 → bytesNum (packetOf barr) (16 + 8 * j) 8 = 0)) ∧
    (copy.offered 1 qu (packetOf copy) ∧ bytesNum (packetOf copy) 0 1 = 2 ∧ (copy.engine 0 0).commands.length < 64 ∧
      (copy.passedPacket 1 qu 0).fetchBytes 0 0x8000 8 = .ok (copy.mem.bytes 0x8000 64) ∧
      copy.fetchBytes 0 0x8000 8 = .ok (copy.mem.bytes 0x8000 64) ∧
      (Block.parse (copy.mem.bytes 0x8000 64)).bad .cpy (copy.mem.bytes 0x8000 64) {} = false ∧
      (Block.parse (copy.mem.bytes 0x8000 64)).mb = false ∧ (Block.parse (copy.mem.bytes 0x8000 64)).cb = false) ∧
    0xA000 ≠ 0 ∧ held.sigAt 0 0xA000 = some 0 := by
  and_intros <;> first | decide +kernel | exact offers (by and_intros <;> decide +kernel)

/-- A LAUNCH packet with a descriptor of zeros; a launch for slice 0, and one for no slice; concurrent launches that are too large, and one whose
cores have no slot free; an INSIG that has failed, and one that has not been reached; a kernel with nothing left and one with a
live thread. -/
theorem witness_LaunchSteps :
    let s := ringed (st th) [(0x10000, 1, 1), (0x10008, 8, 0x8000), (0x10010, 4, 2), (0x10015, 1, 1)]
    let d : Desc := Desc.parse (s.mem.bytes 0x8000 256)
    let l (n : Nat) : Launch := { ctx := 0, queue := 1, packet := 0, n := 2, slice0 := 0, nslice := n, graph := 0, nnode := 0, desc := some d }
    let a (n : Nat) : State := { st th with launches := [l n] }
    s.offered 1 qu (packetOf s) ∧ bytesNum (packetOf s) 0 1 = 1 ∧ s.readDesc 0 (bytesNum (packetOf s) 8 8) false = .ok d ∧
    (s.passedPacket 1 qu 0).readDesc 0 (bytesNum (packetOf s) 8 8) false = .ok d ∧ d.gangn < 2 ∧
    (a 1).launches = [l 1] ∧ (l 1).desc = some d ∧ (l 1).waiting = false ∧ (l 1).graph = 0 ∧ (l 1).gang = none ∧ d.insig = 0 ∧
    ((a 1).context (l 1).ctx).st = .active ∧ d.cls = 0 ∧ 0 < (l 1).n ∧ { l 1 with n := 0 }.n = 0 ∧ (a 1).kernels = [] ∧
    (a 1).eligibleCores (l 1).slice0 (l 1).nslice ≠ [] ∧ (a 0).eligibleCores (l 0).slice0 (l 0).nslice = [] ∧
    (let k : Kernel := { kn with live := 0 }
     ({ st th with kernels := [k] } : State).kernels = [k] ∧ k.done = false ∧ k.root = none ∧ k.gang = none ∧ k.live = 0 ∧ k.copies = 0 ∧
     k.desc.outsig = 0) ∧ kn.live ≠ 0 ∧ kn.root = none ∧
    (let c (quota : Nat) : Launch := { l 1 with desc := some { d with cls := 1, quota := quota } }
     let f (quota : Nat) : State := { st th with launches := [c quota], cores := (List.range 72).map (fun n => (n, { stopped := true })) }
     (f 0).launches = [c 0] ∧ (c 0).n > 0 * ((f 0).eligibleCores 0 1).length ∧ (c 1).n ≤ 1 * ((f 1).eligibleCores 0 1).length ∧ (c 1).graph = 0 ∧
     (f 1).kernels = [] ∧ ∀ x ∈ (f 1).eligibleCores 0 1, (f 1).slotsFor { c 1 with accepted := (f 1).nextId } 1 x = 0) ∧
    (let i (w : Nat) : State := { ringed (st th) [(0xA000, 8, w)] with launches := [{ l 1 with desc := some { d with insig := 0xA000 } }] }
     (i (2 ^ 63)).agentRead 0 0xA000 8 = some (2 ^ 63) ∧ 2 ^ 63 % 2 ^ 56 = 0 ∧ (2 ^ 63).testBit 63 = true ∧ 0xA000 ≠ 0 ∧
     (i 3).agentRead 0 0xA000 8 = some 3 ∧ 3 % 2 ^ 56 ≠ 0 ∧ ((i 3).context 0).st = .active) := by
  and_intros <;> first | decide +kernel | exact offers (by and_intros <;> decide +kernel)

/-- A header of a triangle segment 7 of one triangle of zeros at an address, with its CRC. -/
def segment (a : Nat) : List (Nat × Nat × Nat) :=
  [(a, 1, 1), (a + 2, 2, 7), (a + 4, 4, 1), (a + 12, 4, 40), (a + 40, 4, 0x595FB7DD)]
/-- A CAROUSEL packet with its block at 0x8000: die 0, carousel 2, an operation and more fields. -/
def turned (s : State) (op : Nat) (l : List (Nat × Nat × Nat)) : State :=
  ringed s ([(0x10000, 1, 3), (0x10008, 8, 0x8000), (0x8000, 1, op), (0x8002, 1, 2)] ++ l)
/-- The block of that packet may be read, before and after RI passes it. -/
def blockThere (s : State) : Bool :=
  bytesNum (packetOf s) 0 1 == 3 && bytesNum (packetOf s) 8 8 == 0x8000 && !carBlockBad (s.mem.bytes 0x8000 64) &&
  (match s.fetchBytes 0 0x8000 8, (s.passedPacket 1 qu 0).fetchBytes 0 0x8000 8 with
    | .ok b, .ok c => b == s.mem.bytes 0x8000 64 && c == b
    | _, _ => false)
/-- The five commands to a carousel that is Off, and to one that is Running for the partition, with a delivery out and with none. -/
theorem witness_CarouselCommands :
    let on : State := spun (st th)
    let start := turned (st th) 0 ([(0x8004, 2, 1), (0x8008, 8, 0xA000), (0xA000, 8, 0xB000)] ++ segment 0xB000)
    let again := turned on 0 ([(0x8004, 2, 1), (0x8008, 8, 0xA000), (0xA000, 8, 0xB000)] ++ segment 0xB000)
    let stopOff := turned (st th) 1 []
    let stop := turned on 1 []
    let period := turned on 3 [(0x8003, 1, 16)]
    let repl := turned on 2 ([(0x8010, 8, 0xB000)] ++ segment 0xB000)
    let e : SchedEntry := { dva := 0xB000, seg := 7, kind := 1, plen := 40 }
    let job : IxJob := { delivery := 5, car := 2, seg := 7, kind := 1, dva := 0, header := [], payload := [] }
    (start.offered 1 qu (packetOf start) ∧ blockThere start = true ∧ (start.car 0 2).st = .off ∧
      start.readSchedule 0 0xA000 1 = .ok [e] ∧ (start.passedPacket 1 qu 0).readSchedule 0 0xA000 1 = .ok [e]) ∧
    (again.offered 1 qu (packetOf again) ∧ blockThere again = true ∧ (again.car 0 2).st ≠ .off ∧
      (∀ l, again.readSchedule 0 0xA000 1 ≠ .error l)) ∧
    (stopOff.offered 1 qu (packetOf stopOff) ∧ blockThere stopOff = true ∧ (stopOff.car 0 2).st = .off) ∧
    (stop.offered 1 qu (packetOf stop) ∧ blockThere stop = true ∧ (stop.car 0 2).st = .running ∧
      (stop.car 0 2).partition = (stop.context 0).partition ∧ (stop.setCar 0 2 { stop.car 0 2 with st := .stopping }).outstanding 0 2 = false ∧
      ({ stop with clusters := [(1, { buffer := [job] })] } : State).outstanding 0 2 = true) ∧
    (period.offered 1 qu (packetOf period) ∧ blockThere period = true ∧ (period.car 0 2).st = .running) ∧
    (repl.offered 1 qu (packetOf repl) ∧ blockThere repl = true ∧ (repl.car 0 2).sched[0]? = some { dva := 0x8000, seg := 7, kind := 1 } ∧
      repl.readEntry 0 0xB000 = .ok e ∧ (repl.passedPacket 1 qu 0).readEntry 0 0xB000 = .ok e ∧ e.kind = 1 ∧ e.seg = 7) := by
  and_intros <;> first | decide +kernel | exact offers (by and_intros <;> decide +kernel)

/-- A Running carousel whose next entry has a subscriber: its segment is read with a right and with a wrong CRC, its slot opens; one
with no subscriber passes a lap; a delivery on the network; a buffer with a job that no subscription takes part in, and one of 65
triangles that a ray takes part in. -/
theorem witness_CarouselSteps :
    let e : SchedEntry := { dva := 0xB000, seg := 7, kind := 1, plen := 40 }
    let car : Carousel := { st := .running, partition := 1, sched := [e] }
    let sub (o : Option Nat) : Sub := { core := 8, ray := some 1, car := 2, seg := 7, ctx := 0, opened := o, boxed := some true }
    let hdr (n : Nat) : List Byte := leBytes (n * 2 ^ 32) 64
    let job (n : Nat) : IxJob := { delivery := 5, car := 2, seg := 7, kind := 1, dva := 0, header := hdr n, payload := [] }
    let base (c : Carousel) (k : Cluster) : State := { (walked (st th) (fields (segment 0xB000))).setCar 0 2 c with cycle := 9, clusters := [(1, k)] }
    let s := base car { subs := [sub none] }
    let h := s.mem.bytes 0xB000 64
    let p := s.mem.bytes 0xB040 40
    let bad : State := { s with mem := s.mem.putNum 0xB028 4 1 }
    let r := base { car with read := some (0, h, p) } { subs := [sub none] }
    let v : Delivery := ⟨5, job 1, [1]⟩
    let dl : State := { (spun { st th with clusters := [(1, { subs := [sub (some 5)] })] }).setDie 0
      { (spun (st th)).die 0 with deliveries := [v] } with contexts := [] }
    let bt (l : List Sub) (n : Nat) : State := base car { subs := l, buffer := [job n] }
    0 < 4 ∧ 2 < 4 ∧ (s.car 0 2).st = .running ∧ (s.car 0 2).read = none ∧ (s.pick 0 2).index = some 0 ∧ (s.car 0 2).sched[0]? = some e ∧
    s.readSegment (s.car 0 2).ctx e.dva = .ok (h, p) ∧ bytesNum h 0 1 = e.kind ∧ bytesNum h 2 2 = e.seg ∧ bytesNum h 12 4 = e.plen ∧
    crc32c p = bytesNum h 40 4 ∧ s.poison = [] ∧
    (bad.readSegment 0 e.dva = .ok (bad.mem.bytes 0xB000 64, p) ∧ crc32c p ≠ bytesNum (bad.mem.bytes 0xB000 64) 40 4 ∧
      e.failed = 0 ∧ { e with failed := 1 }.failed ≠ 0 ∧ (base { car with sched := [{ e with failed := 1 }] } { subs := [sub none] }).pick 0 2 =
        .entry 0 false 0) ∧
    (r.bufferFull 0 = false ∧ r.pick 0 2 = .entry 0 false 0 ∧ (r.car 0 2).read = some (0, h, p) ∧ (r.car 0 2).sched[0]? = some e) ∧
    ((base car {}).pick 0 2 = .lap 0 ∧ (base car {}).bufferFull 0 = false ∧ (base car {}).car 0 2 = car ∧ car.cmds = [] ∧ (base car {}).gateWaits 0 2 = false ∧
      (let t : Thread := { th with st := .parked (.lap 2 0), stage := 2 }
       (st t).threadAt 8 3 = some t ∧ dieOf 8 = 0 ∧ t.st = .parked (.lap 2 0) ∧ 0 ≠ (car.lapn + 1) % 2 ^ 24 ∧ t.granted = false ∧
         t.refused = false)) ∧
    ((st th).car 0 2).st ≠ .running ∧
    ((dl.die 0).deliveries = [v] ∧ v.clusters = [1] ∧ dl.bufferFull 0 = false ∧ dl.contexts = [] ∧ v.job.car = 2 ∧
      (dl.car 0 2).st = .running ∧ (dl.cluster 1).subs.any (fun z => z.opened == some v.id) = true) ∧
    ((st th).cluster 1).buffer = [] ∧
    (((bt [] 1).cluster 1).buffer = job 1 :: [] ∧ (bt [] 1).ixStopped 1 = false ∧ (job 1).kind ≠ 3 ∧ (job 1).car = 2 ∧
      ((bt [] 1).car 0 2).st = .running ∧ ixDie 1 = 0 ∧ (∀ z ∈ ((bt [sub none] 1).cluster 1).subs, z.takes (job 1).delivery = false)) ∧
    (((bt [sub (some 5)] 65).cluster 1).buffer = job 65 :: [] ∧ (bt [sub (some 5)] 65).ixStopped 1 = false ∧ (job 65).kind = 1 ∧
      (job 65).next + 64 < bytesNum (job 65).header 4 4 ∧ ((bt [sub (some 5)] 65).cluster 1).subs = [sub (some 5)] ∧
      (sub (some 5)).opened = some (job 65).delivery ∧ (sub (some 5)).boxed = some true ∧ (sub (some 5)).ray = some 1 ∧
      ((bt [sub (some 5)] 65).context 0).saved = [] ∧ ((bt [sub (some 5)] 65).context 0).saving = [] ∧ (job 65).ray = 0 ∧
      ((bt [sub (some 5)] 65).core 8).ctx = some 0 ∧ ((bt [sub (some 5)] 65).core 8).remapStep ≠ 3) := by
  and_intros <;> decide +kernel

/-- The manifest of version 3 at 0x8000, with one layer, one shard of 64 bytes for package 0, and a gate table at 0xC000. -/
def manifest : List (Nat × Nat × Nat) :=
  [(0x8000, 4, 3), (0x8004, 2, 1), (0x8006, 2, 1), (0x800C, 4, 0x1000), (0x8010, 8, 0xC000), (0x8044, 4, 0xFFFFFFFF), (0x8050, 4, 64)]
/-- A load of that manifest, with its shards. -/
def loading (h : List Shard) : WeightLoad :=
  { ctx := 0, queue := 1, packet := 0, manifest := 0x8000, version := 3, nlayer := 1, replaceMode := false, car := 0, lto := 0x1000
    gate := 0xC000, gang := [0], start := 0, shards := h }
/-- Its shard, with the digest it must have. -/
def shard (d : List Byte) : Shard := { index := 0, repl := 0xFFFFFFFF, len := 64, dst := 0, layer := 0, digest := d }

/-- A manifest whose version is 0, and one whose every check but the signature's holds (a signature is an uninterpreted value: log 9);
a shard whose digest is that of the bytes that come, whose words are written at once or wait, and one whose digest is not; a load in time and too late, arrived and failed; a
replacement whose layer has the version. -/
theorem witness_WeightSteps :
    let s (m : List (Nat × Nat × Nat)) : State := ringed (st th) ([(0x10000, 1, 6), (0x10008, 8, 0x8000)] ++ m)
    let good := s manifest
    let b : List Byte := good.mem.bytes 0x8000 240
    let loads (l : WeightLoad) : State := { good with loads := [l] }
    let bytes : List Byte := List.replicate 64 0
    let l := loading [shard (Config.sha384 bytes)]
    let ends (o : Option Nat) : WeightLoad := { loading [] with arrived := some o }
    let repl : State := { s (manifest ++ [(0xC010, 8, 3)]) with loads := [{ loading [] with replacing := some (0, 0) }] }
    let two : WeightLoad := { l with gang := [0, 5] }
    let up : State := { loads { two with arrived := some none } with package := { good.package with linkup := 1 } }
    good.package.logging = false ∧ (s []).manifestReady 0 ((s []).mem.bytes 0x8000 64) = true ∧ good.manifestReady 0 b = true ∧
    (two.gang = [up.package.pkg.toNat, 5] ∧ 5 ≠ up.package.pkg.toNat ∧ two.peers = [] ∧ two.through = false ∧ up.hears 5 = true ∧
      (∃ m ∈ two.gang, m ≠ (loads two).package.pkg.toNat ∧ mapGet two.peers m = none) ∧ (loads two).cycle < two.start + two.lto ∧
      (∀ u ∈ ((loads two).agentPut 0 0 (toWords (64 / 8) bytes)).updates, u.ctx ≠ 0) ∧
      (∃ u ∈ (({ loads two with updates := [⟨0, 0xA000, .store 8 5⟩] } : State).agentPut 0 0 (toWords (64 / 8) bytes)).updates, u.ctx = 0)) ∧
    ((s []).offered 1 qu (packetOf (s [])) ∧ bytesNum (packetOf (s [])) 0 1 = 6 ∧
      (s []).readManifest 0 0x8000 = .ok ((s []).mem.bytes 0x8000 64) ∧
      ((s []).passedPacket 1 qu 0).readManifest 0 0x8000 = .ok ((s []).mem.bytes 0x8000 64) ∧
      ((s []).passedPacket 1 qu 0).manifestOk 0 ((s []).mem.bytes 0x8000 64) = false) ∧
    (good.offered 1 qu (packetOf good) ∧ bytesNum (packetOf good) 0 1 = 6 ∧ bytesNum (packetOf good) 8 8 = 0x8000 ∧
      good.readManifest 0 0x8000 = .ok b ∧ (good.passedPacket 1 qu 0).readManifest 0 0x8000 = .ok b ∧ good.loads = [] ∧
      (good.passedPacket 1 qu 0).ownShards b ≠ [] ∧
      (Config.partitionVerify 0 (Config.sha384 (b.take 56 ++ (b.drop 64).take 80)) ((b.drop 144).take 96) = true →
        (good.passedPacket 1 qu 0).manifestOk 0 b = true)) ∧
    ((loads l).loads = [l] ∧ l.shards = [shard (Config.sha384 bytes)] ∧ (shard (Config.sha384 bytes)).ok = false ∧
      (shard (Config.sha384 bytes)).failed = false ∧ l.arrived = none ∧ bytes.length = (shard (Config.sha384 bytes)).len ∧
      Config.sha384 bytes = (shard (Config.sha384 bytes)).digest ∧ (shard (Config.sha384 bytes)).tries = 0 ∧
      Config.sha384 bytes ≠ (shard (Config.sha384 bytes ++ [0])).digest ∧ 4 * ((loads l).cycle - 0) < l.lto ∧
      4 * (({ loads l with cycle := 0x400 } : State).cycle - 0) ≥ l.lto) ∧
    ((loads l).cycle < l.start + l.lto ∧ l.start + l.lto ≤ ({ loads l with cycle := 0x1000 } : State).cycle) ∧
    ((loads l).cycle - 0 ≤ l.lto ∧ l.lto < 4 * (({ loads l with cycle := 0x401 } : State).cycle - 0) ∧ l.peers = [] ∧ (ends none).peers = []) ∧
    (l.gang = [good.package.pkg.toNat] ∧ l.replacing = none ∧ l.replaceMode = false ∧ (ends (some 5)).arrived = some (some 5) ∧
      (ends none).arrived = some none ∧ (ends none).nlayer = 1) ∧
    (repl.layerWord 0 0xC000 0 = .ok 3 ∧ 3 % 2 ^ 32 = (loading []).version ∧ (loading []).nlayer = 1) := by
  have e : ∀ p q v w : Bool, p = true → q = true → v = true → w = true → (p && q && v && w) = true := by decide
  and_intros <;> first
    | decide +kernel
    | exact offers (by and_intros <;> decide +kernel)
    | rfl
    | exact fun h => absurd (congrArg List.length h) (by simp [shard])
    | exact fun h => e _ _ _ _ (by decide +kernel) (by decide +kernel) h (by decide +kernel)

/-- A kernel of two live threads whose gang is packages 0 (this one) and 5, and its messages: before and after the timeout, with every
other member heard and with none; the last phase message and the last done message; a launch that waits for its gang. -/
theorem witness_GangSteps :
    let g : Gang := { members := [0, 5] }
    let j (g : Gang) (gto live : Nat) : Kernel := { kn with gang := some g, desc := { kn.desc with gto := gto }, live := live }
    let s (j : Kernel) : State := { st th with kernels := [j], cycle := 9, package := { (st th).package with linkup := 1 } }
    let old : Gang := { g with start := some 0 }
    let heard : Gang := { old with acks := [5] }
    let front : Gang := { g with phases := [(0, 1)] }
    let l : Launch := { ctx := 0, queue := 1, packet := 0, n := 2, slice0 := 0, nslice := 1, graph := 0, nnode := 0, desc := none, gang := some g }
    (s (j g 0 2)).package.logging = false ∧ (s (j g 0 2)).hears 5 = true ∧ g.passed 5 (BitVec.ofNat 32 1) = false ∧
    front.passed 5 (BitVec.ofNat 32 1) = false ∧ (s (j g 0 2)).kernels = [j g 0 2] ∧ (j g 0 2).gang = some g ∧ (j g 0 2).done = false ∧
    g.late (j g 0 2).desc.gto (s (j g 0 2)).cycle = false ∧ old.late (j old 0 2).desc.gto (s (j old 0 2)).cycle = true ∧ 6 ∉ g.members ∧
    (((j g 0 2).live ≠ 0 ∨ (j g 0 2).copies ≠ 0) ∧ (j g 0 2).root = none) ∧
    (0 ∈ g.members ∧ 0 ≠ 5 ∧ g.passed 0 (j g 0 2).bar.cph = false ∧ (j g 0 2).bar.arrived.length ≠ (j g 0 2).live ∧
      5 ≠ (st th).package.pkg.toNat) ∧
    (old.start = some 0 ∧ (s (j old 10 2)).cycle < 0 + (j old 10 2).desc.gto ∧
      (∀ m ∈ heard.members, m = (st th).package.pkg.toNat ∨ m ∈ heard.acks)) ∧
    ((st th).package.pkg.toNat ∈ front.members ∧ phasePassed (BitVec.ofNat 32 1) (j front 0 2).bar.cph = true ∧
      front.passed (st th).package.pkg.toNat (j front 0 2).bar.cph = true ∧
      (∀ m ∈ front.members, m ≠ 5 → front.passed m (j front 0 2).bar.cph = true)) ∧
    ((j g 0 0).live = 0 ∧ (j g 0 0).copies = 0 ∧ (j g 0 0).root = none ∧
      (∀ m ∈ g.members, m = (st th).package.pkg.toNat ∨ m = 5 ∨ m ∈ g.dones) ∧ g.start = none) ∧
    ((j old 0 2).desc.kd = Vector.replicate 8 0 ∧ 5 ∈ g.members ∧ 0 + (j old 0 2).desc.gto ≤ (s (j old 0 2)).cycle ∧ 5 ∈ old.members ∧
      5 ≠ (st th).package.pkg.toNat ∧ 5 ∉ old.acks) ∧
    (({ st th with launches := [l] } : State).kernels = [] ∧ ({ st th with launches := [l] } : State).launches = [l] ∧
      l.gang = some g ∧ 5 ∈ g.members ∧ l.desc = none) := by
  and_intros <;> decide +kernel

/-- TRACE packets that open and close, with no session and with one; a sampling pulse that is due and one that is not; a step and a
slew, one of no rate, and ones that go the other way; a counter that is to wrap, and ones that are not; a ring with room, and a full one. -/
theorem witness_TraceAndTime :
    let opening : State := ringed (st th) [(0x10000, 1, 7), (0x10008, 8, 0x8000), (0x8001, 1, 2), (0x8002, 1, 10), (0x8008, 8, 0x20000),
      (0x8010, 8, 4096), (0x8018, 8, 0xA000)]
    let closing : State := ringed (st th) [(0x10000, 1, 7), (0x10008, 8, 0x8000), (0x8000, 1, 1)]
    let ss : Session := { ring := 0x20000, size := 4096, head := 0xA000, src := 2, per := 10, queue := 1 }
    let ses (s : State) : State := { s with contexts := s.contexts.map (fun p => (p.1, { p.2 with session := some ss })) }
    let opens (s : State) (op : Nat) : Prop := s.offered 1 qu (packetOf s) ∧ bytesNum (packetOf s) 0 1 = 7 ∧
      s.fetchBytes 0 (bytesNum (packetOf s) 8 8) 8 = .ok (s.mem.bytes 0x8000 64) ∧
      (s.passedPacket 1 qu (bytesNum (packetOf s) 16 8)).fetchBytes 0 (bytesNum (packetOf s) 8 8) 8 = .ok (s.mem.bytes 0x8000 64) ∧
      traceBad (s.mem.bytes 0x8000 64) = false ∧ bytesNum (s.mem.bytes 0x8000 64) 0 1 = op
    let pm (v : Word) : State := inCore (st th) (fun k => { k with ctx := none, pmc := Vector.replicate 4 v, pmsel := Vector.replicate 4 1 })
    (opens opening 0 ∧ (opening.context 0).session = none) ∧ (opens (ses opening) 0 ∧ ((ses opening).context 0).session ≠ none) ∧
    (opens closing 1 ∧ (closing.context 0).session = none) ∧ (opens (ses closing) 1 ∧ ((ses closing).context 0).session ≠ none) ∧
    (((ses (st th)).context 0).session = some ss ∧ (ses (st th)).cycle < ss.start + (ss.samples + 1) * 2 ^ ss.per ∧
      ss.src.getLsbD 1 = true ∧ ss.per ≠ 0 ∧ ss.start + (ss.samples + 1) * 2 ^ ss.per ≤ ({ ses (st th) with cycle := 1024 } : State).cycle) ∧
    (0 < 65536 ∧ 65536 ≤ 65536 ∧ State.reset.contexts = []) ∧
    (((-7 : Int) < 0 ∨ 65536 < (-7 : Int)) ∧ (-8388 : Int) ≤ -8388 ∧ (-8388 : Int) ≤ 8388 ∧ (-8388 : Int) ≠ 0 ∧ State.reset.package.time.slew + -7 * 2 ^ 24 < 0) ∧
    (State.reset.package.time.slew + -7 * 2 ^ 24 < 0 ∧ (0 : Int) < 5 ∧ 0 ≤ State.reset.package.time.slew + 70000 * 2 ^ 24 ∧ (-5 : Int) < 0) ∧
    (let o (n : Nat) : State := { pm 0xFFFFFFFFFFFE with owed := [(8, 2, 3, n)] }
     let due (n : Nat) : Nat := (((o n).owed.filter (fun z => z.1 == 8 && z.2.1 == (2 : Fin 4))).map (·.2.2.2)).sum
     ((o 2).core 8).ctx = none ∧ (o 2).owed ≠ [] ∧ 2 ^ 48 ≤ bits (((o 2).core 8).pmc[2]) 47 0 + due 2 ∧
      bits (((o 2).core 8).pmc[2]) 47 0 + due 2 < 2 ^ 49 ∧ bits (((o 1).core 8).pmc[2]) 47 0 + due 1 < 2 ^ 48 ∧
      (pm 0).owed.filter (fun z => z.1 == 8 && z.2.1 == (2 : Fin 4)) = []) ∧
    (let h (n : Nat) : State := ses (ringed (st th) [(0xA000, 8, n)])
     ((h 126).context 0).session = some ss ∧ (h 126).agentPeek 0 ss.head = some 126 ∧ 126 % 2 ^ 40 + 4 / 4 + 1 ≤ ss.size / 32 ∧
      (h 127).agentPeek 0 ss.head = some 127 ∧ ss.size / 32 < 127 % 2 ^ 40 + 4 / 4 + 1) := by
  and_intros <;> first | decide +kernel | exact offers (by and_intros <;> decide +kernel)

/-- A package in which Bobbin does not run, and one in which it does, with partition 1 given and partition 2 free, an Active, a Created
and a Killed context, an Active and a Stopped queue; whether a signature verifies is an uninterpreted value (log 9), so that one
of the two cases holds of every image. -/
theorem witness_DomainRequests :
    let s : State := { st th with package := { (st th).package with running := true }, queues := [(1, qu), (2, { qu with st := .stopped, wi := 0 })] }
    let made (c : CtxState) : State := { s with contexts := [(0, { partition := 1, st := c })] }
    s.package.logging = false ∧ (st th).package.running = false ∧ s.package.running = true ∧
    s.partitionFree 1 [4] [] [] = false ∧ s.partitionFree 2 [4] [] [] = true ∧ mapGet s.partitions 2 = none ∧
    mapGet s.partitions 1 = some { slices := [0] } ∧
    (let z : Partition := { slices := [1], share := [(0x100000, 0x200000)] }
     mapGet ({ s with partitions := [(1, { slices := [0] }), (3, z)] } : State).partitions 3 = some z ∧ (∀ x ∈ s.contexts, x.2.partition ≠ 3)) ∧ 0x1000 % 4096 = 0 ∧
    (mapGet s.contexts 0 = some { partition := 1, st := .active } ∧ 0x10000 % 4096 = 0 ∧ 16 ≤ 16 ∧ 16 ≤ 65536 ∧ 16 = 2 ^ Nat.log2 16 ∧
      0x9000 % 8 = 0) ∧
    (mapGet s.queues 2 = some { qu with st := .stopped, wi := 0 } ∧ mapGet s.queues 1 = some qu ∧ qu.st ≠ .stopped ∧ 0 = qu.ri ∧
      (s.context 0).session = none) ∧
    (((made .killed).context 0).st ≠ .active ∧ ((made .killed).context 0).st ≠ .preempted) ∧ (s.context 0).st = .active ∧
    mapGet (made .created).contexts 0 = some { partition := 1, st := .created } ∧
    mapGet (made .killed).contexts 0 = some { partition := 1, st := .killed } ∧ s.package.replay = none ∧
    (Config.vendorVerify (Config.sha384 []) [] = true ∨ Config.vendorVerify (Config.sha384 []) [] = false) := by
  and_intros <;> first | decide +kernel | exact Bool.eq_false_or_eq_true _

/-- A thread that waits for the service of a `trap`, for each number. -/
theorem witness_TrapServices :
    let t (n : Word) : Thread := { th with st := .faulted, fault := some { kind := 64, ea := n, dst := 5, recorded := true, resume := some 66 } }
    let f (n : Word) : FaultInfo := { kind := 64, ea := n, dst := 5, recorded := true, resume := some 66 }
    (∀ n : Fin 4, (st (t (BitVec.ofNat 64 n.val))).threadAt 8 3 = some (t (BitVec.ofNat 64 n.val)) ∧
      (t (BitVec.ofNat 64 n.val)).fault = some (f (BitVec.ofNat 64 n.val)) ∧ (f (BitVec.ofNat 64 n.val)).kind = 64 ∧
      (f (BitVec.ofNat 64 n.val)).recorded = true ∧ (t (BitVec.ofNat 64 n.val)).hold = false) ∧
    (f 0).ea = 0 ∧ (f 1).ea = 1 ∧ (f 2).ea = 2 ∧
    (3 ≤ (f 3).ea.toNat ∧ ((st (t 3)).core 8).ctx = some (t 3).ctx ∧ ((st (t 3)).context (t 3).ctx).saved = [] ∧
      (∀ r ∈ ((st (t 3)).core 8).faulters, r.slot ≠ 3)) := by
  and_intros <;> decide +kernel

/-- A fault that has been raised and is not recorded, of a kind that waits and of a kind that kills; one that is recorded; one held; a
context Active, one Pre-empted, one Faulted and one Created; a line that nobody owns; a deque with a chunk's worth of debt, and one with none. -/
theorem witness_FaultSteps :
    let f (n : Nat) (r : Bool) : FaultInfo := { kind := n, ea := 0x8000, dva := 0x8000, recorded := r }
    let t (n : Nat) (r : Bool) : Thread := { th with st := .faulted, fault := some (f n r) }
    let s (n : Nat) (r : Bool) : State := st (t n r)
    let task : DequeEntry := DequeEntry.clone th
    let deq (n : Nat) (l : List Nat) : State := inCore (st th) (fun k => { k with deque := List.replicate n task, dequeChunks := l })
    ((s 2 false).threadAt 8 3 = some (t 2 false) ∧ (t 2 false).fault = some (f 2 false) ∧ (t 2 false).st = .faulted ∧
      (t 2 false).hold = false ∧ (f 2 false).recorded = false ∧ (t 2 false).beats = none ∧ (t 2 false).pending = [] ∧
      (t 2 false).dep = Vector.replicate 8 0 ∧ ((s 2 false).kernelOf (t 2 false)).desc.upcall = 0 ∧ (f 2 false).woken = false ∧
      (f 2 false).kind = 2) ∧
    ((f 3 false).kind = 3 ∧ ((s 3 false).context (t 3 false).ctx).st = .active) ∧
    (((s 2 true).core 8).ctx = some (t 2 true).ctx ∧ ((s 2 true).context (t 2 true).ctx).saved = [] ∧
      (∀ r ∈ ((s 2 true).core 8).faulters, r.slot ≠ 3) ∧ (f 2 true).kind = 2 ∧ (f 2 true).recorded = true ∧
      (∀ a ∈ (s 2 true).flight, a.uid = (t 2 true).uid → a.stranded = false)) ∧
    (let x (c : CtxState) : State := { st th with contexts := [(0, { partition := 1, st := c })] }
     ((x .active).context 0).st = .active ∧ ((x .preempted).context 0).st = .preempted ∧
     mapGet (x .faulted).contexts 0 = some { partition := 1, st := .faulted }) ∧
    ((f 6 true).kind = 6 ∧ (f 6 true).woken = false ∧ ((s 6 true).context (t 6 true).ctx).st = .active) ∧
    (({ st th with contexts := [(0, {})] } : State).context 0).st = .created ∧ mapGet (st th).lineTags (0x8000 / 64) = none ∧
    (((deq 33 []).core 8).dequeAt.length + 32 < ((deq 33 []).core 8).deque.length ∧
      freePlace ((deq 33 []).core 8).dequeChunks ((deq 33 []).core 8).dequeAt = none) ∧
    ((deq 32 []).core 8).deque.length ≤ ((deq 32 []).core 8).dequeAt.length + 32 ∧
    (freePlace ((deq 33 [0x7000000]).core 8).dequeChunks ((deq 33 [0x7000000]).core 8).dequeAt).isSome = true := by
  and_intros <;> decide +kernel

/-- A context that is pre-empted while one thread runs; one that is not Active; a grace period that is over; a saved context that may
be resumed on its core; a core whose sensor has not crossed the threshold, and one whose sensor has, of a die with two clusters left;
readings below, at and above the threshold; a poll that comes too soon; a cluster that answers, and one that fails twice. -/
theorem witness_ContextSteps :
    let s := st th
    let ctx (c : Context) : State := { s with contexts := [(0, c)] }
    let late : State := { ctx { partition := 1, st := .active, grace := 3, saveSince := [(1, 6)] } with cycle := 9 }
    let k : CoreState := { ctx := some 0, slots := (Vector.replicate 16 (none : Option Thread)).set 3 (some { th with hold := true }) }
    let away : Context := { partition := 1, st := .preempted, saved := [(8, k)] }
    let back : State := { ctx away with cores := [] }
    let hot : State := { State.reset with package := { State.reset.package with sensors := [(8, 95)], crossed := [8], retired := List.range' 2 70 } }
    let poll : State := { State.reset with clusters := [(1, { failedPolls := 1 })] }
    (mapGet s.contexts 0 = some { partition := 1, st := .active } ∧ (∀ c ∈ s.coresHeld 0 1, (s.core c).remapStep = 0) ∧ 8 ∈ s.coresHeld 0 1 ∧ (s.core 8).stopped = false ∧
      s.threadAt 8 3 = some th ∧ th.st = .running ∧ th.hold = false) ∧
    ((ctx {}).context 0).st ≠ .active ∧
    (late.threadAt 8 3 = some th ∧ mapGet (late.context th.ctx).saveSince (clusterOf 8) = some 6 ∧
      6 + (late.context th.ctx).grace ≤ late.cycle) ∧
    (mapGet back.contexts 0 = some away ∧ away.st = .preempted ∧ away.saved = [(8, k)] ∧ clusterOf 8 = 1 ∧ away.savedIx = [] ∧
      (back.core 8).ctx = none ∧ back.namesCore 8 = true ∧ back.pairsFree 8 k = true ∧ k.ctx = some 0 ∧
      (∀ i : Fin 16, i ≠ 3 → k.slots[i] = none) ∧ k.slots[3] = some { th with hold := true } ∧ th.fault = none ∧ th.st = .running) ∧
    (State.reset.namesCore 8 = true ∧ (State.reset.core 8).remapStep = 0 ∧ 8 ∉ State.reset.package.crossed ∧
      mapGet State.reset.package.sparing (clusterOf 8) = none) ∧
    (State.reset.sensor 8 < State.reset.package.threshold ∧ State.reset.package.threshold ≤ 95 ∧ 94 < State.reset.package.threshold ∧
      8 ∈ dieCores (8 / 1024) ∧ State.reset.pcore 8 = 8 ∧ hot.package.threshold ≤ hot.sensor 8) ∧
    (let z : State := { State.reset with clusters := [(1, { polledAt := some 7 })], cycle := 2 ^ 20 + 6 }
     (z.cluster 1).polledAt = some 7 ∧ z.cycle < 7 + 2 ^ 20 ∧ (poll.cluster 1).polledAt = none) ∧
    (hot.namesCore 8 = true ∧ (hot.core 8).remapStep = 0 ∧ mapGet hot.package.sparing (clusterOf 8) = none ∧ 8 ∈ hot.package.crossed ∧ (hot.coolest (dieOf 8)).isSome = true ∧
      (hot.core 8).ctx = none) ∧
    (1 < 512 ∧ 1 % 128 < enabled State.reset.package ∧ 1 ∉ State.reset.package.retired ∧ (State.reset.cluster 1).failedPolls = 0 ∧
      (poll.cluster 1).failedPolls ≠ 0 ∧ poll.cores = []) := by
  and_intros <;> decide +kernel

/-- A port; an access of a thread that waits for a path which was lost 2²⁰ cycles ago, and no time ago; an offset that is absorbed,
and one that is not. -/
theorem witness_LinkSteps :
    let a : Access := { uid := 7, ctx := 0, seq := 0, op := .load, remote := true, addr := 0x8000, size := 8 }
    let s (n : Nat) : State := { st th with flight := [a], cycle := n }
    let slew (n : Nat) : State := { State.reset with package := { State.reset.package with time := { State.reset.package.time with slew := n } } }
    21 < 22 ∧ 18 < 22 ∧
    ((s 0x100000).flight[0]? = some a ∧ a.remote = true ∧ a.stranded = false ∧ (s 0x100000).pathTo a.home = false ∧ (s 0x100000).pathLost a.home = true ∧ (s 0x100000).locate a.uid = some (8, 3) ∧
      (s 0x100000).threadAt 8 3 = some th ∧ th.fault = none ∧ th.stage = 0 ∧ th.mop = none ∧ th.fe = none ∧ th.hold = false) ∧
    (∀ p, (s 5).pathLost p = false) ∧ ((slew 0).package.time.slew = 0 ∧ (slew 0).contexts = []) ∧ (slew 7).package.time.slew ≠ 0 := by
  and_intros <;> first | decide +kernel | (intro p; rfl)

end Sys2Proof.Tests
end

section
/-! Accesses whose check fails: the mould of each memory instruction takes the trap of the check (R135, R151 to R157). -/

namespace Sys2Proof.Machine

/-! ### Size codes, sync tails and places -/

/-- R150: the bytes of a size code, read from its number. -/
theorem sizeBytes_eq (x : BitVec 4) : sizeBytes x = 2 ^ (x.toNat % 4) := by
  simp [sizeBytes, BitVec.extractLsb'_toNat]

/-- R60: an instruction whose sync tail meets no wait goes on. -/
theorem State.sync_ready {s : State} {y : BitVec 12} (k : State → State) (h : s.th.syncReady y) : s.sync y k = k s := by
  obtain ⟨hzero, hroom⟩ := h
  unfold State.sync
  dsimp only
  rw [if_neg hroom, hzero]
  split <;> rfl

/-- An access that is not a replay is at its own effective address. -/
theorem State.eaOf_of_no_replay {s : State} (h : s.th.replay = none) (ea : Word) : s.eaOf ea = ea := by
  simp [State.eaOf, h]
/-- An access that is not a replay is checked (R135). -/
theorem State.place_of_no_replay {s : State} (h : s.th.replay = none) (ea : Word) (n : Nat) (r : Right) (fe : Bool) :
    s.place ea n r fe = s.check s.th ea n r fe := by
  simp [State.place, h]

/-! ### A failed check -/

section
variable {s : State} {k n : Nat} {ea : Word}

theorem State.load_of_check_error (hr : s.th.replay = none) (h : s.check s.th ea n .read false = .error k) (signed : Bool)
    (d os : Field) : s.load n signed d ea os = s.trapAt k ea 0 := by
  simp [State.load, State.eaOf_of_no_replay hr, State.place_of_no_replay hr, h]

theorem State.store_of_check_error (h0 : s.th.stage = 0) (h : s.check s.th ea n .write false = .error k) (v : Word) (os : Field) :
    s.store n ea v os = s.trapAt k ea 1 := by
  simp [State.store, h0, h]

theorem State.atomic_of_check_error (h0 : s.th.stage = 0) (h : s.check s.th ea n .atomic false = .error k) (d : Field) (b c : Word)
    (os : Field) (op : AmoOp) (y : BitVec 12) : s.atomic n d ea b c os op y = s.trapAt k ea 2 := by
  simp [State.atomic, h0, h]

theorem State.fullEmpty_of_check_error {op : FeOp} (hr : s.th.replay = none) (h : s.check s.th ea 4 op.right true = .error k)
    (v : Word) (d : Field) (signed : Bool) (os : Field) : s.fullEmpty op ea v d signed os = s.trapAt k ea op.right.code := by
  simp [State.fullEmpty, State.eaOf_of_no_replay hr, State.place_of_no_replay hr, h]

theorem State.feset_of_check_error (hr : s.th.replay = none) (h : s.check s.th ea 4 .write true = .error k) (full : Bool) :
    s.feset full ea = s.trapAt k ea 1 := by
  simp [State.feset, State.eaOf_of_no_replay hr, State.place_of_no_replay hr, h]

end

/-- R6, R7: an instruction whose meaning issues a state that is the trap on an access completes with that trap taken. -/
theorem completes_trapped_of_issue {i : Instr} {s t : State} {k access : Nat} {ea : Word} (hs : s.thread.isSome = true)
    (he : exec i s = issue s t) (ht : t = s.trapAt k ea access) : Completes i s (Trapped s k ea) :=
  completes_of_issue hs he (ht ▸ trapped_trapAt hs k ea access)

/-- Settles O9: each instruction runs one mould, which takes the trap of a failed check. -/
theorem failedChecks : Obligations.FailedChecks := by
  unfold Obligations.FailedChecks
  intro s k size d a b c os off hs h0 hr
  dsimp only
  rw [← sizeBytes_eq]
  refine ⟨fun h => ?_, fun h => ?_, fun h => ?_, fun h => ?_, fun h => ⟨?_, fun st => ?_⟩, fun h => ?_⟩
  · exact completes_trapped_of_issue hs rfl (State.load_of_check_error hr h _ _ _)
  · exact completes_trapped_of_issue hs rfl (State.store_of_check_error h0 h _ _)
  · exact completes_trapped_of_issue hs rfl (State.fullEmpty_of_check_error (op := .ldfe) hr h _ _ _ _)
  · exact completes_trapped_of_issue hs rfl (State.fullEmpty_of_check_error (op := .ldff) hr h _ _ _ _)
  · exact completes_trapped_of_issue hs rfl (State.fullEmpty_of_check_error (op := .stfe) hr h _ _ _ _)
  · exact completes_trapped_of_issue hs rfl (State.feset_of_check_error hr h _)
  · have amo {i : Instr} (op : AmoOp)
        (he : exec i s = issue s (s.atomic (sizeBytes size) d (s.reg a) (s.reg b) 0 os op 0)) :
        Completes i s (Trapped s k (s.reg a)) :=
      completes_trapped_of_issue hs he (State.atomic_of_check_error h0 h d _ _ os op 0)
    refine ⟨amo .add rfl, amo .and rfl, amo .or rfl, amo .xor rfl, amo .min rfl, amo .max rfl, amo .minu rfl, amo .maxu rfl,
      amo .swap rfl, amo .fadd rfl, fun y hy => ?_⟩
    exact completes_trapped_of_issue hs rfl ((State.sync_ready _ hy).trans (State.atomic_of_check_error h0 h d _ _ os .cas y))

end Sys2Proof.Machine
end

section
/-! Requests to other cores and their replies (R18 to R20, R140, R143, R144, R155, R362, R401). -/

namespace Sys2Proof.Machine

/-! ### Lists by position, and numbers in memory -/

theorem listSet_eq_set {α : Type} (l : List α) (n : Nat) (x : α) : listSet l n x = l.set n x := by
  induction l generalizing n with
  | nil => rfl
  | cons y r ih => cases n with
    | zero => rfl
    | succ n => exact congrArg (y :: ·) (ih n)

theorem listDel_eq_eraseIdx {α : Type} (l : List α) (n : Nat) : listDel l n = l.eraseIdx n := by
  induction l generalizing n with
  | nil => rfl
  | cons y r ih => cases n with
    | zero => rfl
    | succ n => exact congrArg (y :: ·) (ih n)

theorem leNat_lt (bs : List Byte) : leNat bs < 256 ^ bs.length := by
  induction bs with
  | nil => exact Nat.one_pos
  | cons b r ih =>
    have hb := b.isLt
    rw [List.length_cons, Nat.pow_succ]
    unfold leNat
    omega

/-- R5: what `n` bytes spell fits `n` bytes. -/
theorem Memory.num_lt (m : Memory) (a n : Nat) : m.num a n < 2 ^ (8 * n) := by
  have h := leNat_lt (m.bytes a n)
  rwa [Memory.bytes_length, show (256 : Nat) = 2 ^ 8 from rfl, ← Nat.pow_mul] at h

/-! ### What an atomic stores (R154 to R157) -/

/-- Of a byte or more, the two readings of a number as signed agree: the top bit is set where twice the number overflows. -/
theorem signed_top_bit (n v : Nat) :
    (if v ≥ 2 ^ (8 * (n + 1)) / 2 then (v : Int) - (2 ^ (8 * (n + 1)) : Nat) else v) =
      if 2 * v ≥ 2 ^ (8 * (n + 1)) then (v : Int) - (2 ^ (8 * (n + 1)) : Nat) else v := by
  have heven : 2 ^ (8 * (n + 1)) = 2 ^ (8 * n + 7) * 2 := Nat.pow_succ ..
  rw [heven]
  split <;> split <;> omega

/-- An atomic stores its result, but for a `cas` that does not find the value compared with, which stores nothing. -/
theorem amoNew_eq {op : AmoOp} {n old b c : Nat} {stat : Word} (h : old < 2 ^ (8 * n)) :
    amoNew op n old b c stat = if op = .cas ∧ old ≠ b % 2 ^ (8 * n) then none else some (amoResult op n old b c stat) := by
  cases op with
  | min | max =>
    cases n with
    | zero =>
      obtain rfl : old = 0 := by omega
      simp [amoNew, amoResult, Nat.mod_one]
    | succ n => simp only [amoNew, amoResult, signed_top_bit]; rfl
  | cas => by_cases he : old = b % 2 ^ (8 * n) <;> simp [amoNew, amoResult, he]
  | _ => simp [amoNew, amoResult, Fmt.add]

/-! ### A core as a context's requests find it (R405) -/

section
variable {s : State} {x c : Nat} (hsaved : mapGet (s.context x).saved c = none) (hctx : (s.core c).ctx = some x)
include hsaved hctx

theorem State.coreFor_unsaved : s.coreFor x c = s.core c := by simp [State.coreFor, hsaved, hctx]

theorem State.setCoreFor_unsaved (k : CoreState) : s.setCoreFor x c k = s.setCore c k := by
  simp [State.setCoreFor, hsaved, hctx]

end

/-! ### The owner serves a request (R143, R155) -/

section
variable {s : State} {m : Msg}

theorem State.serve_write {off n : Nat} {data : Word} (hb : m.body = .write off n data)
    (hadmits : s.admits m.ctx m.src m.dst off n false = true) (hsaved : mapGet (s.context m.ctx).saved m.dst = none)
    (hctx : (s.core m.dst).ctx = some m.ctx) :
    s.serve m = (s.setCore m.dst { s.core m.dst with ls := (s.core m.dst).ls.putNum off n data.toNat }).reply m (.ack none) := by
  simp only [State.serve, hb, hadmits, if_true, State.coreFor_unsaved hsaved hctx, State.setCoreFor_unsaved hsaved hctx]

theorem State.serve_write_refused {off n : Nat} {data : Word} (hb : m.body = .write off n data)
    (hadmits : s.admits m.ctx m.src m.dst off n false = false) : s.serve m = s.reply m .nack := by
  simp [State.serve, hb, hadmits]

theorem State.serve_atomic {op : AmoOp} {off n : Nat} {b c stat : Word} (hb : m.body = .atomic op off n b c stat)
    (hadmits : s.admits m.ctx m.src m.dst off n true = true) (hsaved : mapGet (s.context m.ctx).saved m.dst = none)
    (hctx : (s.core m.dst).ctx = some m.ctx) :
    let q := s.core m.dst
    let old := q.ls.num off n
    let ls := if op = .cas ∧ old ≠ b.toNat % 2 ^ (8 * n) then q.ls else q.ls.putNum off n (amoResult op n old b.toNat c.toNat stat)
    s.serve m = (s.setCore m.dst { q with ls := ls }).reply m (.ack (some (BitVec.ofNat 64 old))) := by
  intro q old ls
  simp only [State.serve, hb, hadmits, if_true, State.coreFor_unsaved hsaved hctx, State.setCoreFor_unsaved hsaved hctx,
    amoNew_eq (Memory.num_lt _ _ _)]
  by_cases hmiss : op = .cas ∧ old ≠ b.toNat % 2 ^ (8 * n)
  · rw [show ls = q.ls from if_pos hmiss, if_pos hmiss]
  · rw [show ls = q.ls.putNum off n (amoResult op n old b.toNat c.toNat stat) from if_neg hmiss, if_neg hmiss]

theorem State.serve_atomic_refused {op : AmoOp} {off n : Nat} {b c stat : Word} (hb : m.body = .atomic op off n b c stat)
    (hadmits : s.admits m.ctx m.src m.dst off n true = false) : s.serve m = s.reply m .nack := by
  simp [State.serve, hb, hadmits]

/-- R143: a write or atomic that comes to its core's interface is served there. -/
theorem exec_remoteRequest {k : Nat} (hm : s.msgAt k = some m)
    (hb : (∃ off n data, m.body = .write off n data) ∨ (∃ op off n b c stat, m.body = .atomic op off n b c stat)) :
    exec (.remoteRequest k) s = .next (s.atInterface k m (·.serve m)) := by
  show execRemoteRequest k s = _
  unfold execRemoteRequest
  obtain ⟨off, n, data, hb⟩ | ⟨op, off, n, b, c, stat, hb⟩ := hb <;> simp only [hm, hb]

theorem State.atInterface_open {k : Nat} (f : State → State) (h : (s.core m.dst).remapStep ≠ 3) :
    s.atInterface k m f = f { s with msgs := listDel s.msgs k } := by
  simp [State.atInterface, State.holding, h]

/-- R19, R401: at the interface of a core that a remap is copying nothing is performed. -/
theorem State.atInterface_held {k : Nat} (f : State → State) (h : (s.core m.dst).remapStep = 3) :
    s.atInterface k m f = { s with msgs := listDel s.msgs k ++ [{ m with held := true }] } := by
  simp [State.atInterface, State.holding, h]

end

/-! ### Containment (R177, R357, R362) -/

@[simp] theorem State.contain_mem (s : State) (x : Nat) : (s.contain x).mem = s.mem := by
  unfold State.contain
  split <;> rfl

/-- R177: containment discards messages and makes none. -/
theorem State.mem_of_mem_contain_msgs {s : State} {x : Nat} {m : Msg} (h : m ∈ (s.contain x).msgs) : m ∈ s.msgs := by
  unfold State.contain at h
  split at h
  · exact List.mem_of_mem_filter h
  · exact h

theorem State.contain_st {s : State} {x : Nat} (h : (s.context x).st = .active) : ((s.contain x).context x).st = .faulted := by
  simp [State.contain, h]

/-! ### Requests that were lost (R20, R362) -/

section
variable {s : State} {k : Nat} {m : Msg} (hm : s.msgs[k]? = some m)
include hm

theorem exec_requestResend_early (h : m.lost = false ∨ s.cycle < m.since + 65536) : exec (.requestResend k) s = .next s := by
  show execRequestResend k s = _
  simp only [execRequestResend, hm]
  rw [if_pos (by simpa using h)]

theorem exec_requestResend_due (hl : m.lost = true) (hc : m.since + 65536 ≤ s.cycle) :
    exec (.requestResend k) s = .next (if s.package.deadLeaves.contains m.dstLeaf
      then ({ s with msgs := listDel s.msgs k } : State).contain m.ctx
      else { s with msgs := listSet s.msgs k { m with lost := false, since := s.cycle } }) := by
  show execRequestResend k s = _
  simp only [execRequestResend, hm]
  rw [if_neg (by simp [hl, hc])]
  split <;> rfl

end

/-! ### The obligation -/

/-- R20: a request whose destination lives is sent again in its place, and nothing else changes. -/
theorem completes_requestResend_again {s : State} {k : Nat} {m : Msg} (hm : s.msgs[k]? = some m) (hl : m.lost = true)
    (hc : m.since + 65536 ≤ s.cycle) (hd : m.dstLeaf ∉ s.package.deadLeaves) :
    Completes (.requestResend k) s (fun t => t.msgs[k]? = some { m with lost := false, since := s.cycle } ∧
      (∀ j, j ≠ k → t.msgs[j]? = s.msgs[j]?) ∧ t = { s with msgs := t.msgs }) := by
  refine ⟨_, exec_requestResend_due hm hl hc, ?_⟩
  rw [if_neg (by simpa using hd)]
  obtain ⟨hk, -⟩ := List.getElem?_eq_some_iff.mp hm
  refine ⟨?_, fun j hj => ?_, rfl⟩
  · simp [listSet_eq_set, hk]
  · simp [listSet_eq_set, List.getElem?_set_ne hj.symm]

/-- R362: a request whose destination has failed contains the context of its issuer. -/
theorem completes_requestResend_contains {s : State} {k : Nat} {m : Msg} (hm : s.msgs[k]? = some m) (hl : m.lost = true)
    (hc : m.since + 65536 ≤ s.cycle) (hd : m.dstLeaf ∈ s.package.deadLeaves) (hx : (s.context m.ctx).st = .active) :
    Completes (.requestResend k) s (fun t => (t.context m.ctx).st = .faulted ∧ t.mem = s.mem ∧ ∀ q ∈ t.msgs, q ∈ s.msgs) := by
  refine ⟨_, exec_requestResend_due hm hl hc, ?_⟩
  rw [if_pos (by simpa using hd)]
  refine ⟨State.contain_st (s := { s with msgs := listDel s.msgs k }) hx, State.contain_mem _ _, fun q hq => ?_⟩
  have hleft : q ∈ listDel s.msgs k := State.mem_of_mem_contain_msgs hq
  exact List.mem_of_mem_eraseIdx (listDel_eq_eraseIdx s.msgs k ▸ hleft)

/-- Settles O16: a request that reaches an open interface is served there, one at a held interface waits, and what comes back or is
lost is dealt with where its message stands. -/
theorem requestsAndReplies : Obligations.RequestsAndReplies := by
  unfold Obligations.RequestsAndReplies
  refine ⟨fun s k m hm hsaved => ?_, fun s k m => ⟨fun old hm hb => ?_, fun hm hb => ?_, ?_, ?_, ?_⟩⟩
  · intro left back q
    refine ⟨fun hopen => ⟨?_, ?_, ?_, ?_⟩, fun hheld hb => ?_⟩
    · intro off n data hb hadmits hctx
      rw [exec_remoteRequest hm (.inl ⟨_, _, _, hb⟩), State.atInterface_open _ hopen,
        State.serve_write (s := { s with msgs := left }) hb hadmits hsaved hctx]
      rfl
    · intro off n data hb hadmits
      rw [exec_remoteRequest hm (.inl ⟨_, _, _, hb⟩), State.atInterface_open _ hopen,
        State.serve_write_refused (s := { s with msgs := left }) hb hadmits]
      rfl
    · intro op off n b c stat hb hadmits hctx
      dsimp only
      rw [exec_remoteRequest hm (.inr ⟨_, _, _, _, _, _, hb⟩), State.atInterface_open _ hopen,
        State.serve_atomic (s := { s with msgs := left }) hb hadmits hsaved hctx]
      rfl
    · intro op off n b c stat hb hadmits
      rw [exec_remoteRequest hm (.inr ⟨_, _, _, _, _, _, hb⟩), State.atInterface_open _ hopen,
        State.serve_atomic_refused (s := { s with msgs := left }) hb hadmits]
      rfl
    · rw [exec_remoteRequest hm hb, State.atInterface_held _ hheld]
  · show execAcknowledgement k s = _
    simp only [execAcknowledgement, hm, hb]
  · show execNegativeAcknowledgement k s = _
    simp only [execNegativeAcknowledgement, hm, hb]
  · exact completes_requestResend_again
  · exact completes_requestResend_contains
  · exact exec_requestResend_early

end Sys2Proof.Machine
end

section
/-! Links and failed parts of the network (R20, R369, R372), and the end of a slew of TIME (R374). -/

namespace Sys2Proof.Machine

/-! ### Ports (R369, R372) -/

/-- R369: a port but 18 and 19, which carry no bit of LINKUP, sets or clears its own bit and no other. -/
theorem getLsbD_setLink (l : BitVec 22) {p j : Nat} (up : Bool) (hp : p < 22) (hj : j < 22) :
    (setLink l p up).getLsbD j = if j = p ∧ p ≠ 18 ∧ p ≠ 19 then up else l.getLsbD j := by
  have hbit : (1 : BitVec 22) <<< p = BitVec.twoPow 22 p := rfl
  unfold setLink
  rw [hbit]
  by_cases hport : p < 18 ∨ p = 20 ∨ p = 21
  · have hne : p ≠ 18 ∧ p ≠ 19 := by omega
    rw [if_pos hport]
    by_cases h : j = p
    · subst h
      cases up <;> simp [hne, hj]
    · cases up <;> simp [h, hj]
  · rw [if_neg hport, if_neg (by omega)]

/-- R369, R372: a port that goes down or up changes LINKUP and, it may be, the cycle in which the last link was lost. -/
theorem State.portGoes_eq (s : State) (p : Nat) (up : Bool) : ∃ n, s.portGoes p up =
    { s with package := { s.package with linkup := setLink s.package.linkup p up, linkLost := n } } := by
  unfold State.portGoes
  dsimp only
  split
  · exact ⟨s.cycle, rfl⟩
  · exact ⟨s.package.linkLost, rfl⟩

theorem completes_portGoes {i : Instr} {s : State} {p : Nat} {up : Bool} (he : exec i s = .next (s.portGoes p up)) (hp : p < 22) :
    Completes i s (fun t => t.mem = s.mem ∧ t.cores = s.cores ∧ t.flight = s.flight ∧
      ∀ j, j < 22 → t.package.linkup.getLsbD j = (if j = p ∧ p ≠ 18 ∧ p ≠ 19 then up else s.package.linkup.getLsbD j)) := by
  obtain ⟨n, hn⟩ := s.portGoes_eq p up
  exact ⟨_, he.trans (congrArg _ hn), rfl, rfl, rfl, fun j hj => getLsbD_setLink _ _ hp hj⟩

/-! ### Faults of accesses in flight (R370, R372) -/

@[simp] theorem State.threadAt_leaveQueues (s : State) (c uid d : Nat) (i : Fin 16) :
    (s.leaveQueues c uid).threadAt d i = s.threadAt d i := by
  show (State.core (s.setCore c _) d).slots[i] = _
  rw [State.core_setCore]
  split
  · next h => subst h; rfl
  · rfl

@[simp] theorem State.leaveQueues_mem (s : State) (c uid : Nat) : (s.leaveQueues c uid).mem = s.mem := rfl
@[simp] theorem State.leaveQueues_flight (s : State) (c uid : Nat) : (s.leaveQueues c uid).flight = s.flight := rfl

theorem State.takeTrap_of_threadAt {s : State} {c : Nat} {i : Fin 16} {t : Thread} (ht : s.threadAt c i = some t) (f : FaultInfo) :
    s.takeTrap c i f = s.setSlot c i (some (t.fail f)) := by
  simp [State.takeTrap, ht]

/-- R345, R372: the fault that an access in flight raises at its thread; `back` is the landing that the thread waited for (R166). -/
def Access.farInfo (a : Access) (kind level : Nat) (t : Thread) : FaultInfo :=
  { kind := kind, ea := a.ea, dva := BitVec.ofNat 64 a.dva, access := a.op.code, level := level
    back := match t.st with | .parked (.landing n) => some n | _ => none }

/-- R372: the accesses of a thread that a test selects wait for its wake. -/
def State.strand (s : State) (uid : Nat) (also : Access → Bool) : State :=
  { s with flight := s.flight.map (fun b => if b.uid = uid ∧ also b then { b with stranded := true } else b) }

@[simp] theorem State.strand_mem (s : State) (uid : Nat) (also : Access → Bool) : (s.strand uid also).mem = s.mem := rfl
@[simp] theorem State.strand_flight (s : State) (uid : Nat) (also : Access → Bool) : (s.strand uid also).flight =
    s.flight.map (fun b => if b.uid = uid ∧ also b then { b with stranded := true } else b) := rfl
@[simp] theorem State.threadAt_strand (s : State) (uid : Nat) (also : Access → Bool) (c : Nat) (i : Fin 16) :
    (s.strand uid also).threadAt c i = s.threadAt c i := rfl

section
variable {s : State} {a : Access} {c : Nat} {i : Fin 16} {t : Thread} (hl : s.locate a.uid = some (c, i))
  (ht : s.threadAt c i = some t) (hfree : ¬(t.fault.isSome ∨ t.stage ≠ 0 ∨ t.mop.isSome ∨ t.fe.isSome ∨ t.hold))
  (kind level : Nat) (also : Access → Bool)
include hl ht hfree

/-- R370, R372: the thread takes the fault and its accesses are stranded; one that waited for an acquire's value keeps what its
instruction has read. -/
theorem State.farFault_eq :
    let f := a.farInfo kind level t
    let u := ((s.leaveQueues c t.uid).setSlot c i (some (t.fail f))).strand a.uid also
    s.farFault a kind level also =
      if f.back.isSome then u.setSlot c i (some { t.fail f with latched := t.latched }) else u := by
  intro f u
  have ht' : (s.leaveQueues c t.uid).threadAt c i = some t := by rw [State.threadAt_leaveQueues, ht]
  have hu : u.threadAt c i = some (t.fail f) := by simp [u]
  let r := ((s.leaveQueues c t.uid).takeTrap c i f).strand a.uid also
  have hr : r = u := by simp only [r, u, State.takeTrap_of_threadAt ht']
  simp only [State.farFault, hl, ht, if_neg hfree]
  show (match r.threadAt c i with
    | some v => if f.back.isSome then r.setSlot c i (some { v with latched := t.latched }) else r
    | none => r) = _
  rw [hr, hu]

theorem State.farFault_faults :
    let u := s.farFault a kind level also
    u.mem = s.mem ∧ u.flight = s.flight.map (fun b => if b.uid = a.uid ∧ also b then { b with stranded := true } else b) ∧
      ∃ w f, u.threadAt c i = some w ∧ w.st = .faulted ∧ w.fault = some f ∧ f.kind = kind ∧ f.ea = a.ea ∧ w.pc = t.pc := by
  dsimp only
  rw [State.farFault_eq hl ht hfree]
  generalize hf : a.farInfo kind level t = f
  have hkind : f.kind = kind := hf ▸ rfl
  have hea : f.ea = a.ea := hf ▸ rfl
  dsimp only
  split
  · exact ⟨by simp, by simp, { t.fail f with latched := t.latched }, f, by simp, rfl, rfl, hkind, hea, rfl⟩
  · exact ⟨by simp, by simp, t.fail f, f, by simp, rfl, rfl, hkind, hea, rfl⟩

end

/-- R372: an access that has lost its path for too long raises LINK_DOWN. -/
theorem State.linkFault_lost {s : State} {k : Nat} {a : Access} (hk : s.flight[k]? = some a) (hr : a.remote = true)
    (hst : a.stranded = false) (hp : s.pathTo a.home = false) (hlost : s.pathLost a.home = true) :
    s.linkFault k = s.farFault a 6 0 (fun b => b.remote && !s.pathTo b.home) := by
  simp [State.linkFault, hk, hr, hst, hp, hlost]

theorem State.linkFault_of_paths {s : State} (h : ∀ pkg, s.pathLost pkg = false) (k : Nat) : s.linkFault k = s := by
  unfold State.linkFault
  split
  · rfl
  · rw [if_pos (by simp [h])]

/-! ### TIME (R374, R397) -/

theorem State.correction_of_no_context {s : State} (h : s.contexts = []) (flags : Nat) (offset rate : Int) :
    s.correction flags offset rate = s := by
  simp [State.correction, h]

theorem State.absorbed_of_no_context {s : State} (hslew : s.package.time.slew = 0) (hc : s.contexts = []) :
    s.absorbed = { s with package := { s.package with time := { s.package.time with rate := 0 } } } := by
  by_cases hrate : s.package.time.rate = 0
  · have hsame : { s.package.time with rate := 0 } = s.package.time := by rw [← hrate]
    simp [State.absorbed, hrate, hsame]
  · unfold State.absorbed
    rw [if_pos ⟨hslew, hrate⟩]
    exact State.correction_of_no_context (by exact hc) 0 0 0

theorem State.absorbed_of_slew {s : State} (h : s.package.time.slew ≠ 0) : s.absorbed = s := by
  simp [State.absorbed, h]

/-! ### The obligation -/

/-- R8, R20: a failed switch, or a failed leaf that is a memory slice's, leaves its mask, and nothing else changes. -/
theorem completes_sliceOrSwitchFailure (s : State) (leaf : Nat) (sw : Bool) :
    Completes (.sliceOrSwitchFailure leaf sw) s (fun t => t.mem = s.mem ∧ t.cores = s.cores ∧
      t.package.deadSwitches = (if sw = true then s.package.deadSwitches ++ [leaf] else s.package.deadSwitches) ∧
      t.package.deadLeaves = (if sw = false ∧ leaf < 592 ∧ 80 ≤ leaf % 148 ∧ leaf % 148 < 144 then s.package.deadLeaves ++ [leaf]
        else s.package.deadLeaves)) := by
  refine ⟨_, rfl, ?_⟩
  cases sw with
  | true => simp
  | false => by_cases h : leaf < 592 ∧ 80 ≤ leaf % 148 ∧ leaf % 148 < 144 <;> simp [isSlice, h]

/-- Settles O55 by the law of each step: a port's of `setLink`, a lost path's of `farFault`, a slew's end of `absorbed`. -/
theorem linkSteps : Obligations.LinkSteps := by
  unfold Obligations.LinkSteps
  intro s
  refine ⟨fun _ => rfl, fun _ hp => completes_portGoes rfl hp, fun _ hp => completes_portGoes rfl hp, ?_,
    fun k h => congrArg _ (State.linkFault_of_paths h k), completes_sliceOrSwitchFailure s,
    fun hslew hc => congrArg _ (State.absorbed_of_no_context hslew hc), fun h => congrArg _ (State.absorbed_of_slew h)⟩
  intro k a c i t hk hr hst hp hlost hl ht hfault hstage hmop hfe hhold
  refine ⟨s.linkFault k, rfl, ?_⟩
  rw [State.linkFault_lost hk hr hst hp hlost]
  obtain ⟨hmem, hflight, hthread⟩ := State.farFault_faults hl ht (by simp [hfault, hstage, hmop, hfe, hhold]) 6 0
    (fun b => b.remote && !s.pathTo b.home)
  exact ⟨hmem, by simpa using hflight, hthread⟩

end Sys2Proof.Machine
end

section
/-! FP32 encodings as magnitudes (R23, R24), the two that bracket a real number, and the rounding of R35 and R46. -/

namespace Sys2Proof.Machine

/-! ### The value of an encoding -/

/-- R24: the value of the FP32 encoding `n` without its sign bit, continued beyond the finite ones. -/
noncomputable def fp32Mag (n : Nat) : ℝ :=
  if n < 2 ^ 23 then n * (2 : ℝ) ^ (-149 : ℤ) else ((2 ^ 23 + n % 2 ^ 23 : ℕ) : ℝ) * (2 : ℝ) ^ (((n / 2 ^ 23 : ℕ) : ℤ) - 150)

/-- An encoding is an exponent step above 2⁻¹⁴⁹ and a significand, full unless the exponent is the least. -/
theorem exists_fp32_parts (n : Nat) : ∃ q k, n = q * 2 ^ 23 + k ∧ k < 2 ^ 24 ∧ (q = 0 ∨ 2 ^ 23 ≤ k) := by
  by_cases h : n < 2 ^ 23
  · exact ⟨0, n, by omega, by omega, .inl rfl⟩
  · exact ⟨n / 2 ^ 23 - 1, 2 ^ 23 + n % 2 ^ 23, by omega, by omega, .inr (by omega)⟩

/-- The value of an encoding from its parts; a significand of 2²⁴ carries into the exponent. -/
theorem fp32Mag_parts {q k : Nat} (hk : k ≤ 2 ^ 24) (hq : q = 0 ∨ 2 ^ 23 ≤ k) :
    fp32Mag (q * 2 ^ 23 + k) = k * (2 : ℝ) ^ ((q : ℤ) - 149) := by
  unfold fp32Mag
  obtain hsmall | hfull := lt_or_ge k (2 ^ 23)
  · obtain rfl : q = 0 := by omega
    rw [if_pos (by omega)]
    simp
  · rw [if_neg (by omega)]
    obtain rfl | hlt := eq_or_lt_of_le hk
    · rw [show (q * 2 ^ 23 + 2 ^ 24) / 2 ^ 23 = q + 2 by omega, show (q * 2 ^ 23 + 2 ^ 24) % 2 ^ 23 = 0 by omega,
        show (((q + 2 : ℕ) : ℤ) - 150) = ((q : ℤ) - 149) + 1 by push_cast; ring, zpow_add_one₀ two_ne_zero]
      push_cast
      ring
    · rw [show (q * 2 ^ 23 + k) / 2 ^ 23 = q + 1 by omega, show 2 ^ 23 + (q * 2 ^ 23 + k) % 2 ^ 23 = k by omega,
        show (((q + 1 : ℕ) : ℤ) - 150) = (q : ℤ) - 149 by push_cast; ring]

theorem fp32Mag_zero : fp32Mag 0 = 0 := by simp [fp32Mag]

theorem fp32Mag_lt_succ (n : Nat) : fp32Mag n < fp32Mag (n + 1) := by
  obtain ⟨q, k, rfl, hk, hq⟩ := exists_fp32_parts n
  rw [add_assoc, fp32Mag_parts hk.le hq, fp32Mag_parts hk (by omega)]
  push_cast
  gcongr
  linarith

theorem fp32Mag_strictMono : StrictMono fp32Mag := strictMono_nat_of_lt_succ fp32Mag_lt_succ

theorem fp32Mag_nonneg (n : Nat) : 0 ≤ fp32Mag n := fp32Mag_zero ▸ fp32Mag_strictMono.monotone n.zero_le

/-- Consecutive encodings are apart by at least 2⁻²⁴ of their value. -/
theorem fp32Mag_gap (n : Nat) : fp32Mag n * (2 ^ 24 + 1) ≤ fp32Mag (n + 1) * 2 ^ 24 := by
  obtain ⟨q, k, rfl, hk, hq⟩ := exists_fp32_parts n
  rw [add_assoc, fp32Mag_parts hk.le hq, fp32Mag_parts hk (by omega)]
  have hk' : (k : ℝ) ≤ 2 ^ 24 := by exact_mod_cast hk.le
  have hpos : (0 : ℝ) < 2 ^ ((q : ℤ) - 149) := by positivity
  push_cast
  nlinarith

/-- The finite encodings without a sign bit are those below that of infinity. -/
theorem fp32_finite_iff {n : Nat} (h : n < 2 ^ 31) : n / 2 ^ 23 % 256 ≠ 255 ↔ n < 0x7F800000 := by omega

/-- R24: what a finite encoding decodes to. -/
theorem fp32_decode_finite {w : Nat} (h : w < 2 ^ 32) (hf : w / 2 ^ 23 % 256 ≠ 255) :
    ∃ k e, fp32.decode w = .fin (decide (2 ^ 31 ≤ w)) k e ∧ k < 2 ^ 24 ∧ -149 ≤ e ∧ e ≤ 104 ∧
      w % 2 ^ 31 = (e + 149).toNat * 2 ^ 23 + k ∧ (e = -149 ∨ 2 ^ 23 ≤ k) := by
  have hs : w.testBit 31 = decide (2 ^ 31 ≤ w) := by
    rw [Nat.testBit_eq_decide_div_mod_eq]
    congr 1
    rw [eq_iff_iff]
    omega
  simp only [Fmt.decode, fp32, Nat.shiftRight_eq_div_pow, Nat.reduceAdd, hs]
  by_cases h0 : w / 2 ^ 23 % 2 ^ 8 = 0
  · rw [if_pos h0]
    exact ⟨_, _, rfl, by omega, by norm_num, by norm_num, by norm_num; omega, .inl (by norm_num)⟩
  · rw [if_neg h0, if_neg (by omega), if_neg (by omega)]
    exact ⟨_, _, rfl, by omega, by omega, by omega, by omega, .inr (by omega)⟩

/-- R24: the value of a finite encoding is its magnitude's with its sign. -/
theorem fp32_rat_cast {w : Nat} (h : w < 2 ^ 32) (hf : w / 2 ^ 23 % 256 ≠ 255) :
    ((fp32.decode w).rat : ℝ) = (if 2 ^ 31 ≤ w then -1 else 1) * fp32Mag (w % 2 ^ 31) := by
  obtain ⟨k, e, hd, hk, he, -, hw, hq⟩ := fp32_decode_finite h hf
  rw [hd, hw, fp32Mag_parts hk.le (by omega), show (((e + 149).toNat : ℤ) - 149) = e by omega]
  simp only [FVal.rat, decide_eq_true_eq]
  split <;> push_cast <;> ring

theorem fp32_rat_of_lt {n : Nat} (h : n < 0x7F800000) : ((fp32.decode n).rat : ℝ) = fp32Mag n := by
  rw [fp32_rat_cast (by omega) (by omega), if_neg (by omega), Nat.mod_eq_of_lt (by omega), one_mul]

/-! ### Bracketing -/

/-- An encoding that is next to a non-negative number on each side is one of the two that bracket it. -/
structure Adjacent (y : ℝ) (r : Nat) : Prop where
  finite : r < 0x7F800000
  above : y < fp32Mag (r + 1)
  below : ∀ k, k < r → fp32Mag k < y

theorem Adjacent.between {y : ℝ} {r n : Nat} (h : Adjacent y r) :
    (r < n → y < fp32Mag n) ∧ (n < r → fp32Mag n < y) ∧ (fp32Mag n = y → n = r) := by
  refine ⟨fun hn => h.above.trans_le (fp32Mag_strictMono.monotone hn), h.below n, fun hy => ?_⟩
  have hlow : ¬ n < r := fun hn => (h.below n hn).ne hy
  have hhigh : ¬ r + 1 ≤ n := fun hn => (h.above.trans_le (fp32Mag_strictMono.monotone hn)).ne' hy
  omega

/-- R46: bracketing, for each finite encoding at a time. -/
theorem brackets_iff {y : ℝ} {r : Nat} : Brackets y r ↔ (r < 2 ^ 32 ∧ r / 2 ^ 23 % 256 ≠ 255) ∧
    ∀ w, w < 2 ^ 32 → w / 2 ^ 23 % 256 ≠ 255 →
      (((fp32.decode r).rat : ℝ) < (fp32.decode w).rat → y < (fp32.decode w).rat) ∧
      (((fp32.decode w).rat : ℝ) < (fp32.decode r).rat → ((fp32.decode w).rat : ℝ) < y) ∧
      (((fp32.decode w).rat : ℝ) = y → ((fp32.decode r).rat : ℝ) = y) := by
  constructor
  · rintro ⟨hfin, habove, hbelow, hsame⟩
    exact ⟨hfin, fun w h hf => ⟨habove w ⟨h, hf⟩, hbelow w ⟨h, hf⟩, hsame w ⟨h, hf⟩⟩⟩
  · rintro ⟨hfin, hw⟩
    exact ⟨hfin, fun w h => (hw w h.1 h.2).1, fun w h => (hw w h.1 h.2).2.1, fun w h => (hw w h.1 h.2).2.2⟩

/-- R46: of a number that is not negative. -/
theorem Adjacent.brackets {y : ℝ} {r : Nat} (h : Adjacent y r) (hy : 0 ≤ y) : Brackets y r := by
  have hr := h.finite
  refine brackets_iff.2 ⟨⟨by omega, by omega⟩, fun w hw hf => ?_⟩
  have hmag := fp32Mag_nonneg (w % 2 ^ 31)
  rw [fp32_rat_of_lt hr, fp32_rat_cast hw hf]
  split
  case isFalse =>
    obtain ⟨habove, hbelow, hsame⟩ := h.between (n := w % 2 ^ 31)
    rw [one_mul, fp32Mag_strictMono.lt_iff_lt, fp32Mag_strictMono.lt_iff_lt]
    exact ⟨habove, hbelow, fun heq => by rw [← hsame heq, heq]⟩
  case isTrue =>
    obtain ⟨-, hbelow, hsame⟩ := h.between (n := 0)
    rw [fp32Mag_zero] at hbelow hsame
    refine ⟨fun hlt => by linarith [fp32Mag_nonneg r], fun hlt => ?_, fun heq => ?_⟩
    · obtain rfl | hpos := Nat.eq_zero_or_pos r
      · rw [fp32Mag_zero] at hlt
        linarith
      · linarith [hbelow hpos]
    · have hz : y = 0 := by linarith
      rw [← hsame hz.symm, fp32Mag_zero, hz]

/-- The encoding of the other sign. -/
def fp32Flip (w : Nat) : Nat := if 2 ^ 31 ≤ w then w - 2 ^ 31 else w + 2 ^ 31

theorem fp32_rat_flip {w : Nat} (h : w < 2 ^ 32) (hf : w / 2 ^ 23 % 256 ≠ 255) :
    fp32Flip w < 2 ^ 32 ∧ fp32Flip w / 2 ^ 23 % 256 ≠ 255 ∧
      ((fp32.decode (fp32Flip w)).rat : ℝ) = -((fp32.decode w).rat : ℝ) := by
  have hlow : fp32Flip w % 2 ^ 31 = w % 2 ^ 31 := by unfold fp32Flip; split <;> omega
  have hsign : 2 ^ 31 ≤ fp32Flip w ↔ ¬2 ^ 31 ≤ w := by unfold fp32Flip; split <;> omega
  have hlt : fp32Flip w < 2 ^ 32 := by unfold fp32Flip; split <;> omega
  have hfin : fp32Flip w / 2 ^ 23 % 256 ≠ 255 := by omega
  refine ⟨hlt, hfin, ?_⟩
  rw [fp32_rat_cast h hf, fp32_rat_cast hlt hfin, hlow]
  by_cases hs : 2 ^ 31 ≤ w <;> simp only [hsign, hs, not_true, not_false_iff, if_true, if_false] <;> ring

/-- R46: the encodings that bracket a number bracket its negative with the other sign. -/
theorem Brackets.flip {y : ℝ} {r : Nat} (h : Brackets y r) : Brackets (-y) (fp32Flip r) := by
  obtain ⟨⟨hr, hrf⟩, hw⟩ := brackets_iff.1 h
  obtain ⟨hr', hrf', hrv⟩ := fp32_rat_flip hr hrf
  refine brackets_iff.2 ⟨⟨hr', hrf'⟩, fun w h hf => ?_⟩
  obtain ⟨h', hf', hv⟩ := fp32_rat_flip h hf
  obtain ⟨habove, hbelow, hsame⟩ := hw _ h' hf'
  rw [hv] at habove hbelow hsame
  rw [hrv]
  exact ⟨fun hlt => by linarith [hbelow (by linarith)], fun hlt => by linarith [habove (by linarith)],
    fun heq => by rw [hsame (by linarith)]⟩

/-- R46: an encoding next to a magnitude, with a sign, brackets the number of that sign. -/
theorem Adjacent.brackets_signed {y : ℝ} {r : Nat} (h : Adjacent y r) (hy : 0 ≤ y) (neg : Bool) :
    Brackets (if neg then -y else y) (fp32.signBit neg + r) := by
  have hr := h.finite
  cases neg with
  | false => simpa [Fmt.signBit] using h.brackets hy
  | true =>
    have := (h.brackets hy).flip
    rwa [fp32Flip, if_neg (by omega), add_comm] at this

/-- A number that an encoding holds is bracketed by that encoding. -/
theorem adjacent_self {r : Nat} (h : r < 0x7F800000) : Adjacent (fp32Mag r) r :=
  ⟨h, fp32Mag_lt_succ r, fun _ hk => fp32Mag_strictMono hk⟩

end Sys2Proof.Machine
end

section
/-! FP32 rounding of an exact magnitude (R35), and the faithful choice (R46). -/

namespace Sys2Proof.Machine

/-! ### Rounding -/

/-- The significand of `m` in units of 2^d, rounded down: what `Fmt.roundMag` truncates to. -/
def truncSig (m : Nat) (d : Int) : Nat := if d ≤ 0 then m <<< (-d).toNat else m >>> d.toNat

/-- Whether `Fmt.roundMag` adds one to the truncated significand. -/
def sigUp (rm : Nat) (neg : Bool) (m : Nat) (d : Int) : Bool :=
  decide (0 < d) && roundUp rm neg (m >>> d.toNat) (m % 2 ^ d.toNat) d.toNat

theorem truncSig_bounds (m : Nat) (d : Int) :
    (truncSig m d : ℝ) * 2 ^ d ≤ m ∧ (m : ℝ) < (truncSig m d + 1) * 2 ^ d := by
  unfold truncSig
  split
  case isTrue h =>
    obtain ⟨n, rfl⟩ : ∃ n : ℕ, d = -n := ⟨(-d).toNat, by omega⟩
    have hpos : (0 : ℝ) < 2 ^ n := by positivity
    simp only [neg_neg, Int.toNat_natCast, Nat.shiftLeft_eq, Nat.cast_mul, Nat.cast_pow, Nat.cast_ofNat, zpow_neg, zpow_natCast]
    constructor
    · field_simp; rfl
    · field_simp; linarith
  case isFalse h =>
    obtain ⟨n, rfl⟩ : ∃ n : ℕ, d = n := ⟨d.toNat, by omega⟩
    simp only [Int.toNat_natCast, Nat.shiftRight_eq_div_pow, zpow_natCast]
    have hlow := Nat.div_mul_le_self m (2 ^ n)
    have hhigh := Nat.lt_div_mul_add (a := m) (b := 2 ^ n) (by positivity)
    refine ⟨by exact_mod_cast hlow, ?_⟩
    rw [add_mul, one_mul]
    exact_mod_cast hhigh

/-- Nothing is added to an exact significand. -/
theorem sigUp_of_exact {m : Nat} {d : Int} (h : (m : ℝ) = truncSig m d * 2 ^ d) (rm : Nat) (neg : Bool) :
    sigUp rm neg m d = false := by
  unfold sigUp
  by_cases hd : 0 < d
  · obtain ⟨n, rfl⟩ : ∃ n : ℕ, d = n := ⟨d.toNat, by omega⟩
    rw [truncSig, if_neg (by omega)] at h
    simp only [Int.toNat_natCast, Nat.shiftRight_eq_div_pow, zpow_natCast] at h ⊢
    have hm : m = m / 2 ^ n * 2 ^ n := by exact_mod_cast h
    have hmod : m % 2 ^ n = 0 := by
      have := Nat.div_add_mod' m (2 ^ n)
      omega
    have hpow : 0 ≠ 2 ^ n := by positivity
    simp [hmod, roundUp, hpow]
  · simp [hd]

theorem sigUp_down (neg : Bool) (m : Nat) (d : Int) : sigUp 1 neg m d = false := by simp [sigUp, roundUp]

/-- Rounding up adds one to a significand that is not exact. -/
theorem sigUp_up {m : Nat} {d : Int} (h : (m : ℝ) ≠ truncSig m d * 2 ^ d) : sigUp 3 false m d = true := by
  unfold truncSig at h
  split at h
  case isTrue hd =>
    obtain ⟨n, rfl⟩ : ∃ n : ℕ, d = -n := ⟨(-d).toNat, by omega⟩
    simp [Nat.shiftLeft_eq] at h
  case isFalse hd =>
    obtain ⟨n, rfl⟩ : ∃ n : ℕ, d = n := ⟨d.toNat, by omega⟩
    simp only [Int.toNat_natCast, Nat.shiftRight_eq_div_pow, zpow_natCast] at h
    have hmod : m % 2 ^ n ≠ 0 := fun h0 => h (by
      have := Nat.div_add_mod' m (2 ^ n)
      rw [h0, Nat.add_zero] at this
      exact_mod_cast this.symm)
    have hn : 0 < n := by omega
    simp [sigUp, roundUp, hmod, hn]

/-- The exponent step that rounding chooses gives a significand below 2²⁴, full unless the step is the least. -/
theorem truncSig_full {m : Nat} (hm : m ≠ 0) (e : Int) :
    let q := max (e + Nat.log2 m - 23) (-149)
    truncSig m (q - e) < 2 ^ 24 ∧ (q = -149 ∨ 2 ^ 23 ≤ truncSig m (q - e)) := by
  intro q
  have hlow := Nat.log2_self_le hm
  have hhigh : m < 2 ^ (Nat.log2 m + 1) := Nat.lt_log2_self
  have hlog : Nat.log2 m ≤ 23 + (q - e) := by omega
  have hcast : ∀ j : ℕ, ((2 ^ j : ℕ) : ℝ) = 2 ^ (j : ℤ) := fun j => by push_cast; rw [zpow_natCast]
  obtain ⟨hle, hlt⟩ := truncSig_bounds m (q - e)
  have hpos : (0 : ℝ) < 2 ^ (q - e) := by positivity
  constructor
  · have hm' : (m : ℝ) < 2 ^ (24 : ℤ) * 2 ^ (q - e) := calc
      (m : ℝ) < ((2 ^ (Nat.log2 m + 1) : ℕ) : ℝ) := by exact_mod_cast hhigh
      _ = 2 ^ ((Nat.log2 m + 1 : ℕ) : ℤ) := hcast _
      _ ≤ 2 ^ (24 + (q - e)) := zpow_le_zpow_right₀ one_le_two (by push_cast; omega)
      _ = 2 ^ (24 : ℤ) * 2 ^ (q - e) := zpow_add₀ two_ne_zero _ _
    have := lt_of_mul_lt_mul_right (hle.trans_lt hm') hpos.le
    exact_mod_cast this
  · refine or_iff_not_imp_left.2 fun hq => ?_
    have hexp : (Nat.log2 m : ℤ) = 23 + (q - e) := by omega
    have hm' : (2 : ℝ) ^ (23 : ℤ) * 2 ^ (q - e) ≤ m := by
      rw [← zpow_add₀ two_ne_zero, ← hexp, ← hcast]
      exact_mod_cast hlow
    have := lt_of_mul_lt_mul_right (hm'.trans_lt hlt) hpos.le
    have : (2 ^ 23 : ℕ) < truncSig m (q - e) + 1 := by exact_mod_cast this
    omega

theorem fp32_signBit (neg : Bool) : fp32.signBit neg = if neg then 2 ^ 31 else 0 := rfl

/-- `Fmt.roundMag` rounds the significand to the truncated one, and one more where the mode rounds up. -/
theorem roundedSig_eq (rm : Nat) (neg : Bool) (m : Nat) (d : Int) :
    (if d ≤ 0 then m <<< (-d).toNat
      else if roundUp rm neg (m >>> d.toNat) (m % 2 ^ d.toNat) d.toNat = true then m >>> d.toNat + 1 else m >>> d.toNat) =
      truncSig m d + (sigUp rm neg m d).toNat := by
  unfold truncSig sigUp
  by_cases hd : d ≤ 0
  · have hnot : ¬0 < d := by omega
    simp only [hd, hnot, if_true, decide_false, Bool.false_and, Bool.toNat_false, Nat.add_zero]
  · have hpos : 0 < d := by omega
    simp only [hd, hpos, if_false, decide_true, Bool.true_and]
    split
    case isTrue h => rw [h, Bool.toNat_true]
    case isFalse h => rw [Bool.eq_false_of_not_eq_true h, Bool.toNat_false, Nat.add_zero]

/-- R35: what rounding a magnitude gives, where it does not overflow. -/
theorem fp32_roundMag_eq {rm : Nat} {sat neg : Bool} {m : Nat} {e q : Int} (hm : m ≠ 0) (hq : max (e + Nat.log2 m - 23) (-149) = q)
    (hfin : (q + 149).toNat * 2 ^ 23 + (truncSig m (q - e) + (sigUp rm neg m (q - e)).toNat) < 0x7F800000) :
    fp32.roundMag rm sat neg m e =
      fp32.signBit neg + ((q + 149).toNat * 2 ^ 23 + (truncSig m (q - e) + (sigUp rm neg m (q - e)).toNat)) := by
  obtain ⟨hlt, hfull⟩ := truncSig_full hm e
  rw [hq] at hlt hfull
  have hlo : -149 ≤ q := hq ▸ le_max_right _ _
  have hup := (sigUp rm neg m (q - e)).toNat_le
  have hk : truncSig m (q - e) + (sigUp rm neg m (q - e)).toNat ≤ 2 ^ 24 := by omega
  have hk' : q = -149 ∨ 2 ^ 23 ≤ truncSig m (q - e) + (sigUp rm neg m (q - e)).toNat := by omega
  unfold Fmt.roundMag
  rw [if_neg hm]
  have hlow : (1 : Int) - 127 - 23 = -149 := rfl
  have hmax : fp32.maxExp = 104 := by decide
  have hsig : fp32.maxSig = 2 ^ 24 - 1 := rfl
  have hfrac : fp32.frac = 23 := rfl
  have hbias : fp32.bias = 127 := rfl
  simp only [hlow, hfrac, Nat.cast_ofNat, hmax, hsig, hbias, hq, roundedSig_eq]
  generalize truncSig m (q - e) + (sigUp rm neg m (q - e)).toNat = k at *
  rw [show (2 : Nat) ^ (23 + 1) = 2 ^ 24 by norm_num]
  obtain hcarry | hno := eq_or_ne k (2 ^ 24)
  · rw [if_pos hcarry, if_pos hcarry, if_neg (by omega), if_neg (by omega)]
    omega
  · rw [if_neg hno, if_neg hno, if_neg (by omega)]
    split <;> omega

/-- R35: rounding a magnitude gives the encoding at or below it, or, where the mode rounds up, the next. -/
theorem exists_fp32_roundMag (rm : Nat) (sat neg : Bool) (m : Nat) (e : Int) :
    ∃ a, ∃ up : Bool, fp32Mag a ≤ m * 2 ^ e ∧ (m : ℝ) * 2 ^ e < fp32Mag (a + 1) ∧
      (a + up.toNat < 0x7F800000 → fp32.roundMag rm sat neg m e = fp32.signBit neg + (a + up.toNat)) ∧
      ((m : ℝ) * 2 ^ e = fp32Mag a → up = false) ∧ (rm = 1 → up = false) ∧
      (rm = 3 → neg = false → (m : ℝ) * 2 ^ e ≠ fp32Mag a → up = true) := by
  obtain rfl | hm := eq_or_ne m 0
  · refine ⟨0, false, ?_, ?_, ?_, ?_, ?_, ?_⟩ <;> simp [fp32Mag_zero, Fmt.roundMag]
    exact fp32Mag_zero ▸ fp32Mag_lt_succ 0
  set q := max (e + Nat.log2 m - 23) (-149) with hq
  set k := truncSig m (q - e) with hk
  obtain ⟨hlt, hfull⟩ := truncSig_full hm e
  rw [← hq, ← hk] at hlt hfull
  obtain ⟨hle, hgt⟩ := truncSig_bounds m (q - e)
  have hstep : (((q + 149).toNat : ℤ) - 149) = q := by
    have : -149 ≤ q := le_max_right _ _
    omega
  have hscale : ∀ x : ℝ, x * 2 ^ (q - e) * 2 ^ e = x * 2 ^ q := fun x => by
    rw [mul_assoc, ← zpow_add₀ two_ne_zero, sub_add_cancel]
  have hmag : fp32Mag ((q + 149).toNat * 2 ^ 23 + k) = k * 2 ^ (q - e) * 2 ^ e := by
    rw [fp32Mag_parts hlt.le (by omega), hstep, hscale]
  have hexact : (m : ℝ) * 2 ^ e = k * 2 ^ (q - e) * 2 ^ e ↔ (m : ℝ) = k * 2 ^ (q - e) :=
    mul_left_inj' (by positivity)
  refine ⟨(q + 149).toNat * 2 ^ 23 + k, sigUp rm neg m (q - e), ?_, ?_, ?_, ?_, ?_, ?_⟩
  · rw [hmag]
    gcongr
  · rw [add_assoc, fp32Mag_parts (by omega) (by omega), hstep, ← hscale]
    push_cast
    gcongr
  · rw [add_assoc]
    exact fp32_roundMag_eq hm hq.symm
  · rw [hmag, hexact]
    exact fun h => sigUp_of_exact h rm neg
  · rintro rfl
    exact sigUp_down neg m _
  · rintro rfl rfl
    rw [hmag, Ne, hexact]
    exact sigUp_up

theorem fp32Mag_infinity : fp32Mag 0x7F800000 = 2 ^ (128 : ℤ) := by
  rw [show (0x7F800000 : ℕ) = 254 * 2 ^ 23 + 2 ^ 23 by norm_num, fp32Mag_parts (by norm_num) (.inr le_rfl)]
  norm_num

theorem fp32Mag_max_lt : fp32Mag 0x7F7FFFFF < 2 ^ (128 : ℤ) := by
  rw [← fp32Mag_infinity]
  exact fp32Mag_strictMono (by norm_num)

/-- R35: rounding toward zero. -/
theorem fp32_roundMag_down (sat : Bool) {m : Nat} {e : Int} (h : (m : ℝ) * 2 ^ e < 2 ^ (128 : ℤ)) :
    fp32Mag (fp32.roundMag 1 sat false m e) ≤ m * 2 ^ e ∧ (m : ℝ) * 2 ^ e < fp32Mag (fp32.roundMag 1 sat false m e + 1) := by
  obtain ⟨a, up, hle, hlt, hround, -, hdown, -⟩ := exists_fp32_roundMag 1 sat false m e
  obtain rfl := hdown rfl
  have ha : a < 0x7F800000 := fp32Mag_strictMono.lt_iff_lt.1 (fp32Mag_infinity ▸ hle.trans_lt h)
  have hround := hround ha
  rw [fp32_signBit, if_neg Bool.false_ne_true, Nat.zero_add, Bool.toNat_false, Nat.add_zero] at hround
  rw [hround]
  exact ⟨hle, hlt⟩

/-- R35: rounding up. -/
theorem fp32_roundMag_up (sat : Bool) {m : Nat} {e : Int} (h : (m : ℝ) * 2 ^ e ≤ fp32Mag 0x7F7FFFFF) :
    (m : ℝ) * 2 ^ e ≤ fp32Mag (fp32.roundMag 3 sat false m e) ∧ ∀ k < fp32.roundMag 3 sat false m e, fp32Mag k < m * 2 ^ e := by
  obtain ⟨a, up, hle, hlt, hround, hexact, -, hup⟩ := exists_fp32_roundMag 3 sat false m e
  rw [fp32_signBit, if_neg Bool.false_ne_true, Nat.zero_add] at hround
  obtain heq | hne := eq_or_ne ((m : ℝ) * 2 ^ e) (fp32Mag a)
  · obtain rfl := hexact heq
    rw [heq] at h
    rw [Bool.toNat_false, Nat.add_zero] at hround
    have ha := fp32Mag_strictMono.le_iff_le.1 h
    rw [hround (by omega), heq]
    exact ⟨le_rfl, fun k hk => fp32Mag_strictMono hk⟩
  · obtain rfl := hup rfl rfl hne
    have hlow : fp32Mag a < m * 2 ^ e := lt_of_le_of_ne hle hne.symm
    have ha := fp32Mag_strictMono.lt_iff_lt.1 (hlow.trans_le h)
    rw [Bool.toNat_true] at hround
    rw [hround (by omega)]
    exact ⟨hlt.le, fun k hk => (fp32Mag_strictMono.monotone (by omega)).trans_lt hlow⟩

/-- R35: a value that FP32 holds is rounded to its encoding in every mode. -/
theorem fp32_roundMag_exact (rm : Nat) (sat neg : Bool) {m n : Nat} {e : Int} (hn : n < 0x7F800000)
    (h : (m : ℝ) * 2 ^ e = fp32Mag n) : fp32.roundMag rm sat neg m e = fp32.signBit neg + n := by
  obtain ⟨a, up, hle, hlt, hround, hexact, -, -⟩ := exists_fp32_roundMag rm sat neg m e
  rw [h] at hle hlt
  obtain rfl : n = a := by
    have := fp32Mag_strictMono.le_iff_le.1 hle
    have := fp32Mag_strictMono.lt_iff_lt.1 hlt
    omega
  obtain rfl := hexact h
  exact hround hn

/-! ### The faithful choice -/

/-- An enclosure holds a number: strictly between its ends, or it is both ends. -/
def Enclosure.Holds (c : Enclosure) (y : ℝ) : Prop :=
  ((c.lo : ℝ) * 2 ^ c.e < y ∧ y < c.hi * 2 ^ c.e) ∨ (c.lo = c.hi ∧ y = c.lo * 2 ^ c.e)

/-- An enclosure is so narrow that at most one encoding lies between its ends. -/
def Enclosure.Narrow (c : Enclosure) : Prop := c.hi * 2 ^ 24 ≤ c.lo * (2 ^ 24 + 1)

/-- R46: a faithful function returns one of the two encodings next to each other that its enclosure is rounded to, or the one between
them. -/
theorem faithful_cases {fn : FaithfulFn} {sat neg : Bool} {c : Enclosure} {branch : Nat} {mag : Int} {rising : Bool} {a b : Nat}
    (ha : fp32.roundMag 1 sat false c.lo c.e = a) (hb : fp32.roundMag 3 sat false c.hi c.e = b) :
    ∃ r, faithful fn sat neg c branch mag rising = fp32.signBit neg + r ∧
      ((r = a ∧ b ≤ a + 1) ∨ (r = b ∧ b = a + 1) ∨ (r = a + 1 ∧ a + 1 < b)) := by
  simp only [faithful, ha, hb]
  refine ⟨_, rfl, ?_⟩
  obtain hle | hlt := Nat.lt_or_ge a b
  swap
  · exact .inl ⟨if_pos hlt, by omega⟩
  rw [if_neg (by omega)]
  obtain hfar | hnext := Nat.lt_or_ge (a + 1) b
  · exact .inr (.inr ⟨if_pos hfar, hfar⟩)
  rw [if_neg (by omega)]
  have heither (upper : Bool) : (if upper then b else a) = a ∧ b ≤ a + 1 ∨ (if upper then b else a) = b ∧ b = a + 1 ∨
      (if upper then b else a) = a + 1 ∧ a + 1 < b := by
    cases upper
    · exact .inl ⟨rfl, hnext⟩
    · exact .inr (.inl ⟨rfl, by omega⟩)
  exact heither _

/-- R46: the choice from a narrow enclosure of a magnitude is next to it. -/
theorem faithful_adjacent {c : Enclosure} {y : ℝ} (hy : c.Holds y) (hn : c.Narrow) (hmax : (c.hi : ℝ) * 2 ^ c.e ≤ fp32Mag 0x7F7FFFFF)
    (fn : FaithfulFn) (sat neg : Bool) (branch : Nat) (mag : Int) (rising : Bool) :
    ∃ r, faithful fn sat neg c branch mag rising = fp32.signBit neg + r ∧ Adjacent y r := by
  have hpos : (0 : ℝ) < 2 ^ c.e := by positivity
  have horder : (c.lo : ℝ) * 2 ^ c.e ≤ c.hi * 2 ^ c.e := by
    obtain ⟨h1, h2⟩ | ⟨h1, -⟩ := hy
    · exact (h1.trans h2).le
    · rw [h1]
  obtain ⟨hle, hlt⟩ := fp32_roundMag_down sat (m := c.lo) (e := c.e) ((horder.trans hmax).trans_lt fp32Mag_max_lt)
  obtain ⟨hge, hgt⟩ := fp32_roundMag_up sat hmax
  obtain ⟨r, hr, hcases⟩ := faithful_cases (fn := fn) (sat := sat) (neg := neg) (c := c) (branch := branch) (mag := mag)
    (rising := rising) rfl rfl
  refine ⟨r, hr, ?_⟩
  generalize fp32.roundMag 1 sat false c.lo c.e = a at hle hlt hcases
  generalize fp32.roundMag 3 sat false c.hi c.e = b at hge hgt hcases
  have hbmax : b ≤ 0x7F7FFFFF := by
    by_contra hcon
    exact absurd (hgt 0x7F7FFFFF (by omega)) (not_lt.2 hmax)
  have hab : a ≤ b := fp32Mag_strictMono.le_iff_le.1 ((hle.trans horder).trans hge)
  have hba : b ≤ a + 2 := by
    by_contra hcon
    have hn' : (c.hi : ℝ) * 2 ^ 24 ≤ c.lo * (2 ^ 24 + 1) := by exact_mod_cast hn
    have hscaled : (c.hi : ℝ) * 2 ^ c.e * 2 ^ 24 ≤ c.lo * 2 ^ c.e * (2 ^ 24 + 1) := by
      rw [mul_right_comm, mul_right_comm (c.lo : ℝ)]
      gcongr
    linarith [hgt (a + 2) (by omega), fp32Mag_gap (a + 1)]
  have hr : a ≤ r ∧ r ≤ b ∧ r ≤ a + 1 ∧ b ≤ r + 1 := by omega
  obtain ⟨har, hrb, hra, hbr⟩ := hr
  refine ⟨by omega, ?_, fun k hk => ?_⟩
  · obtain ⟨-, h⟩ | ⟨h, h'⟩ := hy
    · exact (h.trans_le hge).trans_le (fp32Mag_strictMono.monotone hbr)
    · exact h' ▸ hlt.trans_le (fp32Mag_strictMono.monotone (by omega))
  · obtain ⟨h, -⟩ | ⟨h, h'⟩ := hy
    · exact (fp32Mag_strictMono.monotone (by omega)).trans_lt (hle.trans_lt h)
    · exact (hgt k (by omega)).trans_eq (by rw [h', h])

end Sys2Proof.Machine
end

section
/-! The series by which the special functions are enclosed (R46, R322): each is within a few units of the real function. -/

namespace Sys2Proof.Machine

/-! ### The floor of a quotient, as a real number -/

theorem natDiv_le_cast (a b : Nat) : ((a / b : ℕ) : ℝ) ≤ a / b := Nat.cast_div_le

theorem cast_lt_natDiv_add_one (a : Nat) {b : Nat} (hb : 0 < b) : (a : ℝ) / b < (a / b : ℕ) + 1 := by
  rw [div_lt_iff₀ (by exact_mod_cast hb)]
  exact_mod_cast Nat.lt_mul_of_div_lt (Nat.lt_succ_self _) hb

theorem abs_intDiv_sub_le (a : Int) {b : Nat} (hb : 0 < b) : |((a / (b : ℤ) : ℤ) : ℝ) - a / b| ≤ 1 := by
  have hb' : (0 : ℝ) < b := by exact_mod_cast hb
  have hlow : ((a / (b : ℤ) : ℤ) : ℝ) * b ≤ a := by exact_mod_cast Int.ediv_mul_le a (by omega)
  have hhigh : (a : ℝ) < ((a / (b : ℤ) : ℤ) + 1) * b := by exact_mod_cast Int.lt_ediv_add_one_mul_self a (by omega)
  rw [abs_le, neg_le_sub_iff_le_add, sub_le_iff_le_add]
  constructor
  · rw [div_le_iff₀ hb']
    exact hhigh.le
  · have : ((a / (b : ℤ) : ℤ) : ℝ) ≤ a / b := (le_div_iff₀ hb').2 hlow
    linarith

/-- A sum of consecutive terms from one on is that term and the sum from the next on. -/
theorem sum_range_from (f : Nat → ℝ) (n k : Nat) :
    ∑ j ∈ Finset.range (k + 1), f (n + j) = f n + ∑ j ∈ Finset.range k, f (n + 1 + j) := by
  rw [Finset.sum_range_succ', add_comm, Nat.add_zero]
  exact congrArg (f n + ·) (Finset.sum_congr rfl fun j _ => congrArg f (by omega))

/-! ### The exponential series -/

/-- The term of the exponential series with an index. -/
noncomputable def expTerm (x : ℝ) (n : Nat) : ℝ := x ^ n / n.factorial

theorem expTerm_zero (x : ℝ) : expTerm x 0 = 1 := by simp [expTerm]

theorem expTerm_one (x : ℝ) : expTerm x 1 = x := by simp [expTerm]

theorem expTerm_succ (x : ℝ) (n : Nat) : expTerm x (n + 1) = expTerm x n * (x / (n + 1)) := by
  rw [expTerm, expTerm, Nat.factorial_succ, pow_succ]
  push_cast
  field_simp

theorem expTerm_nonneg {x : ℝ} (hx : 0 ≤ x) (n : Nat) : 0 ≤ expTerm x n := by unfold expTerm; positivity

section
variable {p y : Nat} {x : ℝ} (hy : (y : ℝ) = 2 ^ p * x)
include hy

theorem expTerms_step_cast (n t : Nat) : ((t * y : ℕ) : ℝ) / (2 ^ p * (n + 1) : ℕ) = t * (x / (n + 1)) := by
  push_cast
  rw [hy]
  field_simp

/-- The terms of the series, rounded down, add up to at most its sum. -/
theorem expTerms_le (hx : 0 ≤ x) (fuel : Nat) : ∀ n t : Nat, (t : ℝ) ≤ 2 ^ p * expTerm x n →
    (expTerms p y fuel n t : ℝ) ≤ 2 ^ p * ∑ j ∈ Finset.range fuel, expTerm x (n + j) := by
  induction fuel with
  | zero => intro n t _; simp [expTerms]
  | succ fuel ih =>
    intro n t ht
    have hnext : ((t * y / (2 ^ p * (n + 1)) : ℕ) : ℝ) ≤ 2 ^ p * expTerm x (n + 1) := calc
      ((t * y / (2 ^ p * (n + 1)) : ℕ) : ℝ) ≤ t * (x / (n + 1)) := expTerms_step_cast hy n t ▸ natDiv_le_cast _ _
      _ ≤ 2 ^ p * expTerm x n * (x / (n + 1)) := by gcongr
      _ = _ := by rw [expTerm_succ, mul_assoc]
    rw [sum_range_from, mul_add, expTerms, Nat.cast_add]
    exact add_le_add ht (ih _ _ hnext)

/-- Each of its terms loses at most two units. -/
theorem sum_le_expTerms (hx : 0 ≤ x) (hx1 : x ≤ 1) (fuel : Nat) : ∀ n t : Nat, 0 < n → 2 ^ p * expTerm x n ≤ t + 2 →
    2 ^ p * ∑ j ∈ Finset.range fuel, expTerm x (n + j) ≤ expTerms p y fuel n t + 2 * fuel := by
  induction fuel with
  | zero => intro n t _ _; simp [expTerms]
  | succ fuel ih =>
    intro n t hn ht
    have hn' : (1 : ℝ) ≤ n := by exact_mod_cast hn
    have hhalf : x / (n + 1) ≤ 1 / 2 := by
      rw [div_le_div_iff₀ (by positivity) (by norm_num)]
      linarith
    have hnext : 2 ^ p * expTerm x (n + 1) ≤ ((t * y / (2 ^ p * (n + 1)) : ℕ) : ℝ) + 2 := calc
      2 ^ p * expTerm x (n + 1) = 2 ^ p * expTerm x n * (x / (n + 1)) := by rw [expTerm_succ, mul_assoc]
      _ ≤ (t + 2) * (x / (n + 1)) := by gcongr
      _ ≤ t * (x / (n + 1)) + 1 := by linarith
      _ ≤ _ := by
        have := cast_lt_natDiv_add_one (t * y) (b := 2 ^ p * (n + 1)) (by positivity)
        rw [expTerms_step_cast hy] at this
        linarith
    rw [sum_range_from, mul_add, expTerms]
    push_cast
    linarith [ih _ _ n.succ_pos hnext]

/-- The series from its first term on encloses the exponential, where the terms left out are below one unit. -/
theorem expTerms_bounds (hx : 0 ≤ x) (hx1 : x ≤ 1) {fuel : Nat} (hfuel : 2 ^ p * 2 ≤ (fuel + 1).factorial) :
    (expTerms p y (fuel + 1) 0 (2 ^ p) : ℝ) ≤ 2 ^ p * Real.exp x ∧
      2 ^ p * Real.exp x ≤ expTerms p y (fuel + 1) 0 (2 ^ p) + 2 * fuel + 1 := by
  constructor
  · refine (expTerms_le hy hx (fuel + 1) 0 (2 ^ p) (by simp [expTerm_zero])).trans ?_
    simp only [zero_add]
    gcongr
    exact Real.sum_le_exp_of_nonneg hx _
  · have hfirst : expTerms p y (fuel + 1) 0 (2 ^ p) = 2 ^ p + expTerms p y fuel 1 y := by simp [expTerms]
    have hrest := sum_le_expTerms hy hx hx1 fuel 1 y one_pos (by rw [expTerm_one, hy]; linarith)
    have hf : (2 ^ p * 2 : ℝ) ≤ (fuel + 1).factorial := by exact_mod_cast hfuel
    have htail : 2 ^ p * (x ^ (fuel + 1) * ((fuel + 1 : ℕ) + 1) / ((fuel + 1).factorial * (fuel + 1 : ℕ))) ≤ 1 := by
      rw [mul_div_assoc', div_le_one (by positivity)]
      calc 2 ^ p * (x ^ (fuel + 1) * ((fuel + 1 : ℕ) + 1)) ≤ 2 ^ p * (1 * (2 * (fuel + 1 : ℕ))) := by
            gcongr
            · exact pow_le_one₀ hx hx1
            · push_cast
              linarith [(Nat.cast_nonneg fuel : (0 : ℝ) ≤ fuel)]
        _ = 2 ^ p * 2 * (fuel + 1 : ℕ) := by ring
        _ ≤ _ := by gcongr
    have hsum : ∑ j ∈ Finset.range (fuel + 1), x ^ j / j.factorial = 1 + ∑ j ∈ Finset.range fuel, expTerm x (1 + j) := by
      have := sum_range_from (expTerm x) 0 fuel
      simp only [zero_add, expTerm_zero] at this
      exact this
    have hexp := Real.exp_bound' hx hx1 fuel.succ_pos
    rw [Nat.succ_eq_add_one, hsum] at hexp
    have hscaled := mul_le_mul_of_nonneg_left hexp (pow_nonneg zero_le_two p : (0 : ℝ) ≤ 2 ^ p)
    rw [mul_add, mul_add] at hscaled
    rw [hfirst]
    push_cast at hrest hscaled htail ⊢
    linarith

end

/-! ### The logarithm's series -/

/-- The term of the series of half the logarithm of (1 + z) / (1 − z) with an index. -/
noncomputable def atanhTerm (z : ℝ) (n : Nat) : ℝ := z ^ (2 * n + 1) / (2 * n + 1)

theorem logTerms_le (p q : Nat) {z : ℝ} (hz : 0 ≤ z) (hq : (q : ℝ) ≤ 2 ^ p * z ^ 2) (fuel : Nat) : ∀ n t : Nat,
    (t : ℝ) ≤ 2 ^ p * z ^ (2 * n + 1) →
    (logTerms p q fuel n t : ℝ) ≤ 2 ^ p * ∑ j ∈ Finset.range fuel, atanhTerm z (n + j) := by
  induction fuel with
  | zero => intro n t _; simp [logTerms]
  | succ fuel ih =>
    intro n t ht
    have hnext : ((t * q / 2 ^ p : ℕ) : ℝ) ≤ 2 ^ p * z ^ (2 * (n + 1) + 1) := calc
      ((t * q / 2 ^ p : ℕ) : ℝ) ≤ (t * q : ℕ) / (2 ^ p : ℕ) := natDiv_le_cast _ _
      _ = t * q / 2 ^ p := by push_cast; rfl
      _ ≤ 2 ^ p * z ^ (2 * n + 1) * (2 ^ p * z ^ 2) / 2 ^ p := by gcongr
      _ = _ := by field_simp; ring
    have hterm : ((t / (2 * n + 1) : ℕ) : ℝ) ≤ 2 ^ p * atanhTerm z n := calc
      ((t / (2 * n + 1) : ℕ) : ℝ) ≤ t / (2 * n + 1 : ℕ) := natDiv_le_cast _ _
      _ ≤ 2 ^ p * z ^ (2 * n + 1) / (2 * n + 1 : ℕ) := by gcongr
      _ = _ := by unfold atanhTerm; push_cast; ring
    rw [sum_range_from (atanhTerm z), mul_add, logTerms, Nat.cast_add]
    exact add_le_add hterm (ih _ _ hnext)

theorem sum_le_logTerms (p q : Nat) {z : ℝ} (hz : 0 ≤ z) (hz3 : z ≤ 1 / 3) (hq : 2 ^ p * z ^ 2 ≤ q + 2) (fuel : Nat) : ∀ n t : Nat,
    (t : ℝ) ≤ 2 ^ p * z ^ (2 * n + 1) → 2 ^ p * z ^ (2 * n + 1) ≤ t + 2 → (q : ℝ) ≤ 2 ^ p * z ^ 2 →
    2 ^ p * ∑ j ∈ Finset.range fuel, atanhTerm z (n + j) ≤ logTerms p q fuel n t + 3 * fuel := by
  induction fuel with
  | zero => intro n t _ _ _; simp [logTerms]
  | succ fuel ih =>
    intro n t hle ht hq'
    have hsq : z ^ 2 ≤ 1 / 9 := by nlinarith
    have hpos : (0 : ℝ) < 2 ^ p := by positivity
    have htz : (t : ℝ) / 2 ^ p ≤ 1 / 3 := by
      rw [div_le_iff₀ hpos]
      have : z ^ (2 * n + 1) ≤ 1 / 3 := calc
        z ^ (2 * n + 1) ≤ z ^ 1 := pow_le_pow_of_le_one hz (by linarith) (by omega)
        _ ≤ 1 / 3 := by linarith
      nlinarith
    have hcast : ((t * q : ℕ) : ℝ) / (2 ^ p : ℕ) = t / 2 ^ p * q := by push_cast; field_simp
    have hup : ((t * q / 2 ^ p : ℕ) : ℝ) ≤ 2 ^ p * z ^ (2 * (n + 1) + 1) := calc
      ((t * q / 2 ^ p : ℕ) : ℝ) ≤ (t * q : ℕ) / (2 ^ p : ℕ) := natDiv_le_cast _ _
      _ = t / 2 ^ p * q := hcast
      _ ≤ 2 ^ p * z ^ (2 * n + 1) / 2 ^ p * (2 ^ p * z ^ 2) := by gcongr
      _ = _ := by field_simp; ring
    have hnext : 2 ^ p * z ^ (2 * (n + 1) + 1) ≤ ((t * q / 2 ^ p : ℕ) : ℝ) + 2 := calc
      2 ^ p * z ^ (2 * (n + 1) + 1) = 2 ^ p * z ^ (2 * n + 1) * z ^ 2 := by ring
      _ ≤ (t + 2) * z ^ 2 := by gcongr
      _ = t / 2 ^ p * (2 ^ p * z ^ 2) + 2 * z ^ 2 := by field_simp
      _ ≤ t / 2 ^ p * (q + 2) + 2 * z ^ 2 := by gcongr
      _ ≤ (t * q : ℕ) / (2 ^ p : ℕ) + 1 := by rw [hcast]; linarith
      _ ≤ _ := by linarith [cast_lt_natDiv_add_one (t * q) (b := 2 ^ p) (by positivity)]
    have hterm : 2 ^ p * atanhTerm z n ≤ ((t / (2 * n + 1) : ℕ) : ℝ) + 3 := calc
      2 ^ p * atanhTerm z n = 2 ^ p * z ^ (2 * n + 1) / (2 * n + 1) := by unfold atanhTerm; ring
      _ ≤ (t + 2) / (2 * n + 1) := by gcongr
      _ = t / (2 * n + 1 : ℕ) + 2 / (2 * n + 1) := by push_cast; ring
      _ ≤ t / (2 * n + 1 : ℕ) + 2 := by
          gcongr
          exact div_le_self (by norm_num) (by linarith [(Nat.cast_nonneg n : (0 : ℝ) ≤ n)])
      _ ≤ _ := by linarith [cast_lt_natDiv_add_one t (b := 2 * n + 1) (by positivity)]
    rw [sum_range_from (atanhTerm z), mul_add, logTerms]
    push_cast
    linarith [ih _ _ hup hnext hq']

/-- The series at `a / b`, at most a third, encloses the logarithm of `(b + a) / (b - a)`. -/
theorem logTerms_bounds {a b z : Nat} (hb : 0 < b) (hab : 3 * a ≤ b) (hz : z = a * 2 ^ 192 / b) :
    (2 * logTerms 192 (z * z / 2 ^ 192) 64 0 z : ℝ) ≤ 2 ^ 192 * Real.log ((b + a) / (b - a)) ∧
      2 ^ 192 * Real.log ((b + a) / (b - a)) < 2 * logTerms 192 (z * z / 2 ^ 192) 64 0 z + 999 := by
  set x : ℝ := a / b with hx
  have hb' : (0 : ℝ) < b := by exact_mod_cast hb
  have hx0 : 0 ≤ x := by positivity
  have hx3 : x ≤ 1 / 3 := by
    rw [hx, div_le_iff₀ hb']
    have : (3 * a : ℝ) ≤ b := by exact_mod_cast hab
    linarith
  have hratio : (1 + x) / (1 - x) = ((b : ℝ) + a) / (b - a) := by
    rw [hx]
    have : (b : ℝ) - a ≠ 0 := by
      have : (3 * a : ℝ) ≤ b := by exact_mod_cast hab
      intro h
      linarith
    field_simp
  have hscale : ((a * 2 ^ 192 : ℕ) : ℝ) / b = 2 ^ 192 * x := by rw [hx]; push_cast; ring
  have hzle : (z : ℝ) ≤ 2 ^ 192 * x := by
    rw [hz, ← hscale]
    exact natDiv_le_cast _ _
  have hzlt : 2 ^ 192 * x < z + 1 := by
    rw [hz, ← hscale]
    exact cast_lt_natDiv_add_one _ hb
  have hq : ((z * z / 2 ^ 192 : ℕ) : ℝ) ≤ 2 ^ 192 * x ^ 2 := calc
    ((z * z / 2 ^ 192 : ℕ) : ℝ) ≤ (z * z : ℕ) / (2 ^ 192 : ℕ) := natDiv_le_cast _ _
    _ = z * z / 2 ^ 192 := by push_cast; ring
    _ ≤ 2 ^ 192 * x * (2 ^ 192 * x) / 2 ^ 192 := by gcongr
    _ = _ := by field_simp
  have hq' : 2 ^ 192 * x ^ 2 ≤ ((z * z / 2 ^ 192 : ℕ) : ℝ) + 2 := by
    have h1 := cast_lt_natDiv_add_one (z * z) (b := 2 ^ 192) (by positivity)
    have h2 : 2 ^ 192 * x ^ 2 ≤ ((z * z : ℕ) : ℝ) / (2 ^ 192 : ℕ) + 1 := calc
      2 ^ 192 * x ^ 2 = (2 ^ 192 * x) * (2 ^ 192 * x) / 2 ^ 192 := by field_simp
      _ ≤ ((z : ℝ) + 1) * (z + 1) / 2 ^ 192 := by gcongr
      _ = (z * z : ℕ) / (2 ^ 192 : ℕ) + (2 * z + 1) / 2 ^ 192 := by push_cast; ring
      _ ≤ _ := by
          gcongr
          rw [div_le_one (by positivity)]
          linarith
    linarith
  have hle := logTerms_le 192 (z * z / 2 ^ 192) hx0 hq 64 0 z (by simpa using hzle)
  have hge := sum_le_logTerms 192 (z * z / 2 ^ 192) hx0 hx3 hq' 64 0 z (by simpa using hzle) (by simpa using by linarith) hq
  have hlog := Real.sum_range_le_log_div hx0 (by linarith) 64
  have hlog' := Real.log_div_le_sum_range_add hx0 (by linarith) 64
  have htail : (2 : ℝ) ^ 192 * (x ^ (2 * 64 + 1) / (1 - x ^ 2)) ≤ 1 := by
    have hsq : x ^ 2 ≤ 1 / 9 := by nlinarith
    have hpow : x ^ 129 ≤ (1 / 3) ^ 129 := by gcongr
    rw [mul_div_assoc', div_le_one (by linarith)]
    calc (2 : ℝ) ^ 192 * x ^ (2 * 64 + 1) ≤ 2 ^ 192 * (1 / 3) ^ 129 := by gcongr
      _ ≤ 8 / 9 := by norm_num
      _ ≤ _ := by linarith
  simp only [zero_add, atanhTerm] at hle hge
  rw [← hratio]
  constructor <;> linarith

/-- ln 2 to 128 places: the constant of `ln2Fixed`. -/
theorem ln2Fixed_bounds : (ln2Fixed : ℝ) < 2 ^ 128 * Real.log 2 ∧ 2 ^ 128 * Real.log 2 < ln2Fixed + 1 := by
  have h := logTerms_bounds (a := 1) (b := 3) (by norm_num) (by norm_num) rfl
  have hlow : ln2Fixed * 2 ^ 64 < 2 * logTerms 192 (1 * 2 ^ 192 / 3 * (1 * 2 ^ 192 / 3) / 2 ^ 192) 64 0 (1 * 2 ^ 192 / 3) := by
    decide +kernel
  have hhigh : 2 * logTerms 192 (1 * 2 ^ 192 / 3 * (1 * 2 ^ 192 / 3) / 2 ^ 192) 64 0 (1 * 2 ^ 192 / 3) + 999 < (ln2Fixed + 1) * 2 ^ 64 := by
    decide +kernel
  generalize logTerms 192 (1 * 2 ^ 192 / 3 * (1 * 2 ^ 192 / 3) / 2 ^ 192) 64 0 (1 * 2 ^ 192 / 3) = s at *
  have hlow' : (ln2Fixed : ℝ) * 2 ^ 64 < 2 * s := by exact_mod_cast hlow
  have hhigh' : (2 * s + 999 : ℝ) < (ln2Fixed + 1) * 2 ^ 64 := by exact_mod_cast hhigh
  rw [show ((3 : ℕ) + (1 : ℕ) : ℝ) / ((3 : ℕ) - (1 : ℕ)) = 2 by norm_num] at h
  constructor <;> linarith

end Sys2Proof.Machine
end

section
/-! The series of sine and cosine (R46). -/

namespace Sys2Proof.Machine

/-! ### Partial sums of the real series -/

/-- The partial sum of an alternating series of every second exponential term, from an index on. -/
noncomputable def alternating (x : ℝ) (n fuel : Nat) : ℝ := ∑ j ∈ Finset.range fuel, (-1) ^ j * expTerm x (n + 2 * j)

theorem alternating_zero (x : ℝ) (n : Nat) : alternating x n 0 = 0 := rfl

theorem alternating_succ (x : ℝ) (n fuel : Nat) : alternating x n (fuel + 1) = expTerm x n - alternating x (n + 2) fuel := by
  rw [alternating, alternating, Finset.sum_range_succ', add_comm, sub_eq_add_neg, ← Finset.sum_neg_distrib]
  congr 1
  · simp
  · refine Finset.sum_congr rfl fun j _ => ?_
    rw [show n + 2 * (j + 1) = n + 2 + 2 * j by ring]
    ring

/-- The exponential series of an imaginary number is the series of the cosine and the sine. -/
theorem imaginary_series (x : ℝ) (n : Nat) :
    ∑ m ∈ Finset.range (2 * n), ((x : ℂ) * Complex.I) ^ m / m.factorial =
      (alternating x 0 n : ℂ) + (alternating x 1 n : ℂ) * Complex.I := by
  induction n with
  | zero => simp [alternating_zero]
  | succ n ih =>
    have hlast : ∀ i, alternating x i (n + 1) = alternating x i n + (-1) ^ n * expTerm x (i + 2 * n) :=
      fun i => Finset.sum_range_succ _ _
    have hpow : Complex.I ^ (2 * n) = (-1) ^ n := by rw [pow_mul, Complex.I_sq]
    rw [show 2 * (n + 1) = 2 * n + 1 + 1 by ring, Finset.sum_range_succ, Finset.sum_range_succ, ih, hlast, hlast, mul_pow, mul_pow,
      pow_succ Complex.I, hpow, add_comm 1, zero_add, expTerm, expTerm]
    push_cast
    ring

/-- Where the first term left out is small, so is what the partial sums lack. -/
theorem trig_series_bound {x : ℝ} {n : Nat} (hx : 0 ≤ x) (hn : x ≤ n) :
    |Real.cos x - alternating x 0 n| ≤ expTerm x (2 * n) * 2 ∧ |Real.sin x - alternating x 1 n| ≤ expTerm x (2 * n) * 2 := by
  have hnorm : ‖(x : ℂ) * Complex.I‖ = x := by simp [abs_of_nonneg hx]
  have hbound := Complex.exp_bound' (x := (x : ℂ) * Complex.I) (n := 2 * n) (by
    rw [hnorm, div_le_div_iff₀ (by positivity) (by norm_num)]
    push_cast
    linarith)
  rw [imaginary_series, Complex.exp_mul_I, hnorm] at hbound
  have hre : (Complex.cos x + Complex.sin x * Complex.I - ((alternating x 0 n : ℂ) + (alternating x 1 n : ℂ) * Complex.I)) =
      ((Real.cos x - alternating x 0 n : ℝ) : ℂ) + ((Real.sin x - alternating x 1 n : ℝ) : ℂ) * Complex.I := by
    push_cast
    ring
  have hparts (u v : ℝ) : |u| ≤ ‖(u : ℂ) + v * Complex.I‖ ∧ |v| ≤ ‖(u : ℂ) + v * Complex.I‖ := by
    constructor
    · simpa using Complex.abs_re_le_norm (u + v * Complex.I)
    · simpa using Complex.abs_im_le_norm (u + v * Complex.I)
  rw [hre] at hbound
  exact ⟨(hparts _ _).1.trans hbound, (hparts _ _).2.trans hbound⟩

/-! ### The model's series -/

section
variable {p y : Nat} {x : ℝ} (hy : (y : ℝ) = 2 ^ p * x)
include hy

/-- The next term is the exact one's within a share of this one's error, and one more unit for its rounding. -/
theorem trigTerms_step (n : Nat) (t : Int) (T : ℝ) :
    |((-(t * y * y / ((2 ^ (2 * p) * ((n + 1) * (n + 2)) : ℕ) : ℤ)) : ℤ) : ℝ) - -(T * (x ^ 2 / ((n + 1) * (n + 2))))| ≤
      |t - T| * (x ^ 2 / ((n + 1) * (n + 2))) + 1 := by
  have hpos : 0 < 2 ^ (2 * p) * ((n + 1) * (n + 2)) := by positivity
  have hdiv := abs_intDiv_sub_le (t * y * y) hpos
  have hexact : ((t * y * y : ℤ) : ℝ) / (2 ^ (2 * p) * ((n + 1) * (n + 2)) : ℕ) = t * (x ^ 2 / ((n + 1) * (n + 2))) := by
    push_cast
    rw [hy, pow_mul', sq (2 ^ p : ℝ)]
    field_simp
  rw [hexact] at hdiv
  set c := x ^ 2 / ((n + 1) * (n + 2) : ℝ) with hc
  have hc0 : 0 ≤ c := by positivity
  calc |((-(t * y * y / ((2 ^ (2 * p) * ((n + 1) * (n + 2)) : ℕ) : ℤ)) : ℤ) : ℝ) - -(T * c)|
      = |(((t * y * y / ((2 ^ (2 * p) * ((n + 1) * (n + 2)) : ℕ) : ℤ)) : ℤ) : ℝ) - t * c + (t - T) * c| := by
        rw [← abs_neg]
        congr 1
        push_cast
        ring
    _ ≤ 1 + |(t - T) * c| := (abs_add_le _ _).trans (by gcongr)
    _ = _ := by rw [abs_mul, abs_of_nonneg hc0, add_comm]

/-- The series is within two units for each of its terms. -/
theorem trigTerms_near (hx : x ^ 2 ≤ 3) (fuel : Nat) : ∀ (n : Nat) (t : Int) (a : ℝ), 0 < n → |t - a * expTerm x n| ≤ 2 →
    |(trigTerms p y fuel n t : ℝ) - a * alternating x n fuel| ≤ 2 * fuel := by
  induction fuel with
  | zero => intro n t a _ _; simp [trigTerms, alternating_zero]
  | succ fuel ih =>
    intro n t a hn ht
    have hn' : (1 : ℝ) ≤ n := by exact_mod_cast hn
    have hshare : x ^ 2 / ((n + 1) * (n + 2)) ≤ 1 / 2 := by
      rw [div_le_div_iff₀ (by positivity) (by norm_num)]
      nlinarith
    have hterm : expTerm x (n + 2) = expTerm x n * (x ^ 2 / ((n + 1) * (n + 2))) := by
      rw [expTerm_succ, expTerm_succ]
      push_cast
      field_simp
      ring
    have hnext := trigTerms_step hy n t (a * expTerm x n)
    have hnext' : |((-(t * y * y / ((2 ^ (2 * p) * ((n + 1) * (n + 2)) : ℕ) : ℤ)) : ℤ) : ℝ) - -a * expTerm x (n + 2)| ≤ 2 := by
      rw [hterm, neg_mul, ← mul_assoc a]
      refine hnext.trans ?_
      have : |t - a * expTerm x n| * (x ^ 2 / ((n + 1) * (n + 2))) ≤ 2 * (1 / 2) := by gcongr
      linarith
    have hrest := ih (n + 2) _ (-a) (by omega) hnext'
    rw [trigTerms, alternating_succ]
    set u := trigTerms p y fuel (n + 2) (-(t * y * y / ((2 ^ (2 * p) * ((n + 1) * (n + 2)) : ℕ) : ℤ)))
    calc |((t + u : ℤ) : ℝ) - a * (expTerm x n - alternating x (n + 2) fuel)|
        = |(t - a * expTerm x n) + (u - -a * alternating x (n + 2) fuel)| := by
          congr 1
          push_cast
          ring
      _ ≤ 2 + 2 * fuel := (abs_add_le _ _).trans (add_le_add ht hrest)
      _ = _ := by push_cast; ring

/-- The series of the cosine, whose first term is exact. -/
theorem trigTerms_near_cos (hx : x ^ 2 ≤ 3) (fuel : Nat) :
    |(trigTerms p y (fuel + 1) 0 (2 ^ p) : ℝ) - 2 ^ p * alternating x 0 (fuel + 1)| ≤ 2 * fuel := by
  have hstep := trigTerms_step hy 0 (2 ^ p) (2 ^ p)
  have hexact : (((2 ^ p : ℤ) : ℤ) : ℝ) - 2 ^ p = 0 := by push_cast; ring
  rw [hexact, abs_zero, zero_mul, zero_add] at hstep
  have hterm : expTerm x 2 = x ^ 2 / (((0 : ℕ) + 1) * ((0 : ℕ) + 2)) := by
    rw [expTerm, Nat.factorial_two]
    norm_num
  rw [← hterm, ← neg_mul] at hstep
  have hnear := trigTerms_near hy hx fuel 2 _ (-2 ^ p) two_pos (hstep.trans (by norm_num))
  rw [trigTerms, alternating_succ, expTerm_zero]
  refine le_trans (le_of_eq ?_) hnear
  congr 1
  push_cast
  ring

end

/-- The model's series of the sine and the cosine of a number up to √3, in units of 2⁻²⁵⁶. -/
theorem trigTerms_bounds {y : Nat} {x : ℝ} (hy : (y : ℝ) = 2 ^ 256 * x) (hx : 0 ≤ x) (hx3 : x ^ 2 ≤ 3) :
    |(trigTerms 256 y 64 0 (2 ^ 256) : ℝ) - 2 ^ 256 * Real.cos x| ≤ 130 ∧
      |(trigTerms 256 y 64 1 y : ℝ) - 2 ^ 256 * Real.sin x| ≤ 130 := by
  have hx2 : x ≤ 2 := by nlinarith
  have htail : expTerm x (2 * 64) * 2 ≤ 1 / 2 ^ 256 := by
    have : x ^ (2 * 64) ≤ 2 ^ (2 * 64) := by gcongr
    rw [expTerm, div_mul_eq_mul_div, div_le_div_iff₀ (by positivity) (by positivity)]
    have hfact : (2 ^ (2 * 64) * 2 * 2 ^ 256 : ℝ) ≤ 1 * ((2 * 64).factorial : ℕ) := by
      have : 2 ^ (2 * 64) * 2 * 2 ^ 256 ≤ 1 * (2 * 64).factorial := by decide +kernel
      exact_mod_cast this
    refine le_trans ?_ hfact
    gcongr
  obtain ⟨hcos, hsin⟩ := trig_series_bound (n := 64) hx (by push_cast; linarith)
  have hscale : ∀ {u v : ℝ}, |u - v| ≤ expTerm x (2 * 64) * 2 → |2 ^ 256 * v - 2 ^ 256 * u| ≤ 1 := fun {u v} h => by
    rw [← mul_sub, abs_mul, abs_sub_comm, abs_of_pos (by positivity : (0 : ℝ) < 2 ^ 256)]
    calc (2 : ℝ) ^ 256 * |u - v| ≤ 2 ^ 256 * (1 / 2 ^ 256) := by gcongr; exact h.trans htail
      _ = 1 := by norm_num
  constructor
  · have hnear := trigTerms_near_cos hy hx3 63
    rw [Nat.cast_ofNat] at hnear
    exact (abs_sub_le _ _ _).trans (by linarith [hscale hcos])
  · have hnear := trigTerms_near hy hx3 64 1 y (2 ^ 256) one_pos (by rw [expTerm_one, ← hy]; simp)
    rw [Nat.cast_ofNat] at hnear
    exact (abs_sub_le _ _ _).trans (by linarith [hscale hsin])

end Sys2Proof.Machine
end

section
/-! The enclosures of the special functions hold the true results (R46). -/

namespace Sys2Proof.Machine

/-! ### From an enclosure to the bracketing values -/

theorem fp32Mag_max : fp32Mag 0x7F7FFFFF = (2 ^ 24 - 1) * 2 ^ 104 := by
  rw [show (0x7F7FFFFF : ℕ) = 253 * 2 ^ 23 + (2 ^ 24 - 1) by norm_num, fp32Mag_parts (by norm_num) (.inr (by norm_num))]
  norm_num

theorem Enclosure.Holds.low_le {c : Enclosure} {y : ℝ} (h : c.Holds y) : (c.lo : ℝ) * 2 ^ c.e ≤ y := by
  obtain ⟨h, -⟩ | ⟨-, h⟩ := h
  · exact h.le
  · exact h.ge

theorem Enclosure.Holds.nonneg {c : Enclosure} {y : ℝ} (h : c.Holds y) : 0 ≤ y := le_trans (by positivity) h.low_le

/-- R46: a choice from a narrow enclosure brackets the number that it holds, where that does not overflow. -/
theorem faithful_brackets {c : Enclosure} {y : ℝ} (hy : c.Holds y) (hn : c.Narrow) (hmax : y ≤ 2 ^ 128 * (1 - 1 / 2 ^ 22))
    (fn : FaithfulFn) (sat neg : Bool) (branch : Nat) (mag : Int) (rising : Bool) :
    Brackets (if neg then -y else y) (faithful fn sat neg c branch mag rising) := by
  have hwidth : (c.hi : ℝ) * 2 ^ 24 ≤ c.lo * (2 ^ 24 + 1) := by exact_mod_cast hn
  have hfin : (c.hi : ℝ) * 2 ^ c.e ≤ fp32Mag 0x7F7FFFFF := by
    have : (c.hi : ℝ) * 2 ^ c.e * 2 ^ 24 ≤ c.lo * 2 ^ c.e * (2 ^ 24 + 1) := by
      rw [mul_right_comm, mul_right_comm (c.lo : ℝ)]
      gcongr
    rw [fp32Mag_max]
    linarith [hy.low_le]
  obtain ⟨r, hr, hadj⟩ := faithful_adjacent hy hn hfin fn sat neg branch mag rising
  rw [hr]
  exact hadj.brackets_signed hy.nonneg neg

/-- A number is held by an enclosure with strict bounds on it in the enclosure's unit. -/
theorem Enclosure.holds_of_scaled {c : Enclosure} {u : ℝ} (hlo : (c.lo : ℝ) < u) (hhi : u < c.hi) : c.Holds (u * 2 ^ c.e) := by
  have : (0 : ℝ) < 2 ^ c.e := by positivity
  exact .inl ⟨by gcongr, by gcongr⟩

/-! ### Powers of two -/

/-- A fraction times a constant that is known to `p` places, rounded down twice, is within three units. -/
theorem scaledProduct_bounds {p fm k F : Nat} {L : ℝ} (hF : (F : ℝ) < 2 ^ p * L) (hF' : 2 ^ p * L < F + 1) (hL : L ≤ 1) (h0 : 0 < fm)
    (hk : fm ≤ 2 ^ k) : ((fm * 2 ^ p / 2 ^ k * F / 2 ^ p : ℕ) : ℝ) < 2 ^ p * ((fm : ℝ) / 2 ^ k * L) ∧
      2 ^ p * ((fm : ℝ) / 2 ^ k * L) < ((fm * 2 ^ p / 2 ^ k * F / 2 ^ p : ℕ) : ℝ) + 3 := by
  set f := fm * 2 ^ p / 2 ^ k
  set φ : ℝ := (fm : ℝ) / 2 ^ k with hφ
  have hp : (0 : ℝ) < 2 ^ p := by positivity
  have hφ0 : 0 < φ := by positivity
  have hφ1 : φ ≤ 1 := by
    rw [hφ, div_le_one (by positivity)]
    exact_mod_cast hk
  have hL0 : 0 ≤ L := by
    by_contra hneg
    nlinarith [(Nat.cast_nonneg F : (0 : ℝ) ≤ F)]
  have hscale : ((fm * 2 ^ p : ℕ) : ℝ) / (2 ^ k : ℕ) = 2 ^ p * φ := by rw [hφ]; push_cast; ring
  have hfle : (f : ℝ) ≤ 2 ^ p * φ := hscale ▸ natDiv_le_cast _ _
  have hflt : 2 ^ p * φ < f + 1 := hscale ▸ cast_lt_natDiv_add_one (fm * 2 ^ p) (b := 2 ^ k) (by positivity)
  have hcast : ((f * F : ℕ) : ℝ) / (2 ^ p : ℕ) = f / 2 ^ p * F := by push_cast; ring
  have hyle : ((f * F / 2 ^ p : ℕ) : ℝ) ≤ f / 2 ^ p * F := hcast ▸ natDiv_le_cast _ _
  have hylt : (f : ℝ) / 2 ^ p * F < ((f * F / 2 ^ p : ℕ) : ℝ) + 1 :=
    hcast ▸ cast_lt_natDiv_add_one (f * F) (b := 2 ^ p) (by positivity)
  have hshare : (f : ℝ) / 2 ^ p ≤ φ := by rwa [div_le_iff₀ hp, mul_comm]
  constructor
  · calc ((f * F / 2 ^ p : ℕ) : ℝ) ≤ f / 2 ^ p * F := hyle
      _ ≤ φ * F := by gcongr
      _ < φ * (2 ^ p * L) := by gcongr
      _ = _ := by ring
  · calc 2 ^ p * (φ * L) = 2 ^ p * φ * L := by ring
      _ ≤ (f + 1) * L := by gcongr
      _ = f / 2 ^ p * (2 ^ p * L) + L := by field_simp
      _ ≤ f / 2 ^ p * (F + 1) + 1 := by gcongr
      _ = f / 2 ^ p * F + f / 2 ^ p + 1 := by ring
      _ < _ := by linarith

theorem encloseExp2_eq (i : Int) (fm k : Nat) : encloseExp2 i fm k =
    ⟨expTerms 128 (fm * 2 ^ 128 / 2 ^ k * ln2Fixed / 2 ^ 128) (39 + 1) 0 (2 ^ 128),
      expTerms 128 (fm * 2 ^ 128 / 2 ^ k * ln2Fixed / 2 ^ 128) (39 + 1) 0 (2 ^ 128) + 1000, i - 128⟩ := rfl

/-- The fraction's part of a power of two, in units of 2⁻¹²⁸: the model's series at `f · ln 2`. -/
theorem encloseExp2_bounds {i : Int} {fm k : Nat} (h0 : 0 < fm) (hk : fm < 2 ^ k) :
    2 ^ 128 ≤ (encloseExp2 i fm k).lo ∧ (encloseExp2 i fm k).hi = (encloseExp2 i fm k).lo + 1000 ∧
      ((encloseExp2 i fm k).lo : ℝ) < 2 ^ 128 * (2 : ℝ) ^ ((fm : ℝ) / 2 ^ k) ∧
      2 ^ 128 * (2 : ℝ) ^ ((fm : ℝ) / 2 ^ k) < (encloseExp2 i fm k).hi := by
  have hln1 : Real.log 2 ≤ 1 := by linarith [Real.log_two_lt_d9]
  obtain ⟨hylt, hygt⟩ := scaledProduct_bounds ln2Fixed_bounds.1 ln2Fixed_bounds.2 hln1 h0 hk.le
  obtain ⟨y, hy⟩ : ∃ y, y = fm * 2 ^ 128 / 2 ^ k * ln2Fixed / 2 ^ 128 := ⟨_, rfl⟩
  rw [encloseExp2_eq, ← hy]
  rw [← hy] at hylt hygt
  obtain ⟨φ, hφ⟩ : ∃ φ : ℝ, φ = (fm : ℝ) / 2 ^ k := ⟨_, rfl⟩
  rw [← hφ] at hylt hygt ⊢
  have hφ1 : φ ≤ 1 := by
    rw [hφ, div_le_one (by positivity)]
    exact_mod_cast hk.le
  obtain ⟨x, hx⟩ : ∃ x : ℝ, x = (y : ℝ) / 2 ^ 128 := ⟨_, rfl⟩
  have hyx : (y : ℝ) = 2 ^ 128 * x := by rw [hx]; field_simp
  rw [hyx] at hylt hygt
  have hxlt : x < φ * Real.log 2 := lt_of_mul_lt_mul_left hylt (by positivity)
  have hxgt : φ * Real.log 2 - x < 3 / 2 ^ 128 := by
    rw [lt_div_iff₀ (by positivity)]
    linarith
  have hx0 : 0 ≤ x := by rw [hx]; positivity
  have hx1 : x ≤ 1 := hxlt.le.trans (mul_le_one₀ hφ1 (Real.log_nonneg one_le_two) hln1)
  obtain ⟨hlow, hhigh⟩ := expTerms_bounds hyx hx0 hx1 (fuel := 39) (by decide +kernel)
  have hfirst : 2 ^ 128 ≤ expTerms 128 y (39 + 1) 0 (2 ^ 128) := by
    rw [expTerms]
    exact Nat.le_add_right _ _
  generalize expTerms 128 y (39 + 1) 0 (2 ^ 128) = t at hlow hhigh hfirst ⊢
  have hpow : (2 : ℝ) ^ φ = Real.exp (φ * Real.log 2) := by rw [Real.rpow_def_of_pos two_pos, mul_comm]
  have hpow2 : (2 : ℝ) ^ φ ≤ 2 := by
    calc (2 : ℝ) ^ φ ≤ 2 ^ (1 : ℝ) := Real.rpow_le_rpow_of_exponent_le one_le_two hφ1
      _ = 2 := Real.rpow_one 2
  refine ⟨hfirst, rfl, ?_, ?_⟩
  · rw [hpow]
    refine hlow.trans_lt ?_
    gcongr
  · have hsmall : Real.exp (φ * Real.log 2 - x) ≤ 1 + 2 * (3 / 2 ^ 128) := by
      have hu : |φ * Real.log 2 - x| ≤ 3 / 2 ^ 128 := (abs_of_pos (sub_pos.2 hxlt)).trans_le hxgt.le
      have := (abs_le.1 (Real.abs_exp_sub_one_le (hu.trans (by norm_num)))).2
      linarith
    have hexp : Real.exp (φ * Real.log 2) ≤ Real.exp x + 12 / 2 ^ 128 := by
      have hsplit : Real.exp (φ * Real.log 2) = Real.exp x * Real.exp (φ * Real.log 2 - x) := by
        rw [← Real.exp_add]
        congr 1
        ring
      have hx2 : Real.exp x ≤ 2 := le_trans (Real.exp_le_exp.2 hxlt.le) (hpow ▸ hpow2)
      rw [hsplit]
      calc Real.exp x * Real.exp (φ * Real.log 2 - x) ≤ Real.exp x * (1 + 2 * (3 / 2 ^ 128)) := by gcongr
        _ = Real.exp x + Real.exp x * (6 / 2 ^ 128) := by ring
        _ ≤ Real.exp x + 2 * (6 / 2 ^ 128) := by gcongr
        _ = _ := by ring
    rw [hpow]
    push_cast at hhigh ⊢
    linarith

theorem encloseExp2_narrow {i : Int} {fm k : Nat} (h0 : 0 < fm) (hk : fm < 2 ^ k) : (encloseExp2 i fm k).Narrow := by
  obtain ⟨hlow, hhi, -, -⟩ := encloseExp2_bounds (i := i) h0 hk
  unfold Enclosure.Narrow
  omega

/-- R46: the enclosure of a power of two. -/
theorem encloseExp2_holds {i : Int} {fm k : Nat} (h0 : 0 < fm) (hk : fm < 2 ^ k) :
    (encloseExp2 i fm k).Holds ((2 : ℝ) ^ ((i : ℝ) + (fm : ℝ) / 2 ^ k)) := by
  obtain ⟨-, -, hlo, hhi⟩ := encloseExp2_bounds (i := i) h0 hk
  have he : (encloseExp2 i fm k).e = i - 128 := rfl
  have hscale : (2 : ℝ) ^ ((i : ℝ) + (fm : ℝ) / 2 ^ k) = 2 ^ 128 * (2 : ℝ) ^ ((fm : ℝ) / 2 ^ k) * 2 ^ (encloseExp2 i fm k).e := by
    rw [he, Real.rpow_add two_pos, Real.rpow_intCast, zpow_sub₀ two_ne_zero, zpow_ofNat]
    field_simp
  rw [hscale]
  exact Enclosure.holds_of_scaled hlo hhi

/-! ### Reciprocal square roots -/

/-- The root found from bit `n - 1` down is the integer square root. -/
theorem isqrt_bounds (m n : Nat) : ∀ r, r * r ≤ m → m < (r + 2 ^ n) * (r + 2 ^ n) →
    isqrt m n r * isqrt m n r ≤ m ∧ m < (isqrt m n r + 1) * (isqrt m n r + 1) := by
  induction n with
  | zero => intro r h1 h2; exact ⟨h1, by simpa [isqrt] using h2⟩
  | succ n ih =>
    intro r h1 h2
    rw [isqrt]
    split
    case isTrue h => exact ih _ h (by rwa [add_assoc, ← two_mul, ← pow_succ'])
    case isFalse h => exact ih _ h1 (not_le.1 h)

/-- R46: the enclosure of a reciprocal square root holds it and is narrow. -/
theorem encloseRsq_spec {m : Nat} {e : Int} (hm : 0 < m) (hm' : m < 2 ^ 24) :
    (encloseRsq m e).Holds (1 / √(m * (2 : ℝ) ^ e)) ∧ (encloseRsq m e).Narrow := by
  obtain ⟨m1, h, hm1, hm1', hvalue, hsame⟩ : ∃ (m1 : Nat) (h : Int), 0 < m1 ∧ m1 < 2 ^ 25 ∧ (m : ℝ) * 2 ^ e = m1 * 2 ^ (2 * h) ∧
      encloseRsq m e = ⟨isqrt (2 ^ 200 / m1) 101 0,
        if isqrt (2 ^ 200 / m1) 101 0 * isqrt (2 ^ 200 / m1) 101 0 * m1 = 2 ^ 200 then isqrt (2 ^ 200 / m1) 101 0
          else isqrt (2 ^ 200 / m1) 101 0 + 1, -100 - h⟩ := by
    by_cases he : e % 2 = 0
    · refine ⟨m, e / 2, hm, by omega, by rw [show 2 * (e / 2) = e by omega], ?_⟩
      simp only [encloseRsq, if_pos he]
    · refine ⟨2 * m, (e - 1) / 2, by omega, by omega, ?_, ?_⟩
      · rw [show 2 * ((e - 1) / 2) = e - 1 by omega, zpow_sub_one₀ two_ne_zero]
        push_cast
        field_simp
      · simp only [encloseRsq, if_neg he]
  have hdiv := Nat.div_mul_le_self (2 ^ 200) m1
  have hdiv' := Nat.lt_div_mul_add (a := 2 ^ 200) hm1
  have hn : 2 ^ 200 / m1 < (0 + 2 ^ 101) * (0 + 2 ^ 101) := lt_of_le_of_lt (Nat.div_le_self _ _) (by norm_num)
  obtain ⟨hlow, hhigh⟩ := isqrt_bounds (2 ^ 200 / m1) 101 0 (Nat.zero_le _) hn
  have hbig : 2 ^ 24 ≤ isqrt (2 ^ 200 / m1) 101 0 := by
    by_contra hcon
    have hq : 2 ^ 175 ≤ 2 ^ 200 / m1 := (Nat.le_div_iff_mul_le hm1).2 (by omega)
    have : (isqrt (2 ^ 200 / m1) 101 0 + 1) * (isqrt (2 ^ 200 / m1) 101 0 + 1) ≤ 2 ^ 24 * 2 ^ 24 := Nat.mul_le_mul (by omega) (by omega)
    omega
  rw [hsame]
  generalize isqrt (2 ^ 200 / m1) 101 0 = r at *
  set T : ℝ := 2 ^ 100 / √m1 with hT
  have hm1R : (0 : ℝ) < m1 := by exact_mod_cast hm1
  have hT0 : 0 < T := by positivity
  have hTsq : T * T * m1 = 2 ^ 200 := by
    rw [hT, div_mul_div_comm, Real.mul_self_sqrt hm1R.le, div_mul_cancel₀ _ hm1R.ne']
    norm_num
  have hY : 1 / √(m * (2 : ℝ) ^ e) = T * 2 ^ (-100 - h) := by
    rw [hvalue, Real.sqrt_mul hm1R.le, mul_comm 2 h, zpow_mul, zpow_ofNat, Real.sqrt_sq (by positivity), hT, zpow_sub₀ two_ne_zero]
    field_simp
  have hupper : T < r + 1 := by
    have h1 : 2 ^ 200 < (r + 1) * (r + 1) * m1 := calc
      2 ^ 200 < 2 ^ 200 / m1 * m1 + m1 := hdiv'
      _ = (2 ^ 200 / m1 + 1) * m1 := by ring
      _ ≤ (r + 1) * (r + 1) * m1 := Nat.mul_le_mul_right _ hhigh
    have h2 : (2 ^ 200 : ℝ) < (r + 1) * (r + 1) * m1 := by exact_mod_cast h1
    rw [← hTsq] at h2
    exact lt_of_mul_self_lt_mul_self₀ (by positivity) (lt_of_mul_lt_mul_right h2 hm1R.le)
  have hlower : r * r * m1 ≤ 2 ^ 200 := (Nat.mul_le_mul_right _ hlow).trans hdiv
  rw [hY]
  by_cases hexact : r * r * m1 = 2 ^ 200
  · rw [if_pos hexact]
    have hr : (r * r * m1 : ℝ) = 2 ^ 200 := by exact_mod_cast hexact
    have hrT : (r : ℝ) = T := by
      rw [← hTsq] at hr
      exact (mul_self_inj_of_nonneg (by positivity) hT0.le).1 (mul_right_cancel₀ hm1R.ne' hr)
    refine ⟨.inr ⟨rfl, by rw [hrT]⟩, ?_⟩
    change r * 2 ^ 24 ≤ r * (2 ^ 24 + 1)
    omega
  · rw [if_neg hexact]
    have hr : (r * r * m1 : ℝ) < 2 ^ 200 := by exact_mod_cast lt_of_le_of_ne hlower hexact
    have hrT : (r : ℝ) < T := by
      rw [← hTsq] at hr
      exact lt_of_mul_self_lt_mul_self₀ hT0.le (lt_of_mul_lt_mul_right hr hm1R.le)
    refine ⟨Enclosure.holds_of_scaled hrT (by push_cast; exact hupper), ?_⟩
    change (r + 1) * 2 ^ 24 ≤ r * (2 ^ 24 + 1)
    omega

end Sys2Proof.Machine
end

section
/-! The enclosures of the logarithm and of the sine and cosine hold the true results (R46). -/

namespace Sys2Proof.Machine

/-! ### Logarithms -/

/-- The ends of the model's enclosure of a logarithm to base two, in units of 2⁻¹⁹². -/
def log2Ends (m : Nat) (e : Int) : Int × Int :=
  let l := Nat.log2 m
  let z := (m - 2 ^ l) * 2 ^ 192 / (m + 2 ^ l)
  let s := 2 * logTerms 192 (z * z / 2 ^ 192) 64 0 z
  let whole : Int := (e + l) * 2 ^ 192
  (whole + (if m = 2 ^ l then 0 else s * 2 ^ 128 / (ln2Fixed + 1) : Nat),
    whole + (if m = 2 ^ l then 0 else (s + 1000) * 2 ^ 128 / ln2Fixed + 1 : Nat))

theorem encloseLog2_eq (m : Nat) (e : Int) : encloseLog2 m e =
    if (log2Ends m e).1 < 0 then (true, ⟨(-(log2Ends m e).2).toNat, (-(log2Ends m e).1).toNat, -192⟩)
      else (false, ⟨(log2Ends m e).1.toNat, (log2Ends m e).2.toNat, -192⟩) := rfl

/-- A quotient by ln 2 that is rounded in two steps, by a constant known to `p` places: within 2^(n-p+3) of the exact one. -/
theorem quotient_by_constant {F s : Nat} {L u : ℝ} (hF : (F : ℝ) < 2 ^ 128 * L) (hF' : 2 ^ 128 * L < F + 1) (hL : 1 / 2 < L)
    (hu : 0 < u) (hu1 : u ≤ 2 ^ 192) (hs : (s : ℝ) ≤ u * L) (hs' : u * L < s + 999) :
    ((s * 2 ^ 128 / (F + 1) : ℕ) : ℝ) < u ∧ u - 2 ^ 67 ≤ ((s * 2 ^ 128 / (F + 1) : ℕ) : ℝ) ∧
      u < (((s + 1000) * 2 ^ 128 / F + 1 : ℕ) : ℝ) ∧ (((s + 1000) * 2 ^ 128 / F + 1 : ℕ) : ℝ) ≤ u + 2 ^ 67 := by
  have hFbig : (2 : ℝ) ^ 126 ≤ F := by linarith
  have hF0 : (0 : ℝ) < F := lt_of_lt_of_le (by positivity) hFbig
  have hFnat : 0 < F := by exact_mod_cast hF0
  have hA := natDiv_le_cast (s * 2 ^ 128) (F + 1)
  have hA' := cast_lt_natDiv_add_one (s * 2 ^ 128) F.succ_pos
  have hB := natDiv_le_cast ((s + 1000) * 2 ^ 128) F
  have hB' := cast_lt_natDiv_add_one ((s + 1000) * 2 ^ 128) hFnat
  rw [Nat.succ_eq_add_one] at hA'
  rw [le_div_iff₀ (by positivity)] at hA hB
  rw [div_lt_iff₀ (by positivity)] at hA' hB'
  obtain ⟨A, hAeq⟩ : ∃ A, A = s * 2 ^ 128 / (F + 1) := ⟨_, rfl⟩
  obtain ⟨B, hBeq⟩ : ∃ B, B = (s + 1000) * 2 ^ 128 / F := ⟨_, rfl⟩
  rw [← hAeq] at hA hA' ⊢
  rw [← hBeq] at hB hB' ⊢
  clear hAeq hBeq
  push_cast at hA hA' hB hB' ⊢
  have huF : u * F ≤ u * (2 ^ 128 * L) := by gcongr
  have huF' : u * (2 ^ 128 * L) < u * (F + 1) := by gcongr
  refine ⟨?_, ?_, ?_, ?_⟩
  · refine lt_of_mul_lt_mul_right (a := (F + 1 : ℝ)) ?_ (by positivity)
    linarith
  · refine le_of_mul_le_mul_right (a := (F + 1 : ℝ)) ?_ (by positivity)
    linarith
  · refine lt_of_mul_lt_mul_right (a := (F : ℝ)) ?_ hF0.le
    linarith
  · have : B * F ≤ (u + 2 ^ 67 - 1) * F := by linarith
    linarith [le_of_mul_le_mul_right this hF0]

/-- The fraction of a binary logarithm is bounded away from 0 and from 1. -/
theorem logb_fraction_bounds {m l : Nat} (hl : 2 ^ l < m) (hl' : m < 2 ^ (l + 1)) (hm : m < 2 ^ 24) :
    1 / 2 ^ 24 ≤ Real.logb 2 ((m : ℝ) / 2 ^ l) ∧ Real.logb 2 ((m : ℝ) / 2 ^ l) ≤ 1 - 1 / 2 ^ 24 := by
  have hlt : l < 24 := by
    by_contra hcon
    have : 2 ^ 24 ≤ 2 ^ l := Nat.pow_le_pow_right two_pos (by omega)
    omega
  have hln0 : 0 < Real.log 2 := Real.log_pos one_lt_two
  have hln1 : Real.log 2 ≤ 1 := by linarith [Real.log_two_lt_d9]
  have hlm : (2 ^ l : ℝ) + 1 ≤ m := by exact_mod_cast hl
  have hlm' : (m : ℝ) + 1 ≤ 2 * 2 ^ l := by
    have : m + 1 ≤ 2 * 2 ^ l := by rw [← pow_succ']; exact hl'
    exact_mod_cast this
  have hm24 : (m : ℝ) ≤ 2 ^ 24 := by exact_mod_cast hm.le
  have hl23 : (2 ^ l : ℝ) ≤ 2 ^ 23 := pow_le_pow_right₀ one_le_two (by omega)
  have hpos : (0 : ℝ) < 2 ^ l := by positivity
  have hm0 : (0 : ℝ) < m := by linarith
  have hlow : 1 / 2 ^ 24 ≤ Real.log ((m : ℝ) / 2 ^ l) := by
    refine le_trans ?_ (Real.one_sub_inv_le_log_of_pos (by positivity))
    rw [inv_div, le_sub_iff_add_le, ← le_sub_iff_add_le', div_le_iff₀ hm0]
    linarith
  have hhigh : Real.log ((m : ℝ) / 2 ^ l) ≤ Real.log 2 - 1 / 2 ^ 24 := by
    have hinv : 1 / 2 ^ 24 ≤ Real.log (2 / ((m : ℝ) / 2 ^ l)) := by
      refine le_trans ?_ (Real.one_sub_inv_le_log_of_pos (by positivity))
      rw [inv_div, le_sub_iff_add_le, ← le_sub_iff_add_le', div_div, div_le_iff₀ (by positivity)]
      linarith
    rw [Real.log_div two_ne_zero (by positivity)] at hinv
    linarith
  unfold Real.logb
  constructor
  · rw [le_div_iff₀ hln0]
    nlinarith
  · rw [div_le_iff₀ hln0]
    nlinarith

/-- The ends are on each side of the logarithm, closely, and on the same side of zero as it; they are it for a power of two. -/
theorem log2Ends_spec {m : Nat} {e : Int} (hm : 0 < m) (hm' : m < 2 ^ 24) :
    let y := Real.logb 2 (m * (2 : ℝ) ^ e)
    (((log2Ends m e).1 : ℝ) = y * 2 ^ 192 ∧ (log2Ends m e).2 = (log2Ends m e).1) ∨
      (((log2Ends m e).1 : ℝ) < y * 2 ^ 192 ∧ y * 2 ^ 192 < (log2Ends m e).2 ∧ 1 / 2 ^ 24 ≤ |y| ∧
        (((log2Ends m e).2 : ℝ) - (log2Ends m e).1) ≤ 2 ^ 68 ∧ ((log2Ends m e).1 < 0 ↔ y < 0)) := by
  intro y
  set l := Nat.log2 m with hl
  have hlow : 2 ^ l ≤ m := Nat.log2_self_le hm.ne'
  have hhigh : m < 2 ^ (l + 1) := Nat.lt_log2_self
  have hm0 : (0 : ℝ) < m := by exact_mod_cast hm
  set g := Real.logb 2 ((m : ℝ) / 2 ^ l) with hg
  have hy : y = ((e + l : ℤ) : ℝ) + g := by
    have : (m : ℝ) * 2 ^ e = 2 ^ (((e + l : ℤ) : ℤ)) * ((m : ℝ) / 2 ^ l) := by
      rw [zpow_add₀ two_ne_zero, zpow_natCast]
      field_simp
    rw [show y = Real.logb 2 (m * (2 : ℝ) ^ e) from rfl, this, Real.logb_mul (by positivity) (by positivity), ← hg, ← Real.rpow_intCast,
      Real.logb_rpow two_pos (by norm_num)]
  by_cases hpow : m = 2 ^ l
  · left
    have hg0 : g = 0 := by
      rw [hg, hpow]
      push_cast
      rw [div_self (by positivity), Real.logb_one]
    simp only [log2Ends, ← hl, if_pos hpow, hy, hg0]
    constructor
    · push_cast
      ring
    · trivial
  · right
    obtain ⟨hg1, hg2⟩ := logb_fraction_bounds (lt_of_le_of_ne hlow (Ne.symm hpow)) hhigh hm'
    rw [← hg] at hg1 hg2
    have hln : g * Real.log 2 = Real.log ((m : ℝ) / 2 ^ l) := by
      rw [hg, Real.logb, div_mul_cancel₀ _ (Real.log_pos one_lt_two).ne']
    have hseries := logTerms_bounds (a := m - 2 ^ l) (b := m + 2 ^ l) (by omega) (by rw [pow_succ] at hhigh; omega) rfl
    have hratio : (((m + 2 ^ l : ℕ) : ℝ) + (m - 2 ^ l : ℕ)) / (((m + 2 ^ l : ℕ) : ℝ) - (m - 2 ^ l : ℕ)) = (m : ℝ) / 2 ^ l := by
      rw [Nat.cast_sub hlow]
      push_cast
      field_simp
      ring
    rw [hratio, ← hln] at hseries
    simp only [log2Ends, ← hl, if_neg hpow]
    generalize logTerms 192 ((m - 2 ^ l) * 2 ^ 192 / (m + 2 ^ l) * ((m - 2 ^ l) * 2 ^ 192 / (m + 2 ^ l)) / 2 ^ 192) 64 0
      ((m - 2 ^ l) * 2 ^ 192 / (m + 2 ^ l)) = t at hseries ⊢
    obtain ⟨h1, h2, h3, h4⟩ := quotient_by_constant (s := 2 * t) (u := 2 ^ 192 * g) ln2Fixed_bounds.1 ln2Fixed_bounds.2
      (by linarith [Real.log_two_gt_d9]) (by linarith) (by linarith) (by push_cast; linarith [hseries.1])
      (by push_cast; linarith [hseries.2])
    obtain ⟨A, hA⟩ : ∃ A, A = 2 * t * 2 ^ 128 / (ln2Fixed + 1) := ⟨_, rfl⟩
    obtain ⟨B, hB⟩ : ∃ B, B = (2 * t + 1000) * 2 ^ 128 / ln2Fixed + 1 := ⟨_, rfl⟩
    rw [← hA] at h1 h2 ⊢
    rw [← hB] at h3 h4 ⊢
    clear hA hB hseries
    have hA0 : (0 : ℝ) ≤ A := Nat.cast_nonneg A
    rw [hy]
    generalize e + (l : ℤ) = W
    push_cast
    have habs : 1 / 2 ^ 24 ≤ |(W : ℝ) + g| ∧ ((W : ℝ) + g < 0 ↔ W < 0) := by
      obtain hW | hW := lt_or_ge W 0
      · have hW' : (W : ℝ) ≤ -1 := by exact_mod_cast Int.le_sub_one_of_lt hW
        rw [abs_of_neg (by linarith)]
        exact ⟨by linarith, fun _ => hW, fun _ => by linarith⟩
      · have hW' : (0 : ℝ) ≤ W := by exact_mod_cast hW
        rw [abs_of_nonneg (by linarith)]
        exact ⟨by linarith, fun h => by linarith, fun h => by omega⟩
    have hsign : W * 2 ^ 192 + A < 0 ↔ W < 0 := by
      have hAlt : A < 2 ^ 192 := by
        have : (A : ℝ) < 2 ^ 192 := by linarith
        exact_mod_cast this
      omega
    rw [habs.2]
    exact ⟨by linarith, by linarith, habs.1, by linarith, hsign⟩

/-- An enclosure from integers close on each side of a number. -/
theorem holds_of_between {a b : Int} {v : ℝ} {p : Nat} (ha : (a : ℝ) < v * 2 ^ p) (hb : v * 2 ^ p < b) (hlow : (0 : ℝ) ≤ a)
    (hclose : ((b : ℝ) - a) * 2 ^ 24 ≤ a) :
    (Enclosure.mk a.toNat b.toNat (-p)).Holds v ∧ (Enclosure.mk a.toNat b.toNat (-p)).Narrow := by
  have hunit : v = v * 2 ^ p * 2 ^ (-p : ℤ) := by
    rw [zpow_neg, zpow_natCast]
    field_simp
  have hab : a < b := by
    have : (a : ℝ) < b := ha.trans hb
    exact_mod_cast this
  have ha0 : 0 ≤ a := by exact_mod_cast hlow
  have hwidth : (b - a) * 2 ^ 24 ≤ a := by exact_mod_cast hclose
  refine ⟨hunit ▸ Enclosure.holds_of_scaled (c := ⟨a.toNat, b.toNat, -p⟩) ?_ ?_, ?_⟩
  · rw [← Int.cast_natCast, Int.toNat_of_nonneg ha0]
    exact ha
  · rw [← Int.cast_natCast, Int.toNat_of_nonneg (by omega)]
    exact hb
  · change b.toNat * 2 ^ 24 ≤ a.toNat * (2 ^ 24 + 1)
    omega

/-- An enclosure from both ends that `log2Ends_spec` gives, of a magnitude. -/
theorem holds_of_ends {a b : Int} {v : ℝ} (h : ((a : ℝ) = v * 2 ^ 192 ∧ b = a) ∨
    ((a : ℝ) < v * 2 ^ 192 ∧ v * 2 ^ 192 < b ∧ 1 / 2 ^ 24 ≤ v ∧ (b : ℝ) - a ≤ 2 ^ 68)) (hv : 0 ≤ v) :
    (Enclosure.mk a.toNat b.toNat (-192)).Holds v ∧ (Enclosure.mk a.toNat b.toNat (-192)).Narrow := by
  obtain ⟨ha, rfl⟩ | ⟨ha, hb, hlow, hwidth⟩ := h
  · have ha0 : 0 ≤ b := by
      have : (0 : ℝ) ≤ b := by rw [ha]; positivity
      exact_mod_cast this
    have hunit : v = v * 2 ^ 192 * 2 ^ (-192 : ℤ) := by
      rw [zpow_neg]
      field_simp
    refine ⟨.inr ⟨rfl, ?_⟩, ?_⟩
    · rw [hunit, ← ha, ← Int.cast_natCast, Int.toNat_of_nonneg ha0]
    · change b.toNat * 2 ^ 24 ≤ b.toNat * (2 ^ 24 + 1)
      omega
  · exact holds_of_between (p := 192) ha hb (by linarith) (by linarith)

/-- R46: the enclosure of a binary logarithm holds its magnitude and is narrow, with its sign. -/
theorem encloseLog2_spec {m : Nat} {e : Int} (hm : 0 < m) (hm' : m < 2 ^ 24) :
    let y := Real.logb 2 (m * (2 : ℝ) ^ e)
    (encloseLog2 m e).2.Holds |y| ∧ (encloseLog2 m e).2.Narrow ∧ (encloseLog2 m e).1 = decide (y < 0) := by
  intro y
  have hends := log2Ends_spec (e := e) hm hm'
  dsimp only at hends
  have hsign : (log2Ends m e).1 < 0 ↔ y < 0 := by
    obtain ⟨hexact, -⟩ | ⟨-, -, -, -, hsign⟩ := hends
    · rw [← Int.cast_lt_zero (R := ℝ), hexact, ← not_le, ← not_le, mul_nonneg_iff_of_pos_right (by positivity)]
    · exact hsign
  rw [encloseLog2_eq]
  by_cases hneg : y < 0
  · rw [if_pos (hsign.2 hneg), abs_of_neg hneg]
    obtain ⟨hholds, hnarrow⟩ := holds_of_ends (a := -(log2Ends m e).2) (b := -(log2Ends m e).1) (v := -y) (by
      push_cast
      obtain ⟨hexact, hsame⟩ | ⟨hlo, hhi, hfar, hwidth, -⟩ := hends
      · rw [hsame, hexact]
        exact .inl ⟨by ring, rfl⟩
      · rw [abs_of_neg hneg] at hfar
        exact .inr ⟨by linarith, by linarith, hfar, by linarith⟩) (by linarith)
    exact ⟨hholds, hnarrow, (decide_eq_true hneg).symm⟩
  · rw [if_neg (mt hsign.1 hneg), abs_of_nonneg (not_lt.1 hneg)]
    obtain ⟨hholds, hnarrow⟩ := holds_of_ends (a := (log2Ends m e).1) (b := (log2Ends m e).2) (v := y) (by
      obtain ⟨hexact, hsame⟩ | ⟨hlo, hhi, hfar, hwidth, -⟩ := hends
      · exact .inl ⟨hexact, hsame⟩
      · rw [abs_of_nonneg (not_lt.1 hneg)] at hfar
        exact .inr ⟨hlo, hhi, hfar, hwidth⟩) (not_lt.1 hneg)
    exact ⟨hholds, hnarrow, (decide_eq_false hneg).symm⟩

/-! ### Sines and cosines -/

/-- The ends of the argument: π·n/2^k in units of 2⁻²⁵⁶, with π to twenty places, lies between them. -/
theorem trigArgument_bounds (n k : Nat) (hn : 0 < n) :
    ((piFixed * n * 2 ^ 256 / (10 ^ 20 * 2 ^ k) : ℕ) : ℝ) < 2 ^ 256 * (Real.pi * n / 2 ^ k) ∧
      2 ^ 256 * (Real.pi * n / 2 ^ k) < (((piFixed + 1) * n * 2 ^ 256 / (10 ^ 20 * 2 ^ k) + 1 : ℕ) : ℝ) ∧
      3 * ((n : ℝ) / 2 ^ k * 2 ^ 256) - 1 ≤ ((piFixed * n * 2 ^ 256 / (10 ^ 20 * 2 ^ k) : ℕ) : ℝ) ∧
      (((piFixed + 1) * n * 2 ^ 256 / (10 ^ 20 * 2 ^ k) + 1 : ℕ) : ℝ) - ((piFixed * n * 2 ^ 256 / (10 ^ 20 * 2 ^ k) : ℕ) : ℝ) ≤
        (n : ℝ) / 2 ^ k * 2 ^ 256 / 2 ^ 66 + 2 := by
  have hpi := Real.pi_gt_d20
  have hpi' := Real.pi_lt_d20
  have hcast : ∀ P : ℕ, ((P * n * 2 ^ 256 : ℕ) : ℝ) / (10 ^ 20 * 2 ^ k : ℕ) = (P : ℝ) / 10 ^ 20 * ((n : ℝ) / 2 ^ k * 2 ^ 256) := fun P => by
    push_cast
    field_simp
    ring
  have hlow := hcast piFixed ▸ natDiv_le_cast (piFixed * n * 2 ^ 256) (10 ^ 20 * 2 ^ k)
  have hlow' := hcast piFixed ▸ cast_lt_natDiv_add_one (piFixed * n * 2 ^ 256) (b := 10 ^ 20 * 2 ^ k) (by positivity)
  have hhigh := hcast (piFixed + 1) ▸ natDiv_le_cast ((piFixed + 1) * n * 2 ^ 256) (10 ^ 20 * 2 ^ k)
  have hhigh' := hcast (piFixed + 1) ▸ cast_lt_natDiv_add_one ((piFixed + 1) * n * 2 ^ 256) (b := 10 ^ 20 * 2 ^ k) (by positivity)
  obtain ⟨y, hy⟩ : ∃ y, y = piFixed * n * 2 ^ 256 / (10 ^ 20 * 2 ^ k) := ⟨_, rfl⟩
  obtain ⟨y', hy'⟩ : ∃ y, y = (piFixed + 1) * n * 2 ^ 256 / (10 ^ 20 * 2 ^ k) := ⟨_, rfl⟩
  rw [← hy] at hlow hlow' ⊢
  rw [← hy'] at hhigh hhigh' ⊢
  have hN : 2 ^ 256 * (Real.pi * n / 2 ^ k) = Real.pi * ((n : ℝ) / 2 ^ k * 2 ^ 256) := by ring
  rw [hN]
  have hN0 : (0 : ℝ) < (n : ℝ) / 2 ^ k * 2 ^ 256 := by positivity
  generalize (n : ℝ) / 2 ^ k * 2 ^ 256 = N at *
  have hP : ((piFixed : ℕ) : ℝ) = 314159265358979323846 := by norm_num [piFixed]
  push_cast at *
  rw [hP] at hlow hlow' hhigh hhigh'
  have h1 : 314159265358979323846 / 10 ^ 20 * N < Real.pi * N := by gcongr; linarith
  have h2 : Real.pi * N < (314159265358979323846 + 1) / 10 ^ 20 * N := by gcongr; linarith
  refine ⟨by linarith, by linarith, by linarith, by linarith⟩

/-- The ends of the model's enclosures of a sine and a cosine: the series at both ends of the argument. -/
theorem encloseTrig_eq (n k : Nat) : ∃ y y' : Nat, y = piFixed * n * 2 ^ 256 / (10 ^ 20 * 2 ^ k) ∧
    y' = (piFixed + 1) * n * 2 ^ 256 / (10 ^ 20 * 2 ^ k) + 1 ∧
    encloseTrig false n k = ⟨(trigTerms 256 y 64 1 y - 1000).toNat, (trigTerms 256 y' 64 1 y' + 1000).toNat, -256⟩ ∧
    encloseTrig true n k = ⟨(trigTerms 256 y' 64 0 (2 ^ 256) - 1000).toNat, (trigTerms 256 y 64 0 (2 ^ 256) + 1000).toNat, -256⟩ := by
  refine ⟨_, _, rfl, rfl, ?_, ?_⟩ <;> simp only [encloseTrig, if_true, Bool.false_eq_true, if_false]

/-- R46: the enclosures of a sine and a cosine hold them and are narrow, for an angle away from 0 and from a right angle. -/
theorem encloseTrig_spec {n k : Nat} (hn : 0 < n) (hk : k ≤ 150) (hhalf : n * 2 ^ 27 + 2 ^ k ≤ 2 ^ k * 2 ^ 26) :
    ((encloseTrig false n k).Holds (Real.sin (Real.pi * n / 2 ^ k)) ∧ (encloseTrig false n k).Narrow) ∧
      ((encloseTrig true n k).Holds (Real.cos (Real.pi * n / 2 ^ k)) ∧ (encloseTrig true n k).Narrow) := by
  obtain ⟨hy, hy', hyLow, hwidth⟩ := trigArgument_bounds n k hn
  obtain ⟨y, y', hyeq, hyeq', hsinEq, hcosEq⟩ := encloseTrig_eq n k
  rw [← hyeq] at hy hyLow hwidth
  rw [← hyeq'] at hy' hwidth
  rw [hsinEq, hcosEq]
  clear hsinEq hcosEq hyeq hyeq'
  obtain ⟨x, hx⟩ : ∃ x : ℝ, (y : ℝ) = 2 ^ 256 * x := ⟨y / 2 ^ 256, by field_simp⟩
  obtain ⟨x', hx'⟩ : ∃ x : ℝ, (y' : ℝ) = 2 ^ 256 * x := ⟨y' / 2 ^ 256, by field_simp⟩
  obtain ⟨ν, hν⟩ : ∃ ν : ℝ, ν = (n : ℝ) / 2 ^ k := ⟨_, rfl⟩
  obtain ⟨θ, hθ⟩ : ∃ θ : ℝ, θ = Real.pi * n / 2 ^ k := ⟨_, rfl⟩
  have hθν : θ = Real.pi * ν := by rw [hθ, hν, mul_div_assoc]
  rw [← hθ] at hy hy' ⊢
  rw [← hν] at hyLow hwidth
  have hνsmall : 1 / 2 ^ 150 ≤ ν := by
    have h1 : (1 : ℝ) ≤ n := by exact_mod_cast hn
    have h2 : (2 : ℝ) ^ k ≤ 2 ^ 150 := pow_le_pow_right₀ one_le_two hk
    rw [hν]
    gcongr
  have hνhalf : ν + 1 / 2 ^ 27 ≤ 1 / 2 := by
    have h : (n : ℝ) * 2 ^ 27 + 2 ^ k ≤ 2 ^ k * 2 ^ 26 := by exact_mod_cast hhalf
    have : ν ≤ (2 ^ 26 - 1) / 2 ^ 27 := by
      rw [hν, div_le_div_iff₀ (by positivity) (by positivity)]
      linarith
    linarith
  have hpi := Real.pi_gt_d2
  have hpi' := Real.pi_lt_d2
  rw [hx] at hy hyLow hwidth
  rw [hx'] at hy' hwidth
  have hxθ : x < θ := by linarith
  have hθx' : θ < x' := by linarith
  have hx0 : 0 < x := by linarith
  have hclose : x' - x ≤ ν / 2 ^ 66 + 2 / 2 ^ 256 := by linarith
  have hlow : 2 * ν < x := by linarith
  have hθhalf : θ ≤ Real.pi * (1 / 2 - 1 / 2 ^ 27) := by
    rw [hθν]
    gcongr
    linarith
  have hright : x' + 1 / 2 ^ 26 ≤ Real.pi / 2 := by linarith
  have hsq : ∀ {u : ℝ}, 0 ≤ u → u ≤ 1.6 → u ^ 2 ≤ 3 := fun h0 h1 => (pow_le_pow_left₀ h0 h1 2).trans (by norm_num)
  obtain ⟨hcosx, hsinx⟩ := trigTerms_bounds hx hx0.le (hsq hx0.le (by linarith))
  obtain ⟨hcosx', hsinx'⟩ := trigTerms_bounds hx' (by linarith) (hsq (by linarith) (by linarith))
  rw [abs_le] at hcosx hsinx hcosx' hsinx'
  have hhalf_le_sin : ∀ {u : ℝ}, 0 ≤ u → u ≤ Real.pi / 2 → u / 2 ≤ Real.sin u := fun {u} h0 h1 => by
    refine le_trans ?_ (Real.mul_le_sin h0 h1)
    rw [div_eq_inv_mul]
    gcongr
    rw [inv_eq_one_div, div_le_div_iff₀ two_pos Real.pi_pos]
    linarith
  have hsub : ∀ t : Int, ((t - 1000 : Int) : ℝ) = t - 1000 := fun t => by push_cast; rfl
  have hadd : ∀ t : Int, ((t + 1000 : Int) : ℝ) = t + 1000 := fun t => by push_cast; rfl
  constructor
  · have hmono : Real.sin x ≤ Real.sin θ := Real.sin_le_sin_of_le_of_le_pi_div_two (by linarith) (by linarith) hxθ.le
    have hmono' : Real.sin θ ≤ Real.sin x' := Real.sin_le_sin_of_le_of_le_pi_div_two (by linarith) (by linarith) hθx'.le
    have hlip : Real.sin x' - Real.sin x ≤ x' - x := by
      have := Real.lipschitzWith_sin.dist_le_mul x' x
      rw [NNReal.coe_one, one_mul, Real.dist_eq, Real.dist_eq, abs_of_pos (sub_pos.2 (hxθ.trans hθx'))] at this
      exact (le_abs_self _).trans this
    have hbig : x / 2 ≤ Real.sin x := hhalf_le_sin hx0.le (by linarith)
    exact holds_of_between (a := trigTerms 256 y 64 1 y - 1000) (b := trigTerms 256 y' 64 1 y' + 1000) (p := 256)
      (by rw [hsub]; linarith) (by rw [hadd]; linarith) (by rw [hsub]; linarith) (by rw [hsub, hadd]; linarith)
  · have hmono : Real.cos θ ≤ Real.cos x := Real.cos_le_cos_of_nonneg_of_le_pi hx0.le (by linarith) hxθ.le
    have hmono' : Real.cos x' ≤ Real.cos θ := Real.cos_le_cos_of_nonneg_of_le_pi (by linarith) (by linarith) hθx'.le
    have hlip : Real.cos x - Real.cos x' ≤ x' - x := by
      have := Real.lipschitzWith_cos.dist_le_mul x x'
      rw [NNReal.coe_one, one_mul, Real.dist_eq, Real.dist_eq, abs_sub_comm x, abs_of_pos (sub_pos.2 (hxθ.trans hθx'))] at this
      exact (le_abs_self _).trans this
    have hbig : (Real.pi / 2 - x') / 2 ≤ Real.cos x' := by
      rw [← Real.sin_pi_div_two_sub]
      exact hhalf_le_sin (by linarith) (by linarith)
    exact holds_of_between (a := trigTerms 256 y' 64 0 (2 ^ 256) - 1000) (b := trigTerms 256 y 64 0 (2 ^ 256) + 1000) (p := 256)
      (by rw [hsub]; linarith) (by rw [hadd]; linarith) (by rw [hsub]; linarith) (by rw [hsub, hadd]; linarith)

end Sys2Proof.Machine
end

section
/-! The five faithful functions bracket the true results (R46). -/

namespace Sys2Proof.Machine

/-! ### Finite encodings -/

/-- The value of what a finite encoding decodes to. -/
theorem fin_rat_cast (s : Bool) (m : Nat) (e : Int) :
    ((FVal.fin s m e).rat : ℝ) = if s then -((m : ℝ) * 2 ^ e) else (m : ℝ) * 2 ^ e := by
  cases s <;> simp [FVal.rat]

theorem fp32Mag_one : fp32Mag 0x3F800000 = 1 := by
  rw [show (0x3F800000 : ℕ) = 126 * 2 ^ 23 + 2 ^ 23 by norm_num, fp32Mag_parts (by norm_num) (.inr le_rfl)]
  norm_num

theorem fp32Mag_tiny (k : Nat) (hk : k ≤ 2 ^ 24) : fp32Mag k = k * 2 ^ (-149 : ℤ) := by
  have := fp32Mag_parts hk (.inl rfl)
  simpa using this

/-- FP32 holds every number of 24 bits in a unit from 2⁻¹⁴⁹ on, below 2¹²⁸. -/
theorem exists_fp32_exact {k : Nat} {e : Int} (hk : k < 2 ^ 24) (he : -149 ≤ e) (hlt : (k : ℝ) * 2 ^ e < 2 ^ (128 : ℤ)) :
    ∃ n, n < 0x7F800000 ∧ fp32Mag n = k * 2 ^ e := by
  obtain rfl | hk0 := eq_or_ne k 0
  · exact ⟨0, by norm_num, by rw [fp32Mag_zero]; simp⟩
  obtain ⟨hsig, hfull⟩ := truncSig_full hk0 e
  have hlog : Nat.log2 k < 24 := (Nat.log2_lt hk0).2 hk
  obtain ⟨q, hq⟩ : ∃ q, max (e + Nat.log2 k - 23) (-149) = q := ⟨_, rfl⟩
  rw [hq] at hsig hfull
  have hqe : q ≤ e := by omega
  obtain ⟨d, hd⟩ : ∃ d : ℕ, q = e - d := ⟨(e - q).toNat, by omega⟩
  have hval : fp32Mag ((q + 149).toNat * 2 ^ 23 + truncSig k (q - e)) = k * 2 ^ e := by
    rw [fp32Mag_parts hsig.le (by omega), show (((q + 149).toNat : ℤ) - 149) = e - d by omega, show q - e = -(d : ℤ) by omega, truncSig,
      if_pos (by omega), neg_neg, Int.toNat_natCast, Nat.shiftLeft_eq, zpow_sub₀ two_ne_zero, zpow_natCast]
    push_cast
    field_simp
  exact ⟨_, fp32Mag_strictMono.lt_iff_lt.1 (by rw [hval, fp32Mag_infinity]; exact hlt), hval⟩

/-- FP32 holds the powers of two from the least positive value on. -/
theorem exists_fp32_pow2 {i : Int} (h : -149 ≤ i) (h' : i < 128) : ∃ n, n < 0x7F800000 ∧ fp32Mag n = (2 : ℝ) ^ i := by
  have := exists_fp32_exact (k := 1) (by norm_num) h (by
    rw [Nat.cast_one, one_mul]
    exact zpow_lt_zpow_right₀ one_lt_two h')
  rwa [Nat.cast_one, one_mul] at this

/-! ### `vexp2` -/

/-- The whole part of a finite value: what `vexp2` scales by. -/
def wholePart (s : Bool) (m : Nat) (e : Int) : Int :=
  let x : Int := if s then -(m : Int) else m
  if e ≥ 0 then x * 2 ^ e.toNat else x / 2 ^ (-e).toNat
/-- The fraction above the whole part, in units of 2^e. -/
def fractionPart (s : Bool) (m : Nat) (e : Int) : Nat :=
  let x : Int := if s then -(m : Int) else m
  if e ≥ 0 then 0 else (x % 2 ^ (-e).toNat).toNat

theorem exp2Value_fin {sat : Bool} {w : Nat} {s : Bool} {m : Nat} {e : Int} (h : fp32.decode w = .fin s m e) : exp2Value sat w =
    if m = 0 then 0x3F800000
    else if wholePart s m e ≥ 128 then fp32.infBits sat false
    else if fractionPart s m e = 0 ∧ wholePart s m e ≥ -149 then fp32.roundMag 0 sat false 1 (wholePart s m e)
    else if wholePart s m e < -150 then 0
    else if wholePart s m e = -150 then faithful .exp2 sat false ⟨0, 1, -149⟩ 0 (w % 2 ^ 31 : Nat) false
    else faithful .exp2 sat false (encloseExp2 (wholePart s m e) (fractionPart s m e) (-e).toNat) 0 (w % 2 ^ 31 : Nat) (!s) := by
  unfold exp2Value
  rw [h]
  rfl

/-- A finite value is its whole part and its fraction. -/
theorem rat_eq_parts (s : Bool) (m : Nat) (e : Int) :
    ((FVal.fin s m e).rat : ℝ) = wholePart s m e + (fractionPart s m e : ℝ) / 2 ^ (-e).toNat ∧
      fractionPart s m e < 2 ^ (-e).toNat := by
  have hx : ((FVal.fin s m e).rat : ℝ) = ((if s then -(m : Int) else m : Int) : ℝ) * 2 ^ e := by
    rw [fin_rat_cast]
    cases s <;> simp
  unfold wholePart fractionPart
  rw [hx]
  generalize (if s = true then -(m : Int) else m) = x
  by_cases he : e ≥ 0
  · obtain ⟨n, rfl⟩ : ∃ n : ℕ, e = n := ⟨e.toNat, by omega⟩
    simp [he]
  · obtain ⟨n, rfl⟩ : ∃ n : ℕ, e = -n := ⟨(-e).toNat, by omega⟩
    have hpos : (0 : ℤ) < 2 ^ n := by positivity
    simp only [if_neg he, neg_neg, Int.toNat_natCast]
    have hmod := Int.emod_nonneg x hpos.ne'
    have hlt := Int.emod_lt_of_pos x hpos
    refine ⟨?_, ?_⟩
    · have hsum : (x : ℝ) = (x / 2 ^ n : ℤ) * 2 ^ n + ((x % 2 ^ n).toNat : ℝ) := by
        have := Int.mul_ediv_add_emod x (2 ^ n)
        rw [← Int.cast_natCast, Int.toNat_of_nonneg hmod]
        rw [mul_comm] at this
        exact_mod_cast this.symm
      rw [zpow_neg, zpow_natCast, ← div_eq_mul_inv, div_eq_iff (by positivity), add_mul, div_mul_cancel₀ _ (by positivity)]
      exact hsum
    · zify
      rw [Int.toNat_of_nonneg hmod]
      exact hlt

/-- Below 128 an FP32 value is at most 128 − 2⁻¹⁷. -/
theorem rat_le_of_lt_128 {s : Bool} {m : Nat} {e : Int} (hm : m < 2 ^ 24) (h : ((FVal.fin s m e).rat : ℝ) < 128) :
    ((FVal.fin s m e).rat : ℝ) ≤ 128 - 1 / 2 ^ 17 := by
  rw [fin_rat_cast] at h ⊢
  have hnn : (0 : ℝ) ≤ m * 2 ^ e := by positivity
  cases s with
  | true =>
    simp only [if_true] at h ⊢
    linarith
  | false =>
    simp only [Bool.false_eq_true, if_false] at h ⊢
    obtain he | he := lt_or_ge e (-17)
    · have hpow : (2 : ℝ) ^ e ≤ 2 ^ (-18 : ℤ) := zpow_le_zpow_right₀ one_le_two (by omega)
      have hm' : (m : ℝ) ≤ 2 ^ 24 := by exact_mod_cast hm.le
      calc (m : ℝ) * 2 ^ e ≤ 2 ^ 24 * 2 ^ (-18 : ℤ) := by gcongr
        _ ≤ _ := by norm_num
    · obtain ⟨n, hn⟩ : ∃ n : ℕ, e = n - 17 := ⟨(e + 17).toNat, by omega⟩
      have hunits : (m : ℝ) * 2 ^ e = ((m * 2 ^ n : ℕ) : ℝ) / 2 ^ 17 := by
        rw [hn, zpow_sub₀ two_ne_zero, zpow_natCast, zpow_ofNat]
        push_cast
        ring
      rw [hunits, div_lt_iff₀ (by positivity)] at h
      have hnat : m * 2 ^ n < 128 * 2 ^ 17 := by exact_mod_cast h
      have hle : ((m * 2 ^ n : ℕ) : ℝ) ≤ 128 * 2 ^ 17 - 1 := by
        have : m * 2 ^ n + 1 ≤ 128 * 2 ^ 17 := hnat
        have : ((m * 2 ^ n : ℕ) : ℝ) + 1 ≤ 128 * 2 ^ 17 := by exact_mod_cast this
        linarith
      rw [hunits, div_le_iff₀ (by positivity)]
      linarith

theorem exp2_le_of_le {x : ℝ} (h : x ≤ 128 - 1 / 2 ^ 17) : (2 : ℝ) ^ x ≤ 2 ^ 128 * (1 - 1 / 2 ^ 22) := by
  have hmono : (2 : ℝ) ^ x ≤ 2 ^ (128 - 1 / 2 ^ 17 : ℝ) := Real.rpow_le_rpow_of_exponent_le one_le_two h
  have hsplit : (2 : ℝ) ^ (128 - 1 / 2 ^ 17 : ℝ) = 2 ^ 128 / 2 ^ (1 / 2 ^ 17 : ℝ) := by
    rw [Real.rpow_sub two_pos]
    norm_num
  have hroot : 1 + 1 / 2 ^ 18 ≤ (2 : ℝ) ^ (1 / 2 ^ 17 : ℝ) := by
    rw [Real.rpow_def_of_pos two_pos]
    linarith [Real.add_one_le_exp (Real.log 2 * (1 / 2 ^ 17)), Real.log_two_gt_d9]
  rw [hsplit] at hmono
  refine hmono.trans ?_
  rw [div_le_iff₀ (by positivity)]
  nlinarith

/-- R46, R48: between −150 and −149 the result of `vexp2` is 0 or the least positive value. -/
theorem faithful_least (fn : FaithfulFn) (sat : Bool) (branch : Nat) (mag : Int) (rising : Bool) :
    faithful fn sat false ⟨0, 1, -149⟩ branch mag rising = 0 ∨ faithful fn sat false ⟨0, 1, -149⟩ branch mag rising = 1 := by
  have hone : fp32.roundMag 3 sat false 1 (-149) = 1 := by
    rw [fp32_roundMag_exact 3 sat false (n := 1) (by norm_num) (by rw [fp32Mag_tiny 1 (by norm_num)])]
    rfl
  obtain ⟨r, hr, hcases⟩ := faithful_cases (fn := fn) (sat := sat) (neg := false) (c := ⟨0, 1, -149⟩) (branch := branch) (mag := mag)
    (rising := rising) rfl hone
  have hzero : fp32.roundMag 1 sat false 0 (-149) = 0 := rfl
  simp only [hzero] at hcases
  rw [hr, show fp32.signBit false = 0 from rfl]
  omega

/-- R46: `vexp2` below 128. -/
theorem exp2Value_brackets (sat : Bool) {w : Nat} (h : w < 2 ^ 32) (hf : w / 2 ^ 23 % 256 ≠ 255)
    (hx : ((fp32.decode w).rat : ℝ) < 128) : Brackets ((2 : ℝ) ^ ((fp32.decode w).rat : ℝ)) (exp2Value sat w) := by
  obtain ⟨m, e, hd, hm, he, -, -, -⟩ := fp32_decode_finite h hf
  generalize decide (2 ^ 31 ≤ w) = s at hd
  rw [exp2Value_fin hd]
  rw [hd] at hx ⊢
  have hmax := exp2_le_of_le (rat_le_of_lt_128 hm hx)
  obtain ⟨hparts, hfrac⟩ := rat_eq_parts s m e
  have hpos : (0 : ℝ) < 2 ^ ((FVal.fin s m e).rat : ℝ) := by positivity
  have hfrac1 : (fractionPart s m e : ℝ) / 2 ^ (-e).toNat < 1 := by
    rw [div_lt_one (by positivity)]
    exact_mod_cast hfrac
  have hfrac0 : (0 : ℝ) ≤ (fractionPart s m e : ℝ) / 2 ^ (-e).toNat := by positivity
  split
  case isTrue hm0 =>
    have hzero : ((FVal.fin s m e).rat : ℝ) = 0 := by rw [fin_rat_cast, hm0]; simp
    rw [hzero, Real.rpow_zero, ← fp32Mag_one]
    exact (adjacent_self (by norm_num)).brackets (fp32Mag_nonneg _)
  split
  case isTrue hbig =>
    have : (128 : ℝ) ≤ wholePart s m e := by exact_mod_cast hbig
    linarith
  case isFalse hsmall =>
  split
  case isTrue hint =>
    obtain ⟨hint, hlow⟩ := hint
    obtain ⟨n, hn, hmag⟩ := exists_fp32_pow2 hlow (by omega)
    rw [fp32_roundMag_exact 0 sat false hn (by rw [hmag]; simp), show fp32.signBit false + n = n from Nat.zero_add n, hparts, hint]
    simp only [Nat.cast_zero, zero_div, add_zero, Real.rpow_intCast]
    rw [← hmag]
    exact (adjacent_self hn).brackets (fp32Mag_nonneg _)
  case isFalse hfull =>
  have htiny : ∀ r : Nat, wholePart s m e < -149 → r ≤ 1 → (r = 0 ∨ wholePart s m e = -150) →
      Brackets ((2 : ℝ) ^ ((FVal.fin s m e).rat : ℝ)) r := fun r hlow hr hor => by
    have hlt : (2 : ℝ) ^ ((FVal.fin s m e).rat : ℝ) < 2 ^ (-149 : ℤ) := by
      rw [← Real.rpow_intCast]
      refine Real.rpow_lt_rpow_of_exponent_lt one_lt_two ?_
      have : (wholePart s m e : ℝ) ≤ -150 := by exact_mod_cast (by omega : wholePart s m e ≤ -150)
      push_cast
      linarith
    refine Adjacent.brackets ⟨by omega, ?_, fun k hk => ?_⟩ hpos.le
    · rw [fp32Mag_tiny _ (by omega)]
      have : (1 : ℝ) ≤ (r + 1 : ℕ) := by push_cast; linarith [(Nat.cast_nonneg r : (0 : ℝ) ≤ r)]
      nlinarith [(by positivity : (0 : ℝ) < 2 ^ (-149 : ℤ))]
    · obtain rfl : k = 0 := by omega
      rw [fp32Mag_zero]
      exact hpos
  split
  case isTrue hlow => exact htiny 0 (by omega) (by omega) (.inl rfl)
  case isFalse hlow =>
  split
  case isTrue heq =>
    obtain h0 | h1 := faithful_least .exp2 sat 0 (w % 2 ^ 31 : Nat) false
    · rw [h0]; exact htiny 0 (by omega) (by omega) (.inl rfl)
    · rw [h1]; exact htiny 1 (by omega) le_rfl (.inr heq)
  case isFalse hne =>
    have hfm : 0 < fractionPart s m e := by omega
    have := faithful_brackets (encloseExp2_holds (i := wholePart s m e) hfm hfrac) (encloseExp2_narrow hfm hfrac) (by rw [← hparts]; exact hmax)
      .exp2 sat false 0 (w % 2 ^ 31 : Nat) (!s)
    rw [← hparts] at this
    simpa using this

end Sys2Proof.Machine
end

section
/-! The other four faithful functions (R46). -/

namespace Sys2Proof.Machine

/-! ### `vlog2` and `vrsq` -/

theorem log2Value_pos {sat : Bool} {w m : Nat} {e : Int} (h : fp32.decode w = .fin false m e) (hm : m ≠ 0) : log2Value sat w =
    faithful .log2 sat (encloseLog2 m e).1 (encloseLog2 m e).2 0 (w % 2 ^ 31 : Nat) (!(encloseLog2 m e).1) := by
  unfold log2Value
  rw [h]
  simp only [if_neg hm, Bool.false_eq_true, if_false]

theorem rsqValue_pos {sat : Bool} {w m : Nat} {e : Int} (h : fp32.decode w = .fin false m e) (hm : m ≠ 0) : rsqValue sat w =
    faithful .rsq sat false (encloseRsq m e) 0 (w % 2 ^ 31 : Nat) false := by
  unfold rsqValue
  rw [h]
  simp only [if_neg hm, Bool.false_eq_true, if_false]

/-- A positive finite encoding decodes to a positive significand without a sign. -/
theorem fp32_decode_pos {w : Nat} (h : w < 2 ^ 32) (hf : w / 2 ^ 23 % 256 ≠ 255) (hx : 0 < ((fp32.decode w).rat : ℝ)) :
    ∃ m e, fp32.decode w = .fin false m e ∧ 0 < m ∧ m < 2 ^ 24 ∧ -149 ≤ e ∧ e ≤ 104 ∧ ((fp32.decode w).rat : ℝ) = m * 2 ^ e := by
  obtain ⟨m, e, hd, hm, he, he', -, -⟩ := fp32_decode_finite h hf
  generalize decide (2 ^ 31 ≤ w) = s at hd
  rw [hd, fin_rat_cast] at hx
  cases s with
  | true =>
    rw [if_pos rfl] at hx
    linarith [(by positivity : (0 : ℝ) ≤ m * 2 ^ e)]
  | false =>
    refine ⟨m, e, hd, Nat.pos_of_ne_zero fun h0 => ?_, hm, he, he', by rw [hd, fin_rat_cast, if_neg Bool.false_ne_true]⟩
    rw [if_neg Bool.false_ne_true, h0] at hx
    simp at hx

/-- R46: `vlog2` of a positive value. -/
theorem log2Value_brackets (sat : Bool) {w : Nat} (h : w < 2 ^ 32) (hf : w / 2 ^ 23 % 256 ≠ 255)
    (hx : 0 < ((fp32.decode w).rat : ℝ)) : Brackets (Real.logb 2 ((fp32.decode w).rat : ℝ)) (log2Value sat w) := by
  obtain ⟨m, e, hd, hm, hm', he, he', hvalue⟩ := fp32_decode_pos h hf hx
  obtain ⟨hholds, hnarrow, hsign⟩ := encloseLog2_spec (e := e) hm hm'
  have hy : Real.logb 2 (m * (2 : ℝ) ^ e) = if (encloseLog2 m e).1 then -|Real.logb 2 (m * (2 : ℝ) ^ e)| else |Real.logb 2 (m * (2 : ℝ) ^ e)| := by
    rw [hsign]
    split
    case isTrue hneg => rw [abs_of_neg (of_decide_eq_true hneg), neg_neg]
    case isFalse hneg => rw [abs_of_nonneg (not_lt.1 fun h => hneg (decide_eq_true h))]
  rw [log2Value_pos hd hm.ne', hvalue, hy]
  refine faithful_brackets hholds hnarrow ?_ _ _ _ _ _ _
  have hm1 : (1 : ℝ) ≤ m := by exact_mod_cast hm
  have hm2 : (m : ℝ) ≤ 2 ^ (24 : ℤ) := by exact_mod_cast hm'.le
  have hpos : (0 : ℝ) < m * 2 ^ e := by positivity
  have hlow : -149 ≤ Real.logb 2 (m * (2 : ℝ) ^ e) := by
    rw [Real.le_logb_iff_rpow_le one_lt_two hpos, show (-149 : ℝ) = ((-149 : ℤ) : ℝ) by norm_num, Real.rpow_intCast]
    calc (2 : ℝ) ^ (-149 : ℤ) ≤ 1 * 2 ^ e := by rw [one_mul]; exact zpow_le_zpow_right₀ one_le_two he
      _ ≤ m * 2 ^ e := by gcongr
  have hhigh : Real.logb 2 (m * (2 : ℝ) ^ e) ≤ 128 := by
    rw [Real.logb_le_iff_le_rpow one_lt_two hpos, show (128 : ℝ) = ((128 : ℤ) : ℝ) by norm_num, Real.rpow_intCast]
    calc (m : ℝ) * 2 ^ e ≤ 2 ^ (24 : ℤ) * 2 ^ (104 : ℤ) := by
          gcongr
          exact one_le_two
      _ = _ := by rw [← zpow_add₀ two_ne_zero]; norm_num
  calc |Real.logb 2 (m * (2 : ℝ) ^ e)| ≤ 149 := abs_le.2 ⟨by linarith, by linarith⟩
    _ ≤ _ := by norm_num

/-- R46: `vrsq` of a positive value. -/
theorem rsqValue_brackets (sat : Bool) {w : Nat} (h : w < 2 ^ 32) (hf : w / 2 ^ 23 % 256 ≠ 255)
    (hx : 0 < ((fp32.decode w).rat : ℝ)) : Brackets (1 / √((fp32.decode w).rat : ℝ)) (rsqValue sat w) := by
  obtain ⟨m, e, hd, hm, hm', he, -, hvalue⟩ := fp32_decode_pos h hf hx
  obtain ⟨hholds, hnarrow⟩ := encloseRsq_spec (e := e) hm hm'
  rw [rsqValue_pos hd hm.ne', hvalue]
  have hm1 : (1 : ℝ) ≤ m := by exact_mod_cast hm
  have hlow : (2 : ℝ) ^ (-150 : ℤ) ≤ m * 2 ^ e := calc
    (2 : ℝ) ^ (-150 : ℤ) ≤ 1 * 2 ^ e := by rw [one_mul]; exact zpow_le_zpow_right₀ one_le_two (by omega)
    _ ≤ m * 2 ^ e := by gcongr
  have hroot : 1 / 2 ^ 75 ≤ √(m * (2 : ℝ) ^ e) := by
    refine Real.le_sqrt_of_sq_le (le_trans (le_of_eq ?_) hlow)
    norm_num
  have hmax : 1 / √(m * (2 : ℝ) ^ e) ≤ 2 ^ 128 * (1 - 1 / 2 ^ 22) := calc
    1 / √(m * (2 : ℝ) ^ e) ≤ 1 / (1 / 2 ^ 75) := by gcongr
    _ ≤ _ := by norm_num
  have := faithful_brackets hholds hnarrow hmax .rsq sat false 0 (w % 2 ^ 31 : Nat) false
  rwa [if_neg Bool.false_ne_true] at this

/-! ### `vsinpi` and `vcospi` -/

/-- The half-units of a magnitude, and the rest in units of 2^−(k+1), with k. -/
def halfUnits (m : Nat) (e : Int) : Nat × Nat × Nat :=
  let k := (-e).toNat
  let n : Nat := if e ≥ 0 then m <<< e.toNat else m
  (2 * n / 2 ^ k, 2 * n % 2 ^ k, k)

/-- The distance to the nearest whole number: the rest in an even half-unit, what it lacks in an odd one. -/
def nearDistance (h r k : Nat) : Nat := if h % 2 = 0 then r else 2 ^ k - r

theorem trigValue_fin {cosine sat : Bool} {w : Nat} {s : Bool} {m : Nat} {e : Int} {h r k : Nat} (hd : fp32.decode w = .fin s m e)
    (hu : halfUnits m e = (h, r, k)) : trigValue cosine sat w =
    if m = 0 then (if cosine then 0x3F800000 else fp32.signBit s)
    else if r = 0 then
      if cosine then (if h % 2 = 1 then 0 else fp32.signBit (h % 4 == 2) + 0x3F800000)
      else (if h % 2 = 0 then fp32.signBit s else fp32.signBit (s != (h % 4 == 3)) + 0x3F800000)
    else faithful (if cosine then .cospi else .sinpi) sat (if cosine then h % 4 == 1 || h % 4 == 2 else s != decide (h % 4 ≥ 2))
      (encloseTrig cosine (nearDistance h r k) (k + 1)) (2 * h + s.toNat) (w % 2 ^ 31 : Nat)
      (if cosine then h % 2 == 1 else h % 2 == 0) := by
  simp only [halfUnits, Prod.mk.injEq] at hu
  obtain ⟨rfl, rfl, rfl⟩ := hu
  unfold trigValue
  rw [hd]
  rfl

/-- A magnitude is its half-units and the rest. -/
theorem halfUnits_spec {m : Nat} {e : Int} {h r k : Nat} (hu : halfUnits m e = (h, r, k)) :
    (m : ℝ) * 2 ^ e = h / 2 + r / 2 ^ (k + 1) ∧ r < 2 ^ k := by
  simp only [halfUnits, Prod.mk.injEq] at hu
  obtain ⟨hh, hr, rfl⟩ := hu
  obtain ⟨n, hn, hvalue⟩ : ∃ n : ℕ, (if e ≥ 0 then m <<< e.toNat else m) = n ∧ (m : ℝ) * 2 ^ e = n / 2 ^ (-e).toNat := by
    refine ⟨_, rfl, ?_⟩
    split
    case isTrue he =>
      obtain ⟨j, rfl⟩ : ∃ j : ℕ, e = j := ⟨e.toNat, by omega⟩
      simp [Nat.shiftLeft_eq]
    case isFalse he =>
      obtain ⟨j, rfl⟩ : ∃ j : ℕ, e = -j := ⟨(-e).toNat, by omega⟩
      simp [div_eq_mul_inv]
  rw [hn] at hh hr
  refine ⟨?_, hr ▸ Nat.mod_lt _ (by positivity)⟩
  have hsplit : (2 * n : ℝ) = h * 2 ^ (-e).toNat + r := by
    have := Nat.div_add_mod' (2 * n) (2 ^ (-e).toNat)
    rw [hh, hr] at this
    exact_mod_cast this.symm
  rw [hvalue, pow_succ]
  field_simp
  linarith

/-- The distance is away from 0 and from a half, for a value of FP32. -/
theorem nearDistance_bounds {m : Nat} {e : Int} {h r k : Nat} (hm : m < 2 ^ 24) (he : -149 ≤ e) (hu : halfUnits m e = (h, r, k))
    (hr : r ≠ 0) : 0 < nearDistance h r k ∧ k + 1 ≤ 150 ∧ nearDistance h r k * 2 ^ 27 + 2 ^ (k + 1) ≤ 2 ^ (k + 1) * 2 ^ 26 := by
  have hrk := (halfUnits_spec hu).2
  simp only [halfUnits, Prod.mk.injEq] at hu
  obtain ⟨hh, hreq, hk⟩ := hu
  have hk149 : k ≤ 149 := by omega
  have hpos : 0 < nearDistance h r k := by unfold nearDistance; split <;> omega
  refine ⟨hpos, by omega, ?_⟩
  obtain hsmall | hlarge := Nat.lt_or_ge k 26
  · have hk26 : 2 ^ k ≤ 2 ^ 25 := Nat.pow_le_pow_right two_pos (by omega)
    have hd : nearDistance h r k + 1 ≤ 2 ^ k := by unfold nearDistance; split <;> omega
    rw [pow_succ]
    omega
  · have hn : (if e ≥ 0 then m <<< e.toNat else m) = m := if_neg (by omega)
    have hk26 : 2 ^ 26 ≤ 2 ^ k := Nat.pow_le_pow_right two_pos hlarge
    rw [hn, hk] at hh hreq
    have hlt : 2 * m < 2 ^ k := by omega
    rw [Nat.div_eq_of_lt hlt] at hh
    rw [Nat.mod_eq_of_lt hlt] at hreq
    have hd : nearDistance h r k = 2 * m := by unfold nearDistance; rw [← hh, if_pos rfl, hreq]
    rw [hd, pow_succ]
    omega

/-- A sine and a cosine of half-units of π and a rest, by the quarter in which the angle lies. -/
theorem trig_quarter (h : Nat) (φ : ℝ) :
    Real.sin (Real.pi * (h / 2) + φ) = (if h % 4 ≥ 2 then -1 else 1) * (if h % 2 = 0 then Real.sin φ else Real.cos φ) ∧
    Real.cos (Real.pi * (h / 2) + φ) =
      (if h % 4 = 1 ∨ h % 4 = 2 then -1 else 1) * (if h % 2 = 0 then Real.cos φ else Real.sin φ) := by
  induction h with
  | zero => simp
  | succ n ih =>
    obtain ⟨hs, hc⟩ := ih
    have hangle : Real.pi * ((n + 1 : ℕ) / 2) + φ = Real.pi * (n / 2) + φ + Real.pi / 2 := by push_cast; ring
    rw [hangle, Real.sin_add_pi_div_two, Real.cos_add_pi_div_two, hs, hc]
    have hcases : n % 4 = 0 ∨ n % 4 = 1 ∨ n % 4 = 2 ∨ n % 4 = 3 := by omega
    obtain h0 | h0 | h0 | h0 := hcases
    · have h1 : (n + 1) % 4 = 1 := by omega
      have h2 : n % 2 = 0 := by omega
      have h3 : (n + 1) % 2 = 1 := by omega
      simp [h0, h1, h2, h3]
    · have h1 : (n + 1) % 4 = 2 := by omega
      have h2 : n % 2 = 1 := by omega
      have h3 : (n + 1) % 2 = 0 := by omega
      simp [h0, h1, h2, h3]
    · have h1 : (n + 1) % 4 = 3 := by omega
      have h2 : n % 2 = 0 := by omega
      have h3 : (n + 1) % 2 = 1 := by omega
      simp [h0, h1, h2, h3]
    · have h1 : (n + 1) % 4 = 0 := by omega
      have h2 : n % 2 = 1 := by omega
      have h3 : (n + 1) % 2 = 0 := by omega
      simp [h0, h1, h2, h3]

/-- The sine and the cosine of the rest, changed over in an odd half-unit, are those of the distance. -/
theorem trig_nearDistance {h r k : Nat} (hr : r < 2 ^ k) :
    (if h % 2 = 0 then Real.sin (Real.pi * r / 2 ^ (k + 1)) else Real.cos (Real.pi * r / 2 ^ (k + 1))) =
        Real.sin (Real.pi * (nearDistance h r k : ℕ) / 2 ^ (k + 1)) ∧
      (if h % 2 = 0 then Real.cos (Real.pi * r / 2 ^ (k + 1)) else Real.sin (Real.pi * r / 2 ^ (k + 1))) =
        Real.cos (Real.pi * (nearDistance h r k : ℕ) / 2 ^ (k + 1)) := by
  unfold nearDistance
  by_cases hpar : h % 2 = 0
  · simp only [if_pos hpar, and_self]
  · have hangle : Real.pi * ((2 ^ k - r : ℕ) : ℝ) / 2 ^ (k + 1) = Real.pi / 2 - Real.pi * r / 2 ^ (k + 1) := by
      rw [Nat.cast_sub hr.le, pow_succ]
      push_cast
      field_simp
    simp only [if_neg hpar, hangle, Real.sin_pi_div_two_sub, Real.cos_pi_div_two_sub, and_self]

/-- The sine and the cosine of π times a finite value, from its half-units. -/
theorem trig_fin (s : Bool) {m : Nat} {e : Int} {h r k : Nat} (hu : halfUnits m e = (h, r, k)) :
    Real.sin (Real.pi * ((FVal.fin s m e).rat : ℝ)) = (if (s != decide (h % 4 ≥ 2)) = true then -1 else 1) *
        Real.sin (Real.pi * (nearDistance h r k : ℕ) / 2 ^ (k + 1)) ∧
      Real.cos (Real.pi * ((FVal.fin s m e).rat : ℝ)) = (if (h % 4 == 1 || h % 4 == 2) = true then -1 else 1) *
        Real.cos (Real.pi * (nearDistance h r k : ℕ) / 2 ^ (k + 1)) := by
  obtain ⟨hvalue, hr⟩ := halfUnits_spec hu
  obtain ⟨hsin, hcos⟩ := trig_quarter h (Real.pi * r / 2 ^ (k + 1))
  obtain ⟨hnear, hnear'⟩ := trig_nearDistance (h := h) hr
  rw [hnear] at hsin
  rw [hnear'] at hcos
  have hangle : Real.pi * ((m : ℝ) * 2 ^ e) = Real.pi * (h / 2) + Real.pi * r / 2 ^ (k + 1) := by rw [hvalue]; ring
  rw [← hangle] at hsin hcos
  rw [fin_rat_cast]
  cases s with
  | false =>
    rw [if_neg Bool.false_ne_true, hsin, hcos]
    simp
  | true =>
    rw [if_pos rfl, mul_neg, Real.sin_neg, Real.cos_neg, hsin, hcos]
    by_cases hq : h % 4 ≥ 2 <;> simp [hq]

/-- A magnitude of zero or one with a sign. -/
theorem brackets_signed_mag {r : Nat} (hr : r < 0x7F800000) (neg : Bool) :
    Brackets ((if neg = true then -1 else 1) * fp32Mag r) (fp32.signBit neg + r) := by
  have := (adjacent_self hr).brackets_signed (fp32Mag_nonneg r) neg
  cases neg <;> simpa using this

theorem brackets_signed_zero (neg : Bool) : Brackets 0 (fp32.signBit neg) := by
  have := brackets_signed_mag (r := 0) (by norm_num) neg
  rwa [fp32Mag_zero, mul_zero] at this

theorem brackets_signed_one (neg : Bool) : Brackets (if neg = true then -1 else 1) (fp32.signBit neg + 0x3F800000) := by
  have := brackets_signed_mag (r := 0x3F800000) (by norm_num) neg
  rwa [fp32Mag_one, mul_one] at this

/-- R46: `vsinpi` and `vcospi` of a finite value. -/
theorem trigValue_brackets (sat : Bool) {w : Nat} (hw : w < 2 ^ 32) (hf : w / 2 ^ 23 % 256 ≠ 255) :
    Brackets (Real.sin (Real.pi * ((fp32.decode w).rat : ℝ))) (trigValue false sat w) ∧
      Brackets (Real.cos (Real.pi * ((fp32.decode w).rat : ℝ))) (trigValue true sat w) := by
  obtain ⟨m, e, hd, hm, he, -, -, -⟩ := fp32_decode_finite hw hf
  generalize decide (2 ^ 31 ≤ w) = s at hd
  obtain ⟨⟨h, r, k⟩, hu⟩ : ∃ u, halfUnits m e = u := ⟨_, rfl⟩
  obtain ⟨hsin, hcos⟩ := trig_fin s hu
  rw [trigValue_fin hd hu, trigValue_fin hd hu, hd]
  by_cases hm0 : m = 0
  · have hzero : ((FVal.fin s m e).rat : ℝ) = 0 := by rw [fin_rat_cast, hm0]; simp
    rw [if_pos hm0, if_pos hm0, hzero, mul_zero, Real.sin_zero, Real.cos_zero, if_neg Bool.false_ne_true, if_pos rfl]
    exact ⟨brackets_signed_zero s, brackets_signed_one false⟩
  rw [if_neg hm0, if_neg hm0, hsin, hcos]
  by_cases hr : r = 0
  · rw [if_pos hr, if_pos hr, if_neg Bool.false_ne_true, if_pos rfl]
    unfold nearDistance
    rw [hr]
    by_cases hpar : h % 2 = 0
    · have hodd : ¬h % 2 = 1 := by omega
      have hneg : (h % 4 == 1 || h % 4 == 2) = (h % 4 == 2) := by
        have : (h % 4 == 1) = false := beq_eq_false_iff_ne.2 (by omega)
        rw [this, Bool.false_or]
      rw [if_pos hpar, if_neg hodd, if_pos hpar, hneg, Nat.cast_zero, mul_zero, zero_div, Real.sin_zero, Real.cos_zero, mul_zero, mul_one]
      exact ⟨brackets_signed_zero s, brackets_signed_one _⟩
    · have hodd : h % 2 = 1 := by omega
      have hhalf : Real.pi * ((2 ^ k - 0 : ℕ) : ℝ) / 2 ^ (k + 1) = Real.pi / 2 := by
        rw [pow_succ, Nat.sub_zero]
        push_cast
        field_simp
      have hneg : decide (h % 4 ≥ 2) = (h % 4 == 3) := by
        rw [Bool.eq_iff_iff, decide_eq_true_iff, beq_iff_eq]
        omega
      rw [if_neg hpar, if_pos hodd, if_neg hpar, hhalf, Real.sin_pi_div_two, Real.cos_pi_div_two, mul_zero, mul_one, hneg]
      exact ⟨brackets_signed_one _, brackets_signed_zero false⟩
  · obtain ⟨hd0, hk, hhalf⟩ := nearDistance_bounds hm he hu hr
    obtain ⟨⟨hs, hsn⟩, ⟨hc, hcn⟩⟩ := encloseTrig_spec hd0 hk hhalf
    rw [if_neg hr, if_neg hr]
    have hmax : ∀ {u : ℝ}, u ≤ 1 → u ≤ 2 ^ 128 * (1 - 1 / 2 ^ 22) := fun hu => hu.trans (by norm_num)
    have hsigned : ∀ (neg : Bool) (u : ℝ), (if neg = true then -u else u) = (if neg = true then -1 else 1) * u := by
      intro neg u
      cases neg <;> simp
    rw [← hsigned, ← hsigned]
    exact ⟨faithful_brackets hs hsn (hmax (Real.sin_le_one _)) _ _ _ _ _ _,
      faithful_brackets hc hcn (hmax (Real.cos_le_one _)) _ _ _ _ _ _⟩

end Sys2Proof.Machine
end

section
/-! The alpha code of a splat (R322): the enclosure of the exponential, and the floor that it decides. -/

namespace Sys2Proof.Machine

/-! ### Repeated squaring -/

/-- A number squared and rounded down, in units of 2^-p. -/
def squareDown (p a : Nat) : Nat := a * a / 2 ^ p
/-- A number squared and rounded up, in units of 2^-p. -/
def squareUp (p b : Nat) : Nat := b * b / 2 ^ p + 1

theorem encloseExp_eq (p num den : Nat) : encloseExp p num den =
    ((squareDown p)^[8] (expTerms p (num * 2 ^ p / (256 * den)) (p / 4 + 60) 0 (2 ^ p)),
      (squareUp p)^[8] (expTerms p (num * 2 ^ p / (256 * den) + 1) (p / 4 + 60) 0 (2 ^ p) + 3 * (p / 4 + 60))) := rfl

theorem square_scaled (p : Nat) (t : ℝ) : (2 : ℝ) ^ p * t * (2 ^ p * t) / 2 ^ p = 2 ^ p * t ^ 2 := by field_simp

theorem squareDown_iterate_bounds (p : Nat) {a : Nat} {t : ℝ} (ha : 2 ^ p ≤ a) (h : (a : ℝ) ≤ 2 ^ p * t) (n : Nat) :
    2 ^ p ≤ (squareDown p)^[n] a ∧ (((squareDown p)^[n] a : ℕ) : ℝ) ≤ 2 ^ p * t ^ 2 ^ n := by
  induction n with
  | zero => simpa using ⟨ha, h⟩
  | succ n ih =>
    obtain ⟨hlow, hhigh⟩ := ih
    rw [Function.iterate_succ_apply', pow_succ, pow_mul]
    generalize (squareDown p)^[n] a = b at hlow hhigh
    constructor
    · exact (Nat.le_div_iff_mul_le (by positivity)).2 (Nat.mul_le_mul hlow hlow)
    · calc ((squareDown p b : ℕ) : ℝ) ≤ ((b * b : ℕ) : ℝ) / (2 ^ p : ℕ) := natDiv_le_cast _ _
        _ = (b : ℝ) * b / 2 ^ p := by push_cast; rfl
        _ ≤ 2 ^ p * t ^ 2 ^ n * (2 ^ p * t ^ 2 ^ n) / 2 ^ p := by
          have hnn := (Nat.cast_nonneg b).trans hhigh
          gcongr
        _ = _ := square_scaled p _

theorem le_squareUp_iterate (p : Nat) {b : Nat} {t : ℝ} (ht : 0 ≤ t) (h : 2 ^ p * t ≤ b) (n : Nat) :
    2 ^ p * t ^ 2 ^ n ≤ (((squareUp p)^[n] b : ℕ) : ℝ) := by
  induction n with
  | zero => simpa using h
  | succ n ih =>
    rw [Function.iterate_succ_apply', pow_succ, pow_mul]
    generalize (squareUp p)^[n] b = c at ih
    calc 2 ^ p * (t ^ 2 ^ n) ^ 2 = 2 ^ p * t ^ 2 ^ n * (2 ^ p * t ^ 2 ^ n) / 2 ^ p := (square_scaled p _).symm
      _ ≤ (c : ℝ) * c / 2 ^ p := by gcongr
      _ = ((c * c : ℕ) : ℝ) / (2 ^ p : ℕ) := by push_cast; rfl
      _ ≤ ((squareUp p c : ℕ) : ℝ) := by
        unfold squareUp
        push_cast
        exact_mod_cast (cast_lt_natDiv_add_one (c * c) (b := 2 ^ p) (by positivity)).le

/-- Each squaring makes the relative error at most four times as large. -/
theorem squareUp_iterate_le (p : Nat) {b : Nat} {t δ : ℝ} (ht : 1 ≤ t) (hδ : 1 / 2 ^ p ≤ δ) (h : (b : ℝ) ≤ 2 ^ p * (t * (1 + δ)))
    (n : Nat) (hn : 4 ^ n * δ ≤ 1) : (((squareUp p)^[n] b : ℕ) : ℝ) ≤ 2 ^ p * (t ^ 2 ^ n * (1 + 4 ^ n * δ)) := by
  have hp : (0 : ℝ) < 2 ^ p := by positivity
  have hδ0 : 0 < δ := lt_of_lt_of_le (by positivity) hδ
  induction n with
  | zero => simpa using h
  | succ n ih =>
    have hn' : 4 ^ n * δ ≤ 1 := by
      rw [pow_succ] at hn
      nlinarith [(by positivity : (0 : ℝ) < 4 ^ n * δ)]
    have ih := ih hn'
    rw [Function.iterate_succ_apply', pow_succ 2 n, pow_mul]
    generalize (squareUp p)^[n] b = c at ih
    have hT : (1 : ℝ) ≤ t ^ 2 ^ n := one_le_pow₀ ht
    generalize t ^ 2 ^ n = T at ih hT ⊢
    have hε : δ ≤ 4 ^ n * δ := le_mul_of_one_le_left hδ0.le (one_le_pow₀ (by norm_num))
    rw [pow_succ 4 n, mul_right_comm]
    generalize 4 ^ n * δ = ε at hε ih hn' ⊢
    have hnn := (Nat.cast_nonneg c).trans ih
    have hgrow : (1 + ε) ^ 2 + 1 / 2 ^ p ≤ 1 + ε * 4 := by nlinarith
    calc ((squareUp p c : ℕ) : ℝ) ≤ ((c * c : ℕ) : ℝ) / (2 ^ p : ℕ) + 1 := by
          unfold squareUp
          push_cast
          gcongr
          exact_mod_cast natDiv_le_cast (c * c) (2 ^ p)
      _ = (c : ℝ) * c / 2 ^ p + 1 := by push_cast; rfl
      _ ≤ 2 ^ p * (T * (1 + ε)) * (2 ^ p * (T * (1 + ε))) / 2 ^ p + 2 ^ p * (T ^ 2 * (1 / 2 ^ p)) := by
          gcongr
          rw [mul_one_div, mul_div_cancel₀ _ hp.ne']
          exact one_le_pow₀ hT
      _ = 2 ^ p * (T ^ 2 * ((1 + ε) ^ 2 + 1 / 2 ^ p)) := by rw [square_scaled]; ring
      _ ≤ 2 ^ p * (T ^ 2 * (1 + ε * 4)) := by
          gcongr

/-! ### The exponential -/

theorem pow_le_factorial (n : Nat) : 16 ^ (n + 1) ≤ (n + 60).factorial := by
  induction n with
  | zero => decide +kernel
  | succ n ih =>
    rw [pow_succ, show n + 1 + 60 = n + 60 + 1 by ring, Nat.factorial_succ, mul_comm]
    exact Nat.mul_le_mul (by omega) ih

theorem two_pow_le_factorial (p : Nat) : 2 ^ p * 2 ≤ (p / 4 + 59 + 1).factorial := by
  refine le_trans ?_ (pow_le_factorial (p / 4))
  rw [← pow_succ, show 16 = 2 ^ 4 by norm_num, ← pow_mul]
  exact Nat.pow_le_pow_right two_pos (by omega)

/-- R322: the enclosure of the exponential of a number below 200: its ends, and how far the upper one may be above. -/
theorem encloseExp_bounds {p num den : Nat} (hp : 7 ≤ p) (hden : 0 < den) (hx : num < 200 * den) :
    2 ^ p ≤ (encloseExp p num den).1 ∧ ((encloseExp p num den).1 : ℝ) ≤ 2 ^ p * Real.exp (num / den) ∧
      2 ^ p * Real.exp (num / den) ≤ (encloseExp p num den).2 ∧
      (4 ^ 8 * ((3 * (p / 4 + 60 : ℕ) + 2 : ℝ) / 2 ^ p) ≤ 1 →
        ((encloseExp p num den).2 : ℝ) ≤ 2 ^ p * (Real.exp (num / den) * (1 + 4 ^ 8 * ((3 * (p / 4 + 60 : ℕ) + 2 : ℝ) / 2 ^ p)))) := by
  rw [encloseExp_eq]
  obtain ⟨y, hy⟩ : ∃ y, y = num * 2 ^ p / (256 * den) := ⟨_, rfl⟩
  obtain ⟨f, hf⟩ : ∃ f, f = p / 4 + 59 := ⟨_, rfl⟩
  have hfuel := two_pow_le_factorial p
  rw [← hy, show p / 4 + 60 = f + 1 by omega]
  rw [← hf] at hfuel
  have hden' : (0 : ℝ) < den := by exact_mod_cast hden
  have hp0 : (0 : ℝ) < 2 ^ p := by positivity
  have hp7 : (2 : ℝ) ^ 7 ≤ 2 ^ p := pow_le_pow_right₀ one_le_two hp
  obtain ⟨x, hxeq⟩ : ∃ x : ℝ, x = num / den / 256 := ⟨_, rfl⟩
  have hx0 : 0 ≤ x := by rw [hxeq]; positivity
  have hx1 : x ≤ 200 / 256 := by
    rw [hxeq]
    gcongr
    rw [div_le_iff₀ hden']
    exact_mod_cast hx.le
  have hexp : Real.exp (num / den) = Real.exp x ^ 2 ^ 8 := by
    rw [← Real.exp_nat_mul, hxeq]
    congr 1
    push_cast
    ring
  have hcast : ((num * 2 ^ p : ℕ) : ℝ) / (256 * den : ℕ) = 2 ^ p * x := by rw [hxeq]; push_cast; ring
  have hyle : (y : ℝ) ≤ 2 ^ p * x := by rw [hy, ← hcast]; exact natDiv_le_cast _ _
  have hylt : 2 ^ p * x < y + 1 := by rw [hy, ← hcast]; exact cast_lt_natDiv_add_one _ (by positivity)
  have hscale : ∀ z : ℕ, (z : ℝ) = 2 ^ p * ((z : ℝ) / 2 ^ p) := fun z => by field_simp
  have hy1 : ((y + 1 : ℕ) : ℝ) / 2 ^ p ≤ 1 := by
    rw [div_le_one hp0]
    push_cast
    nlinarith
  have hlowUnit : (y : ℝ) / 2 ^ p ≤ x := by rwa [div_le_iff₀ hp0, mul_comm]
  have hhighUnit : x ≤ ((y + 1 : ℕ) : ℝ) / 2 ^ p := by
    rw [le_div_iff₀ hp0, mul_comm]
    push_cast
    exact hylt.le
  obtain ⟨hlow, -⟩ := expTerms_bounds (hscale y) (by positivity) (hlowUnit.trans (by linarith)) hfuel
  obtain ⟨hup, hhigh⟩ := expTerms_bounds (hscale (y + 1)) (by positivity) hy1 hfuel
  have hfirst : 2 ^ p ≤ expTerms p y (f + 1) 0 (2 ^ p) := by
    rw [expTerms]
    exact Nat.le_add_right _ _
  rw [hexp]
  obtain ⟨h1, h2⟩ := squareDown_iterate_bounds p (t := Real.exp x) hfirst (hlow.trans (by gcongr)) 8
  have hupper : 2 ^ p * Real.exp x ≤ ((expTerms p (y + 1) (f + 1) 0 (2 ^ p) + 3 * (f + 1) : ℕ) : ℝ) := by
    have : 2 ^ p * Real.exp x ≤ 2 ^ p * Real.exp (((y + 1 : ℕ) : ℝ) / 2 ^ p) := by gcongr
    push_cast at hhigh this ⊢
    linarith [(Nat.cast_nonneg f : (0 : ℝ) ≤ f)]
  have hclose : ((expTerms p (y + 1) (f + 1) 0 (2 ^ p) + 3 * (f + 1) : ℕ) : ℝ) ≤
      2 ^ p * (Real.exp x * (1 + (3 * (f + 1 : ℕ) + 2 : ℝ) / 2 ^ p)) := by
    have hnear : ((y + 1 : ℕ) : ℝ) / 2 ^ p ≤ x + 1 / 2 ^ p := by
      push_cast
      rw [add_div]
      gcongr
    have hsmall : Real.exp (1 / 2 ^ p) ≤ 1 + 2 * (1 / 2 ^ p) := by
      have hle : (1 : ℝ) / 2 ^ p ≤ 1 := by rw [div_le_one hp0]; linarith
      have habs := Real.abs_exp_sub_one_le (x := 1 / 2 ^ p) (by rwa [abs_of_pos (by positivity)])
      rw [abs_of_pos (by positivity : (0 : ℝ) < 1 / 2 ^ p)] at habs
      linarith [(abs_le.1 habs).2]
    have hexp' : Real.exp (((y + 1 : ℕ) : ℝ) / 2 ^ p) ≤ Real.exp x * (1 + 2 * (1 / 2 ^ p)) := calc
      Real.exp (((y + 1 : ℕ) : ℝ) / 2 ^ p) ≤ Real.exp (x + 1 / 2 ^ p) := Real.exp_le_exp.2 hnear
      _ = Real.exp x * Real.exp (1 / 2 ^ p) := Real.exp_add _ _
      _ ≤ _ := by gcongr
    have hexp1 : (1 : ℝ) ≤ Real.exp x := Real.one_le_exp hx0
    calc ((expTerms p (y + 1) (f + 1) 0 (2 ^ p) + 3 * (f + 1) : ℕ) : ℝ)
        = (expTerms p (y + 1) (f + 1) 0 (2 ^ p) : ℝ) + 3 * (f + 1 : ℕ) := by push_cast; ring
      _ ≤ 2 ^ p * (Real.exp x * (1 + 2 * (1 / 2 ^ p))) + Real.exp x * (3 * (f + 1 : ℕ)) := by
          refine add_le_add (hup.trans (by gcongr)) (le_mul_of_one_le_left (by positivity) hexp1)
      _ = _ := by field_simp; ring
  have h3 := le_squareUp_iterate p (Real.exp_pos x).le hupper 8
  have h4 := squareUp_iterate_le p (Real.one_le_exp hx0) (by
    gcongr
    linarith [(Nat.cast_nonneg (f + 1) : (0 : ℝ) ≤ (f + 1 : ℕ))]) hclose 8
  exact ⟨h1, h2, h3, h4⟩

/-! ### The alpha code -/

/-- What one precision decides: the floor with the upper end of the enclosure, which is at most the true one, and that with the lower
end, which is at least it. -/
theorem alphaQuotient_bounds {p an ad num den : Nat} (hp : 7 ≤ p) (had : 0 < ad) (hden : 0 < den) (hx : num < 200 * den) :
    let y : ℝ := 256 * ((an : ℝ) / ad) / Real.exp (num / den)
    ((256 * an * 2 ^ p / (ad * (encloseExp p num den).2) : ℕ) : ℝ) ≤ y ∧
      y < ((256 * an * 2 ^ p / (ad * (encloseExp p num den).1) : ℕ) : ℝ) + 1 ∧
      (4 ^ 8 * ((3 * (p / 4 + 60 : ℕ) + 2 : ℝ) / 2 ^ p) ≤ 1 →
        y < (((256 * an * 2 ^ p / (ad * (encloseExp p num den).2) : ℕ) : ℝ) + 1) * (1 + 4 ^ 8 * ((3 * (p / 4 + 60 : ℕ) + 2 : ℝ) / 2 ^ p))) := by
  intro y
  obtain ⟨hbig, hlow, hhigh, hclose⟩ := encloseExp_bounds hp hden hx
  generalize encloseExp p num den = c at hbig hlow hhigh hclose ⊢
  have hE : 0 < Real.exp ((num : ℝ) / den) := Real.exp_pos _
  have hy : y = 256 * ((an : ℝ) / ad) / Real.exp (num / den) := rfl
  generalize Real.exp ((num : ℝ) / den) = E at hlow hhigh hclose hE hy
  have had' : (0 : ℝ) < ad := by exact_mod_cast had
  have hp0 : (0 : ℝ) < 2 ^ p := by positivity
  have hc1 : 0 < c.1 := lt_of_lt_of_le (by positivity) hbig
  have hc1' : (0 : ℝ) < c.1 := by exact_mod_cast hc1
  have hc2' : (0 : ℝ) < c.2 := lt_of_lt_of_le (by positivity) hhigh
  have hc2 : 0 < c.2 := by exact_mod_cast hc2'
  have hyE : y = 256 * an * 2 ^ p / (ad * (2 ^ p * E)) := by rw [hy]; field_simp
  have hcast : ∀ d : ℕ, ((256 * an * 2 ^ p : ℕ) : ℝ) / (ad * d : ℕ) = 256 * an * 2 ^ p / (ad * d) := fun d => by push_cast; rfl
  refine ⟨?_, ?_, fun hδ => ?_⟩
  · refine (natDiv_le_cast _ _).trans ?_
    rw [hcast, hyE]
    gcongr
  · refine lt_of_le_of_lt ?_ (cast_lt_natDiv_add_one (256 * an * 2 ^ p) (b := ad * c.1) (by positivity))
    rw [hcast, hyE]
    gcongr
  · have hquot := cast_lt_natDiv_add_one (256 * an * 2 ^ p) (b := ad * c.2) (by positivity)
    rw [hcast] at hquot
    have hclose := hclose hδ
    have hδ0 : (0 : ℝ) < 1 + 4 ^ 8 * ((3 * (p / 4 + 60 : ℕ) + 2 : ℝ) / 2 ^ p) := by positivity
    generalize 1 + 4 ^ 8 * ((3 * (p / 4 + 60 : ℕ) + 2 : ℝ) / 2 ^ p) = D at hclose hδ0 ⊢
    calc y = 256 * an * 2 ^ p / (ad * (2 ^ p * (E * D))) * D := by rw [hyE]; field_simp
      _ ≤ 256 * an * 2 ^ p / (ad * c.2) * D := by gcongr
      _ < _ := by gcongr

theorem alphaFloor_single (an ad num den q : Nat) :
    alphaFloor an ad num den [q] = 256 * an * 2 ^ q / (ad * (encloseExp q num den).2) := by
  simp [alphaFloor]

theorem alphaFloor_cons (an ad num den p : Nat) {r : List Nat} (hr : r ≠ []) : alphaFloor an ad num den (p :: r) =
    if 256 * an * 2 ^ p / (ad * (encloseExp p num den).2) = 256 * an * 2 ^ p / (ad * (encloseExp p num den).1) then
      256 * an * 2 ^ p / (ad * (encloseExp p num den).2) else alphaFloor an ad num den r := by
  rw [alphaFloor]
  exact hr

/-- R322: the floor that a list of rising precisions decides: the true one, or that of the last precision. -/
theorem alphaFloor_cases {an ad num den : Nat} (had : 0 < ad) (hden : 0 < den) (hx : num < 200 * den) (l : List Nat) (q : Nat)
    (hl : ∀ p ∈ l ++ [q], 7 ≤ p) :
    let y : ℝ := 256 * ((an : ℝ) / ad) / Real.exp (num / den)
    (alphaFloor an ad num den (l ++ [q]) : ℝ) ≤ y ∧ (y < alphaFloor an ad num den (l ++ [q]) + 1 ∨
      alphaFloor an ad num den (l ++ [q]) = 256 * an * 2 ^ q / (ad * (encloseExp q num den).2)) := by
  intro y
  induction l with
  | nil =>
    rw [List.nil_append, alphaFloor_single]
    exact ⟨(alphaQuotient_bounds (hl q (by simp)) had hden hx).1, .inr rfl⟩
  | cons p l ih =>
    obtain ⟨hle, hlt, -⟩ := alphaQuotient_bounds (an := an) (hl p (by simp)) had hden hx
    rw [List.cons_append, alphaFloor_cons _ _ _ _ _ (by simp)]
    split
    case isTrue hsame => exact ⟨hle, .inl (by rw [hsame]; exact hlt)⟩
    case isFalse => exact ih fun r hr => hl r (List.mem_cons_of_mem _ hr)

/-- The relative error at the last precision is far below the slack of the statement. -/
theorem alpha_slack : (256 : ℝ) * (4 ^ 8 * ((3 * (8192 / 4 + 60 : ℕ) + 2 : ℝ) / 2 ^ 8192)) ≤ 1 / 2 ^ 1000 := by
  have hfuel : (256 : ℝ) * (4 ^ 8 * (3 * (8192 / 4 + 60 : ℕ) + 2)) ≤ 2 ^ 40 := by norm_num
  have hpow : (2 : ℝ) ^ 40 * 2 ^ 1000 ≤ 2 ^ 8192 := by
    rw [← pow_add]
    exact pow_le_pow_right₀ one_le_two (by norm_num)
  rw [mul_div_assoc', mul_div_assoc', div_le_div_iff₀ (pow_pos two_pos _) (pow_pos two_pos _), one_mul]
  exact (mul_le_mul_of_nonneg_right hfuel (pow_pos two_pos _).le).trans hpow

/-- R322: the floor that the four precisions decide, cut off at 255. -/
theorem alphaFloor_accuracy {an ad num den : Nat} (had : 0 < ad) (hden : 0 < den) (hx : num < 200 * den) :
    let y : ℝ := 256 * ((an : ℝ) / ad) / Real.exp (num / den)
    let a8 := min 255 (alphaFloor an ad num den [128, 512, 2048, 8192])
    (a8 : ℝ) ≤ y ∧ a8 ≤ 255 ∧ (a8 = 255 ∨ y < a8 + 1 + 1 / 2 ^ 1000) := by
  intro y a8
  obtain ⟨hle, hcases⟩ := alphaFloor_cases (an := an) had hden hx [128, 512, 2048] 8192 (by decide)
  rw [List.cons_append, List.cons_append, List.cons_append, List.nil_append] at hle hcases
  have hpos : (0 : ℝ) < 1 / 2 ^ 1000 := by positivity
  have hmin : (a8 : ℝ) ≤ (alphaFloor an ad num den [128, 512, 2048, 8192] : ℕ) := by exact_mod_cast min_le_right _ _
  refine ⟨hmin.trans hle, min_le_left _ _, or_iff_not_imp_left.2 fun hne => ?_⟩
  have hsmall : alphaFloor an ad num den [128, 512, 2048, 8192] < 255 := by omega
  have ha8 : a8 = alphaFloor an ad num den [128, 512, 2048, 8192] := min_eq_right hsmall.le
  rw [ha8]
  obtain hlt | hlast := hcases
  · exact hlt.trans (lt_add_of_pos_right _ hpos)
  · have hslack := alpha_slack
    obtain ⟨-, -, hclose⟩ := alphaQuotient_bounds (p := 8192) (an := an) (by norm_num) had hden hx
    have hε : (1 : ℝ) / 2 ^ 1000 ≤ 1 := by
      rw [div_le_one (pow_pos two_pos _)]
      exact one_le_pow₀ one_le_two
    rw [← hlast] at hclose
    generalize 4 ^ 8 * ((3 * (8192 / 4 + 60 : ℕ) + 2 : ℝ) / 2 ^ 8192) = δ at hslack hclose
    generalize (1 : ℝ) / 2 ^ 1000 = ε at hslack hε hpos ⊢
    generalize alphaFloor an ad num den [128, 512, 2048, 8192] = A at hclose hsmall ⊢
    have hA : (A : ℝ) + 1 ≤ 255 := by exact_mod_cast hsmall
    have hA0 : (0 : ℝ) ≤ A := Nat.cast_nonneg A
    have hδ : δ ≤ 1 := by linarith
    have := hclose hδ
    nlinarith

/-- A finite value without a sign as a fraction. -/
theorem frac_spec (m : Nat) (e : Int) : ∃ an ad : Nat, (FVal.fin false m e).frac = ((an : Int), ad) ∧ 0 < ad ∧
    (m : ℝ) * 2 ^ e = (an : ℝ) / ad ∧ (an = 0 ↔ m = 0) := by
  by_cases he : e ≥ 0
  · obtain ⟨n, rfl⟩ : ∃ n : ℕ, e = n := ⟨e.toNat, by omega⟩
    refine ⟨m * 2 ^ n, 1, ?_, one_pos, by simp, by simp⟩
    simp [FVal.frac]
  · obtain ⟨n, rfl⟩ : ∃ n : ℕ, e = -n := ⟨(-e).toNat, by omega⟩
    refine ⟨m, 2 ^ n, ?_, by positivity, by simp [div_eq_mul_inv], Iff.rfl⟩
    simp [FVal.frac, show ¬(n = 0) by omega]

/-- R322: the alpha code of a finite value that is not negative. -/
theorem alphaCode_accuracy {m : Nat} {e : Int} (hm : m < 2 ^ 24) (he : e ≤ 104) (q : Nat) {r : Nat} (hr : 0 < r) :
    let y : ℝ := 256 * ((m : ℝ) * 2 ^ e) * Real.exp (-((q : ℝ) / r) / 2)
    let a8 := alphaCode (.fin false m e) q r
    (a8 : ℝ) ≤ y ∧ a8 ≤ 255 ∧ (a8 = 255 ∨ y < a8 + 1 + 1 / 2 ^ 1000) := by
  intro y a8
  obtain ⟨an, ad, hfrac, had, hvalue, hzero⟩ := frac_spec m e
  have had' : (0 : ℝ) < ad := by exact_mod_cast had
  have hr' : (0 : ℝ) < r := by exact_mod_cast hr
  have hpos : (0 : ℝ) < 1 / 2 ^ 1000 := by positivity
  have hcode : a8 = if (an : Int) ≤ 0 then 0 else if q = 0 then min 255 (256 * an / ad)
      else if q ≥ 400 * r then 0 else min 255 (alphaFloor an ad q (2 * r) [128, 512, 2048, 8192]) := by
    simp only [a8, alphaCode, hfrac, Int.toNat_natCast]
  have hy : y = 256 * ((an : ℝ) / ad) / Real.exp ((q : ℝ) / (2 * r : ℕ)) := by
    rw [show y = 256 * ((m : ℝ) * 2 ^ e) * Real.exp (-((q : ℝ) / r) / 2) from rfl, hvalue, div_eq_mul_inv _ (Real.exp _), ← Real.exp_neg]
    congr 2
    push_cast
    field_simp
  have hy0 : 0 ≤ y := by rw [hy]; positivity
  rw [hcode]
  clear hcode a8
  split
  case isTrue h =>
    have : an = 0 := by omega
    rw [hy, this]
    refine ⟨by simp, by norm_num, .inr ?_⟩
    generalize (1 : ℝ) / 2 ^ 1000 = ε at hpos ⊢
    simp only [Nat.cast_zero, zero_div, mul_zero]
    linarith
  case isFalse h =>
  split
  case isTrue hq =>
    have hyfloor : y = ((256 * an : ℕ) : ℝ) / ad := by
      rw [hy, hq]
      push_cast
      rw [zero_div, Real.exp_zero]
      ring
    have hle := natDiv_le_cast (256 * an) ad
    have hlt := cast_lt_natDiv_add_one (256 * an) had
    rw [← hyfloor] at hle hlt
    refine ⟨(by exact_mod_cast min_le_right _ _ : ((min 255 (256 * an / ad) : ℕ) : ℝ) ≤ (256 * an / ad : ℕ)).trans hle, min_le_left _ _, ?_⟩
    obtain hbig | hsmall := le_or_gt 255 (256 * an / ad)
    · exact .inl (min_eq_left hbig)
    · rw [min_eq_right hsmall.le]
      exact .inr (hlt.trans (lt_add_of_pos_right _ hpos))
  case isFalse hq =>
  split
  case isTrue hbig =>
    refine ⟨by exact_mod_cast hy0, by norm_num, .inr ?_⟩
    have hvalue' : (an : ℝ) / ad ≤ 2 ^ 128 := by
      rw [← hvalue]
      have hm' : (m : ℝ) ≤ 2 ^ 24 := by exact_mod_cast hm.le
      calc (m : ℝ) * 2 ^ e ≤ 2 ^ 24 * 2 ^ (104 : ℤ) := by gcongr; exact one_le_two
        _ = _ := by norm_num
    have hexp : (2 : ℝ) ^ 200 ≤ Real.exp ((q : ℝ) / (2 * r : ℕ)) := by
      have hq200 : ((200 : ℕ) : ℝ) ≤ (q : ℝ) / (2 * r : ℕ) := by
        rw [le_div_iff₀ (by positivity)]
        exact_mod_cast (by omega : 200 * (2 * r) ≤ q)
      calc (2 : ℝ) ^ 200 ≤ Real.exp 1 ^ 200 := by gcongr; linarith [Real.exp_one_gt_d9]
        _ = Real.exp ((200 : ℕ) : ℝ) := by rw [← Real.exp_nat_mul, mul_one]
        _ ≤ _ := Real.exp_le_exp.2 hq200
    have hyle : y ≤ 256 * 2 ^ 128 / 2 ^ 200 := by
      rw [hy]
      gcongr
    have hone : (256 : ℝ) * 2 ^ 128 / 2 ^ 200 < 1 := by norm_num
    generalize (1 : ℝ) / 2 ^ 1000 = ε at hpos ⊢
    rw [Nat.cast_zero, zero_add]
    linarith
  case isFalse hbig =>
    have := alphaFloor_accuracy (an := an) (num := q) had (by omega : 0 < 2 * r) (by omega)
    rw [hy]
    exact this

end Sys2Proof.Machine
end

section
/-! The faithful special functions and the alpha code (R46, R322). -/

namespace Sys2Proof.Machine

/-- Settles O34: each function chooses from a narrow enclosure of the true result, which brackets it; the alpha code is the floor that an
enclosure of the exponential decides. -/
theorem specialAccuracy : Obligations.SpecialAccuracy := by
  unfold Obligations.SpecialAccuracy
  refine ⟨fun sat w hw hf => ?_, fun w q r hw hf hr => ?_⟩
  · exact ⟨exp2Value_brackets sat hw hf, fun hx => ⟨log2Value_brackets sat hw hf hx, rsqValue_brackets sat hw hf hx⟩,
      trigValue_brackets sat hw hf⟩
  · obtain ⟨m, e, hd, hm, -, he, -, -⟩ := fp32_decode_finite (hw.trans (by norm_num)) hf
    rw [decide_eq_false (by omega)] at hd
    rw [hd, fin_rat_cast, if_neg Bool.false_ne_true]
    exact alphaCode_accuracy hm he q hr

end Sys2Proof.Machine
end

section
/-! The vector special functions: how they end, and what each gives for the inputs that the spec lists (R47, R48, R207). -/

namespace Sys2Proof.Machine

/-! ### The end of a vector instruction -/

/-- THE end of a vector instruction: its writes made, or kept for its last beat. -/
theorem vectorEnded_vfinish (s : State) (four : Bool) (ws : VWrites) : VectorEnded s four ws (s.vfinish four ws) := by
  cases four with
  | false => exact passed_setTh s (u := s.th.marked.vput ws) (w := s.th.present.advance.vput ws) rfl rfl rfl
  | true =>
    exact passed_setTh s (u := { s.th.marked with beats := some ⟨3, ws⟩ })
      (w := { s.th.present.advance with beats := some ⟨3, ws⟩ }) rfl rfl rfl

/-- R207: each special function issues its value for the active elements. -/
theorem exec_vectorSpecial {s : State} {i : Instr} {p d a : Field} {f : Bool → Nat → Nat}
    (h : vectorSpecial (statRm s.th.stat) i = some (p, d, a, f)) : exec i s = issue s (s.vspecial p d a (f (statSat s.th.stat))) := by
  cases i
  case vexp2 | vlog2 | vrcp | vrsq | vsqrt | vsinpi | vcospi =>
    obtain ⟨rfl, rfl, rfl, rfl⟩ : _ ∧ _ ∧ _ ∧ _ := by simpa only [vectorSpecial, Option.some.injEq, Prod.mk.injEq] using h
    rfl
  all_goals exact nomatch h

/-! ### Values that FP32 holds -/

/-- A rational number that FP32 holds is what an encoding that brackets it stands for. -/
theorem Brackets.rat_eq {y : ℚ} {r n : Nat} (h : Brackets (y : ℝ) r) (hn : n < 0x7F800000) (hy : fp32Mag n = |(y : ℝ)|) :
    r < 2 ^ 32 ∧ r / 2 ^ 23 % 256 ≠ 255 ∧ (fp32.decode r).rat = y := by
  obtain ⟨⟨hr, hrf⟩, hw⟩ := brackets_iff.1 h
  have hself : ((fp32.decode r).rat : ℝ) = y := by
    obtain hneg | hpos := lt_or_ge (y : ℝ) 0
    · refine (hw (n + 2 ^ 31) (by omega) (by omega)).2.2 ?_
      rw [fp32_rat_cast (by omega) (by omega), if_pos (by omega), show (n + 2 ^ 31) % 2 ^ 31 = n by omega, hy, abs_of_neg hneg]
      ring
    · refine (hw n (by omega) (by omega)).2.2 ?_
      rw [fp32_rat_of_lt hn, hy, abs_of_nonneg hpos]
  exact ⟨hr, hrf, by exact_mod_cast hself⟩

theorem fp32_infBits (sat neg : Bool) : fp32.infBits sat neg = (if neg then 0x80000000 else 0) + (if sat then 0x7F7FFFFF else 0x7F800000) := by
  cases sat <;> cases neg <;> decide

/-- An FP32 value lies strictly between 2⁻¹⁵⁰ and 2¹²⁸ in magnitude, or is zero. -/
theorem fp32_value_range {m : Nat} {e : Int} (hm : 0 < m) (hm' : m < 2 ^ 24) (he : -149 ≤ e) (he' : e ≤ 104) :
    (2 : ℝ) ^ (-150 : ℤ) < m * 2 ^ e ∧ (m : ℝ) * 2 ^ e < 2 ^ (128 : ℤ) := by
  have h1 : (1 : ℝ) ≤ m := by exact_mod_cast hm
  have h2 : (m : ℝ) < 2 ^ (24 : ℤ) := by exact_mod_cast hm'
  constructor
  · calc (2 : ℝ) ^ (-150 : ℤ) < 2 ^ e := zpow_lt_zpow_right₀ one_lt_two (by omega)
      _ = 1 * 2 ^ e := (one_mul _).symm
      _ ≤ m * 2 ^ e := by gcongr
  · calc (m : ℝ) * 2 ^ e < 2 ^ (24 : ℤ) * 2 ^ e := by gcongr
      _ = 2 ^ (24 + e) := (zpow_add₀ two_ne_zero _ _).symm
      _ ≤ _ := zpow_le_zpow_right₀ one_le_two (by omega)

/-! ### Inputs that are not finite, zeros, and negative inputs -/

section
variable (sat : Bool) {w : Nat}

theorem special_nan (h : fp32.decode w = .nan) : exp2Value sat w = 0x7FC00000 ∧ log2Value sat w = 0x7FC00000 ∧
    rsqValue sat w = 0x7FC00000 ∧ trigValue false sat w = 0x7FC00000 ∧ trigValue true sat w = 0x7FC00000 := by
  simp only [exp2Value, log2Value, rsqValue, trigValue, h]
  decide

theorem special_inf_pos (h : fp32.decode w = .inf false) : exp2Value sat w = fp32.infBits sat false ∧
    log2Value sat w = fp32.infBits sat false ∧ rsqValue sat w = 0 ∧ trigValue false sat w = 0x7FC00000 ∧
    trigValue true sat w = 0x7FC00000 := by
  simp only [exp2Value, log2Value, rsqValue, trigValue, h]
  exact ⟨rfl, rfl, rfl, by decide, by decide⟩

theorem special_inf_neg (h : fp32.decode w = .inf true) : exp2Value sat w = 0 ∧ log2Value sat w = 0x7FC00000 ∧
    rsqValue sat w = 0x7FC00000 ∧ trigValue false sat w = 0x7FC00000 ∧ trigValue true sat w = 0x7FC00000 := by
  simp only [exp2Value, log2Value, rsqValue, trigValue, h, if_true, true_and]
  decide

theorem special_zero {s : Bool} {e : Int} (h : fp32.decode w = .fin s 0 e) : exp2Value sat w = 0x3F800000 ∧
    log2Value sat w = fp32.infBits sat true ∧ rsqValue sat w = fp32.infBits sat s ∧ trigValue false sat w = fp32.signBit s ∧
    trigValue true sat w = 0x3F800000 := by
  simp only [exp2Value, log2Value, rsqValue, trigValue, h]
  exact ⟨rfl, rfl, rfl, rfl, rfl⟩

theorem special_negative {m : Nat} {e : Int} (h : fp32.decode w = .fin true m e) (hm : m ≠ 0) :
    log2Value sat w = 0x7FC00000 ∧ rsqValue sat w = 0x7FC00000 := by
  simp only [log2Value, rsqValue, h, if_neg hm, if_true, and_self]
  decide

/-! ### `vexp2` -/

theorem exp2Value_overflow {s : Bool} {m : Nat} {e : Int} (h : fp32.decode w = .fin s m e) (hx : 128 ≤ ((FVal.fin s m e).rat : ℝ)) :
    exp2Value sat w = fp32.infBits sat false := by
  obtain ⟨hparts, hfrac⟩ := rat_eq_parts s m e
  have hfrac1 : (fractionPart s m e : ℝ) / 2 ^ (-e).toNat < 1 := by
    rw [div_lt_one (by positivity)]
    exact_mod_cast hfrac
  have hm : m ≠ 0 := by
    rintro rfl
    rw [fin_rat_cast] at hx
    norm_num at hx
  have hbig : wholePart s m e ≥ 128 := by
    have : (127 : ℝ) < wholePart s m e := by linarith
    have : (127 : ℤ) < wholePart s m e := by exact_mod_cast this
    omega
  rw [exp2Value_fin h, if_neg hm, if_pos hbig]

theorem exp2Value_underflow {s : Bool} {m : Nat} {e : Int} (h : fp32.decode w = .fin s m e) (hx : ((FVal.fin s m e).rat : ℝ) < -150) :
    exp2Value sat w = 0 := by
  obtain ⟨hparts, -⟩ := rat_eq_parts s m e
  have hfrac0 : (0 : ℝ) ≤ (fractionPart s m e : ℝ) / 2 ^ (-e).toNat := by positivity
  have hm : m ≠ 0 := by
    rintro rfl
    rw [fin_rat_cast] at hx
    norm_num at hx
  have hsmall : wholePart s m e < -150 := by
    have : (wholePart s m e : ℝ) < -150 := by linarith
    exact_mod_cast this
  rw [exp2Value_fin h, if_neg hm, if_neg (by omega), if_neg (by omega), if_pos hsmall]

theorem exp2Value_least {s : Bool} {m : Nat} {e : Int} (h : fp32.decode w = .fin s m e) (hx : -150 ≤ ((FVal.fin s m e).rat : ℝ))
    (hx' : ((FVal.fin s m e).rat : ℝ) < -149) : exp2Value sat w = 0 ∨ exp2Value sat w = 1 := by
  obtain ⟨hparts, hfrac⟩ := rat_eq_parts s m e
  have hfrac1 : (fractionPart s m e : ℝ) / 2 ^ (-e).toNat < 1 := by
    rw [div_lt_one (by positivity)]
    exact_mod_cast hfrac
  have hfrac0 : (0 : ℝ) ≤ (fractionPart s m e : ℝ) / 2 ^ (-e).toNat := by positivity
  have hm : m ≠ 0 := by
    rintro rfl
    rw [fin_rat_cast] at hx'
    norm_num at hx'
  have hwhole : wholePart s m e = -150 := by
    have h1 : (-151 : ℝ) < wholePart s m e := by linarith
    have h2 : (wholePart s m e : ℝ) < -149 := by linarith
    have h1' : (-151 : ℤ) < wholePart s m e := by exact_mod_cast h1
    have h2' : wholePart s m e < (-149 : ℤ) := by exact_mod_cast h2
    omega
  rw [exp2Value_fin h, if_neg hm, if_neg (by omega), if_neg (by omega), if_neg (by omega), if_pos hwhole]
  exact faithful_least .exp2 sat 0 (w % 2 ^ 31 : Nat) false

/-! ### `vlog2` and `vrsq` of powers -/

/-- R48: `vlog2` of one is +0. -/
theorem log2Value_one {m : Nat} {e : Int} (h : fp32.decode w = .fin false m e) (hm : 0 < m) (hm' : m < 2 ^ 24)
    (hx : (m : ℝ) * 2 ^ e = 1) : log2Value sat w = 0 := by
  obtain ⟨hholds, hnarrow, hsign⟩ := encloseLog2_spec (e := e) hm hm'
  rw [hx, Real.logb_one, abs_zero] at hholds
  rw [hx, Real.logb_one, decide_eq_false (lt_irrefl _)] at hsign
  have hhi : ((encloseLog2 m e).2.hi : ℝ) * 2 ^ (encloseLog2 m e).2.e ≤ fp32Mag 0x7F7FFFFF := by
    obtain ⟨hlo, -⟩ | ⟨hsame, heq⟩ := hholds
    · exact absurd hlo (not_lt.2 (by positivity))
    · rw [← hsame, ← heq]
      exact fp32Mag_nonneg _
  obtain ⟨r, hr, hadj⟩ := faithful_adjacent hholds hnarrow hhi .log2 sat (encloseLog2 m e).1 0 (w % 2 ^ 31 : Nat) (!(encloseLog2 m e).1)
  have hr0 : r = 0 := Nat.eq_zero_of_not_pos fun hpos => absurd (hadj.below 0 hpos) (by rw [fp32Mag_zero]; exact lt_irrefl _)
  rw [log2Value_pos h hm.ne', hr, hr0, hsign]
  rfl

end

section
variable {sat : Bool} {w : Nat} (hw : w < 2 ^ 32) (hf : w / 2 ^ 23 % 256 ≠ 255) {n : Int}
include hw hf

/-- A finite encoding of zero is its sign bit alone. -/
theorem fp32_decode_zero (hx : (fp32.decode w).rat = 0) : ∃ e, fp32.decode w = .fin (decide (w ≥ 2 ^ 31)) 0 e ∧
    fp32.signBit (decide (w ≥ 2 ^ 31)) = w := by
  obtain ⟨m, e, hd, -, -, -, hparts, hfull⟩ := fp32_decode_finite hw hf
  have hm : m = 0 := by
    have hmag := fin_rat_cast (decide (2 ^ 31 ≤ w)) m e
    rw [← hd, hx, Rat.cast_zero] at hmag
    have hzero : (m : ℝ) * 2 ^ e = 0 := by split at hmag <;> linarith
    exact_mod_cast (mul_eq_zero.1 hzero).resolve_right (by positivity)
  refine ⟨e, hm ▸ hd, ?_⟩
  rw [hm] at hparts hfull
  by_cases hs : 2 ^ 31 ≤ w
  · rw [decide_eq_true hs]
    change 2 ^ 31 = w
    omega
  · rw [decide_eq_false hs]
    change 0 = w
    omega

/-- A negative finite encoding decodes with its sign and a significand. -/
theorem fp32_decode_neg (hx : (fp32.decode w).rat < 0) : ∃ m e, fp32.decode w = .fin true m e ∧ m ≠ 0 := by
  obtain ⟨m, e, hd, -⟩ := fp32_decode_finite hw hf
  have hmag := fin_rat_cast (decide (2 ^ 31 ≤ w)) m e
  rw [← hd] at hmag
  have hneg : (((fp32.decode w).rat : ℚ) : ℝ) < 0 := by exact_mod_cast hx
  have hnn : (0 : ℝ) ≤ m * 2 ^ e := by positivity
  by_cases hs : decide (2 ^ 31 ≤ w) = true
  · refine ⟨m, e, hs ▸ hd, ?_⟩
    rintro rfl
    simp [hmag] at hneg
  · rw [if_neg hs] at hmag
    linarith

/-- R48: `vexp2` of a whole number is its power of two. -/
theorem exp2Value_whole (hx : (fp32.decode w).rat = n) (hn : -149 ≤ n) (hn' : n < 128) :
    exp2Value sat w < 2 ^ 32 ∧ exp2Value sat w / 2 ^ 23 % 256 ≠ 255 ∧ (fp32.decode (exp2Value sat w)).rat = 2 ^ n := by
  obtain ⟨k, hk, hmag⟩ := exists_fp32_pow2 hn hn'
  have hbr := exp2Value_brackets sat hw hf (by rw [hx]; exact_mod_cast hn')
  rw [hx, Rat.cast_intCast, Real.rpow_intCast] at hbr
  have hcast : (((2 : ℚ) ^ n : ℚ) : ℝ) = 2 ^ n := by rw [Rat.cast_zpow, Rat.cast_ofNat]
  rw [← hcast] at hbr hmag
  exact hbr.rat_eq hk (by rw [hmag, abs_of_pos (hcast ▸ by positivity)])

/-- A power of two that FP32 holds is from 2⁻¹⁴⁹ to 2¹²⁷. -/
theorem fp32_pow_range (hx : ((fp32.decode w).rat : ℝ) = 2 ^ n) : -150 < n ∧ n < 128 := by
  obtain ⟨m, e, -, hm, hm', he, he', hvalue⟩ := fp32_decode_pos hw hf (by rw [hx]; positivity)
  obtain ⟨hlow, hhigh⟩ := fp32_value_range hm hm' he he'
  rw [← hvalue, hx] at hlow hhigh
  exact ⟨(zpow_lt_zpow_iff_right₀ one_lt_two).1 hlow, (zpow_lt_zpow_iff_right₀ one_lt_two).1 hhigh⟩

/-- R48: `vlog2` of a power of two is its exponent. -/
theorem log2Value_pow (hx : (fp32.decode w).rat = 2 ^ n) : (log2Value sat w < 2 ^ 32 ∧ log2Value sat w / 2 ^ 23 % 256 ≠ 255 ∧
    (fp32.decode (log2Value sat w)).rat = n) ∧ (n = 0 → log2Value sat w = 0) := by
  have hreal : ((fp32.decode w).rat : ℝ) = 2 ^ n := by rw [hx, Rat.cast_zpow, Rat.cast_ofNat]
  have hpos : 0 < ((fp32.decode w).rat : ℝ) := by rw [hreal]; positivity
  obtain ⟨hlow, hhigh⟩ := fp32_pow_range hw hf hreal
  constructor
  · obtain ⟨k, hk, hmag⟩ := exists_fp32_exact (k := n.natAbs) (e := 0) (by omega) (by norm_num) (by
      rw [zpow_zero, mul_one]
      have : (n.natAbs : ℝ) ≤ 150 := by exact_mod_cast (by omega : n.natAbs ≤ 150)
      exact this.trans_lt (by norm_num))
    have hbr := log2Value_brackets sat hw hf hpos
    rw [hreal, ← Real.rpow_intCast, Real.logb_rpow two_pos (by norm_num), ← Rat.cast_intCast] at hbr
    refine hbr.rat_eq hk ?_
    rw [hmag, zpow_zero, mul_one, Rat.cast_intCast, Nat.cast_natAbs, Int.cast_abs]
  · rintro rfl
    obtain ⟨m, e, hd, hm, hm', -, -, hvalue⟩ := fp32_decode_pos hw hf hpos
    exact log2Value_one sat hd hm hm' (by rw [← hvalue, hreal, zpow_zero])

/-- R48: `vrsq` of a power of four is a power of two. -/
theorem rsqValue_pow (hx : (fp32.decode w).rat = 4 ^ n) : rsqValue sat w < 2 ^ 32 ∧ rsqValue sat w / 2 ^ 23 % 256 ≠ 255 ∧
    (fp32.decode (rsqValue sat w)).rat = 2 ^ (-n) := by
  have hreal : ((fp32.decode w).rat : ℝ) = 2 ^ (2 * n) := by
    rw [hx, Rat.cast_zpow, Rat.cast_ofNat, zpow_mul]
    norm_num
  obtain ⟨hlow, hhigh⟩ := fp32_pow_range hw hf hreal
  obtain ⟨k, hk, hmag⟩ := exists_fp32_pow2 (i := -n) (by omega) (by omega)
  have hbr := rsqValue_brackets sat hw hf (by rw [hreal]; positivity)
  have hroot : √((2 : ℝ) ^ (2 * n)) = 2 ^ n := by
    rw [two_mul, zpow_add₀ two_ne_zero, Real.sqrt_mul_self (by positivity)]
  have hcast : (((2 : ℚ) ^ (-n) : ℚ) : ℝ) = 2 ^ (-n) := by rw [Rat.cast_zpow, Rat.cast_ofNat]
  rw [hreal, hroot, one_div, ← zpow_neg, ← hcast] at hbr
  rw [← hcast] at hmag
  exact hbr.rat_eq hk (by rw [hmag, abs_of_pos (hcast ▸ by positivity)])

end

/-! ### `vsinpi` and `vcospi` of whole numbers and halves -/

/-- A magnitude of whole half-units leaves no rest. -/
theorem halfUnits_whole {m : Nat} {e : Int} {h r k j : Nat} (hu : halfUnits m e = (h, r, k)) (hx : (m : ℝ) * 2 ^ e = j / 2) :
    h = j ∧ r = 0 := by
  obtain ⟨hvalue, hr⟩ := halfUnits_spec hu
  have hreal : (j : ℝ) * 2 ^ k = h * 2 ^ k + r := by
    rw [hx, pow_succ] at hvalue
    field_simp at hvalue
    linarith
  have hnat : j * 2 ^ k = h * 2 ^ k + r := by exact_mod_cast hreal
  have hrest : r = 0 := by
    have := congrArg (· % 2 ^ k) hnat
    simpa [Nat.mod_eq_of_lt hr] using this.symm
  rw [hrest, Nat.add_zero] at hnat
  exact ⟨(Nat.eq_of_mul_eq_mul_right (by positivity) hnat).symm, hrest⟩

/-- A finite value of `j` half-units: its sign, and `vsinpi` and `vcospi` by the half-units. -/
theorem trigValue_halfUnits {sat : Bool} {w : Nat} (hw : w < 2 ^ 32) (hf : w / 2 ^ 23 % 256 ≠ 255) {j : Int} (hj : j ≠ 0)
    (hx : (fp32.decode w).rat = j / 2) :
    trigValue false sat w = (if j.natAbs % 2 = 0 then fp32.signBit (decide (j < 0))
        else fp32.signBit (decide (j < 0) != (j.natAbs % 4 == 3)) + 0x3F800000) ∧
      trigValue true sat w = (if j.natAbs % 2 = 1 then 0 else fp32.signBit (j.natAbs % 4 == 2) + 0x3F800000) := by
  obtain ⟨m, e, hd, -⟩ := fp32_decode_finite hw hf
  obtain ⟨s, hs⟩ : ∃ s, decide (2 ^ 31 ≤ w) = s := ⟨_, rfl⟩
  rw [hs] at hd
  have hreal : (((fp32.decode w).rat : ℚ) : ℝ) = j / 2 := by rw [hx]; push_cast; rfl
  rw [hd, fin_rat_cast] at hreal
  have hnn : (0 : ℝ) ≤ m * 2 ^ e := by positivity
  have hne : (j : ℝ) ≠ 0 := by exact_mod_cast hj
  have hsign : s = decide (j < 0) := by
    cases s with
    | true =>
      have : (j : ℝ) ≤ 0 := by rw [if_pos rfl] at hreal; linarith
      have : j ≤ 0 := by exact_mod_cast this
      exact (decide_eq_true (by omega)).symm
    | false =>
      have : (0 : ℝ) ≤ j := by rw [if_neg Bool.false_ne_true] at hreal; linarith
      have : 0 ≤ j := by exact_mod_cast this
      exact (decide_eq_false (by omega)).symm
  have hmag : (m : ℝ) * 2 ^ e = j.natAbs / 2 := by
    rw [Nat.cast_natAbs, Int.cast_abs]
    cases s with
    | true =>
      rw [if_pos rfl] at hreal
      rw [abs_of_nonpos (by linarith)]
      linarith
    | false =>
      rw [if_neg Bool.false_ne_true] at hreal
      rw [abs_of_nonneg (by linarith)]
      exact hreal
  have hm : m ≠ 0 := by
    rintro rfl
    rw [Nat.cast_zero, zero_mul] at hmag
    have : (j.natAbs : ℝ) = 0 := by linarith
    have : j.natAbs = 0 := by exact_mod_cast this
    omega
  obtain ⟨⟨h, r, k⟩, hu⟩ : ∃ u, halfUnits m e = u := ⟨_, rfl⟩
  obtain ⟨rfl, rfl⟩ := halfUnits_whole hu hmag
  rw [trigValue_fin hd hu, trigValue_fin hd hu, if_neg hm, if_neg hm, if_pos rfl, if_pos rfl,
    if_neg Bool.false_ne_true, if_pos rfl, hsign]
  exact ⟨rfl, rfl⟩

theorem fp32_signBit_add_one (neg : Bool) : fp32.signBit neg + 0x3F800000 = if neg then 0xBF800000 else 0x3F800000 := by
  cases neg <;> decide

theorem fp32_signBit_eq (neg : Bool) : fp32.signBit neg = if neg then 0x80000000 else 0 := by
  cases neg <;> decide

section
variable {sat : Bool} {w : Nat} (hw : w < 2 ^ 32) (hf : w / 2 ^ 23 % 256 ≠ 255) {n : Int}
include hw hf

/-- R48: the sine of a whole number of turns' halves is a zero of its sign, the cosine ±1. -/
theorem trigValue_whole (hn : n ≠ 0) (hx : (fp32.decode w).rat = n) :
    trigValue false sat w = (if decide (n < 0) then 0x80000000 else 0) ∧
      trigValue true sat w = if decide (n % 2 ≠ 0) then 0xBF800000 else 0x3F800000 := by
  obtain ⟨hsin, hcos⟩ := trigValue_halfUnits (sat := sat) hw hf (j := 2 * n) (by omega) (by rw [hx]; push_cast; ring)
  have heven : (2 * n).natAbs % 2 = 0 := by omega
  have hneg : ((2 * n).natAbs % 4 == 2) = decide (n % 2 ≠ 0) := by
    rw [Bool.eq_iff_iff, beq_iff_eq, decide_eq_true_iff]
    omega
  have hsign : decide (2 * n < 0) = decide (n < 0) := decide_eq_decide.2 (by omega)
  have hnot : ¬(2 * n).natAbs % 2 = 1 := by omega
  rw [hsin, hcos, if_pos heven, if_neg hnot, hneg, hsign, fp32_signBit_eq, fp32_signBit_add_one]
  exact ⟨rfl, rfl⟩

/-- R48: the sine of a half more than a whole number is ±1, the cosine +0. -/
theorem trigValue_half (hx : (fp32.decode w).rat = n + 1 / 2) :
    trigValue false sat w = (if decide (n % 2 ≠ 0) then 0xBF800000 else 0x3F800000) ∧ trigValue true sat w = 0 := by
  obtain ⟨hsin, hcos⟩ := trigValue_halfUnits (sat := sat) hw hf (j := 2 * n + 1) (by omega) (by rw [hx]; push_cast; ring)
  have hodd : (2 * n + 1).natAbs % 2 = 1 := by omega
  have hneg : (decide (2 * n + 1 < 0) != ((2 * n + 1).natAbs % 4 == 3)) = decide (n % 2 ≠ 0) := by
    rw [Bool.eq_iff_iff, bne_iff_ne, ne_eq, Bool.eq_iff_iff, beq_iff_eq, decide_eq_true_iff, decide_eq_true_iff]
    omega
  have hnot : ¬(2 * n + 1).natAbs % 2 = 0 := by omega
  rw [hsin, hcos, if_neg hnot, if_pos hodd, hneg, fp32_signBit_add_one]
  exact ⟨rfl, rfl⟩

end

/-! ### `vrcp` and `vsqrt` -/

theorem fp32_decode_one : fp32.decode 0x3F800000 = .fin false (2 ^ 23) (-23) := by decide

/-- R48: one over zero and over an infinity. -/
theorem rcp_zero (rm : Nat) (sat s : Bool) (e : Int) :
    fp32.round rm sat ((fp32.decode 0x3F800000).div (.fin s 0 e)) = fp32.infBits sat s := by
  rw [fp32_decode_one, FVal.div, if_pos rfl, if_neg (by norm_num), Bool.false_bne, Fmt.round]

theorem rcp_inf (rm : Nat) (sat s : Bool) : fp32.round rm sat ((fp32.decode 0x3F800000).div (.inf s)) = fp32.signBit s := by
  rw [fp32_decode_one, FVal.div, Bool.false_bne, Fmt.round, Fmt.roundMag, if_pos rfl]

theorem root_zero (rm : Nat) (sat s : Bool) (e : Int) : fp32.round rm sat (FVal.fin s 0 e).sqrt = fp32.signBit s := by
  rw [FVal.sqrt, if_pos rfl, Fmt.round, Fmt.roundMag, if_pos rfl]

theorem root_neg (rm : Nat) (sat : Bool) {m : Nat} (e : Int) (hm : m ≠ 0) :
    fp32.round rm sat (FVal.fin true m e).sqrt = fp32.nanBits := by
  rw [FVal.sqrt, if_neg hm, if_pos rfl, Fmt.round]

/-! ### The obligation -/

/-- Settles O33: the writes are those of `exec`; a value is one of the fixed inputs of the table, or the faithful function's
bracket of a number that FP32 holds. -/
theorem vectorSpecials : Obligations.VectorSpecials := by
  refine ⟨fun s i p d a f hs h => completes_of_issue hs (exec_vectorSpecial h) (vectorEnded_vfinish s true _), fun sat w hw => ?_⟩
  refine ⟨special_nan sat, ?_, special_inf_neg sat, ?_, ?_, ?_, ?_, ?_, ?_, ?_, ?_, ?_, fun rm => ⟨?_, ?_, ?_, ?_, ?_⟩⟩
  case refine_1 =>
    intro hx
    have := special_inf_pos sat hx
    rw [fp32_infBits] at this
    exact this
  case refine_2 =>
    intro hf hx
    obtain ⟨e, hd, hsign⟩ := fp32_decode_zero hw hf hx
    have := special_zero sat hd
    rw [hsign, fp32_infBits, fp32_infBits] at this
    exact this
  case refine_3 =>
    intro hf hx
    obtain ⟨m, e, hd, hm⟩ := fp32_decode_neg hw hf hx
    exact special_negative sat hd hm
  case refine_4 =>
    intro hf n hx
    refine ⟨exp2Value_whole hw hf hx, fun hn => ?_, fun hn => ?_, ?_⟩
    · rw [(trigValue_whole hw hf hn.ne' hx).1, decide_eq_false (by omega)]
      rfl
    · rw [(trigValue_whole hw hf hn.ne hx).1, decide_eq_true hn, if_pos rfl]
    · obtain rfl | hn := eq_or_ne n 0
      · obtain ⟨e, hd, -⟩ := fp32_decode_zero hw hf (by exact_mod_cast hx)
        exact (special_zero sat hd).2.2.2.2
      · exact (trigValue_whole hw hf hn hx).2
  case refine_5 => exact fun hf n hx => trigValue_half hw hf hx
  case refine_6 =>
    intro hf hx
    obtain ⟨m, e, hd, -⟩ := fp32_decode_finite hw hf
    exact (exp2Value_overflow sat hd (by rw [← hd]; exact_mod_cast hx)).trans (fp32_infBits sat false)
  case refine_7 =>
    intro hf hx
    obtain ⟨m, e, hd, -⟩ := fp32_decode_finite hw hf
    exact exp2Value_underflow sat hd (by rw [← hd]; exact_mod_cast hx)
  case refine_8 =>
    intro hf hx hx'
    obtain ⟨m, e, hd, -⟩ := fp32_decode_finite hw hf
    exact exp2Value_least sat hd (by rw [← hd]; exact_mod_cast hx) (by rw [← hd]; exact_mod_cast hx')
  case refine_9 => exact fun hf n hx => log2Value_pow hw hf hx
  case refine_10 => exact fun hf n hx => rsqValue_pow hw hf hx
  case refine_11 =>
    intro hx
    rw [hx]
    exact ⟨rfl, rfl⟩
  case refine_12 =>
    intro hf hx
    obtain ⟨e, hd, hsign⟩ := fp32_decode_zero hw hf hx
    rw [hd, rcp_zero, root_zero, fp32_infBits]
    exact ⟨rfl, hsign⟩
  case refine_13 =>
    intro hx
    rw [hx, rcp_inf]
    exact ⟨rfl, fp32_infBits sat false⟩
  case refine_14 =>
    intro hx
    rw [hx, rcp_inf]
    exact ⟨by decide, rfl⟩
  case refine_15 =>
    intro hf hx
    obtain ⟨m, e, hd, hm⟩ := fp32_decode_neg hw hf hx
    rw [hd, root_neg rm sat e hm]
    rfl

end Sys2Proof.Machine
end

section
/-! A `mop` over a panel of K = 0 (R213, R219): it has no step to run, so it completes even before the cycle from which its steps
count. -/

namespace Sys2Proof.Machine

/-- A started `mop` with no step to run, whose cycles count from cycle 1 on. -/
def emptyMop : MopRun :=
  { tile := 0, la := 0, sa := 0, step := 0, k := 0, fa := 0, fb := 0, table := [], started := true, since := 1 }
/-- A thread with all the strips of its block (VL = 64) in that `mop`. -/
def emptyMopThread : Thread := { mop := some emptyMop, claim := ⟨4, [0, 1, 2, 3]⟩ }
/-- The machine after reset, in cycle 0, with that thread alone in slot 0 of core 0. -/
def emptyMopState : State := State.reset.setSlot 0 0 (some emptyMopThread)

theorem threadAt_emptyMopState (j : Fin 16) : emptyMopState.threadAt 0 j = if j = 0 then some emptyMopThread else none := by
  revert j
  decide +kernel

/-- The model completes it in cycle 0. -/
theorem mopComplete_emptyMopState : exec (.mopComplete 0 0) emptyMopState = .next (emptyMopState.mopDone 0 0) ∧
    ((emptyMopState.mopDone 0 0).threadAt 0 0).map (fun w => (w.granted, w.mop)) = some (true, none) := by
  refine ⟨rfl, ?_⟩
  decide +kernel

/-- Refutes O39, by its last clause, that a `mop` is still in progress while the cycles since its start are fewer than its steps: one of
K = 0 that counts its cycles from a later one on, `since` = 1 in cycle 0 (as after a block lent in the cycle of the start, R213), has
none to run and completes at once. -/
theorem not_latchSteps : ¬ Obligations.LatchSteps := by
  intro h
  obtain ⟨-, -, -, -, -, -, -, -, -, -, -, hmop⟩ := h emptyMopState 0
  have hothers : ∀ j : Fin 16, j ≠ 0 → ∀ u, emptyMopState.threadAt 0 j = some u → u.mop = none := by
    intro j hj u hu
    rw [threadAt_emptyMopState, if_neg hj] at hu
    exact nomatch hu
  obtain ⟨-, hwaits⟩ := hmop 0 emptyMopThread emptyMop (threadAt_emptyMopState 0) rfl rfl rfl rfl hothers 1 false (by decide)
    (by decide) (by decide) (by decide) (by decide)
  obtain ⟨u, hu, -, w, q, hw, -, hq, -⟩ := hwaits (by decide +kernel)
  obtain ⟨hexec, hdone⟩ := mopComplete_emptyMopState
  have hu' : emptyMopState.mopDone 0 0 = u := by
    injection hexec.symm.trans hu
  have hnone : some w.mop = some none := by
    rw [hu', hw] at hdone
    exact congrArg (Option.map Prod.snd) hdone
  rw [hq] at hnone
  exact nomatch hnone

end Sys2Proof.Machine
end

section
/-! Decoding an encoded instruction (R49 to R60, R70): the tail of every encoding fits its length code, a line of one instruction
gives its head and tail back, and the decoder reads every instruction from its own encoding. -/

namespace Sys2Proof.Laws

/-! ### Tails and their length codes (R50, R54) -/

/-- R50: a tail has no bit beyond the length that its code names. -/
def FitsTail (e : Enc) : Prop := e.tail.toNat < 2 ^ (8 * tailBytes e.len)

/-- R50: no tail is longer than eight bytes. -/
theorem tailBytes_le (c : BitVec 2) : tailBytes c ≤ 8 := by revert c; decide

/-- A field below some bits widens their range by its own width. -/
theorem toNat_append_lt {n m k : Nat} {x : BitVec n} (y : BitVec m) (h : x.toNat < 2 ^ k) : (x ++ y).toNat < 2 ^ (k + m) := by
  have hx : x.toNat <<< m < 2 ^ (k + m) := by
    rw [Nat.shiftLeft_eq, pow_add]; exact Nat.mul_lt_mul_of_pos_right h (Nat.two_pow_pos m)
  rw [BitVec.toNat_append]
  exact Nat.or_lt_two_pow hx (y.isLt.trans_le (Nat.pow_le_pow_right (by decide) (by omega)))
/-- Zero bits have range 0. -/
theorem toNat_zero_lt (n : Nat) : (0#n).toNat < 2 ^ 0 := by simp

@[simp] theorem fitsTail_empty (op : BitVec 8) (x : BitVec 4) : FitsTail ⟨op, x, 0#2, 0#64⟩ := Nat.one_pos
@[simp] theorem fitsTail_packT2 (op : BitVec 8) (x : BitVec 4) (d a b : BitVec 5) : FitsTail ⟨op, x, 1#2, packT2 d a b⟩ :=
  toNat_append_lt 0#1 (toNat_append_lt b (toNat_append_lt a (toNat_append_lt d (toNat_zero_lt 48))))
@[simp] theorem fitsTail_packTI (op : BitVec 8) (x : BitVec 4) (d a : BitVec 5) (imm : BitVec 22) :
    FitsTail ⟨op, x, 2#2, packTI d a imm⟩ :=
  toNat_append_lt imm (toNat_append_lt a (toNat_append_lt d (toNat_zero_lt 32)))
@[simp] theorem fitsTail_packTR (op : BitVec 8) (x : BitVec 4) (d a b : BitVec 5) (imm : BitVec 17) :
    FitsTail ⟨op, x, 2#2, packTR d a b imm⟩ :=
  toNat_append_lt imm (toNat_append_lt b (toNat_append_lt a (toNat_append_lt d (toNat_zero_lt 32))))
@[simp] theorem fitsTail_packTY (op : BitVec 8) (x : BitVec 4) (d a b aux : BitVec 5) (sync : BitVec 12) :
    FitsTail ⟨op, x, 2#2, packTY d a b aux sync⟩ :=
  toNat_append_lt sync (toNat_append_lt aux (toNat_append_lt b (toNat_append_lt a (toNat_append_lt d (toNat_zero_lt 32)))))
@[simp] theorem fitsTail_long (op : BitVec 8) (x : BitVec 4) (t : BitVec 64) : FitsTail ⟨op, x, 3#2, t⟩ := t.isLt

/-- The tail of every encoding is of one of the formats, and fits. -/
theorem encode_fitsTail {i : Instr} {e : Enc} (h : encode i = some e) : FitsTail e := by
  cases i <;> cases h <;> simp

/-! ### A line of one instruction (R49, R52) -/

section
variable {h : BitVec 16} {t : BitVec 64} (hf : t.toNat < 2 ^ (8 * tailBytes (h.extractLsb' 14 2)))
include hf

/-- R49: the count, the head and, at the line's end, the tail: they do not overlap. -/
theorem single_toNat : (Line.single h t).toNat =
    2048 + h.toNat * 2 ^ 16 + t.toNat * 2 ^ (8 * (64 - tailBytes (h.extractLsb' 14 2))) := by
  have hb := tailBytes_le (h.extractLsb' 14 2)
  generalize he : tailBytes (h.extractLsb' 14 2) = b at *
  have hp : 2 ^ (8 * b) * 2 ^ (8 * (64 - b)) = 2 ^ 512 := by rw [← pow_add]; congr 1; omega
  have hk : 2 ^ 32 ≤ 2 ^ (8 * (64 - b)) := Nat.pow_le_pow_right (by decide) (by omega)
  have hle := Nat.mul_le_mul_right (2 ^ (8 * (64 - b))) hf
  rw [Nat.succ_mul, hp] at hle
  simp only [Line.single, he]
  rw [Nat.mod_eq_of_lt hf, BitVec.toNat_ofNat, Nat.mod_eq_of_lt]
  omega

/-- The first 32 bits of the line: the tail lies above them. -/
theorem single_toNat_mod : (Line.single h t).toNat % 2 ^ 32 = 2048 + h.toNat * 2 ^ 16 := by
  have hb := tailBytes_le (h.extractLsb' 14 2)
  rw [single_toNat hf]
  generalize tailBytes (h.extractLsb' 14 2) = b at *
  have hd : 2 ^ 32 ∣ t.toNat * 2 ^ (8 * (64 - b)) := (pow_dvd_pow 2 (by omega)).mul_left _
  omega

theorem single_b16_zero : (Line.single h t).b16 0 = 2048#16 := by
  have hm := single_toNat_mod hf
  apply BitVec.eq_of_toNat_eq
  simp only [Line.b16, BitVec.extractLsb'_toNat, BitVec.toNat_ofNat, Nat.shiftRight_eq_div_pow]
  omega
theorem single_head : (Line.single h t).head 1 = h := by
  have hm := single_toNat_mod hf
  apply BitVec.eq_of_toNat_eq
  simp only [Line.head, Line.b16, BitVec.extractLsb'_toNat, Nat.shiftRight_eq_div_pow]
  omega
theorem single_tails : (Line.single h t).tails 1 = tailBytes (h.extractLsb' 14 2) := by
  simp [Line.tails, single_head hf]
theorem single_tail : (Line.single h t).tail 1 = t := by
  have hb := tailBytes_le (h.extractLsb' 14 2)
  have hn := single_toNat hf
  simp only [Line.tail, single_head hf, single_tails hf]
  generalize tailBytes (h.extractLsb' 14 2) = b at *
  have hk : 2 ^ 32 ≤ 2 ^ (8 * (64 - b)) := Nat.pow_le_pow_right (by decide) (by omega)
  have hq : (Line.single h t).toNat / 2 ^ (8 * (64 - b)) = t.toNat := by
    rw [hn, Nat.add_mul_div_right _ _ (by omega), Nat.div_eq_of_lt (by omega), Nat.zero_add]
  have hw : 2 ^ (8 * b) ≤ 2 ^ 64 := Nat.pow_le_pow_right (by decide) (by omega)
  apply BitVec.eq_of_toNat_eq
  rw [BitVec.toNat_and, BitVec.extractLsb'_toNat, Nat.shiftRight_eq_div_pow, hq, BitVec.toNat_ofNat, Nat.mod_eq_of_lt t.isLt,
    Nat.mod_eq_of_lt (a := 2 ^ (8 * b) - 1) (by omega), Nat.and_two_pow_sub_one_eq_mod, Nat.mod_eq_of_lt hf]

theorem single_count : (Line.single h t).count = 1 := by simp [Line.count, single_b16_zero hf]
theorem single_ok : (Line.single h t).ok 1 = true := by
  have hb := tailBytes_le (h.extractLsb' 14 2)
  simp [Line.ok, single_count hf, single_b16_zero hf, single_tails hf]
  omega
end

/-- The length code, the opcode and X of a head (R52). -/
theorem headWord_len (m : Marks) (e : Enc) : (headWord m e).extractLsb' 14 2 = e.len :=
  (BitVec.extractLsb'_append_eq_of_le (w := 4) (start := 14) (len := 2) (by decide)).trans
    ((BitVec.extractLsb'_append_eq_of_le (w := 8) (start := 10) (len := 2) (by decide)).trans
      ((BitVec.extractLsb'_append_eq_of_le (w := 1) (start := 2) (len := 2) (by decide)).trans
        ((BitVec.extractLsb'_append_eq_of_le (w := 1) (start := 1) (len := 2) (by decide)).trans BitVec.extractLsb'_eq_self)))
theorem headOp_headWord (m : Marks) (e : Enc) : headOp (headWord m e) = e.op :=
  (BitVec.extractLsb'_append_eq_of_le (w := 4) (start := 4) (len := 8) (by decide)).trans
    ((BitVec.extractLsb'_append_eq_of_add_le (w := 8) (start := 0) (len := 8) (by decide)).trans BitVec.extractLsb'_eq_self)
theorem headWord_x (m : Marks) (e : Enc) : (headWord m e).extractLsb' 0 4 = e.x :=
  (BitVec.extractLsb'_append_eq_of_add_le (w := 4) (start := 0) (len := 4) (by decide)).trans BitVec.extractLsb'_eq_self
theorem headEnc_headWord (m : Marks) (e : Enc) : headEnc (headWord m e) e.tail = e := by
  simp only [headEnc, headOp_headWord, headWord_x, headWord_len]
/-- The marks of a head (R52). -/
theorem headMarks_headWord (m : Marks) (e : Enc) : headMarks (headWord m e) = m := by
  have hs : (headWord m e).getLsbD 13 = m.s := by
    rw [headWord, BitVec.getLsbD_append, BitVec.getLsbD_append, BitVec.getLsbD_append, BitVec.getLsbD_append]
    simp
  have hp : (headWord m e).getLsbD 12 = m.p := by
    rw [headWord, BitVec.getLsbD_append, BitVec.getLsbD_append, BitVec.getLsbD_append]
    simp
  rw [headMarks, hs, hp]

/-! ### The decoder (R68) -/

/-- Every well-formed instruction is what the fields of its own encoding name. -/
theorem encoding_statement (i : Instr) : Encoding.Statement i := by
  cases i with
  | nop => exact Encoding.nop
  | add d a b => exact Encoding.add d a b
  | sub d a b => exact Encoding.sub d a b
  | mul d a b => exact Encoding.mul d a b
  | mulh d a b => exact Encoding.mulh d a b
  | mulhu d a b => exact Encoding.mulhu d a b
  | div d a b => exact Encoding.div d a b
  | divu d a b => exact Encoding.divu d a b
  | rem d a b => exact Encoding.rem d a b
  | remu d a b => exact Encoding.remu d a b
  | andR d a b => exact Encoding.andR d a b
  | orR d a b => exact Encoding.orR d a b
  | xorR d a b => exact Encoding.xorR d a b
  | sll d a b => exact Encoding.sll d a b
  | srl d a b => exact Encoding.srl d a b
  | sra d a b => exact Encoding.sra d a b
  | slt d a b => exact Encoding.slt d a b
  | sltu d a b => exact Encoding.sltu d a b
  | minR d a b => exact Encoding.minR d a b
  | maxR d a b => exact Encoding.maxR d a b
  | minu d a b => exact Encoding.minu d a b
  | maxu d a b => exact Encoding.maxu d a b
  | clz d a => exact Encoding.clz d a
  | ctz d a => exact Encoding.ctz d a
  | popc d a => exact Encoding.popc d a
  | mov d a => exact Encoding.mov d a
  | addi d a imm => exact Encoding.addi d a imm
  | andi d a imm => exact Encoding.andi d a imm
  | ori d a imm => exact Encoding.ori d a imm
  | xori d a imm => exact Encoding.xori d a imm
  | slti d a imm => exact Encoding.slti d a imm
  | slli d a sh => exact Encoding.slli d a sh
  | srli d a sh => exact Encoding.srli d a sh
  | srai d a sh => exact Encoding.srai d a sh
  | li d imm => exact Encoding.li d imm
  | liL d imm => exact Encoding.liL d imm
  | sel d a b c => exact Encoding.sel d a b c
  | ext d a pos len1 => exact Encoding.ext d a pos len1
  | ins d a b pos len1 => exact Encoding.ins d a b pos len1
  | beq a b idx off => exact Encoding.beq a b idx off
  | bne a b idx off => exact Encoding.bne a b idx off
  | blt a b idx off => exact Encoding.blt a b idx off
  | bge a b idx off => exact Encoding.bge a b idx off
  | bltu a b idx off => exact Encoding.bltu a b idx off
  | bgeu a b idx off => exact Encoding.bgeu a b idx off
  | j idx off => exact Encoding.j idx off
  | jal l idx off => exact Encoding.jal l idx off
  | jr a => exact Encoding.jr a
  | jalr d a => exact Encoding.jalr d a
  | fadd f d a b => exact Encoding.fadd f d a b
  | fsub f d a b => exact Encoding.fsub f d a b
  | fmul f d a b => exact Encoding.fmul f d a b
  | fdiv f d a b => exact Encoding.fdiv f d a b
  | fsqrt f d a => exact Encoding.fsqrt f d a
  | fmin f d a b => exact Encoding.fmin f d a b
  | fmax f d a b => exact Encoding.fmax f d a b
  | fcmp pred f d a b => exact Encoding.fcmp pred f d a b
  | fclass f d a => exact Encoding.fclass f d a
  | fsgn op f d a b => exact Encoding.fsgn op f d a b
  | ffma f d a b c => exact Encoding.ffma f d a b c
  | fcvt x d a => exact Encoding.fcvt x d a
  | ld size d a os off => exact Encoding.ld size d a os off
  | st size os a b off => exact Encoding.st size os a b off
  | ldfe size d a os off => exact Encoding.ldfe size d a os off
  | stfe os a b off => exact Encoding.stfe os a b off
  | ldff size d a os off => exact Encoding.ldff size d a os off
  | feset st a off => exact Encoding.feset st a off
  | amoAdd size d a b os => exact Encoding.amoAdd size d a b os
  | amoAnd size d a b os => exact Encoding.amoAnd size d a b os
  | amoOr size d a b os => exact Encoding.amoOr size d a b os
  | amoXor size d a b os => exact Encoding.amoXor size d a b os
  | amoMin size d a b os => exact Encoding.amoMin size d a b os
  | amoMax size d a b os => exact Encoding.amoMax size d a b os
  | amoMinu size d a b os => exact Encoding.amoMinu size d a b os
  | amoMaxu size d a b os => exact Encoding.amoMaxu size d a b os
  | amoSwap size d a b os => exact Encoding.amoSwap size d a b os
  | amoCas size d a b c os sync => exact Encoding.amoCas size d a b c os sync
  | amoFadd size d a b os => exact Encoding.amoFadd size d a b os
  | fence o scope => exact Encoding.fence o scope
  | lea x d a b off => exact Encoding.lea x d a b off
  | segq q d a => exact Encoding.segq q d a
  | mig a => exact Encoding.mig a
  | tmask x d a imm => exact Encoding.tmask x d a imm
  | fork jn a b idx off => exact Encoding.fork jn a b idx off
  | join a => exact Encoding.join a
  | yield => exact Encoding.yield
  | halt => exact Encoding.halt
  | resamp d a => exact Encoding.resamp d a
  | wset a => exact Encoding.wset a
  | barArrive kind d a b => exact Encoding.barArrive kind d a b
  | barWait kind a b => exact Encoding.barWait kind a b
  | barSync kind a b => exact Encoding.barSync kind a b
  | msend any t c v => exact Encoding.msend any t c v
  | mwait own => exact Encoding.mwait own
  | mpop own d m => exact Encoding.mpop own d m
  | cbwait n d => exact Encoding.cbwait n d
  | cbrel n => exact Encoding.cbrel n
  | cbput n d a => exact Encoding.cbput n d a
  | dwait wait => exact Encoding.dwait wait
  | nqput d a b => exact Encoding.nqput d a b
  | nqdone a => exact Encoding.nqdone a
  | cxsave a => exact Encoding.cxsave a
  | cxload a => exact Encoding.cxload a
  | stepmark d a => exact Encoding.stepmark d a
  | vclaim d a => exact Encoding.vclaim d a
  | vrenew d => exact Encoding.vrenew d
  | vfree => exact Encoding.vfree
  | vlen d => exact Encoding.vlen d
  | mmode m => exact Encoding.mmode m
  | vld x d a b off => exact Encoding.vld x d a b off
  | vst x d a b off => exact Encoding.vst x d a b off
  | vldx x d a b off => exact Encoding.vldx x d a b off
  | vstx x d a b off => exact Encoding.vstx x d a b off
  | vadd x d a b => exact Encoding.vadd x d a b
  | vsub x d a b => exact Encoding.vsub x d a b
  | vmul x d a b => exact Encoding.vmul x d a b
  | vmin x d a b => exact Encoding.vmin x d a b
  | vmax x d a b => exact Encoding.vmax x d a b
  | vabs x d a => exact Encoding.vabs x d a
  | vneg x d a => exact Encoding.vneg x d a
  | vand x d a b => exact Encoding.vand x d a b
  | vor x d a b => exact Encoding.vor x d a b
  | vxor x d a b => exact Encoding.vxor x d a b
  | vshl x d a b => exact Encoding.vshl x d a b
  | vshr x d a b => exact Encoding.vshr x d a b
  | vsra x d a b => exact Encoding.vsra x d a b
  | vfadd x d a b => exact Encoding.vfadd x d a b
  | vfsub x d a b => exact Encoding.vfsub x d a b
  | vfmul x d a b => exact Encoding.vfmul x d a b
  | vffma x d a b c => exact Encoding.vffma x d a b c
  | vfmin x d a b => exact Encoding.vfmin x d a b
  | vfmax x d a b => exact Encoding.vfmax x d a b
  | vfdiv x d a b => exact Encoding.vfdiv x d a b
  | vcvt x d a c => exact Encoding.vcvt x d a c
  | vcmp cond p a b => exact Encoding.vcmp cond p a b
  | vsel k d a b => exact Encoding.vsel k d a b
  | vpand d a b => exact Encoding.vpand d a b
  | vpor d a b => exact Encoding.vpor d a b
  | vpnot d a => exact Encoding.vpnot d a
  | vredadd x d a => exact Encoding.vredadd x d a
  | vredmin x d a => exact Encoding.vredmin x d a
  | vredmax x d a => exact Encoding.vredmax x d a
  | vbcast x d a => exact Encoding.vbcast x d a
  | vslide x d a b k => exact Encoding.vslide x d a b k
  | vperm x d a b => exact Encoding.vperm x d a b
  | vexp2 p d a => exact Encoding.vexp2 p d a
  | vlog2 p d a => exact Encoding.vlog2 p d a
  | vrcp p d a => exact Encoding.vrcp p d a
  | vrsq p d a => exact Encoding.vrsq p d a
  | vsqrt p d a => exact Encoding.vsqrt p d a
  | vsinpi p d a => exact Encoding.vsinpi p d a
  | vcospi p d a => exact Encoding.vcospi p d a
  | vrtri x d o r t => exact Encoding.vrtri x d o r t
  | mop t a sync => exact Encoding.mop t a sync
  | bload a b sync => exact Encoding.bload a b sync
  | bpass sync => exact Encoding.bpass sync
  | bpassDrop sync => exact Encoding.bpassDrop sync
  | mzero t => exact Encoding.mzero t
  | tbset a b => exact Encoding.tbset a b
  | fmtset a => exact Encoding.fmtset a
  | sclset a b => exact Encoding.sclset a b
  | crpool kind a b l sync => exact Encoding.crpool kind a b l sync
  | crsub x d a b sync => exact Encoding.crsub x d a b sync
  | crunsub x d a b sync => exact Encoding.crunsub x d a b sync
  | crskip a sync => exact Encoding.crskip a sync
  | crpromote a sync => exact Encoding.crpromote a sync
  | crlap d a sync => exact Encoding.crlap d a sync
  | crlapW d a sync => exact Encoding.crlapW d a sync
  | cpy a sync => exact Encoding.cpy a sync
  | cpgx a sync => exact Encoding.cpgx a sync
  | cpsx a sync => exact Encoding.cpsx a sync
  | cpmc a sync => exact Encoding.cpmc a sync
  | cpclose => exact Encoding.cpclose
  | cpwait n => exact Encoding.cpwait n
  | cpinval a => exact Encoding.cpinval a
  | cpinvalAll => exact Encoding.cpinvalAll
  | publish a scope sync => exact Encoding.publish a scope sync
  | trap d a n => exact Encoding.trap d a n
  | eret => exact Encoding.eret
  | wfi => exact Encoding.wfi
  | ptsync => exact Encoding.ptsync
  | rdsys d num => exact Encoding.rdsys d num
  | brk code => exact Encoding.brk code
  | tmark a code => exact Encoding.tmark a code
  | tlbinv a => exact Encoding.tlbinv a
  | cflush a => exact Encoding.cflush a
  | wrsysStat a => exact Encoding.wrsysStat a
  | wrsysTm a => exact Encoding.wrsysTm a
  | wrsysMcbase a => exact Encoding.wrsysMcbase a
  | wrsysSegment n kd a => exact Encoding.wrsysSegment n kd a
  | wrsysWin m a => exact Encoding.wrsysWin m a
  | wrsysCb n a => exact Encoding.wrsysCb n a
  | wrsysPmsel n a => exact Encoding.wrsysPmsel n a
  | wrsysPmc n a => exact Encoding.wrsysPmc n a
  | wrsys num a => exact Encoding.wrsys num a
  | _ => exact fun _ _ h => nomatch h

/-- The decoder reads an instruction exactly from a well-formed instruction's own encoding. -/
theorem decode_eq_ok_iff {i : Instr} {e : Enc} : decode e = .ok i ↔ i.wf = true ∧ encode i = some e := by
  unfold decode
  constructor
  · intro h
    cases hr : raw e.op e.x e.tail with
    | none => simp [hr] at h
    | some j => simp only [hr] at h; split at h <;> simp_all
  · rintro ⟨hw, he⟩
    simp [encoding_statement i hw e he, hw, he]

/-- R49, R52, R54: the instruction of a line of one is the one that its head and tail encode, under any marks. -/
theorem single_decodeAt {e : Enc} (hf : FitsTail e) (m : Marks) :
    let l := Line.single (headWord m e) e.tail
    l.ok 1 = true ∧ l.count = 1 ∧ l.decodeAt 1 = decode e ∧ headMarks (l.head 1) = m := by
  have h : e.tail.toNat < 2 ^ (8 * tailBytes ((headWord m e).extractLsb' 14 2)) := by rw [headWord_len]; exact hf
  refine ⟨single_ok h, single_count h, ?_, ?_⟩
  · rw [Line.decodeAt, single_head h, single_tail h, headEnc_headWord]
  · rw [single_head h, headMarks_headWord]

/-- Settles O58: encoding and decoding are inverse, alone and in a line. -/
theorem encodeDecode : Obligations.EncodeDecode := by
  refine ⟨fun i e hw he => ?_, fun i e h => decode_eq_ok_iff.mp h⟩
  have hd : decode e = .ok i := decode_eq_ok_iff.mpr ⟨hw, he⟩
  refine ⟨hd, fun m => ?_⟩
  obtain ⟨hok, hcount, hat, hmarks⟩ := single_decodeAt (encode_fitsTail he) m
  exact ⟨hok, hcount, hat.trans hd, hmarks⟩

end Sys2Proof.Laws
end

section
/-! The worked line of the manual, and words of other families, decode as their entries say (R49 to R54, R61, R70). -/

namespace Sys2Proof.Machine

/-- R49, R51: the worked line passes its checks, with four instructions. -/
theorem workedLine_ok : workedLine.ok 1 = true ∧ workedLine.count = 4 := by decide +kernel
/-- R52, R54, R70: its four instructions. -/
theorem workedLine_decodeAt : workedLine.decodeAt 1 = .ok (.addi 1 1 5) ∧ workedLine.decodeAt 2 = .ok (.add 2 1 3) ∧
    workedLine.decodeAt 3 = .ok (.vadd 0 1 1 2) ∧ workedLine.decodeAt 4 = .ok (.liL 5 0x123456789ABCDEF0) := by decide +kernel
/-- R61: its second and third instructions are a pair; the first and the fourth stand alone. -/
theorem workedLine_bundleAt : bundleAt workedLine 1 = .one ∧ bundleAt workedLine 2 = .two ∧ bundleAt workedLine 4 = .one := by
  decide +kernel

/-- R50: the worked line with the L field of its fourth head changed from 3 to 2. -/
def shortenedLine : Line := workedLine ^^^ (0x4000#512 <<< 64)
/-- R51, R68: a line with a wrong length code still passes; it is the instruction that is refused, and no other of the line. -/
theorem shortenedLine_decodeAt : shortenedLine.ok 4 = true ∧ shortenedLine.decodeAt 4 = .error .malformed ∧
    shortenedLine.decodeAt 3 = .ok (.vadd 0 1 1 2) := by decide +kernel

/-- R71: the word of `nop`, beside one with a reserved bit set (R53). -/
theorem decodeTableWord_nop : decodeTableWord 16 0x0000 = some .nop ∧ decodeTableWord 16 0x0001 = none := by decide +kernel
/-- R119: a word of `beq`, with idx, src1, src2 and off17 in their places (R54). -/
theorem decodeTableWord_beq : decodeTableWord 48 (0x8400 * 2 ^ 32 + (3 * 2 ^ 27 + 1 * 2 ^ 22 + 2 * 2 ^ 17 + 0x1FFFF)) =
    some (.beq 1 2 3 0x1FFFF) := by decide +kernel

/-- Settles O56: the worked line, the line with one length code changed, and the words of `nop` and `beq`. -/
theorem decodeWords : Obligations.DecodeWords := by
  obtain ⟨hok, hcount⟩ := workedLine_ok
  obtain ⟨h1, h2, h3, h4⟩ := workedLine_decodeAt
  obtain ⟨b1, b2, b4⟩ := workedLine_bundleAt
  obtain ⟨hnop, hbad⟩ := decodeTableWord_nop
  refine ⟨hok, hcount, h1, h2, h3, h4, b1, b2, b4, shortenedLine_decodeAt, hnop, decodeTableWord_beq, ?_⟩
  rw [hnop, hbad]
  nofun

end Sys2Proof.Machine
end

section
/-! A step serves the slot whose turn it is (R63, R68, R69, R91): it issues the instruction at its thread's PC. -/

namespace Sys2Proof.Machine

/-! ### What the cycle brings before the agenda's first item -/

section
variable {s : State} {limit : Nat} (hr : s.dueRound = none) (hd : s.dueSeed limit = none)
include hr hd

/-- A core's service comes first where no re-check round and no seeding is due. -/
theorem State.before_dueSlot {c : Nat} {o : Option (Fin 16)} (h : s.dueSlot limit = some (c, o)) :
    s.before limit = some (s.service c o) := by
  simp [State.before, hr, hd, h]
/-- An atomic at its core's interface comes next, once no slot is due (log 54). -/
theorem State.before_amos {a : OwnAtomic} {r : List OwnAtomic} (hs : s.dueSlot limit = none) (hp : placeIn 5 0 < limit)
    (h : s.amos = a :: r) :
    s.before limit = some (.next (({ s with amos := r, phase := max s.phase (placeIn 5 0) } : State).ownAtomic a)) := by
  simp [State.before, hr, hd, hs, h, Nat.not_le.mpr hp]
end

/-- What comes before the agenda's first item, whose place has not passed, is the step, and the joins on zero counters follow it. -/
theorem step_of_before {s : State} {e : Agenda} {rest : List Agenda} {o : Out} (h : s.agenda = e :: rest)
    (hp : s.phase ≤ s.placeOf e) (hb : s.before (s.placeOf e) = some o) : step s = mapOut State.settle o := by
  have ha : s.ahead e = some o := by rw [State.ahead, if_neg (Nat.not_lt.mpr hp), hb]
  rw [step, State.advanceAgenda_ahead h ha]

/-! ### A turn (R91) -/

theorem State.core_withPhase (s : State) (n c : Nat) : ({ s with phase := n } : State).core c = s.core c := rfl

/-- R89, R91: the state in which a slot takes its turn: the slot counted as served, and the waits of its thread that end. -/
def State.tended (s : State) (c : Nat) (i : Fin 16) : State :=
  { (s.setCore c { s.core c with served := i.val + 1 }).tendSlot c i with slot := i }

/-- The slot that a core has chosen takes its thread's turn. -/
theorem State.serveSlot_own {s : State} {c : Nat} {i : Fin 16} {t : Thread} (hk : (s.core c).pick = some i)
    (hs : ((s.tended c i).core c).stopped = false) (ht : (s.tended c i).thread = some t) :
    s.serveSlot c i = (s.tended c i).turnOf t := by
  have hown : decide ((s.core c).pick = some i) = true := decide_eq_true hk
  simp only [State.serveSlot, hown, Bool.not_true, Bool.false_eq_true, if_false]
  split
  · next h => exact absurd (ht.symm.trans h) (by simp)
  · next u h =>
    obtain rfl : t = u := Option.some.inj (ht.symm.trans h)
    exact if_neg (by rw [State.tended] at hs; simp [hs])

/-- R189, R213: the state in which the bundle at index `n` of a line issues: the turn marked, a pending beat done, the issue counted. -/
def State.issuing (p : State) (t : Thread) (l : Line) (n : Nat) : State :=
  ((p.mark.setTh { t.beat with st := .running }).count p.cur 2 1).lendIf (t.beats.isSome || bundleVector l n)

/-- A turn with a line held, no breakpoint, and no pending beat in the way issues the bundle at the PC. -/
theorem State.turnOf_issues {p : State} {t : Thread} {a : Nat} {l : Line} (he : t.eligible = true) (hb : t.beatsOnly = false)
    (hl : t.held = some (a, l)) (hk : t.skipBreak = true ∨ breakAt (p.core p.cur) t.pc = none)
    (hv : t.beats = none ∨ bundleVector l (t.pc &&& 63).toNat = false) :
    p.turnOf t = (p.issuing t l (t.pc &&& 63).toNat).issueBundle l (t.pc &&& 63).toNat := by
  have hbreak : (if t.skipBreak then none else breakAt (p.core p.cur) t.pc) = none := by
    rcases hk with h | h <;> simp [h]
  have hbeat : (t.beats.isSome && bundleVector l (t.pc &&& 63).toNat) = false := by
    rcases hv with h | h <;> rw [h]
    · rfl
    · exact Bool.and_false _
  simp only [State.turnOf, he, hb, hl, hbreak, hbeat]
  rfl

/-! ### Bundles (R61, R62, R68, R69) -/

/-- An instruction alone. -/
theorem State.issueBundle_one {q : State} {l : Line} {n : Nat} {x : Instr} (hb : bundleAt l n = .one)
    (hx : l.decodeAt n = .ok x) : q.issueBundle l n = mapOut State.unlatch (exec x { q with bundle := q.th.latched }) := by
  simp [State.issueBundle, State.issueOne, hb, hx]

/-- A pair whose first member has gone on to the second. -/
theorem State.issueBundle_two {q u : State} {l : Line} {n : Nat} {x y : Instr} {v : Thread} (hb : bundleAt l n = .two)
    (hx : l.decodeAt n = .ok x) (hy : l.decodeAt (n + 1) = .ok y) (hr : q.th.replay = none)
    (he : exec x { q with bundle := some (q.th.latched.getD ⟨q.th.g, (q.core q.cur).shared⟩) } = .next u)
    (hv : u.thread = some v) (hst : v.st = .running) (hpc : v.pc = q.th.pc + 1) :
    q.issueBundle l n = mapOut State.unlatch (exec y u) := by
  simp [State.issueBundle, State.issueTwo, hb, hx, hy, he, bindOut, hr, hv, hst, hpc]

/-- R61, R68: an illegal pair, or an encoding that is no instruction, traps. -/
theorem State.issueBundle_illegal {q : State} {l : Line} {n : Nat}
    (h : bundleAt l n = .illegal ∨ ∃ e, l.decodeAt n = .error e) : q.issueBundle l n = .next (q.trap 17) := by
  cases hb : bundleAt l n with
  | illegal => simp [State.issueBundle, hb, kIllegal]
  | one =>
    obtain ⟨e, he⟩ := h.resolve_left (by simp [hb])
    simp [State.issueBundle, State.issueOne, hb, he, kIllegal]
  | two =>
    obtain ⟨e, he⟩ := h.resolve_left (by simp [hb])
    simp [State.issueBundle, State.issueTwo, hb, he, kIllegal]

/-! ### The obligation -/

/-- Settles O57: the first thing that comes before the agenda's item is the step: a core that begins, a slot's turn, or an atomic
at its core's interface. -/
theorem stepRunsInstruction : Obligations.StepRunsInstruction := by
  intro s c e rest hag hph hround hseed
  refine ⟨fun hslot => ⟨?_, State.beginTurn_pick _ c⟩, fun i t a l hslot hpick => ?_, fun a r hplace hslot hamos => ?_⟩
  · exact step_of_before hag hph (State.before_dueSlot hround hseed hslot)
  · intro r p n q hstop hthread helig hbeats hheld hbreak hvector
    have hturn : r.serveSlot c i = p.turnOf t :=
      State.serveSlot_own (s := r) ((congrArg CoreState.pick (s.core_withPhase _ c)).trans hpick) hstop hthread
    have hissue : p.turnOf t = q.issueBundle l n := State.turnOf_issues helig hbeats hheld hbreak hvector
    have hservice : s.service c (some i) = r.serveSlot c i := rfl
    have hserve : step s = mapOut State.settle (q.issueBundle l n) := by
      rw [step_of_before hag hph (State.before_dueSlot hround hseed hslot), hservice, hturn, hissue]
    refine ⟨fun x hone hx => ?_, fun x y u v htwo hx hy hreplay hu hv hrun hpc => ?_, fun hbad => ?_⟩
    · rw [hserve, State.issueBundle_one hone hx]
    · rw [hserve, State.issueBundle_two htwo hx hy hreplay hu hv hrun hpc]
    · rw [hserve, State.issueBundle_illegal hbad]; rfl
  · exact step_of_before hag hph (State.before_amos hround hseed hslot hplace hamos)

end Sys2Proof.Machine
end

section
/-! The writes of vector registers (R58, R179, R181) and the beats of a vector instruction (R189). -/

namespace Sys2Proof.Machine

/-! ### Elements of a register -/

/-- Writing the elements that a list names, each with the value of a function: those have their value, the others are kept. -/
theorem getD_foldl_listSet (f : Nat → BitVec 32) (es : List Nat) (v : List (BitVec 32)) {e : Nat} (h : e < v.length) :
    ((es.map (fun e => (e, f e))).foldl (fun v p => listSet v p.1 p.2) v).getD e 0 = if e ∈ es then f e else v.getD e 0 := by
  induction es generalizing v with
  | nil => simp
  | cons k r ih =>
    rw [List.map_cons, List.foldl_cons, listSet_eq_set, ih _ (by simpa using h)]
    by_cases hk : k = e
    · subst hk; simp [h]
    · simp [Ne.symm hk, List.getElem?_set_ne hk]

/-- R179, R181: elements written to a register with VL elements. -/
theorem getD_putAt (n : Nat) (old : List (BitVec 32)) (f : Nat → BitVec 32) (es : List Nat) {e : Nat} (h : e < n) :
    (putAt n old (es.map (fun e => (e, f e)))).getD e 0 = if e ∈ es then f e else old.getD e 0 := by
  rw [putAt, getD_foldl_listSet f es _ (by simpa using h)]
  simp [h]

/-! ### Registers (R58) -/

/-- A write of one register: that register. -/
theorem Thread.vput_self (t : Thread) (r : Fin 16) (w : List (Nat × BitVec 32)) :
    (t.vput [(r.val, w)]).v[r] = putAt t.vl t.v[r] w := by
  simp [Thread.vput, Nat.mod_eq_of_lt r.isLt]
/-- A write of one register leaves the others. -/
theorem Thread.vput_ne (t : Thread) {q r : Fin 16} (w : List (Nat × BitVec 32)) (h : q ≠ r) :
    (t.vput [(r.val, w)]).v[q] = t.v[q] := by
  have hne : r.val ≠ q.val := fun e => h (Fin.ext e.symm)
  simp [Thread.vput, Nat.mod_eq_of_lt r.isLt, hne]

/-! ### Beats (R189) -/

/-- A beat that is not the last counts the beats down. -/
theorem Thread.beat_more {t : Thread} {n : Nat} {ws : VWrites} (h : t.beats = some ⟨n, ws⟩) (hn : 2 ≤ n) :
    t.beat = { t with beats := some ⟨n - 1, ws⟩ } := by
  simp [Thread.beat, h, Nat.not_le.mpr hn]
/-- The last beat writes. -/
theorem Thread.beat_last {t : Thread} {ws : VWrites} (h : t.beats = some ⟨1, ws⟩) : t.beat = { t.vput ws with beats := none } := by
  simp [Thread.beat, h]

/-- R189: the turn of a pending beat changes the issuing thread alone. -/
theorem completes_pendingBeat {s : State} {t : Thread} (h : s.thread = some t) :
    Completes .pendingBeat s (fun v => OnlyThread s v ∧ v.thread = some t.beat) := by
  have hs : s.thread.isSome = true := by simp [h]
  refine completes_of_issue hs (t := s.setTh t.beat) ?_ ⟨(OnlyThread.refl s).setTh _, State.thread_setTh _ _⟩
  rw [← State.th_of_thread h]
  rfl

/-- Settles O30: the elements of one register, the other registers, and the beats. -/
theorem vectorWrites : Obligations.VectorWrites := by
  intro t r es f u
  refine ⟨fun q hq => t.vput_ne _ hq, fun e he => ?_, fun s ht => ⟨fun ws n hb hn => ?_, fun ws hb => ?_⟩⟩
  · rw [Thread.vput_self, getD_putAt _ _ _ _ he]
  · rw [← Thread.beat_more hb hn]; exact completes_pendingBeat ht
  · rw [← Thread.beat_last hb]; exact completes_pendingBeat ht

end Sys2Proof.Machine
end

section
/-! Writes to s14 and s15 (R57): the write is discarded, and the rest of the instruction's effect takes place. -/

namespace Sys2Proof.Machine

/-! ### What the integer instructions write (R112 to R118) -/

/-- An integer instruction that returns at once writes its destination and goes on. -/
theorem exec_of_intResult {i : Instr} {s : State} {d : Field} {v : Word} (h : intResult i s = some (d, v)) :
    ∃ v', exec i s = issue s (s.setReg d v').advance := by
  cases i with
  | nop => cases h; exact ⟨0, rfl⟩
  | segq q d' a => simp only [intResult] at h; split at h <;> (cases h; exact ⟨_, rfl⟩)
  | _ => cases h <;> exact ⟨_, rfl⟩

/-- So does a floating-point instruction that returns at once (R124 to R128). -/
theorem exec_of_floatResult {i : Instr} {s : State} {d : Field} {v : Word} (h : floatResult i s = some (d, v)) :
    ∃ v', exec i s = issue s (s.setReg d v').advance := by
  cases i <;> cases h <;> exact ⟨_, rfl⟩

/-- A comparison writes STAT, then its destination (R125). -/
theorem exec_fcmp (s : State) (p : BitVec 3) (f : BitVec 1) (d a b : Field) : ∃ (w v : Word),
    exec (.fcmp p f d a b) s = issue s ((s.setTh { s.th with stat := w }).setReg d v).advance :=
  ⟨setCF s.th.stat (s.fcompare f a b).flags, if (s.fcompare f a b).test p.toNat then 1 else 0, rfl⟩

/-! ### Results that return late (R113, R124) -/

/-- R113: the quotient of the manual is the truncating one. -/
theorem quotient_eq_tdiv (a b : Int) : quotient a b = a.tdiv b := by
  unfold quotient
  split <;> split
  · rw [← Int.tdiv_eq_ediv_of_nonneg (by omega), Int.neg_tdiv, Int.tdiv_neg, Int.neg_neg]
  · rw [← Int.tdiv_eq_ediv_of_nonneg (by omega), Int.neg_tdiv, Int.neg_neg]
  · rw [← Int.tdiv_eq_ediv_of_nonneg (by omega), Int.tdiv_neg, Int.neg_neg]
  · rw [Int.tdiv_eq_ediv_of_nonneg (by omega)]
/-- A word reads zero exactly where it is. -/
theorem word_toNat_eq_zero (x : Word) : x.toNat = 0 ↔ x = 0 := by
  rw [← BitVec.toNat_inj]; rfl

/-- A division leaves its result outstanding. -/
theorem exec_of_divResult {i : Instr} {s : State} {d : Field} {v : Word} (h : divResult i s = some (d, v)) :
    exec i s = issue s (s.late d v) := by
  have hones : (0xFFFFFFFFFFFFFFFF : Word) = -1 := rfl
  cases i with
  | div d' a b =>
    simp only [divResult, word_toNat_eq_zero, hones, quotient_eq_tdiv] at h
    cases h; rfl
  | rem d' a b =>
    simp only [divResult, word_toNat_eq_zero, quotient_eq_tdiv] at h
    cases h; rfl
  | divu d' a b =>
    simp only [divResult, word_toNat_eq_zero, hones] at h
    cases h; rfl
  | remu d' a b =>
    simp only [divResult, word_toNat_eq_zero] at h
    cases h; rfl
  | _ => cases h
/-- So do the floating-point division and square root. -/
theorem exec_of_lateFloat {i : Instr} {s : State} {d : Field} {v : Word} (h : lateFloat i s = some (d, v)) :
    exec i s = issue s (s.late d v) := by
  cases i <;> cases h <;> rfl

/-! ### Branches and jumps (R119 to R121) -/

/-- R64: the target of an immediate branch. -/
theorem State.branchTarget_eq (s : State) (idx : Field) (off : BitVec 17) : branchTarget s.th.pc idx off = s.target idx off := by
  have hoff : ((off.signExtend 64).toNat : Int) = off.toInt ∨ ((off.signExtend 64).toNat : Int) = off.toInt + 2 ^ 64 := by
    have h := BitVec.toInt_signExtend_of_le (x := off) (v := 64) (by decide)
    rw [BitVec.toInt_eq_toNat_cond] at h
    split at h <;> omega
  have hidx : (idx.setWidth 64).toNat = idx.toNat := by simp; omega
  have h64 : (64 : Word).toNat = 64 := rfl
  have hlow : idx.toNat < 2 ^ 6 := by omega
  have hshift (n : Nat) : n <<< 6 % 2 ^ 64 = n % 2 ^ 58 * 64 := by rw [Nat.shiftLeft_eq]; omega
  apply BitVec.eq_of_toNat_eq
  rw [branchTarget, BitVec.toNat_or, BitVec.toNat_shiftLeft, BitVec.zeroExtend, hidx, hshift]
  rw [show ∀ n, n * 64 = n <<< 6 from fun n => (Nat.shiftLeft_eq n 6).symm, ← Nat.shiftLeft_add_eq_or_of_lt hlow, Nat.shiftLeft_eq]
  simp only [State.target, BitVec.toNat_add, BitVec.toNat_mul, BitVec.toNat_ushiftRight, Nat.shiftRight_eq_div_pow, BitVec.toNat_ofNat, h64]
  have hpc := s.th.pc.isLt
  omega

/-- A branch goes to its target where it is taken, else on. -/
theorem State.branch_eq (s : State) {c c' : Bool} (hc : c = c') (idx : Field) (off : BitVec 17) :
    ∃ held, s.branch c idx off = s.setTh (s.th.finish (if c' then s.target idx off else s.nextPc) held) := by
  subst hc
  cases c with
  | true => exact ⟨none, by simp [State.branch, State.jump, State.branchTarget_eq]⟩
  | false => exact ⟨_, rfl⟩

/-- A branch or a jump writes its link register and goes on at its PC. -/
theorem exec_of_transfer {i : Instr} {s : State} {d : Field} {v pc : Word} (h : transfer i s = some (d, v, pc)) :
    ∃ held, exec i s = issue s ((s.setReg d v).setTh ((s.setReg d v).th.finish pc held)) := by
  have br {c c' : Bool} (hc : c = c') (idx : Field) (off : BitVec 17) : ∃ held, issue s (s.branch c idx off) =
      issue s ((s.setReg 0x1F 0).setTh ((s.setReg 0x1F 0).th.finish (if c' then s.target idx off else s.nextPc) held)) := by
    obtain ⟨held, e⟩ := s.branch_eq hc idx off
    exact ⟨held, congrArg (issue s) e⟩
  cases i with
  | beq a b idx off => cases h; exact br (by simp [BitVec.toNat_inj]) idx off
  | bne a b idx off => cases h; exact br (by simp [BitVec.toNat_inj]) idx off
  | blt a b idx off => cases h; exact br rfl idx off
  | bge a b idx off => cases h; exact br rfl idx off
  | bltu a b idx off => cases h; exact br rfl idx off
  | bgeu a b idx off => cases h; exact br rfl idx off
  | j idx off => cases h; exact ⟨none, by rw [if_pos rfl, ← s.branchTarget_eq]; rfl⟩
  | jal l idx off => cases h; exact ⟨none, by rw [← s.branchTarget_eq]; rfl⟩
  | jr a => cases h; exact ⟨none, rfl⟩
  | jalr d' a => cases h; exact ⟨none, rfl⟩
  | _ => cases h

/-! ### Discarded writes (R57) -/

/-- What an instruction whose write is discarded leaves: its thread at the next PC, and every register as it was; s14 reads the core's
number and s15 zero. -/
def Discarded (s : State) (pc : Word) (t : State) : Prop :=
  OnlyThread s t ∧ ((∀ f, t.file f = s.file f) ∧ t.file 0x1E = BitVec.ofNat 64 s.cur ∧ t.file 0x1F = 0) ∧
  ∃ u, t.thread = some u ∧ u.pc = pc

/-- The end of an instruction with a destination that discards the write. -/
theorem discarded_of_ended {s t : State} {u : Thread} {d : Field} {v pc : Word} (hd : discards d = true) (h : Ended s u d v pc t) :
    Discarded s pc t := by
  obtain ⟨⟨w, hw, -, hpc, -⟩, hregs, hframe⟩ := h
  have hkeep (f : Field) : t.file f = s.file f := by simp [hregs, written, hd]
  have hcur : t.cur = s.cur := by rw [hframe.rest]
  refine ⟨hframe, ⟨hkeep, ?_, ?_⟩, w, hw, hpc⟩
  · rw [← hcur]; rfl
  · rfl

/-- A result that is outstanding for a destination, after an instruction that goes on. -/
theorem passed_late (s : State) (d : Field) (v : Word) : Passed s (s.th.awaiting d [(0, v)] 0 none) s.nextPc (s.late d v) :=
  passed_advance s (s.th.awaiting d [(0, v)] 0 none) rfl

/-- What an instruction whose late result is to be discarded leaves. -/
def DiscardedLate (s : State) (d : Field) (v : Word) (t : State) : Prop :=
  Discarded s s.nextPc t ∧
  ∃ u, t.thread = some u ∧ u.pending = s.th.pending ++ [{ seq := s.th.nextSeq, dst := .scalar d, vals := [(0, v)], missing := 0 }]

theorem discardedLate_of_passed {s t : State} {d : Field} {v : Word} (h : Passed s (s.th.awaiting d [(0, v)] 0 none) s.nextPc t) :
    DiscardedLate s d v t := by
  refine ⟨discarded_of_ended rfl h, ?_⟩
  obtain ⟨⟨w, hw, hkept, -, -⟩, -, -⟩ := h
  exact ⟨w, hw, congrArg Thread.pending hkept⟩

/-! ### Loads from the issuing core's own store (R151) -/

/-- A watchpoint that does not watch an access leaves the state (R393). -/
theorem State.watch_of_unwatched {s : State} {ea : Word} {n : Nat} {write : Bool} (h : s.unwatched ea n write) :
    s.watch ea n write = s := by
  obtain ⟨h0, h1⟩ := h
  simp [State.watch, h0, h1]

/-- A plain load of the issuing core's own bytes leaves its result outstanding (log 54). -/
theorem passed_load_own {s : State} {n o : Nat} {ea : Word} {os : Field} (hr : s.th.replay = none)
    (ho : (osOrder os).acquires = false) (hc : s.check s.th ea n .read false = .ok (.store s.cur o))
    (hl : listClosed (s.core s.cur) o n = false) (hw : s.unwatched ea n false) (signed : Bool) (d : Field) :
    Passed s (s.th.awaiting d [(0, extend n signed ((s.core s.cur).ls.num o n))] 0 none) s.nextPc (s.load n signed d ea os) := by
  have e : s.load n signed d ea os =
      s.setTh (s.th.awaiting d [(0, extend n signed ((s.core s.cur).ls.num o n))] 0 none).advance := by
    simp [State.load, State.eaOf_of_no_replay hr, State.place_of_no_replay hr, hc, State.lsRead, hl, State.watch_of_unwatched hw,
      State.finishLoad, ho, Thread.pend, Thread.awaiting]
  rw [e]
  exact passed_setTh s (Thread.kept_finish (Thread.kept_refl _) _ _) rfl rfl

/-! ### A result for a discarded destination lands (R92, R141) -/

/-- A register write that is discarded leaves the state. -/
theorem State.putReg_discards {d : Field} (hd : discards d = true) (s : State) (c : Nat) (i : Fin 16) (v : Word) :
    s.putReg c i d v = s := by
  rw [discards_iff] at hd
  simp only [Bool.and_eq_true, Bool.or_eq_true, beq_iff_eq] at hd
  obtain ⟨h4, hn⟩ := hd
  exact (if_pos h4).trans (if_pos hn)
/-- So does one of a bank. -/
theorem State.putBank_discards {d : Field} (hd : discards d = true) (s : State) (x c : Nat) (v : Word) :
    s.putBank x c (d.extractLsb' 0 4) v = s := by
  rw [discards_iff] at hd
  simp only [Bool.and_eq_true, Bool.or_eq_true, beq_iff_eq] at hd
  exact if_pos hd.2

/-- The landing takes the result from the thread's outstanding ones and counts its dependency slot down; where an acquire waited for
it, the constant cache is dropped. -/
theorem State.land_discards {s : State} {c k : Nat} {i : Fin 16} {t : Thread} {p : Pending} {d : Field} (hd : discards d = true)
    (ht : s.threadAt c i = some t) (hp : t.pending[k]? = some p) (hm : p.missing = 0) (hdst : p.dst = .scalar d) :
    s.land c i k = (if t.st = .parked (.landing p.seq) then s.acquireAt c else s).setSlot c i
      (some (({ t with pending := listDel t.pending k }).depEnd p.dep (s.tagOf c i t))) := by
  simp only [State.land, ht, hp, hm, hdst]
  rw [if_neg (by simp)]
  split <;> split <;> simp [State.putBank_discards hd, State.putReg_discards hd]

/-- R92: such a landing writes no register and no memory. -/
theorem land_discards_frame {s : State} {c k : Nat} {i : Fin 16} {t : Thread} {p : Pending} {d : Field} (hd : discards d = true)
    (ht : s.threadAt c i = some t) (hp : t.pending[k]? = some p) (hm : p.missing = 0) (hdst : p.dst = .scalar d) :
    (∀ j, ((s.land c i k).core j).shared = (s.core j).shared) ∧ (s.land c i k).contexts = s.contexts ∧ (s.land c i k).mem = s.mem ∧
    ∃ w, (s.land c i k).threadAt c i = some w ∧ w.g = t.g ∧ w.pending = listDel t.pending k := by
  rw [State.land_discards hd ht hp hm hdst]
  have hbase : ∃ b : State, (if t.st = .parked (.landing p.seq) then s.acquireAt c else s) = b ∧ b.cores = s.cores ∧
      b.contexts = s.contexts ∧ b.mem = s.mem := by
    split
    · exact ⟨_, rfl, rfl, rfl, rfl⟩
    · exact ⟨_, rfl, rfl, rfl, rfl⟩
  obtain ⟨b, hb, hcores, hcontexts, hmem⟩ := hbase
  have hcore (j : Nat) : b.core j = s.core j := by rw [State.core, State.core, hcores]
  rw [hb]
  refine ⟨fun j => ?_, hcontexts, hmem, _, State.threadAt_setSlot_self .., ?_, ?_⟩
  · by_cases h : j = c
    · subst h; rw [State.core_setSlot_self, hcore]
    · rw [State.core_setSlot_ne _ _ _ h, hcore]
  · cases p.dep <;> rfl
  · cases p.dep <;> rfl

/-! ### The obligation -/

/-- Settles O2: every instruction of the list ends with its destination discarded, or leaves a result outstanding, which is
discarded when it lands. -/
theorem discardedWrites : Obligations.DiscardedWrites := by
  intro s d hd
  have hdis : discards d = true := by rcases hd with rfl | rfl <;> rfl
  refine ⟨fun hs => ⟨fun i v h => ?_, fun i v pc h => ?_, fun p f a b => ?_, fun i v h => ?_, fun num v h => ?_, ?_⟩, ?_⟩
  · obtain ⟨v', he⟩ : ∃ v', exec i s = issue s (s.setReg d v').advance := h.elim exec_of_intResult exec_of_floatResult
    exact completes_of_issue hs he (discarded_of_ended hdis (ended_setReg s d v' hs))
  · obtain ⟨held, he⟩ := exec_of_transfer h
    exact completes_of_issue hs he (discarded_of_ended hdis (ended_reg s d v pc held hs))
  · obtain ⟨w, v, he⟩ := exec_fcmp s p f d a b
    exact completes_of_issue hs he (discarded_of_ended hdis (ended_advance s { s.th with stat := w } d v rfl))
  · have he : exec i s = issue s (s.late d v) := h.elim exec_of_divResult exec_of_lateFloat
    exact completes_of_issue hs he (discardedLate_of_passed (passed_late s d v))
  · have he : exec (.rdsys d num) s = issue s (s.late d v) := by
      show execRdsys d num s = _
      rw [execRdsys, h]
    exact completes_of_issue hs he (discardedLate_of_passed (passed_late s d v))
  · intro size a os off o hr ho ea n hc hl hw
    rw [show n = sizeBytes size from (sizeBytes_eq size).symm] at hc hl hw
    exact completes_of_issue hs rfl ⟨_, discardedLate_of_passed (passed_load_own hr ho hc hl hw (sizeSigned size) d)⟩
  · intro c i k t p v ht hp hm hdst _
    refine ⟨s.land c i k, ?_, land_discards_frame hdis ht hp hm hdst⟩
    show Host.Outcome.next (s.land c (Fin.ofNat 16 i.val) k) = _
    rw [Fin.ofNat_val_eq_self]

end Sys2Proof.Machine
end

section
/-! The line that a thread waits for comes and is kept (R51, R65, R67, R122, R136), and the walk that it waits for ends (R343, R344). -/

namespace Sys2Proof.Machine

/-! ### Line fetches -/

section
variable {s : State} {c : Nat} {i : Fin 16} {t : Thread} (ht : s.threadAt c i = some t)
include ht

/-- R51, R67: a line that passes its checks is kept in the cluster's cache and held. -/
theorem State.lineCame_ok {a d : Nat} {l : Line} (hl : l.ok (t.pc &&& 63).toNat = true) :
    s.lineCame c i a d l true = (s.setCluster (clusterOf c) { s.cluster (clusterOf c) with
      icache := (t.ctx, d / 64, l) :: (s.cluster (clusterOf c)).icache }).setSlot c i
        (some { t with held := some (a, l), fetchCount := 0 }) := by
  simp only [State.lineCame, ht, hl, if_true]

section
variable (hst : t.st = .parked .fetch) (hheld : t.held = none)
include hst hheld

/-- R65, R122: a fetch that its port translates to a home on this package reads the line there. -/
theorem State.fetchDone_of_hit {dva : Nat} {h : Home} (hc : checkFetch t (BitVec.ofNat 64 (t.pc.toNat / 64 * 64)) = .ok dva)
    (hh : s.hit (clusterOf c) t.ctx dva false = some h) (hr : h.remote = false) (hp : s.poison = []) :
    s.fetchDone c i =
      s.lineCame c i (t.pc.toNat / 64 * 64) dva (BitVec.ofNat 512 (s.mem.num h.addr 64)) true := by
  simp [State.fetchDone, ht, hst, hheld, hc, hh, hr, hp, State.reachable, State.homeRead]

/-- R136: a fetch whose check fails traps. -/
theorem State.fetchDone_of_check_error {e : Nat} (hc : checkFetch t (BitVec.ofNat 64 (t.pc.toNat / 64 * 64)) = .error e) :
    s.fetchDone c i = s.takeTrap c i { kind := e, ea := BitVec.ofNat 64 (t.pc.toNat / 64 * 64), access := 3 } := by
  simp [State.fetchDone, ht, hst, hheld, hc]

end

end

/-! ### Walks -/

/-- R354: a read that meets a poisoned line puts its containment on the agenda, and does nothing else. -/
theorem State.meetEcc_eq (s : State) (h : Home) (n : Nat) : ∃ a, s.meetEcc h n = { s with agenda := a } := by
  unfold State.meetEcc
  split
  · exact ⟨_, rfl⟩
  · exact ⟨s.agenda, rfl⟩
/-- So does a walk that meets poisoned tables. -/
theorem State.walkMeets_eq (s : State) (cl x dva : Nat) : ∃ a, s.walkMeets cl x dva = { s with agenda := a } := by
  have hfold (ls : List Nat) : ∀ b, ∃ a, ls.foldl (fun (s : State) l => s.meetEcc ⟨false, 0, 64 * l⟩ 1)
      ({ s with agenda := b } : State) = { s with agenda := a } := by
    induction ls with
    | nil => exact fun b => ⟨b, rfl⟩
    | cons l ls ih =>
      intro b
      obtain ⟨a, ha⟩ := State.meetEcc_eq ({ s with agenda := b } : State) ⟨false, 0, 64 * l⟩ 1
      rw [List.foldl_cons, ha]
      exact ih a
  unfold State.walkMeets
  split
  · exact ⟨s.agenda, rfl⟩
  · exact hfold _ s.agenda

/-- R344: a walk that has found a leaf caches it. -/
theorem State.fill_tlb_mem (s : State) (cl x dva : Nat) (up : List (Nat × Word)) (sh : Nat) (e : Word) :
    (⟨x, sh, dva / 2 ^ sh, e⟩ : TlbEntry) ∈ ((s.fill cl x dva up (some (sh, e))).cluster cl).tlb := by
  simp [State.fill]
/-- One that has not leaves the cached leaves as they were. -/
theorem State.fill_tlb_none (s : State) (cl x dva : Nat) (up : List (Nat × Word)) :
    ((s.fill cl x dva up none).cluster cl).tlb = (s.cluster cl).tlb := by
  simp [State.fill]

section
variable {s : State} {c : Nat} {i : Fin 16} {t : Thread} {w : WalkReq} (ht : s.threadAt c i = some t) (hw : t.walk = some w)
include ht hw

/-- R343, R344: a walk that finds a leaf caches it and ends the thread's wait, unless no path to the home has existed for too long. -/
theorem State.walkDone_ok {sh : Nat} {e : Word} {h : Home}
    (hj : s.judge t.ctx w.dva w.write false (s.portWalk (clusterOf c) t.ctx w.dva).2 = .ok sh e h)
    (hr : s.reachable h = true ∨ s.pathLost h.at_ = false) : ∃ a, s.walkDone c i =
      (({ s with agenda := a } : State).fill (clusterOf c) t.ctx w.dva (s.portWalk (clusterOf c) t.ctx w.dva).1
        (some (sh, e))).setSlot c i (some { t with walk := none }) := by
  obtain ⟨a, ha⟩ := s.walkMeets_eq (clusterOf c) t.ctx w.dva
  have hj' : ({ s with agenda := a } : State).judge t.ctx w.dva w.write false (s.portWalk (clusterOf c) t.ctx w.dva).2 =
      .ok sh e h := hj
  have hr' : (!({ s with agenda := a } : State).reachable h && ({ s with agenda := a } : State).pathLost h.at_) = false := by
    rcases hr with hr | hr
    · exact Bool.and_eq_false_iff.mpr (.inl (congrArg Bool.not hr))
    · exact Bool.and_eq_false_iff.mpr (.inr hr)
  refine ⟨a, ?_⟩
  simp only [State.walkDone, ht, hw, ha, hj', hr', Bool.false_eq_true, if_false]

/-- R343, R345: a walk that finds a fault raises it at the access. -/
theorem State.walkDone_fault {k l : Nat}
    (hj : s.judge t.ctx w.dva w.write false (s.portWalk (clusterOf c) t.ctx w.dva).2 = .fault k l) : ∃ a, s.walkDone c i =
      ((({ s with agenda := a } : State).fill (clusterOf c) t.ctx w.dva (s.portWalk (clusterOf c) t.ctx w.dva).1 none).leaveQueues
        c t.uid).setSlot c i (some (t.fail
          { kind := k, ea := w.ea, dva := BitVec.ofNat 64 w.dva, access := w.access, level := l })) := by
  obtain ⟨a, ha⟩ := s.walkMeets_eq (clusterOf c) t.ctx w.dva
  have hj' : ({ s with agenda := a } : State).judge t.ctx w.dva w.write false (s.portWalk (clusterOf c) t.ctx w.dva).2 =
      .fault k l := hj
  have ht' : ((({ s with agenda := a } : State).fill (clusterOf c) t.ctx w.dva (s.portWalk (clusterOf c) t.ctx w.dva).1
      none).leaveQueues c t.uid).threadAt c i = some t := (State.threadAt_leaveQueues ..).trans ht
  refine ⟨a, ?_⟩
  simp only [State.walkDone, ht, hw, ha, hj', State.takeTrap_of_threadAt ht']

end

/-! ### The obligation -/

/-- The steps of hardware that name a slot by its number. -/
theorem exec_lineFetch (s : State) (c : Nat) (i : Fin 16) : exec (.lineFetch c i.val) s = .next (s.fetchDone c i) := by
  show Host.Outcome.next (s.fetchDone c (Fin.ofNat 16 i.val)) = _
  rw [Fin.ofNat_val_eq_self]
theorem exec_pageWalk (s : State) (c : Nat) (i : Fin 16) : exec (.pageWalk c i.val) s = .next (s.walkDone c i) := by
  show Host.Outcome.next (s.walkDone c (Fin.ofNat 16 i.val)) = _
  rw [Fin.ofNat_val_eq_self]

/-- Settles O42: the line or the fetch's trap, and the leaf or the walk's fault. -/
theorem fetchAndWalk : Obligations.FetchAndWalk := by
  intro s c i t ht cl a
  refine ⟨fun dva h hst hheld hc hh hr hp => ?_, fun e hst hheld hc => ?_, fun w up sh e h hw hup hj hr => ?_,
    fun w up k l hw hup hj => ?_⟩
  · intro l hl
    rw [exec_lineFetch, State.fetchDone_of_hit ht hst hheld hc hh hr hp, State.lineCame_ok ht hl]
  · refine ⟨_, (exec_lineFetch s c i).trans (congrArg _ (State.fetchDone_of_check_error ht hst hheld hc)), ?_⟩
    rw [State.takeTrap_of_threadAt ht]
    exact ⟨rfl, _, _, State.threadAt_setSlot_self .., rfl, rfl, rfl, rfl, rfl⟩
  · subst hup
    obtain ⟨b, hb⟩ := State.walkDone_ok ht hw hj hr
    refine ⟨_, (exec_pageWalk s c i).trans (congrArg _ hb), rfl, State.threadAt_setSlot_self .., ?_⟩
    exact State.fill_tlb_mem ..
  · subst hup
    obtain ⟨b, hb⟩ := State.walkDone_fault ht hw hj
    refine ⟨_, (exec_pageWalk s c i).trans (congrArg _ hb), rfl, ?_, _, _, State.threadAt_setSlot_self .., rfl, rfl, rfl, rfl, rfl, rfl⟩
    exact State.fill_tlb_none ..

end Sys2Proof.Machine
end

section
/-! System instructions (R72, R350, R365, R367, R394): traps to services, waits for work, translations and code lines that are
removed, breakpoints and marks. -/

namespace Sys2Proof.Machine

/-! ### Traps and waits of the issuing thread -/

/-- R89: an instruction that waits parks its thread, and changes nothing else. -/
theorem parkedFor_park {s : State} (h : s.thread.isSome = true) (w : Wait) : ParkedFor s w (s.park w) := by
  refine ⟨⟨s.th, _, State.thread_eq_th h, State.thread_setTh _ _, rfl, rfl, rfl, rfl, rfl⟩, fun c => ?_, rfl, rfl, fun c => ?_⟩
  all_goals by_cases hc : c = s.cur
  · exact .inr hc
  · exact .inl (State.core_setTh_ne _ _ hc)
  · subst hc; rw [State.park, State.core_setTh_self]
  · exact congrArg CoreState.ls (State.core_setTh_ne _ _ hc)

/-- R365: a call of a service: its number, operand and destination, and the PC at which it goes on. -/
theorem trapped_service {s : State} (h : s.thread.isSome = true) (f : FaultInfo) :
    Trapped s f.kind f.ea (s.takeTrap s.cur s.slot f) ∧
      ∃ u, (s.takeTrap s.cur s.slot f).thread = some u ∧ u.fault = some f := by
  have e : s.takeTrap s.cur s.slot f = s.setTh (s.th.fail f) := State.takeTrap_of_threadAt (State.thread_eq_th h) f
  exact ⟨trapped_takeTrap h f, s.th.fail f, by rw [e]; exact State.thread_setTh _ _, rfl⟩

/-! ### Caches of the clusters (R72, R344, R350) -/

theorem mapGet_map {α : Type} (f : α → α) (l : List (Nat × α)) (a : Nat) :
    mapGet (l.map (fun p => (p.1, f p.2))) a = (mapGet l a).map f := by
  induction l with
  | nil => rfl
  | cons p r ih =>
    simp only [List.map_cons, mapGet, ih]
    split <;> rfl

/-- A change of every cluster that leaves a fresh one as it is. -/
theorem State.cluster_map (s : State) {f : Cluster → Cluster} (hf : f {} = {}) (n : Nat) :
    ({ s with clusters := s.clusters.map (fun p => (p.1, f p.2)) } : State).cluster n = f (s.cluster n) := by
  simp only [State.cluster, mapGet_map]
  cases mapGet s.clusters n <;> simp [hf]

/-- R350: the translations that a removal leaves in a port. -/
theorem State.cluster_dropTranslations (s : State) (x : Nat) (dva : Option Nat) (leaves : Bool) (n : Nat) :
    (s.dropTranslations x dva leaves).cluster n = { s.cluster n with
      tlb := if leaves then (s.cluster n).tlb.filter (fun e => !e.named x dva) else (s.cluster n).tlb
      nonleaf := (s.cluster n).nonleaf.filter (fun e => !e.named x dva) } :=
  s.cluster_map (f := fun k => { k with
    tlb := if leaves then k.tlb.filter (fun e => !e.named x dva) else k.tlb
    nonleaf := k.nonleaf.filter (fun e => !e.named x dva) }) (by cases leaves <;> rfl) n

/-- R72: the lines that a flush leaves in a cluster's cache. -/
theorem State.cluster_dropCode (s : State) (x line n : Nat) :
    (s.dropCode x line).cluster n = { s.cluster n with
      icache := (s.cluster n).icache.filter (fun e => !(e.1 == x && e.2.1 == line)) } :=
  s.cluster_map (f := fun k => { k with icache := k.icache.filter (fun e => !(e.1 == x && e.2.1 == line)) }) rfl n

/-- R350: the address that `tlbinv` names: none, for all of the context's entries, where its bits 63 to 57 are not 0. -/
def namedAddress (v : Word) : Option Nat := if bits v 63 57 ≠ 0 then none else some v.toNat

/-- R350: an entry of the context that `tlbinv` does not name. -/
theorem named_eq_false_iff (e : TlbEntry) (x : Nat) (v : Word) :
    e.named x (namedAddress v) = false ↔ e.ctx ≠ x ∨ (v.toNat < 2 ^ 57 ∧ e.page ≠ v.toNat / 2 ^ e.shift) := by
  have hv := v.isLt
  have hb : bits v 63 57 = v.toNat / 2 ^ 57 := by
    rw [bits, Nat.shiftRight_eq_div_pow, Nat.mod_eq_of_lt]; omega
  have h0 : v.toNat / 2 ^ 57 = 0 ↔ v.toNat < 2 ^ 57 := by omega
  unfold namedAddress TlbEntry.named
  by_cases h : v.toNat < 2 ^ 57
  · simp [hb, h0.mpr h, h, imp_iff_not_or, -Nat.reducePow]
  · simp [hb, mt h0.mp h, h, -Nat.reducePow]

/-! ### What goes on after its waits -/

/-- The issuing thread goes on from a phase of its instruction: what it kept for the instruction is dropped. -/
theorem passed_staged (s : State) (n : Nat) (aux : Word) :
    Passed s s.th s.nextPc (s.setTh { s.th with stage := n, aux := aux }).advance := by
  have h := ended_of (s := s) (u := s.th) (d := 0x1F) (v := 0) s.nextPc
    (if (s.th.pc &&& 63).toNat < s.th.lineCount then s.th.held else none)
    ((OnlyThread.refl s).setTh { s.th with stage := n, aux := aux }) (State.thread_setTh _ _) rfl
    (fun f => (State.file_setTh_same s { s.th with stage := n, aux := aux } rfl f).trans (by simp [written, discards]))
  unfold State.advance
  rw [State.th_setTh] at h ⊢
  exact h

/-- A change of the clusters alone, before the issuing thread goes on. -/
theorem passed_clusters (s : State) (l : List (Nat × Cluster)) :
    Passed { s with clusters := l } s.th s.nextPc ({ s with clusters := l } : State).advance := passed_base rfl

section
variable {s : State} (hack : s.acked s.cur s.th.uid 5 = true)
include hack

/-- R350: `tlbinv`, where no access of its context is in flight. -/
theorem State.tlbinv_settled (hp : statPriv s.th.stat = 2) (h0 : s.th.stage = 0) (hf : ∀ y ∈ s.flight, y.ctx ≠ s.th.ctx) (v : Word) :
    s.tlbinv v = ((s.dropTranslations s.th.ctx (namedAddress v) true).setTh
      { s.th with stage := 2, aux := BitVec.ofNat 64 s.nextId }).advance := by
  let s2 := (s.dropTranslations s.th.ctx (namedAddress v) true).setTh { s.th with stage := 2, aux := BitVec.ofNat 64 s.nextId }
  have hwait : s.resolved s.cur s.th .acks = true := hack
  have hdone : s2.resolved s2.cur s2.th (.performed s.nextId) = true := by
    rw [show s2.th = { s.th with stage := 2, aux := BitVec.ofNat 64 s.nextId } from State.th_setTh _ _]
    exact List.all_eq_true.mpr fun y hy => by simp [hf y hy]
  unfold State.tlbinv
  rw [if_neg (by simp [hp]), if_neg (by simp [h0]), State.await_resolved _ hwait]
  exact State.await_resolved _ hdone

/-- R350: `ptsync`. -/
theorem exec_ptsync (hp : statPriv s.th.stat = 2) :
    exec .ptsync s = issue s (s.dropTranslations s.th.ctx none false).advance := by
  have hwait : s.resolved s.cur s.th .acks = true := hack
  show execPtsync s = _
  rw [execPtsync, if_neg (by simp [hp]), State.await_resolved _ hwait]

/-- R72: `cflush` of a line whose page the port translates. -/
theorem State.cflush_hit {ea : Word} {dva : Nat} {h : Home}
    (hc : checkFetch s.th (BitVec.ofNat 64 (ea.toNat / 64 * 64)) = .ok dva)
    (hh : s.hit (clusterOf s.cur) s.th.ctx dva false = some h) : s.cflush ea = (s.dropCode s.th.ctx (dva / 64)).advance := by
  have hwait : s.resolved s.cur s.th .acks = true := hack
  simp only [State.cflush, hc, State.needPage, hh]
  exact State.await_resolved _ hwait

end

/-! ### Records of a trace session (R387) leave the cores alone -/

/-- Two states have the same cores and the same issuing slot. -/
structure State.SameCores (s t : State) : Prop where
  cores : t.cores = s.cores
  cur : t.cur = s.cur
  slot : t.slot = s.slot

theorem State.SameCores.refl (s : State) : s.SameCores s := ⟨rfl, rfl, rfl⟩
theorem State.SameCores.trans {s t u : State} (h : s.SameCores t) (k : t.SameCores u) : s.SameCores u :=
  ⟨k.cores.trans h.cores, k.cur.trans h.cur, k.slot.trans h.slot⟩
theorem State.SameCores.th {s t : State} (h : s.SameCores t) : t.th = s.th := by
  simp only [State.th, State.thread, State.threadAt, State.core, h.cores, h.cur, h.slot]

theorem State.sameCores_homeWrite (s : State) (x : Nat) (h : Home) (n v : Nat) : s.SameCores (s.homeWrite x h n v) := by
  unfold State.homeWrite State.homePut
  split <;> exact ⟨rfl, rfl, rfl⟩
/-- An agent's store is done, waits, or is lost (R230). -/
theorem State.sameCores_agentWrite (s : State) (x dva n v : Nat) : s.SameCores (s.agentWrite x dva n v) := by
  unfold State.agentWrite State.update
  split
  · exact ⟨rfl, rfl, rfl⟩
  · split
    · exact s.sameCores_homeWrite ..
    · exact ⟨rfl, rfl, rfl⟩
    · exact State.SameCores.refl s
theorem State.sameCores_agentPut (s : State) (x dva : Nat) (ws : List Word) : s.SameCores (s.agentPut x dva ws) := by
  induction ws generalizing s dva with
  | nil => exact State.SameCores.refl s
  | cons w r ih => exact (s.sameCores_agentWrite ..).trans (ih _ _)
theorem State.sameCores_putHead (s : State) (x : Nat) (ss : Session) (v : Nat) : s.SameCores (s.putHead x ss v) := by
  unfold State.putHead
  exact State.SameCores.trans (t := s.setContext x _) ⟨rfl, rfl, rfl⟩ (State.sameCores_agentWrite ..)
theorem State.sameCores_append (s : State) (x : Nat) (ws : List Word) (last : Bool) : s.SameCores (s.append x ws last).1 := by
  unfold State.append
  split
  · exact State.SameCores.refl s
  · exact iteInduction (motive := fun r : State × Option Nat => s.SameCores r.1)
      (fun _ => (s.sameCores_agentPut ..).trans (State.sameCores_putHead ..)) (fun _ => s.sameCores_putHead ..)

/-- R394: the state after a record that a session asks for. -/
def State.recorded (s : State) (x k : Nat) (w : List Word) : State := if s.tracing x k then (s.append x w false).1 else s

theorem State.th_recorded (s : State) (x k : Nat) (w : List Word) : (s.recorded x k w).th = s.th := by
  unfold State.recorded
  split
  · exact (s.sameCores_append ..).th
  · rfl

/-! ### Breakpoints and marks (R394) -/

/-- R394: what `brk` records and where it stops its core. -/
theorem exec_brk {s : State} (code : BitVec 4) (hx : (s.core s.cur).ctx = some s.th.ctx) :
    let z := if (s.core s.cur).stopEn then s.setCore s.cur { s.core s.cur with stopped := true } else s
    exec (.brk code) s = issue s (z.recorded s.th.ctx 3
      [recordHead 7 0 s.time, BitVec.ofNat 64 ((s.slotEntity s.cur s.slot.val).toNat + code.toNat * 2 ^ 40), s.th.pc, 0]).advance := by
  have hcode : code.toNat % 256 = code.toNat := Nat.mod_eq_of_lt (code.isLt.trans (by decide))
  show execBrk code s = _
  cases h : (s.core s.cur).stopEn with
  | false => simp only [execBrk, h, Bool.false_eq_true, if_false]; rfl
  | true => simp only [execBrk, h, if_true, State.stopCore, hx, hcode]; rfl

/-- R393: a core that stops keeps its threads. -/
theorem State.th_stopped (s : State) : (s.setCore s.cur { s.core s.cur with stopped := true }).th = s.th := by
  simp [State.th, State.thread, State.threadAt]

/-- R394: `brk` ends with the core stopped where STOPEN is set, and with its record. -/
theorem completes_brk {s : State} (hs : s.thread.isSome = true) (code : BitVec 4) (hx : (s.core s.cur).ctx = some s.th.ctx) :
    let z := if (s.core s.cur).stopEn then s.setCore s.cur { s.core s.cur with stopped := true } else s
    Completes (.brk code) s (Passed (z.recorded s.th.ctx 3
      [recordHead 7 0 s.time, BitVec.ofNat 64 ((s.slotEntity s.cur s.slot.val).toNat + code.toNat * 2 ^ 40), s.th.pc, 0])
      s.th s.nextPc) := by
  intro z
  have hz : z.th = s.th := by
    show (if (s.core s.cur).stopEn then s.setCore s.cur { s.core s.cur with stopped := true } else s).th = s.th
    split
    · exact s.th_stopped
    · rfl
  exact completes_of_issue hs (exec_brk code hx) (passed_base ((z.th_recorded ..).trans hz))

/-- R394: `tmark` ends with its record. -/
theorem completes_tmark {s : State} (hs : s.thread.isSome = true) (a : Field) (code : BitVec 16) :
    Completes (.tmark a code) s (Passed (s.recorded s.th.ctx 4
      [recordHead 8 0 s.time, BitVec.ofNat 64 ((s.slotEntity s.cur s.slot.val).toNat + code.toNat * 2 ^ 40), s.reg a, 0])
      s.th s.nextPc) :=
  completes_of_issue hs rfl (passed_base (s.th_recorded ..))

/-! ### The obligation -/

/-- R350: `tlbinv` removes what it names from every port, keeps every other leaf, and goes on. -/
theorem completes_tlbinv {s : State} (hs : s.thread.isSome = true) (a : Field) (hp : statPriv s.th.stat = 2)
    (hack : s.acked s.cur s.th.uid 5 = true) (h0 : s.th.stage = 0) (hf : ∀ y ∈ s.flight, y.ctx ≠ s.th.ctx) :
    Completes (.tlbinv a) s (fun t =>
      (∀ cl e, e ∈ (t.cluster cl).tlb ∨ e ∈ (t.cluster cl).nonleaf → e.ctx = s.th.ctx →
        (s.reg a).toNat < 2 ^ 57 ∧ e.page ≠ (s.reg a).toNat / 2 ^ e.shift) ∧
      (∀ cl e, e ∈ (s.cluster cl).tlb → e.ctx ≠ s.th.ctx ∨ ((s.reg a).toNat < 2 ^ 57 ∧ e.page ≠ (s.reg a).toNat / 2 ^ e.shift) →
        e ∈ (t.cluster cl).tlb) ∧
      Passed { s with clusters := t.clusters } s.th s.nextPc t) := by
  have he : exec (.tlbinv a) s = issue s _ := congrArg (issue s) (State.tlbinv_settled hack hp h0 hf (s.reg a))
  have hcl (cl : Nat) := s.cluster_dropTranslations s.th.ctx (namedAddress (s.reg a)) true cl
  refine completes_of_issue hs he ⟨fun cl e h hx => ?_, fun cl e h hk => ?_, ?_⟩
  · have hn : e.named s.th.ctx (namedAddress (s.reg a)) = false := by
      have h' : e ∈ ((s.dropTranslations s.th.ctx (namedAddress (s.reg a)) true).cluster cl).tlb ∨
          e ∈ ((s.dropTranslations s.th.ctx (namedAddress (s.reg a)) true).cluster cl).nonleaf := h
      rw [hcl] at h'
      rcases h' with h' | h' <;> simpa using (List.mem_filter.mp h').2
    exact ((named_eq_false_iff ..).mp hn).resolve_left (not_not_intro hx)
  · show e ∈ ((s.dropTranslations s.th.ctx (namedAddress (s.reg a)) true).cluster cl).tlb
    rw [hcl]
    exact List.mem_filter.mpr ⟨h, by rw [(named_eq_false_iff ..).mpr hk]; rfl⟩
  · exact passed_staged (s.dropTranslations s.th.ctx (namedAddress (s.reg a)) true) 2 (BitVec.ofNat 64 s.nextId)

/-- R350: `ptsync` removes the non-leaf entries of its context, keeps the leaves, and goes on. -/
theorem completes_ptsync {s : State} (hs : s.thread.isSome = true) (hp : statPriv s.th.stat = 2)
    (hack : s.acked s.cur s.th.uid 5 = true) :
    Completes .ptsync s (fun t => (∀ cl e, e ∈ (t.cluster cl).nonleaf → e.ctx ≠ s.th.ctx) ∧
      (∀ cl, (t.cluster cl).tlb = (s.cluster cl).tlb) ∧ Passed { s with clusters := t.clusters } s.th s.nextPc t) := by
  have hcl (cl : Nat) := s.cluster_dropTranslations s.th.ctx none false cl
  refine completes_of_issue hs (exec_ptsync hack hp) ⟨fun cl e h => ?_, fun cl => ?_, passed_clusters s _⟩
  · have h' : e ∈ ((s.dropTranslations s.th.ctx none false).cluster cl).nonleaf := h
    rw [hcl] at h'
    simpa [TlbEntry.named] using (List.mem_filter.mp h').2
  · show ((s.dropTranslations s.th.ctx none false).cluster cl).tlb = _
    rw [hcl]
    rfl

/-- R72: `cflush` removes its line from every cluster's cache, and goes on. -/
theorem completes_cflush {s : State} (hs : s.thread.isSome = true) (a : Field) {dva : Nat} {h : Home}
    (hc : checkFetch s.th (BitVec.ofNat 64 ((s.reg a).toNat / 64 * 64)) = .ok dva)
    (hh : s.hit (clusterOf s.cur) s.th.ctx dva false = some h) (hack : s.acked s.cur s.th.uid 5 = true) :
    Completes (.cflush a) s (fun t => (∀ cl e, e ∈ (t.cluster cl).icache → ¬(e.1 = s.th.ctx ∧ e.2.1 = dva / 64)) ∧
      Passed { s with clusters := t.clusters } s.th s.nextPc t) := by
  have he : exec (.cflush a) s = issue s _ := congrArg (issue s) (State.cflush_hit hack hc hh)
  refine completes_of_issue hs he ⟨fun cl e h => ?_, passed_clusters s _⟩
  have h' : e ∈ ((s.dropCode s.th.ctx (dva / 64)).cluster cl).icache := h
  rw [State.cluster_dropCode] at h'
  simpa [imp_iff_not_or] using (List.mem_filter.mp h').2

/-- Settles O41: each system instruction in turn. -/
theorem systemInstructions : Obligations.SystemInstructions := by
  intro s d a hs v x marked
  refine ⟨fun n => ?_, fun hp hw => ?_, fun hp hw => ?_, fun hp hack => ⟨fun h0 hf => ?_, ?_⟩, fun dva h hc hh hack => ?_,
    fun e hc => ?_, fun code => ?_, fun code => ?_⟩
  · obtain ⟨htrap, u, hu, hf⟩ := trapped_service hs
      { kind := kTrap, ea := n.zeroExtend 64, dva := v, dst := d, resume := some s.nextPc }
    exact completes_of_issue hs rfl ⟨htrap, u, _, hu, hf, rfl, rfl, rfl⟩
  · have he : exec .wfi s = issue s s.advance := by
      show execWfi s = _
      rw [execWfi, if_neg hp, State.await_resolved _ (show s.resolved s.cur s.th .work = true from hw)]
    exact completes_of_issue hs he (passed_self s)
  · have he : exec .wfi s = issue s (s.park .work) := by
      show execWfi s = _
      rw [execWfi, if_neg hp, State.await_parked _ (show s.resolved s.cur s.th .work = false from hw)]
    exact completes_of_issue hs he (parkedFor_park hs .work)
  · exact completes_tlbinv hs a hp hack h0 hf
  · exact completes_ptsync hs hp hack
  · exact completes_cflush hs a hc hh hack
  · refine completes_trapped_of_issue (access := 3) hs rfl ?_
    rw [State.cflush, hc]
  · intro z hx
    have hz : z.tracing x 3 = s.tracing x 3 := by
      show (if (s.core s.cur).stopEn then s.setCore s.cur { s.core s.cur with stopped := true } else s).tracing x 3 = _
      split <;> rfl
    have h := completes_brk hs code hx
    simp only [State.recorded] at h
    rw [← hz]
    exact h
  · exact completes_tmark hs a code

end Sys2Proof.Machine
end

section
/-! The registers of the thread that instructions set (R87, R104, R109, R133, R134, R224, R247), and what a thread without the privilege
for an instruction gets (R109, R134, R349, R350, R366, R367, R392, R395). -/

namespace Sys2Proof.Machine

/-- An instruction that goes on with its thread set. -/
theorem passed_setTh_advance (s : State) (u : Thread) (hg : u.g = s.th.g) :
    Passed s u (nextPc u.pc u.lineCount) (s.setTh u.advance) :=
  passed_setTh s (Thread.kept_finish u.kept_refl _ _) hg rfl

/-! ### Malformed values -/

/-- Bits [hi:lo] of a word, by division. -/
theorem bits_eq_div_mod (w : Word) (hi lo : Nat) : bits w hi lo = w.toNat / 2 ^ lo % 2 ^ (hi + 1 - lo) := by
  rw [bits, Nat.shiftRight_eq_div_pow]

/-- R133: a KD is malformed where its kind is 3, or where it is constant and grants writes or atomics. -/
theorem kdMalformed_iff (v : Word) : kdMalformed v = true ↔
    v.toNat / 2 ^ 62 = 3 ∨ (v.getLsbD 57 = true ∧ (v.getLsbD 60 = true ∨ v.getLsbD 58 = true)) := by
  have hk : kdKind v = v.toNat / 2 ^ 62 := by
    have h := v.isLt
    rw [kdKind, bits_eq_div_mod]
    omega
  simp only [kdMalformed, hk, kdConst, kdW, kdA, Bool.or_eq_true, Bool.and_eq_true, beq_iff_eq]

/-! ### Segment registers (R133, R134) -/

section
variable {s : State} (hs : s.thread.isSome = true) (n : BitVec 3) (a : Field)
include hs

/-- R134: no thread of privilege 0 sets a segment register. -/
theorem trapped_wrsysSegment_of_priv (hp : statPriv s.th.stat = 0) (kd : BitVec 1) :
    Completes (.wrsysSegment n kd a) s (Trapped s 17 0) := by
  have he : exec (.wrsysSegment n kd a) s = issue s (s.trap kIllegal) := congrArg (issue s) (if_pos (Or.inl hp))
  exact completes_of_issue hs he (trapped_trap hs 17)

/-- R134: KB is set, and marked modified. -/
theorem passed_wrsysSegment_base (hp : statPriv s.th.stat ≠ 0) :
    Completes (.wrsysSegment n 0 a) s (Passed s
    { s.th with kb := s.th.kb.set n.toNat (s.reg a) n.isLt, sm := s.th.sm ||| (1 <<< n.toNat) } s.nextPc) := by
  have he : exec (.wrsysSegment n 0 a) s = issue s (s.setTh { s.th with
      kb := s.th.kb.set n.toNat (s.reg a) n.isLt, sm := s.th.sm ||| (1 <<< n.toNat) }).advance :=
    congrArg (issue s) (if_neg (by simp [hp]))
  exact completes_of_issue hs he (passed_advance s _ rfl)

/-- R133: a malformed KD is refused. -/
theorem trapped_wrsysSegment_of_malformed (hm : kdMalformed (s.reg a) = true) :
    Completes (.wrsysSegment n 1 a) s (Trapped s 17 0) := by
  have he : exec (.wrsysSegment n 1 a) s = issue s (s.trap kIllegal) := congrArg (issue s) (if_pos (Or.inr ⟨rfl, hm⟩))
  exact completes_of_issue hs he (trapped_trap hs 17)

/-- R134: KD is set, and marked modified. -/
theorem passed_wrsysSegment_descriptor (hp : statPriv s.th.stat ≠ 0) (hm : kdMalformed (s.reg a) = false) :
    Completes (.wrsysSegment n 1 a) s (Passed s
    { s.th with kd := s.th.kd.set n.toNat (s.reg a) n.isLt, sm := s.th.sm ||| (1 <<< n.toNat) } s.nextPc) := by
  have he : exec (.wrsysSegment n 1 a) s = issue s (s.setTh { s.th with
      kd := s.th.kd.set n.toNat (s.reg a) n.isLt, sm := s.th.sm ||| (1 <<< n.toNat) }).advance :=
    congrArg (issue s) (if_neg (by simp [hp, hm]))
  exact completes_of_issue hs he (passed_advance s _ rfl)

end

/-! ### Formats (R33, R224) -/

/-- R33: the two formats that `fmtset` reads. -/
theorem fmtset_fields (v : Word) : v.extractLsb' 0 4 = BitVec.ofNat 4 v.toNat ∧ v.extractLsb' 4 4 = BitVec.ofNat 4 (v.toNat / 16) ∧
    (v.extractLsb' 0 4).toNat = v.toNat % 16 ∧ (v.extractLsb' 4 4).toNat = v.toNat / 16 % 16 := by
  have hlo : (v.extractLsb' 0 4).toNat = v.toNat % 16 := by simp
  have hhi : (v.extractLsb' 4 4).toNat = v.toNat / 16 % 16 := by simp [Nat.shiftRight_eq_div_pow]
  exact ⟨BitVec.eq_of_toNat_eq (by simp), BitVec.eq_of_toNat_eq (by simp [Nat.shiftRight_eq_div_pow]), hlo, hhi⟩

/-- R224: `fmtset` sets the two formats, or traps where one of them names none. -/
theorem exec_fmtset (s : State) (a : Field) : exec (.fmtset a) s = issue s (
    if (s.reg a).toNat % 16 > 8 ∨ (s.reg a).toNat / 16 % 16 > 8 then s.trap 19
    else s.setTh { s.th with fa := BitVec.ofNat 4 (s.reg a).toNat, fb := BitVec.ofNat 4 ((s.reg a).toNat / 16) }.advance) := by
  obtain ⟨hfa, hfb, hlo, hhi⟩ := fmtset_fields (s.reg a)
  rw [← hlo, ← hhi, ← hfa, ← hfb]
  rfl

/-! ### The obligations -/

/-- Settles O4: each instruction sets its register and goes on; `fmtset` and a write of KD check their value first. -/
theorem threadSettings : Obligations.ThreadSettings := by
  intro s a b d hs
  refine ⟨fun x imm => completes_of_issue hs rfl (ended_advance s _ d _ rfl), completes_of_issue hs rfl (passed_advance s _ rfl),
    completes_of_issue hs rfl (passed_advance s _ rfl), completes_of_issue hs rfl (passed_advance s _ rfl),
    completes_of_issue hs rfl (passed_setTh_advance s
      { s.th with sa := (s.reg a).truncate 32, sb := (s.reg b).truncate 32 } rfl), fun ha hb => ?_, fun h => ?_,
    fun n hp => passed_wrsysSegment_base hs n a hp, fun n hp hm => ?_, fun n hp hk hc => ?_⟩
  · have he := (exec_fmtset s a).trans (congrArg (issue s) (if_neg (by omega)))
    exact completes_of_issue hs he (passed_setTh_advance s
      { s.th with fa := BitVec.ofNat 4 (s.reg a).toNat, fb := BitVec.ofNat 4 ((s.reg a).toNat / 16) } rfl)
  · have he := (exec_fmtset s a).trans (congrArg (issue s) (if_pos h))
    exact completes_of_issue hs he (trapped_trap hs 19)
  · exact trapped_wrsysSegment_of_malformed hs n a ((kdMalformed_iff _).mpr hm)
  · refine passed_wrsysSegment_descriptor hs n a hp (Bool.eq_false_iff.mpr fun hm => ?_)
    rcases (kdMalformed_iff _).mp hm with h3 | ⟨h57, hwa⟩
    · exact hk h3
    · obtain ⟨h60, h58⟩ := hc h57
      rw [h60, h58] at hwa
      exact Bool.false_ne_true (or_self_iff.mp hwa)

/-- Settles O7: each instruction tests the privilege first. -/
theorem privilegeTraps : Obligations.PrivilegeTraps := by
  intro s a hs
  have refused {i : Instr} (he : exec i s = issue s (s.trap kIllegal)) : Completes i s (Trapped s 17 0) :=
    completes_of_issue hs he (trapped_trap hs 17)
  refine ⟨fun hp => ⟨fun n kd => trapped_wrsysSegment_of_priv hs n a hp kd, fun n => refused ?_, fun n => refused ?_, refused ?_, refused ?_,
    refused ?_, refused ?_⟩, fun hp => ⟨fun n => refused ?_, refused ?_, refused ?_⟩⟩
  · exact congrArg (issue s) (if_pos (Or.inl hp))
  · exact congrArg (issue s) (if_pos (Or.inl hp))
  · exact congrArg (issue s) (if_pos hp)
  · exact congrArg (issue s) (if_pos hp)
  · exact congrArg (issue s) (if_pos (Or.inl hp))
  · exact congrArg (issue s) (if_pos hp)
  · exact congrArg (issue s) (if_neg fun h => hp h.2.2)
  · exact congrArg (issue s) (if_pos hp)
  · exact congrArg (issue s) (if_pos hp)

end Sys2Proof.Machine
end

section
/-! Fences and dependency waits (R95, R165, R166, R174, R175). -/

namespace Sys2Proof.Machine

/-- R94: the numbers of the dependency slots are all there. -/
theorem mem_depNumbers (k : Fin 8) : k ∈ depNumbers := by revert k; decide

/-- R95: the slots of a mask read zero. -/
theorem Thread.depsZero_iff (t : Thread) (m : BitVec 8) :
    t.depsZero m = true ↔ ∀ k : Fin 8, m.getLsbD k.val = true → t.dep[k] = 0 := by
  simp only [Thread.depsZero, List.all_eq_true, mem_depNumbers, true_imp_iff, Bool.or_eq_true, Bool.not_eq_true', beq_iff_eq]
  exact forall_congr' fun k => by cases m.getLsbD k.val <;> simp

/-- R95: a slot of the mask does not read zero. -/
theorem Thread.depsZero_eq_false {t : Thread} {m : BitVec 8} (h : ∃ k : Fin 8, m.getLsbD k.val = true ∧ t.dep[k] ≠ 0) :
    t.depsZero m = false := by
  obtain ⟨k, hm, hk⟩ := h
  exact Bool.eq_false_iff.mpr fun hz => hk ((t.depsZero_iff m).mp hz k hm)

/-- R263: a thread that has not been Parked ends no wait. -/
theorem State.waited_of_unblocked {s : State} (h : s.th.blocked = none) (w : Wait) (tag : Option Tag) : s.waited w tag = s := by
  simp [State.waited, h]

/-- R174, R175: a `fence` whose release conditions are met acquires where it is asked to, and goes on. -/
theorem exec_fence_released {s : State} (o : BitVec 1) {scope : BitVec 3} (h : s.releasable s.cur s.th scope.toNat = true) :
    exec (.fence o scope) s = issue s (if o = 0 then s.acquire else s).advance :=
  congrArg (issue s) (State.await_resolved _ h)

/-- R174: another one parks its thread. -/
theorem exec_fence_parks {s : State} (o : BitVec 1) {scope : BitVec 3} (h : s.releasable s.cur s.th scope.toNat = false) :
    exec (.fence o scope) s = issue s (s.park (.release scope.toNat)) :=
  congrArg (issue s) (State.await_parked _ h)

/-- R95: a `dwait` goes on once its slots read zero. -/
theorem exec_dwait_zero {s : State} (hb : s.th.blocked = none) {m : BitVec 8} (h : s.th.depsZero m = true) :
    exec (.dwait m) s = issue s s.advance := by
  have hgo := State.await_resolved (s := s) (w := .depZero m) (fun s => (s.waited (.depZero m) s.th.depTag).advance) h
  rw [State.waited_of_unblocked hb] at hgo
  exact congrArg (issue s) hgo

/-- R95: until then it parks its thread. -/
theorem exec_dwait_parks {s : State} {m : BitVec 8} (h : s.th.depsZero m = false) :
    exec (.dwait m) s = issue s (s.park (.depZero m)) :=
  congrArg (issue s) (State.await_parked _ h)

/-- Settles O15: each of the two goes on, or parks, by the state of what it waits for. -/
theorem fences : Obligations.Fences := by
  intro s scope hs hb
  refine ⟨fun h => ⟨?_, ?_⟩, fun h o => ?_, fun m h => ?_, fun m h => ?_⟩
  · exact completes_of_issue hs (exec_fence_released 0 h) (passed_base (b := s.refreshed) (State.th_acquire s))
  · exact completes_of_issue hs (exec_fence_released 1 h) (passed_self s)
  · exact completes_of_issue hs (exec_fence_parks o h) (parkedFor_park hs _)
  · exact completes_of_issue hs (exec_dwait_zero hb ((s.th.depsZero_iff m).mpr h)) (passed_self s)
  · exact completes_of_issue hs (exec_dwait_parks (Thread.depsZero_eq_false h)) (parkedFor_park hs _)

end Sys2Proof.Machine
end

section
/-! What `rdsys` answers for each system register (R108 to R110, R134, R142, R188, R216, R239, R278, R288, R290, R311, R316, R392, R395). -/

namespace Sys2Proof.Machine

/-! ### Sums over positions -/

/-- The elements of a vector, by number. -/
theorem vector_toList_getElem? {α : Type} {m : Nat} (v : Vector α m) (n : Fin m) : v.toList[n.val]? = some v[n] := by
  simp

/-- R5: the number that bytes spell, as a sum over their places, from a place on. -/
theorem leNat_mul_eq_sum (l : List Byte) (k : Nat) :
    leNat l * 256 ^ k = ((l.zipIdx k).map (fun p => p.1.toNat * 256 ^ p.2)).sum := by
  induction l generalizing k with
  | nil => simp [leNat]
  | cons b r ih =>
    rw [List.zipIdx_cons, List.map_cons, List.sum_cons, ← ih (k + 1), leNat]
    ring

/-- R5: the number that bytes spell, as a sum over their places. -/
theorem leNat_eq_sum (l : List Byte) : leNat l = (l.zipIdx.map (fun p => p.1.toNat * 256 ^ p.2)).sum := by
  rw [← leNat_mul_eq_sum, pow_zero, Nat.mul_one]

/-- The eight dependency slots as digits to the base 16. -/
theorem depDigits_eq (d : Vector (BitVec 4) 8) : (depNumbers.map (fun k => (d[k]).toNat * 2 ^ (4 * k.val))).sum =
    (d.toList.zipIdx.map (fun p => p.1.toNat * 16 ^ p.2)).sum := by
  have hd : d.toList = depNumbers.map (fun k => d[k]) := by
    refine List.ext_getElem (by simp [depNumbers]) fun n h _ => ?_
    have hn : n < depNumbers.length := by simpa [depNumbers] using h
    have hk : (depNumbers[n]).val = n := by
      have h8 : n < 8 := hn
      interval_cases n <;> rfl
    rw [List.getElem_map]
    simp [hk]
  have hz : depNumbers.zipIdx = depNumbers.map (fun k => (k, k.val)) := rfl
  rw [hd, List.zipIdx_map, hz, List.map_map, List.map_map]
  exact congrArg List.sum (List.map_congr_left fun k _ => by simp [Nat.pow_mul])

/-- A bit that is not set, set by `or`, is added. -/
theorem or_two_pow_of_testBit {a q : Nat} (h : a.testBit q = false) : a ||| 2 ^ q = a + 2 ^ q := by
  have hlt : a + 2 ^ q < 2 ^ (a + 2 ^ q) := Nat.lt_two_pow_self
  have ha : a % 2 ^ (a + 2 ^ q) = a := Nat.mod_eq_of_lt ((Nat.le_add_right ..).trans_lt hlt)
  have hq : 2 ^ q % 2 ^ (a + 2 ^ q) = 2 ^ q := Nat.mod_eq_of_lt ((Nat.le_add_left ..).trans_lt hlt)
  have hand : BitVec.ofNat (a + 2 ^ q) a &&& BitVec.ofNat (a + 2 ^ q) (2 ^ q) = 0#(a + 2 ^ q) := by
    apply BitVec.eq_of_toNat_eq
    rw [BitVec.toNat_and, BitVec.toNat_ofNat, BitVec.toNat_ofNat, ha, hq, Nat.and_two_pow, h]
    simp
  have hsum := congrArg BitVec.toNat (BitVec.add_eq_or_of_and_eq_zero _ _ hand)
  rw [BitVec.toNat_add, BitVec.toNat_or, BitVec.toNat_ofNat, BitVec.toNat_ofNat, ha, hq, Nat.mod_eq_of_lt hlt] at hsum
  exact hsum.symm

/-- R188: the strips of a claim as a mask, where each stands once. -/
theorem strips_mask {l : List Nat} (hl : l.Nodup) {a : Nat} (ha : ∀ q ∈ l, a.testBit q = false) :
    l.foldl (fun m q => m ||| 1 <<< q) a = a + (l.map (fun q => 2 ^ q)).sum := by
  induction l generalizing a with
  | nil => simp
  | cons q r ih =>
    obtain ⟨hq, hr⟩ := List.nodup_cons.mp hl
    have hqa := ha q (List.mem_cons_self ..)
    have hra (p : Nat) (hp : p ∈ r) : (a ||| 1 <<< q).testBit p = false := by
      have hne : q ≠ p := fun e => hq (e ▸ hp)
      rw [Nat.one_shiftLeft, Nat.testBit_or, ha p (List.mem_cons_of_mem q hp), Nat.testBit_two_pow_of_ne hne]
      rfl
    rw [List.foldl_cons, ih hr hra, Nat.one_shiftLeft, or_two_pow_of_testBit hqa, List.map_cons, List.sum_cons, Nat.add_assoc]

/-! ### The chapters' registers -/

/-- R188: CLAIM. -/
theorem State.claimReg_eq (s : State) (c : Nat) (i : Fin 16) {t : Thread} (hl : t.claim.strips.Nodup) (hr : t.claim.req ≤ 32) :
    s.claimReg c i t = BitVec.ofNat 64 ((t.claim.strips.map (fun q => 2 ^ q)).sum + i.val % 4 * 2 ^ 32 + t.claim.req * 2 ^ 40 +
      (if ∃ q ∈ t.claim.strips, s.recalled c i q = true then 2 ^ 46 else 0)) := by
  have hmask := strips_mask hl (a := 0) (fun q _ => Nat.zero_testBit q)
  have hreq : t.claim.req % 64 = t.claim.req := Nat.mod_eq_of_lt (by omega)
  simp only [State.claimReg, hmask, hreq, homeWin, List.any_eq_true, Nat.zero_add]

/-- R216: LATST. -/
theorem Latch.reg_eq (l : Latch) :
    l.reg = BitVec.ofNat 64 ((match l.st with | .empty => 0 | .filling => 1 | .full => 2 | .passing => 3) +
      l.rdr * 2 ^ 4 + l.k * 2 ^ 16 + l.lf.toNat * 2 ^ 26) := by
  cases h : l.st <;> exact congrArg (BitVec.ofNat 64) (by simp only [h]; omega)

/-- R278: CBn. -/
theorem CircBuf.reg_eq (b : CircBuf) :
    b.reg = BitVec.ofNat 64 (b.base + b.sz * 2 ^ 18 + b.cnt * 2 ^ 24 + (if b.en then 2 ^ 30 else 0) +
      b.slots.count .free * 2 ^ 31 + b.slots.count .filled * 2 ^ 38 + b.head * 2 ^ 45 + b.tail * 2 ^ 51) := by
  rw [List.count_eq_length_filter, List.count_eq_length_filter]
  cases h : b.en <;> exact congrArg (BitVec.ofNat 64) (by simp [h]; omega)

/-- R290: BATCH. -/
theorem BatchTracker.reg_eq (b : BatchTracker) : b.reg = BitVec.ofNat 64 (b.opened + b.closed.length * 2 ^ 8) :=
  congrArg (BitVec.ofNat 64) (Nat.add_comm ..)

/-- R311: CRSTn of a carousel that the thread's partition sees. -/
theorem Carousel.reg_eq (q : Carousel) :
    q.reg = BitVec.ofNat 64 (q.lapn + q.badid * 2 ^ 24 + (q.sched.filter (fun e => e.bad = false)).length * 2 ^ 40 +
      q.promo.length * 2 ^ 53 + (q.k - 1) * 2 ^ 58 +
      (match q.st with | .off => 0 | .running => 1 | .idle => 2 | .stopping => 3) * 2 ^ 62) := by
  have hf : q.sched.filter (fun e => !e.bad) = q.sched.filter (fun e => e.bad = false) :=
    List.filter_congr fun e _ => by cases e.bad <;> rfl
  cases h : q.st <;> exact congrArg (BitVec.ofNat 64) (by simp only [h, hf]; omega)

theorem State.crst_eq (s : State) (c n x : Nat) :
    s.crst c n x = let q := s.car (dieOf c) n
      if q.st ≠ .off ∧ q.partition ≠ (s.context x).partition then 0
      else BitVec.ofNat 64 (q.lapn + q.badid * 2 ^ 24 + (q.sched.filter (fun e => e.bad = false)).length * 2 ^ 40 +
        q.promo.length * 2 ^ 53 + (q.k - 1) * 2 ^ 58 +
        (match q.st with | .off => 0 | .running => 1 | .idle => 2 | .stopping => 3) * 2 ^ 62) := by
  simp only [State.crst, Carousel.reg_eq]

/-- R316: POOLST of a core that a context holds. -/
theorem State.poolReg_eq {s : State} {c x : Nat} (hx : (s.core c).ctx = some x) :
    s.poolReg c = let p := (s.core c).pool
      let subs := (s.cluster (s.ixOf c)).subs.filter (fun b => b.core == c && b.ctx == x)
      BitVec.ofNat 64 (p.base + p.list * 2 ^ 18 + p.count * 2 ^ 36 + subs.length * 2 ^ 49 +
        (if p.splat then 2 ^ 62 else 0) + (if p.valid then 2 ^ 63 else 0)) := by
  have hsubs : s.subsOf c = (s.cluster (s.ixOf c)).subs.filter (fun b => b.core == c && b.ctx == x) := by
    simp [State.subsOf, hx, beq_eq_decide]
  simp only [State.poolReg, hsubs]
  cases (s.core c).pool.splat <;> cases (s.core c).pool.valid <;> simp <;> congr 1 <;> omega

/-- R31, R216: TABLO and TABHI. -/
theorem tabReg_eq (t : Vector Byte 16) (k : Nat) : tabReg t k =
    BitVec.ofNat 64 ((((t.toList.drop k).take 8).zipIdx.map (fun p => p.1.toNat * 256 ^ p.2)).sum) := by
  rw [tabReg, leNat_eq_sum]

/-! ### `rdsys` (R108) -/

section
variable {s : State} (hs : s.thread.isSome = true) {num : BitVec 12} (d : Field)
include hs

/-- R108: a number that is assigned is read, late. -/
theorem passed_rdsys {v : Word} (h : s.sysRead num.toNat = some v) :
    Completes (.rdsys d num) s (Passed s (s.th.awaiting d [(0, v)] 0 none) s.nextPc) := by
  have he : exec (.rdsys d num) s = issue s (s.late d v) := by
    show execRdsys d num s = _
    rw [execRdsys, h]
  exact completes_of_issue hs he (passed_late s d v)

/-- R109: another one traps. -/
theorem trapped_rdsys (h : s.sysRead num.toNat = none) : Completes (.rdsys d num) s (Trapped s 17 0) := by
  have he : exec (.rdsys d num) s = issue s (s.trap kIllegal) := by
    show execRdsys d num s = _
    rw [execRdsys, h]
  exact completes_of_issue hs he (trapped_trap hs 17)

end

/-! ### The rows of the table that have numbers of their own (R134, R142, R278, R311, R392, R395) -/

section
variable (s : State)

theorem State.sysRead_kb (n : Fin 8) : s.sysRead (0x070 + 2 * n.val) = some s.th.kb[n] := by
  simp only [State.sysRead]
  repeat rw [if_neg (by omega)]
  rw [if_pos (by omega), if_pos (by omega), show (0x070 + 2 * n.val - 0x070) / 2 = n.val by omega]
  exact vector_toList_getElem? ..
theorem State.sysRead_kd (n : Fin 8) : s.sysRead (0x071 + 2 * n.val) = some s.th.kd[n] := by
  simp only [State.sysRead]
  repeat rw [if_neg (by omega)]
  rw [if_pos (by omega), if_neg (by omega), show (0x071 + 2 * n.val - 0x070) / 2 = n.val by omega]
  exact vector_toList_getElem? ..

variable (n : Fin 4)

theorem State.sysRead_win : s.sysRead (0x060 + n.val) = some (s.core s.cur).win[n] := by
  simp only [State.sysRead]
  repeat rw [if_neg (by omega)]
  rw [if_pos (by omega), Nat.add_sub_cancel_left]
  exact vector_toList_getElem? ..
theorem State.sysRead_cb : s.sysRead (0x0A0 + n.val) = some ((s.core s.cur).cb[n]).reg := by
  simp only [State.sysRead]
  repeat rw [if_neg (by omega)]
  rw [if_pos (by omega), Nat.add_sub_cancel_left, vector_toList_getElem?]
  rfl
theorem State.sysRead_crst : s.sysRead (0x0B0 + n.val) = some (s.crst s.cur n.val s.th.ctx) := by
  simp only [State.sysRead]
  repeat rw [if_neg (by omega)]
  rw [if_pos (by omega), Nat.add_sub_cancel_left]
theorem State.sysRead_bp : s.sysRead (0x0D0 + n.val) = some (s.core s.cur).bp[n] := by
  simp only [State.sysRead]
  repeat rw [if_neg (by omega)]
  rw [if_pos (by omega), Nat.add_sub_cancel_left]
  exact vector_toList_getElem? ..
theorem State.sysRead_pmc : s.sysRead (0x0E0 + n.val) = some (s.pmcRead s.cur n) := by
  simp only [State.sysRead]
  repeat rw [if_neg (by omega)]
  rw [if_pos (by omega), Nat.add_sub_cancel_left, Fin.ofNat_val_eq_self]
theorem State.sysRead_pmsel : s.sysRead (0x0E4 + n.val) = some (((s.core s.cur).pmsel[n]).zeroExtend 64) := by
  simp only [State.sysRead]
  repeat rw [if_neg (by omega)]
  rw [if_pos (by omega), Nat.add_sub_cancel_left, vector_toList_getElem?]
  rfl

end

/-- R392: DBGCTL. -/
theorem debugControl_eq (en stopped : Bool) :
    en.toNat + stopped.toNat * 2 = (if en then 1 else 0) + (if stopped then 2 else 0) := by
  cases en <;> cases stopped <;> rfl

/-- R109: the numbers between the chapters' ranges, and those above them, are unassigned. -/
theorem State.sysRead_unassigned (s : State) {n : Nat} (h : n ≥ 0x0E8 ∨ (0x00F ≤ n ∧ n < 0x040) ∨ (0x044 ≤ n ∧ n < 0x060)) :
    s.sysRead n = none := by
  simp only [State.sysRead]
  repeat rw [if_neg (by omega)]

/-- Settles O6: the table of `sysRead`, number by number; where the statement spells a register's fields in another order, the register's
own lemma says that it is the same word. -/
theorem systemRegisters : Obligations.SystemRegisters := by
  intro s d hs t k reads w bytes
  have read (num : BitVec 12) (v : Word) (h : s.sysRead num.toNat = some v) : reads num v := passed_rdsys hs d h
  have row {num : Nat} {v : Word} (hn : num < 4096) (h : s.sysRead num = some v) : reads (BitVec.ofNat 12 num) v :=
    read _ _ (by rw [BitVec.toNat_ofNat, Nat.mod_eq_of_lt hn, h])
  refine ⟨read _ _ rfl, read _ _ rfl, read _ _ rfl, read _ _ rfl, read _ _ rfl, read _ _ rfl, read _ _ rfl, read _ _ rfl,
    read _ _ (congrArg (fun n => some (w n)) (by rw [Nat.mul_comm])), read _ _ rfl, read _ _ rfl,
    read _ _ (congrArg (fun n => some (w n)) (depDigits_eq t.dep)), read _ _ rfl, read _ _ rfl, read _ _ rfl, read _ _ rfl, read _ _ rfl,
    read _ _ ?form, read _ _ rfl, fun n => ⟨row (by omega) (s.sysRead_kb n), row (by omega) (s.sysRead_kd n)⟩,
    fun n => row (by omega) (s.sysRead_win n), read _ _ rfl,
    fun _ hl hr => read _ _ (congrArg some (s.claimReg_eq s.cur s.slot hl hr)), read _ _ (congrArg some k.latch.reg_eq),
    read _ _ (congrArg some (tabReg_eq k.table 0)), read _ _ ?tabhi, read _ _ rfl, read _ _ rfl, read _ _ rfl, read _ _ rfl,
    fun n => row (by omega) ((s.sysRead_cb n).trans (congrArg some (CircBuf.reg_eq _))), read _ _ (congrArg some t.batch.reg_eq),
    read _ _ rfl, fun n => row (by omega) ((s.sysRead_crst n).trans (congrArg some (s.crst_eq ..))),
    fun x hx => read _ _ (congrArg some (State.poolReg_eq hx)), read _ _ rfl, read _ _ rfl, read _ _ rfl,
    fun n => ⟨row (by omega) (s.sysRead_bp n), row (by omega) (s.sysRead_pmsel n), row (by omega) (s.sysRead_pmc n)⟩,
    fun n => ?watch, read _ _ (congrArg (fun n => some (w n)) (debugControl_eq ..)),
    fun num h => trapped_rdsys hs d (s.sysRead_unassigned h)⟩
  case form => cases h : s.package.form <;> exact congrArg (fun n => some (w n)) (by simp [enabled, h])
  case tabhi =>
    have h := tabReg_eq k.table 8
    rw [List.take_of_length_le (by simp)] at h
    exact congrArg some h
  case watch =>
    match n with
    | 0 => exact ⟨read _ _ rfl, read _ _ rfl⟩
    | 1 => exact ⟨read _ _ rfl, read _ _ rfl⟩

end Sys2Proof.Machine
end

section
/-! A result for the shared bank of the thread's own core lands while no context holds that core (R141, R405): the write hands the core over,
and a core as Bobbin hands it over (log 48) holds no thread. -/

namespace Sys2Proof.Machine

/-- An outstanding result, all there, for s0 in the bank of core 0. -/
def bankResult : Pending := { seq := 0, dst := .scalar 0x10, vals := [(0, 5)], bank := some 0 }
/-- A thread with that result outstanding. -/
def bankThread : Thread := { pending := [bankResult] }
/-- The machine after reset, with that thread alone in slot 0 of core 0, which no context holds. -/
def unheldState : State := State.reset.setSlot 0 0 (some bankThread)

/-- The model lands it on the core as it is handed over: s0 is written, and slot 0 is empty. -/
theorem landing_unheldState : exec (.resultLanding 0 0 0) unheldState = .next (unheldState.land 0 0 0) ∧
    ((unheldState.land 0 0 0).core 0).shared[0] = 5 ∧ (unheldState.land 0 0 0).threadAt 0 0 = none := by
  refine ⟨rfl, ?_, ?_⟩ <;> decide +kernel

/-- Refutes O18, by its clause on shared registers, that the thread is in its slot after the landing: the clause does not ask that the
thread's core be its context's, and where no context holds the core the write of its bank leaves the slot empty. -/
theorem not_resultsLand : ¬ Obligations.ResultsLand := by
  intro h
  obtain ⟨-, hshared, -⟩ := h unheldState 0 0 0 bankThread bankResult (by decide +kernel) rfl rfl
  obtain ⟨z, hz, -, hthread, -⟩ := hshared 0x10 5 0 0 rfl rfl rfl rfl rfl (by decide)
  obtain ⟨hexec, -, hempty⟩ := landing_unheldState
  have hzland : unheldState.land 0 0 0 = z := by
    injection hexec.symm.trans hz
  rw [← hzland, hempty] at hthread
  exact nomatch hthread

end Sys2Proof.Machine
end

section
/-! Threads that are packed, arrive, and are offered a slot (R96, R98 to R102, R231). -/

namespace Sys2Proof.Machine

/-! ### Bits of STAT -/

/-- A bit that is set, taken away by subtraction. -/
theorem testBit_sub_two_pow {a k : Nat} (h : a.testBit k = true) (j : Nat) :
    (a - 2 ^ k).testBit j = (a.testBit j && decide (j ≠ k)) := by
  have hk : (a - 2 ^ k).testBit k = false := by
    have hdiv : (a - 2 ^ k) / 2 ^ k = a / 2 ^ k - 1 := by
      have := Nat.sub_mul_div a (2 ^ k) 1
      rwa [Nat.mul_one] at this
    rw [Nat.testBit_eq_decide_div_mod_eq] at h ⊢
    simp only [decide_eq_true_eq, decide_eq_false_iff_not] at h ⊢
    omega
  have ha : a = (a - 2 ^ k) ||| 2 ^ k := by
    rw [or_two_pow_of_testBit hk, Nat.sub_add_cancel (Nat.ge_two_pow_of_testBit h)]
  by_cases hj : j = k
  · subst hj
    simp [hk]
  · conv_rhs => rw [ha, Nat.testBit_or, Nat.testBit_two_pow_of_ne (Ne.symm hj)]
    simp [hj]

/-- R86: a bit of STAT cleared. -/
theorem getLsbD_setStat_false (st : Word) (k j : Nat) :
    (setStat st k false).getLsbD j = (st.getLsbD j && decide (j ≠ k)) := by
  have hb : bits st k k = (st.getLsbD k).toNat := by
    rw [bits_eq_div_mod, Nat.add_sub_cancel_left, pow_one, ← Nat.toNat_testBit]
    rfl
  have hst : setStat st k false = BitVec.ofNat 64 (st.toNat - (st.getLsbD k).toNat * 2 ^ k) := by
    simp [setStat, setBits, hb, Nat.shiftLeft_eq]
  have hlt : st.toNat - (st.getLsbD k).toNat * 2 ^ k < 2 ^ 64 := (Nat.sub_le ..).trans_lt st.isLt
  rw [hst, BitVec.getLsbD, BitVec.toNat_ofNat, Nat.mod_eq_of_lt hlt]
  cases h : st.getLsbD k with
  | true =>
    rw [Bool.toNat_true, Nat.one_mul]
    exact testBit_sub_two_pow h j
  | false =>
    by_cases hj : j = k
    · subst hj
      rw [Bool.toNat_false, Nat.zero_mul, Nat.sub_zero, h]
      exact h
    · simp [hj, BitVec.getLsbD]

/-! ### Packing (R96, R99, R100) -/

/-- The registers that a mask names are kept, the others zero. -/
theorem getElem_foldl_mask (mask : BitVec 16) (g : Vector Word 16) (l : List (Fin 16)) (r : Fin 16) :
    (l.foldl (fun v (i : Fin 16) => if mask.getLsbD i.val then v else v.set i 0) g)[r] =
      if r ∈ l ∧ mask.getLsbD r.val = false then 0 else g[r] := by
  induction l generalizing g with
  | nil => simp
  | cons i l ih =>
    rw [List.foldl_cons, ih]
    by_cases hi : r = i
    · subst hi
      cases h : mask.getLsbD r.val <;> simp
    · have hne : i.val ≠ r.val := fun e => hi (Fin.ext e.symm)
      cases h : mask.getLsbD i.val <;> simp [hi, hne]

section
variable (s : State) (t : Thread) (mask : BitVec 16)

@[simp] theorem State.packed_uid : (s.packed t mask).uid = t.uid := rfl
@[simp] theorem State.packed_ctx : (s.packed t mask).ctx = t.ctx := rfl
@[simp] theorem State.packed_pc : (s.packed t mask).pc = t.pc := rfl
@[simp] theorem State.packed_lin : (s.packed t mask).lin = t.lin := rfl

/-- R99: the g registers of a packed thread. -/
theorem State.packed_g (r : Fin 16) : (s.packed t mask).g[r] = if mask.getLsbD r.val then t.g[r] else 0 := by
  have hr : r ∈ slotNumbers := by revert r; decide
  refine (getElem_foldl_mask mask t.g slotNumbers r).trans ?_
  cases mask.getLsbD r.val <;> simp [hr]

/-- R100: a packed thread is in matrix mode no more. -/
theorem State.packed_matrix : statM (s.packed t mask).stat = false := by
  show (setStat (setStat t.stat 5 false) 6 false).getLsbD 5 = false
  rw [getLsbD_setStat_false, getLsbD_setStat_false]
  simp
/-- R100: nor has it a claim of its own. -/
theorem State.packed_present : statCP (s.packed t mask).stat = false := by
  show (setStat (setStat t.stat 5 false) 6 false).getLsbD 6 = false
  rw [getLsbD_setStat_false]
  simp
/-- R100: its vector registers stay behind. -/
theorem State.packed_v (r : Fin 16) : (s.packed t mask).v[r] = [] := by
  show (Vector.replicate 16 ([] : List (BitVec 32)))[r] = []
  simp

end

/-- R96: the thread that leaves its slot: at the next instruction, or at its own if it is to be issued again (R145). -/
def Thread.leaving (t : Thread) : Thread :=
  { t with pc := if t.replay.isSome then t.pc else nextPc t.pc t.lineCount, stage := 0, blocked := none, aux := 0 }

/-- R99: its packet. -/
def State.packet (s : State) (c : Nat) (i : Fin 16) (t : Thread) : Packet :=
  { src := c, srcSlot := i.val, dst := t.aux.toNat, thread := s.packed t.leaving t.tm }
/-- R96: the state with a packet more on its way. -/
def State.sent (s : State) (p : Packet) : State := { s with transit := s.transit ++ [p] }

/-- R96: a thread that may be packed goes on its way, and its slot is empty. -/
theorem State.packUp_eq {s : State} {c : Nat} {i : Fin 16} {t : Thread} (ht : s.threadAt c i = some t) (hst : t.st = .parked .migrate)
    (hp : t.packable = true) (hh : t.hold = false) :
    s.packUp c i = ((s.sent (s.packet c i t)).setSlot c i none).count c 5 1 := by
  simp only [State.packUp, ht]
  rw [if_pos (by simp [hst, hp, hh])]
  rfl

/-- What a packed thread leaves and takes with it. -/
structure Packed (s : State) (c : Nat) (i : Fin 16) (t : Thread) (u : State) (p : Packet) : Prop where
  slot : u.threadAt c i = none
  ls : (u.core c).ls = (s.core c).ls
  mem : u.mem = s.mem
  transit : u.transit = s.transit ++ [p]
  src : p.src = c
  dst : p.dst = t.aux.toNat
  thread : p.thread = s.packed t.leaving t.tm

/-- R96: the step that packs. -/
theorem completes_migrationPack {s : State} {c : Nat} {i : Fin 16} {t : Thread} (ht : s.threadAt c i = some t)
    (hst : t.st = .parked .migrate) (hp : t.packable = true) (hh : t.hold = false) :
    Completes (.migrationPack c i.val) s (fun u => ∃ p, Packed s c i t u p) := by
  refine ⟨s.packUp c i, ?_, s.packet c i t, ?_⟩
  · show Host.Outcome.next (s.packUp c (Fin.ofNat 16 i.val)) = _
    rw [Fin.ofNat_val_eq_self]
  · rw [State.packUp_eq ht hst hp hh]
    exact ⟨State.threadAt_setSlot_self .., (congrArg CoreState.ls (State.core_setSlot_self ..)).trans rfl, rfl, rfl, rfl, rfl, rfl⟩

/-! ### Seating (R98, R181, R243) -/

section
variable {s : State} {c : Nat} {t : Thread}

/-- R356: a core that a context holds is not handed over to it again. -/
theorem State.handOver_held {x : Nat} (h : (s.core c).ctx = some x) : s.handOver c x = s := if_pos h

/-- R98, R181: a thread with a number of its own as it enters a slot. -/
def Thread.seated (t : Thread) (c : Nat) (i : Fin 16) : Thread := { t.homeClaim c i with st := .seeded }

variable (hctx : (s.core c).ctx = some t.ctx)
include hctx

/-- R98: a thread of the context that holds the core takes a slot. -/
theorem State.seat_held (hu : t.uid ≠ 0) (i : Fin 16) : s.seat c i t = (s.acquireFor c t.uid).setSlot c i (some (t.seated c i)) := by
  simp only [State.seat, State.handOver_held hctx, if_neg hu]
  rfl

end

/-- The slots' threads decide which slots are free (R180). -/
theorem State.freeSlot_congr {s t : State} (h : ∀ d j, t.threadAt d j = s.threadAt d j) (c : Nat) : t.freeSlot c = s.freeSlot c := by
  simp only [State.freeSlot, State.slotFree, State.pairHeld, h]

/-- A core replaced by one with the same slots. -/
theorem State.threadAt_setCore_slots (s : State) (c : Nat) {k : CoreState} (h : k.slots = (s.core c).slots) (d : Nat) (j : Fin 16) :
    (s.setCore c k).threadAt d j = s.threadAt d j := by
  by_cases e : d = c
  · subst e; simp only [State.threadAt, State.core_setCore_self, h]
  · simp only [State.threadAt, State.core_setCore_ne s k e]

/-- What a thread that takes a slot of a core leaves: the core but for its slots, its other slots, and memory. -/
structure Seated (s : State) (c : Nat) (i : Fin 16) (t : Thread) (u : State) : Prop where
  thread : u.threadAt c i = some (t.seated c i)
  core : ∃ sl, u.core c = { s.core c with slots := sl }
  others : ∀ j : Fin 16, j ≠ i → u.threadAt c j = s.threadAt c j
  mem : u.mem = s.mem
  transit : u.transit = s.transit

/-- R98: a thread of the context that holds the core takes a slot. -/
theorem seated_seat {s : State} {c : Nat} {t : Thread} (hctx : (s.core c).ctx = some t.ctx) (hu : t.uid ≠ 0) (i : Fin 16) :
    Seated s c i t (s.seat c i t) := by
  rw [State.seat_held hctx hu]
  exact ⟨State.threadAt_setSlot_self .., ⟨_, State.core_setSlot_self ..⟩, fun j hj => State.threadAt_setSlot_ne _ _ _ hj, rfl, rfl⟩

/-! ### Arriving (R101) -/

/-- R101: a core that has accepted a packet in this cycle. -/
def State.accepting (s : State) (c : Nat) : State := s.setCore c { s.core c with lastAccept := some s.cycle }

@[simp] theorem State.core_accepting (s : State) (c : Nat) : (s.accepting c).core c = { s.core c with lastAccept := some s.cycle } :=
  State.core_setCore_self ..
@[simp] theorem State.threadAt_accepting (s : State) (c d : Nat) (j : Fin 16) : (s.accepting c).threadAt d j = s.threadAt d j :=
  s.threadAt_setCore_slots c (k := { s.core c with lastAccept := some s.cycle }) rfl d j
@[simp] theorem State.freeSlot_accepting (s : State) (c : Nat) : (s.accepting c).freeSlot c = s.freeSlot c :=
  State.freeSlot_congr (s.threadAt_accepting c) c

/-- R101: an accepted thread takes the free slot of a core where nobody waits. -/
theorem State.accept_seats {s : State} {c : Nat} {i : Fin 16} {t : Thread} (hctx : (s.core c).ctx = some t.ctx)
    (hseat : s.seatable c = true) (hf : s.freeSlot c = some i) : s.accept c t = (s.accepting c).seat c i t := by
  have hseat' : (s.accepting c).seatable c = true := by
    rw [← hseat]
    simp only [State.seatable, State.core_accepting, State.freeSlot_accepting]
  have hpick : (if (s.accepting c).seatable c then (s.accepting c).freeSlot c else none) = some i := by
    rw [if_pos hseat', State.freeSlot_accepting, hf]
  rw [State.accept, State.handOver_held hctx]
  show (match (if (s.accepting c).seatable c then (s.accepting c).freeSlot c else none) with
    | some i => (s.accepting c).seat c i t
    | none => (s.accepting c).enqueue c t t.tm) = _
  rw [hpick]

/-- R101: a core that has accepted a packet in this cycle accepts no other. -/
theorem State.arrive_accepted {s : State} {n : Nat} {p : Packet} (hp : s.transit[n]? = some p)
    (hsv : mapGet (s.context p.thread.ctx).saved p.dst = none) (h : (s.core p.dst).lastAccept = some s.cycle) : s.arrive n = s := by
  simp only [State.arrive, hp, hsv, h, true_or, if_true]

/-- R101: a packet on its way to a core of its context with a free slot and nobody waiting takes the slot. -/
theorem State.arrive_seats {s : State} {p : Packet} {i : Fin 16} (hp : s.transit = [p])
    (hsv : (s.context p.thread.ctx).saved = []) (hact : (s.context p.thread.ctx).st = .active) (hrm : (s.core p.dst).remapStep ≠ 3)
    (hctx : (s.core p.dst).ctx = some p.thread.ctx) (ha : (s.core p.dst).arrivals = []) (hsp : (s.core p.dst).spill = [])
    (hst : (s.core p.dst).stopped = false) (hl : (s.core p.dst).lastAccept ≠ some s.cycle) (hf : s.freeSlot p.dst = some i) :
    s.arrive 0 = ((({ s with transit := [] } : State).accepting p.dst).seat p.dst i p.thread).count p.dst 6 1 := by
  have hseat : s.seatable p.dst = true := by simp [State.seatable, hf, ha, hsp, hst]
  have hget : s.transit[0]? = some p := by rw [hp]; rfl
  have hdel : listDel s.transit 0 = [] := by rw [hp]; rfl
  have hsaved : mapGet (s.context p.thread.ctx).saved p.dst = none := by rw [hsv]; rfl
  rw [← State.accept_seats (s := { s with transit := [] }) hctx hseat hf]
  simp only [State.arrive, hget, hdel, hsaved]
  rw [if_neg (by simp [hl, hact, hrm]), if_neg (by simp [hctx]), if_neg (by simp [hseat])]

/-! ### The offer of a slot (R102, R231) -/

/-- R102: without a free slot nothing is offered. -/
theorem State.offer_full {s : State} {c : Nat} (h : s.freeSlot c = none) : s.offer c = s := by
  simp only [State.offer, h, ite_self]

/-- R102: the head of the arrival queue takes the lowest free slot. -/
theorem State.offer_arrival {s : State} {c : Nat} {i : Fin 16} {t : Thread} {r : List Thread} (hf : s.freeSlot c = some i)
    (hn : s.namesCore c = true) (hst : (s.core c).stopped = false) (ha : (s.core c).arrivals = t :: r) :
    s.offer c = (s.setCore c (s.core c).takeArrival).seat c i t := by
  simp [State.offer, hf, hn, hst, ha]

/-- R101: the head taken from an arrival queue with nothing behind it in the ring. -/
theorem CoreState.takeArrival_no_spill {k : CoreState} (h : k.spill = []) : k.takeArrival = { k with arrivals := k.arrivals.drop 1 } := by
  simp [CoreState.takeArrival, h]

/-! ### The obligation -/

/-- Settles O20: each step by the equation of what it does. -/
theorem threadsMove : Obligations.ThreadsMove := by
  refine ⟨fun s => ⟨fun c i t ht hst hp hh => ?_, fun p i hp hu hsv hact hrm hctx ha hsp hst hl hf => ?_, fun n p hp hsv h => ?_⟩,
    fun s c => ⟨fun h => ?_, fun i t r hf hn hst ha hsp hctx hu => ?_⟩⟩
  · obtain ⟨u, hu, p, hpk⟩ := completes_migrationPack ht hst hp hh
    refine ⟨u, hu, hpk.slot, hpk.ls, hpk.mem, p, hpk.transit, hpk.src, hpk.dst, ?_⟩
    rw [hpk.thread]
    exact ⟨rfl, rfl, s.packed_g t.leaving t.tm, s.packed_matrix .., s.packed_present .., fun r => s.packed_v .., rfl⟩
  · let s1 : State := { s with transit := [] }
    have hctx1 : ((s1.accepting p.dst).core p.dst).ctx = some p.thread.ctx := by rw [State.core_accepting]; exact hctx
    have hseat := seated_seat hctx1 hu i
    obtain ⟨sl, hcore⟩ := hseat.core
    refine ⟨s.arrive 0, rfl, ?_⟩
    rw [State.arrive_seats hp hsv hact hrm hctx ha hsp hst hl hf]
    refine ⟨hseat.transit, hseat.mem, (congrArg CoreState.ls hcore).trans ?_, _, hseat.thread, rfl, rfl, rfl, rfl, rfl, 
      fun j hj => (hseat.others j hj).trans (s1.threadAt_accepting ..)⟩
    rw [State.core_accepting]
    rfl
  · exact congrArg Host.Outcome.next (State.arrive_accepted hp hsv h)
  · exact congrArg Host.Outcome.next (State.offer_full h)
  · have hctx1 : ((s.setCore c (s.core c).takeArrival).core c).ctx = some t.ctx := by
      rw [State.core_setCore_self, CoreState.takeArrival_no_spill hsp]; exact hctx
    have hseat := seated_seat hctx1 hu i
    obtain ⟨sl, hcore⟩ := hseat.core
    refine ⟨s.offer c, rfl, ?_⟩
    rw [State.offer_arrival hf hn hst ha]
    refine ⟨(congrArg CoreState.arrivals hcore).trans ?_, hseat.mem, _, hseat.thread, rfl, rfl, rfl, rfl⟩
    rw [State.core_setCore_self, CoreState.takeArrival_no_spill hsp, ha]
    rfl

end Sys2Proof.Machine
end

section
/-! `mig` (R96, R104, R105) and `yield` (R101, R103, R106, R246). -/

namespace Sys2Proof.Machine

/-! ### `mig` (R105) -/

/-- R105: the thread that waits to migrate to a core. -/
def Thread.bound (u : Thread) (c : Nat) : Thread := { u with aux := BitVec.ofNat 64 c, replay := none, stage := 1 }
/-- R105: the same, Parked. -/
def Thread.migrant (u : Thread) (c now : Nat) (src : Option Sources) : Thread := (u.bound c).park .migrate now src
/-- R105: the state in which the issuing thread waits to migrate to a core. -/
def State.migrating (s : State) (c : Nat) : State := (s.setTh (s.th.bound c)).park .migrate

section
variable {s : State} {c : Nat}

theorem State.mig_badCore (h : c ≥ 4096 ∨ s.coreOk s.th.ctx c = false) : s.mig c = s.trap kBadCore := by
  rw [State.mig, if_pos (by simpa using h)]

variable (hc : c < 4096) (hok : s.coreOk s.th.ctx c = true)
include hc hok

theorem State.mig_matrix (hm : statM s.th.stat = true) : s.mig c = s.trap kClaim := by
  rw [State.mig, if_neg (by simp [hok, hc]), if_pos hm]

theorem State.mig_own (hm : statM s.th.stat = false) (h : c = s.cur) : s.mig c = s.advance := by
  rw [State.mig, if_neg (by simp [hok, hc]), if_neg (by simp [hm]), if_pos h]

theorem State.mig_leaves (hm : statM s.th.stat = false) (h : c ≠ s.cur) : s.mig c = s.migrating c := by
  rw [State.mig, if_neg (by simp [hok, hc]), if_neg (by simp [hm]), if_neg h]
  rfl

end

/-- R89: a thread that has only what belongs to its instruction changed, and is Parked, is Parked in that instruction. -/
theorem parkedFor_setTh_park {s : State} (hs : s.thread.isSome = true) {u : Thread} (hpc : u.pc = s.th.pc) (hg : u.g = s.th.g)
    (hstat : u.stat = s.th.stat) (hpending : u.pending = s.th.pending) (w : Wait) : ParkedFor s w ((s.setTh u).park w) := by
  obtain ⟨⟨v, t, hv, ht, hst, htpc, htg, htstat, htpending⟩, hcore, hmem, hrmem, hls⟩ := parkedFor_park (State.isSome_setTh s u) w
  have huv : u = v := by rw [State.thread_setTh] at hv; injection hv
  subst huv
  refine ⟨⟨s.th, t, State.thread_eq_th hs, ht, hst, htpc.trans hpc, htg.trans hg, htstat.trans hstat, htpending.trans hpending⟩,
    fun c => ?_, hmem, hrmem, fun c => ?_⟩
  all_goals by_cases hc : c = s.cur
  · exact .inr hc
  · exact .inl (((hcore c).resolve_right hc).trans (State.core_setTh_ne s u hc))
  · subst hc; rw [hls, State.core_setTh_self]
  · rw [hls, State.core_setTh_ne s u hc]


/-- R96: an instruction that is not to be issued again is left behind. -/
theorem Thread.leaving_pc {t : Thread} (h : t.replay = none) : t.leaving.pc = nextPc t.pc t.lineCount := by
  simp only [Thread.leaving, h, Option.isSome_none, Bool.false_eq_true, if_false]

section
variable (u : Thread) (c now : Nat) (src : Option Sources)

@[simp] theorem Thread.migrant_st : (u.migrant c now src).st = .parked .migrate := rfl
@[simp] theorem Thread.migrant_aux : (u.migrant c now src).aux = BitVec.ofNat 64 c := rfl
@[simp] theorem Thread.migrant_replay : (u.migrant c now src).replay = none := rfl
@[simp] theorem Thread.migrant_tm : (u.migrant c now src).tm = u.tm := rfl
@[simp] theorem Thread.migrant_hold : (u.migrant c now src).hold = u.hold := rfl
@[simp] theorem Thread.migrant_packable : (u.migrant c now src).packable = u.packable := rfl
@[simp] theorem Thread.migrant_leaving_uid : (u.migrant c now src).leaving.uid = u.uid := rfl
@[simp] theorem Thread.migrant_leaving_g : (u.migrant c now src).leaving.g = u.g := rfl
@[simp] theorem Thread.migrant_leaving_pc : (u.migrant c now src).leaving.pc = nextPc u.pc u.lineCount := Thread.leaving_pc rfl

end

theorem State.thread_migrating (s : State) (c : Nat) : ∃ src, (s.migrating c).thread = some (s.th.migrant c s.cycle src) := by
  refine ⟨some (s.setTh (s.th.bound c)).sources, ?_⟩
  rw [State.migrating, State.park, State.thread_setTh, State.th_setTh]
  rfl

theorem parkedFor_migrating {s : State} (hs : s.thread.isSome = true) (c : Nat) : ParkedFor s .migrate (s.migrating c) :=
  parkedFor_setTh_park hs (u := s.th.bound c) rfl rfl rfl rfl .migrate

/-- R96, R105: the packet that the next step of its core makes of the thread that `mig` leaves waiting. -/
theorem packs_migrant {s : State} (hs : s.thread.isSome = true) {c : Nat} (hc : c < 4096) (hp : s.th.packable = true)
    (hh : s.th.hold = false) :
    Completes (.migrationPack s.cur s.slot.val) (s.migrating c) (fun u =>
      u.threadAt s.cur s.slot = none ∧ u.mem = s.mem ∧ (u.core s.cur).ls = (s.core s.cur).ls ∧
      ∃ p : Packet, u.transit = s.transit ++ [p] ∧ p.src = s.cur ∧ p.dst = c ∧ p.thread.uid = s.th.uid ∧ p.thread.pc = s.nextPc ∧
        ∀ r : Fin 16, p.thread.g[r] = if s.th.tm.getLsbD r.val then s.th.g[r] else 0) := by
  obtain ⟨-, -, -, -, hls⟩ := parkedFor_migrating hs c
  obtain ⟨src, ht⟩ := s.thread_migrating c
  obtain ⟨u, hu, p, hslot, hcore, hmem, htransit, hsrc, hdst, hthread⟩ :=
    completes_migrationPack ht (Thread.migrant_st ..) ((Thread.migrant_packable ..).trans hp) ((Thread.migrant_hold ..).trans hh)
  rw [Thread.migrant_aux, BitVec.toNat_ofNat, Nat.mod_eq_of_lt (by omega)] at hdst
  refine ⟨u, hu, hslot, hmem, hcore.trans (hls _), p, htransit, hsrc, hdst, ?_⟩
  rw [hthread]
  refine ⟨by simp, by simp [State.nextPc], fun r => ?_⟩
  rw [State.packed_g]
  simp

/-! ### `yield` (R106) -/

/-- The issuing thread set twice. -/
theorem State.setTh_setTh (s : State) (u v : Thread) : (s.setTh u).setTh v = s.setTh v := by
  have hslot : (s.setTh u).setTh v = (s.setCore s.cur { s.core s.cur with slots := (s.core s.cur).slots.set s.slot (some u) }).setCore s.cur
      { (s.setTh u).core s.cur with slots := ((s.setTh u).core s.cur).slots.set s.slot (some v) } := rfl
  rw [hslot, State.core_setTh_self]
  simp only [State.setCore, mapPut_mapPut, Vector.set_set]
  rfl

/-- R96: every slot reads zero. -/
theorem Thread.allDepsZero_of_forall {t : Thread} (h : ∀ k : Fin 8, t.dep[k] = 0) : t.allDepsZero = true :=
  (t.depsZero_iff 0xFF).mpr fun k _ => h k
/-- R96: a slot does not read zero. -/
theorem Thread.allDepsZero_eq_false {t : Thread} (h : ∃ k : Fin 8, t.dep[k] ≠ 0) : t.allDepsZero = false := by
  have hmask : ∀ k : Fin 8, (0xFF : BitVec 8).getLsbD k.val = true := by decide
  obtain ⟨k, hk⟩ := h
  exact Thread.depsZero_eq_false ⟨k, hmask k, hk⟩

section
variable {s : State}

/-- R246: with no request pending `yield` does what R106 says. -/
theorem exec_yield_free (h : s.boundaryDue s.cur s.th = false) : exec .yield s = issue s s.yield := by
  refine congrArg (issue s) ((State.boundary_none _ h).trans ?_)
  simp [h]

/-- R246: with one pending it goes on, and its thread is held (log 33). -/
theorem exec_yield_due (h0 : s.th.stage = 0) (h : s.boundaryDue s.cur s.th = true) :
    exec .yield s = issue s (s.advance.setTh { s.th.advance with hold := true }) := by
  refine congrArg (issue s) ((State.boundary_due _ h0 h).trans ?_)
  simp [h, State.holdSame]

/-- R106: nobody waits to enter, a slot is free, or the thread has a claim, is in matrix mode, or uses a slot: `yield` goes on. -/
theorem State.yield_goes_on (h : (s.core s.cur).arrivals = [] ∨ (s.freeSlot s.cur).isSome = true ∨ statCP s.th.stat = true ∨
    statM s.th.stat = true ∨ ∃ k : Fin 8, s.th.dep[k] ≠ 0) : s.yield = s.advance := by
  unfold State.yield
  cases ha : (s.core s.cur).arrivals with
  | nil => rfl
  | cons head r =>
    have hno : ¬((s.freeSlot s.cur).isNone = true ∧ (!statCP s.th.stat) = true ∧ (!statM s.th.stat) = true ∧ s.th.allDepsZero = true) := by
      rintro ⟨hfree, hcp, hm, hdep⟩
      rcases h with h | h | h | h | h
      · rw [ha] at h; exact nomatch h
      · rw [Option.isNone_iff_eq_none.mp hfree] at h; exact nomatch h
      · rw [h] at hcp; exact nomatch hcp
      · rw [h] at hm; exact nomatch hm
      · rw [Thread.allDepsZero_eq_false h] at hdep; exact nomatch hdep
    exact if_neg hno

variable {head : Thread} {r : List Thread} (ha : (s.core s.cur).arrivals = head :: r) (hf : s.freeSlot s.cur = none)
  (hcp : statCP s.th.stat = false) (hm : statM s.th.stat = false) (hdep : ∀ k : Fin 8, s.th.dep[k] = 0)
include ha hf hcp hm hdep

/-- R93, R106: otherwise it waits for its thread's results. -/
theorem State.yield_waits (hp : s.th.pending ≠ []) : s.yield = s.park .drained := by
  have hres : s.resolved s.cur s.th .drained = false := by simp [State.resolved, hp]
  have hyes := Thread.allDepsZero_of_forall hdep
  simp only [State.yield, ha]
  rw [if_pos (by simp [hf, hcp, hm, hyes]), State.await_parked _ hres]

/-- R106: then it changes places with the head of the arrival queue. -/
theorem State.yield_changes (hp : s.th.pending = []) (hb : s.th.beats = none) : s.yield = s.changePlaces head := by
  have hyes := Thread.allDepsZero_of_forall hdep
  have hres : s.resolved s.cur s.th .drained = true := by simp [State.resolved, hp, hb, hyes]
  simp only [State.yield, ha]
  rw [if_pos (by simp [hf, hcp, hm, hyes]), State.await_resolved _ hres]

end

/-! ### Waiting behind others (R101, R103) -/

/-- A core with other arrivals and another spill ring. -/
def CoreState.withQueues (k : CoreState) (a sp : List Thread) (at_ : List Nat) : CoreState :=
  { k with arrivals := a, spill := sp, spillAt := at_ }

/-- A state that differs from another in the queues of one core, in saved records, and in memory. -/
structure Queued (s : State) (c : Nat) (u : State) : Prop where
  cur : u.cur = s.cur
  slot : u.slot = s.slot
  core : ∃ (a sp : List Thread) (at_ : List Nat), u.core c = (s.core c).withQueues a sp at_

theorem Queued.refl (s : State) (c : Nat) : Queued s c s :=
  ⟨rfl, rfl, (s.core c).arrivals, (s.core c).spill, (s.core c).spillAt, rfl⟩

/-- A core that a context holds, set for a context with other queues: where another context asks, or the core is saved, nothing of the
core changes. -/
theorem queued_setCoreFor {s : State} {c y : Nat} (hy : (s.core c).ctx = some y) (x : Nat) (sp : List Thread) (at_ : List Nat) :
    Queued s c (s.setCoreFor x c { s.coreFor x c with spill := sp, spillAt := at_ }) := by
  unfold State.setCoreFor
  split
  · exact ⟨rfl, rfl, (s.core c).arrivals, (s.core c).spill, (s.core c).spillAt, rfl⟩
  · next hsaved =>
    split
    · next hx =>
      have hx' : (s.core c).ctx = some x := hx.resolve_left (by simp [hy])
      have hnone : mapGet (s.context x).saved c = none := by
        cases h : mapGet (s.context x).saved c with
        | none => rfl
        | some k => simp [h] at hsaved
      rw [State.coreFor_unsaved hnone hx']
      exact ⟨rfl, rfl, (s.core c).arrivals, sp, at_, State.core_setCore_self ..⟩
    · exact Queued.refl s c

/-- R101, R103: a thread that waits on a core that a context holds changes the core's queues alone. -/
theorem queued_enqueue {s : State} {c y : Nat} (hy : (s.core c).ctx = some y) (t : Thread) (mask : BitVec 16) :
    Queued s c (s.enqueue c t mask) := by
  rw [State.enqueue]
  split
  · exact ⟨rfl, rfl, (s.core c).arrivals ++ [t], (s.core c).spill, (s.core c).spillAt, State.core_setCore_self ..⟩
  · rw [State.spillTo]
    split
    · next a _ =>
      obtain ⟨hcur, hslot, hcore⟩ := queued_setCoreFor hy t.ctx ((s.coreFor t.ctx c).spill ++ [t]) ((s.coreFor t.ctx c).spillAt ++ [a])
      exact ⟨hcur, hslot, hcore⟩
    · exact Queued.refl s c

/-- R101: the tail of the arrival queue. -/
theorem State.enqueue_queue {s : State} {c : Nat} (hsp : (s.core c).spill = []) (hn : (s.core c).arrivals.length < 16) (t : Thread)
    (mask : BitVec 16) : s.enqueue c t mask = s.setCore c { s.core c with arrivals := (s.core c).arrivals ++ [t] } :=
  if_pos (by simp [hsp, hn])

/-- R103: behind the spill ring, in a record of its chunks. -/
theorem State.enqueue_ring {s : State} {c : Nat} (hn : (s.core c).arrivals.length = 16) {t : Thread}
    (hctx : (s.core c).ctx = some t.ctx) (hsv : mapGet (s.context t.ctx).saved c = none) (hroom : (s.core c).ringRoom = true)
    (mask : BitVec 16) : ∃ a bs, s.enqueue c t mask =
      (s.setCore c { s.core c with spill := (s.core c).spill ++ [t], spillAt := (s.core c).spillAt ++ [a] }).firmPut a bs := by
  obtain ⟨a, ha⟩ := Option.isSome_iff_exists.mp hroom
  refine ⟨a, t.packetBytes mask, ?_⟩
  unfold State.enqueue
  rw [if_neg (by simp [hn])]
  simp only [State.spillTo, State.coreFor_unsaved hsv hctx, State.setCoreFor_unsaved hsv hctx, ha]

/-! ### Changing places (R106) -/

/-- R106: the thread past its `yield`. -/
def Thread.yielding (u : Thread) : Thread := { u.advance with blocked := none }
/-- R106: the thread that gives up its slot, with all of its g registers. -/
def State.yielder (s : State) : Thread := s.packed s.th.yielding 0xFFFF
/-- R106: the core with the head of its arrival queue taken and the slot empty. -/
def State.changing (s : State) : State :=
  s.setCore s.cur { (s.core s.cur).takeArrival with slots := (s.core s.cur).slots.set s.slot none }

@[simp] theorem Thread.yielding_uid (u : Thread) : u.yielding.uid = u.uid := rfl
@[simp] theorem Thread.yielding_g (u : Thread) : u.yielding.g = u.g := rfl
@[simp] theorem Thread.yielding_lin (u : Thread) : u.yielding.lin = u.lin := rfl
@[simp] theorem Thread.yielding_pc (u : Thread) : u.yielding.pc = nextPc u.pc u.lineCount := rfl

theorem State.yielder_g (s : State) : s.yielder.g = s.th.g := by
  have hmask : ∀ r : Fin 16, (0xFFFF : BitVec 16).getLsbD r.val = true := by decide
  refine Vector.ext fun n hn => ?_
  have h := s.packed_g s.th.yielding 0xFFFF ⟨n, hn⟩
  rw [if_pos (hmask ⟨n, hn⟩), Thread.yielding_g] at h
  exact h

theorem State.changePlaces_eq (s : State) (head : Thread) :
    s.changePlaces head = (s.changing.enqueue s.cur s.yielder 0xFFFF).seat s.cur s.slot head := rfl

/-- R101, R103: what is taken from the queues leaves the rest of the core. -/
theorem CoreState.takeArrival_eq (k : CoreState) : ∃ (a sp : List Thread) (at_ : List Nat), k.takeArrival = k.withQueues a sp at_ := by
  unfold CoreState.takeArrival
  split
  · exact ⟨k.arrivals.drop 1, k.spill, k.spillAt, rfl⟩
  · next t r _ => exact ⟨k.arrivals.drop 1 ++ [t], r, k.spillAt.drop 1, rfl⟩

theorem State.core_changing (s : State) : s.changing.core s.cur =
    { (s.core s.cur).takeArrival with slots := (s.core s.cur).slots.set s.slot none } := State.core_setCore_self ..

/-- R106: what changing places leaves of the core but for its queues, before the head of the arrival queue is in the slot. -/
def State.emptied (s : State) : CoreState := { s.core s.cur with slots := (s.core s.cur).slots.set s.slot none }

/-- R106: the head of the arrival queue is in the slot; what follows of the core's queues is what `enqueue` left. -/
theorem seated_changePlaces {s : State} {head : Thread} (hu : head.uid ≠ 0) (hctx : (s.core s.cur).ctx = some head.ctx) :
    (s.changePlaces head).thread = some (head.seated s.cur s.slot) ∧
    Seated (s.changing.enqueue s.cur s.yielder 0xFFFF) s.cur s.slot head (s.changePlaces head) ∧
    ∃ (a sp : List Thread) (at_ : List Nat), (s.changing.enqueue s.cur s.yielder 0xFFFF).core s.cur = s.emptied.withQueues a sp at_ := by
  obtain ⟨a, sp, at_, htake⟩ := (s.core s.cur).takeArrival_eq
  have hcore : s.changing.core s.cur = s.emptied.withQueues a sp at_ := by
    rw [State.core_changing, htake]; rfl
  obtain ⟨hcur, hslot, a', sp', at', hq⟩ := queued_enqueue (s := s.changing) (c := s.cur) (y := head.ctx) (by rw [hcore]; exact hctx)
    s.yielder 0xFFFF
  rw [hcore] at hq
  have hctx' : ((s.changing.enqueue s.cur s.yielder 0xFFFF).core s.cur).ctx = some head.ctx := by rw [hq]; exact hctx
  have hseat := seated_seat hctx' hu s.slot
  refine ⟨?_, hseat, a', sp', at', hq⟩
  have hthread : (s.changePlaces head).thread = (s.changePlaces head).threadAt s.cur s.slot := by
    rw [State.thread, State.changePlaces_eq, State.seat_held hctx' hu]
    exact congrArg₂ (State.threadAt _) hcur hslot
  exact hthread.trans hseat.thread

section
variable {s : State} {head : Thread} {r : List Thread} (hu : head.uid ≠ 0) (hctx : (s.core s.cur).ctx = some head.ctx)
  (ha : (s.core s.cur).arrivals = head :: r)
include hu hctx ha

/-- R106: with an empty spill ring the thread waits at the arrival queue's tail. -/
theorem changePlaces_queue (hsp : (s.core s.cur).spill = []) (hr : r.length < 16) :
    (s.changePlaces head).mem = s.mem ∧ ((s.changePlaces head).core s.cur).arrivals = r ++ [s.yielder] := by
  obtain ⟨-, ⟨-, ⟨sl, hcore⟩, -, hmem, -⟩, -⟩ := seated_changePlaces hu hctx
  have htake : (s.core s.cur).takeArrival = { s.core s.cur with arrivals := r } := by
    rw [CoreState.takeArrival_no_spill hsp, ha]; rfl
  have hchanging : s.changing.core s.cur = s.emptied.withQueues r [] (s.core s.cur).spillAt := by
    rw [State.core_changing, htake, ← hsp]; rfl
  have henq := State.enqueue_queue (s := s.changing) (c := s.cur) (by rw [hchanging]; rfl) (by rw [hchanging]; exact hr) s.yielder 0xFFFF
  rw [hchanging] at henq
  refine ⟨hmem.trans (by rw [henq]; rfl), (congrArg CoreState.arrivals hcore).trans ?_⟩
  rw [henq, State.core_setCore_self]
  rfl

/-- R103, R106: with a thread in the ring it waits behind the ring, whose head moves into the arrival queue. -/
theorem changePlaces_ring {x : Thread} {y : List Thread} (hsp : (s.core s.cur).spill = x :: y) (hr : r.length = 15)
    (hown : s.th.ctx = head.ctx) (hsv : mapGet (s.context s.th.ctx).saved s.cur = none)
    (hroom : (s.core s.cur).takeArrival.ringRoom = true) :
    ((s.changePlaces head).core s.cur).arrivals = r ++ [x] ∧ ((s.changePlaces head).core s.cur).spill = y ++ [s.yielder] := by
  obtain ⟨-, ⟨-, ⟨sl, hcore⟩, -⟩, -⟩ := seated_changePlaces hu hctx
  have hchanging : s.changing.core s.cur = s.emptied.withQueues (r ++ [x]) y ((s.core s.cur).spillAt.drop 1) := by
    rw [State.core_changing]
    simp only [CoreState.takeArrival, hsp, ha]
    rfl
  have hroom' : (s.changing.core s.cur).ringRoom = true := by rw [State.core_changing]; exact hroom
  obtain ⟨a, bs, henq⟩ := State.enqueue_ring (s := s.changing) (c := s.cur) (t := s.yielder) (by rw [hchanging]; simp [CoreState.withQueues, hr])
    (by rw [hchanging]; exact hctx.trans (congrArg some hown.symm)) hsv hroom' 0xFFFF
  rw [hchanging] at henq
  have henqCore : (s.changing.enqueue s.cur s.yielder 0xFFFF).core s.cur =
      s.emptied.withQueues (r ++ [x]) (y ++ [s.yielder]) ((s.core s.cur).spillAt.drop 1 ++ [a]) := by
    rw [henq]
    exact State.core_setCore_self ..
  exact ⟨(congrArg CoreState.arrivals hcore).trans (by rw [henqCore]; rfl), (congrArg CoreState.spill hcore).trans (by rw [henqCore]; rfl)⟩

end

/-- What the threads that wait find of the one that yielded: its number, its PC at the next instruction, all of its g registers, its LIN. -/
theorem State.yielder_kept (s : State) : s.yielder.uid = s.th.uid ∧ s.yielder.pc = s.nextPc ∧ s.yielder.g = s.th.g ∧
    s.yielder.lin = s.th.lin := by
  refine ⟨?_, ?_, s.yielder_g, ?_⟩ <;> simp [State.yielder, State.nextPc]

/-! ### The obligation -/

/-- R106: `yield` of a thread that is to change places, once its results have landed. -/
theorem completes_yield_changes {s : State} (hs : s.thread.isSome = true) {head : Thread} {r : List Thread}
    (hd : s.boundaryDue s.cur s.th = false) (ha : (s.core s.cur).arrivals = head :: r) (hy : s.yield = s.changePlaces head)
    (hu : head.uid ≠ 0) (hctx : (s.core s.cur).ctx = some head.ctx) :
    Completes .yield s (fun t =>
      (∃ u, t.thread = some u ∧ u.st = .seeded ∧ u.uid = head.uid ∧ u.pc = head.pc ∧ u.g = head.g) ∧
      (t.core s.cur).ls = (s.core s.cur).ls ∧ (∀ j : Fin 16, j ≠ s.slot → t.threadAt s.cur j = s.threadAt s.cur j) ∧
      ((s.core s.cur).spill = [] → r.length < 16 → t.mem = s.mem ∧ ∃ w : Thread, (t.core s.cur).arrivals = r ++ [w] ∧
        w.uid = s.th.uid ∧ w.pc = s.nextPc ∧ w.g = s.th.g ∧ w.lin = s.th.lin) ∧
      (∀ x y, (s.core s.cur).spill = x :: y → r.length = 15 → s.th.ctx = head.ctx → mapGet (s.context s.th.ctx).saved s.cur = none →
        (s.core s.cur).takeArrival.ringRoom = true → (t.core s.cur).arrivals = r ++ [x] ∧ ∃ w : Thread, (t.core s.cur).spill = y ++ [w] ∧
          w.uid = s.th.uid ∧ w.pc = s.nextPc ∧ w.g = s.th.g ∧ w.lin = s.th.lin)) := by
  obtain ⟨hthread, ⟨-, ⟨sl, hcore⟩, hothers, -, -⟩, a, sp, at_, hq⟩ := seated_changePlaces hu hctx
  have he : exec .yield s = issue s (s.changePlaces head) := (exec_yield_free hd).trans (congrArg (issue s) hy)
  refine completes_of_issue hs he ⟨⟨_, hthread, rfl, rfl, rfl, rfl⟩, ?_, fun j hj => ?_, fun hsp hr => ?_,
    fun x y hsp hr hown hsv hroom => ?_⟩
  · rw [hcore, hq]; rfl
  · have hne : s.slot.val ≠ j.val := fun e => hj (Fin.ext e.symm)
    rw [hothers j hj, State.threadAt, hq]
    exact Vector.getElem_set_ne s.slot.isLt j.isLt hne
  · obtain ⟨hmem, harrivals⟩ := changePlaces_queue hu hctx ha hsp hr
    exact ⟨hmem, s.yielder, harrivals, s.yielder_kept⟩
  · obtain ⟨harrivals, hspill⟩ := changePlaces_ring hu hctx ha hsp hr hown hsv hroom
    exact ⟨harrivals, s.yielder, hspill, s.yielder_kept⟩

/-- Settles O19: `mig` by where it goes, `yield` by what waits, by the thread's own state, and by the request pending for it. -/
theorem migration : Obligations.Migration := by
  intro s a hs h0 c
  refine ⟨fun h => ?_, fun hc hok hm => ?_, fun hc hok hm h => ?_, fun hc hok hm h => ?_, fun hd h => ?_,
    fun head r hd ha hf hcp hm hdep => ⟨fun hp => ?_, fun hp hb hu hctx => ?_⟩, fun hd => ?_⟩
  · exact completes_of_issue hs (congrArg (issue s) (State.mig_badCore h)) (trapped_trap hs 26)
  · exact completes_of_issue hs (congrArg (issue s) (State.mig_matrix hc hok hm)) (trapped_trap hs 18)
  · exact completes_of_issue hs (congrArg (issue s) (State.mig_own hc hok hm h)) (passed_self s)
  · obtain ⟨src, ht⟩ := s.thread_migrating c
    have haux : (s.th.migrant c s.cycle src).aux = s.reg a := BitVec.ofNat_toNat ..
    exact completes_of_issue hs (congrArg (issue s) (State.mig_leaves hc hok hm h))
      ⟨⟨parkedFor_migrating hs c, _, ht, haux, Thread.migrant_replay ..⟩, fun hp hh => packs_migrant hs hc hp hh⟩
  · exact completes_of_issue hs ((exec_yield_free hd).trans (congrArg (issue s) (State.yield_goes_on h))) (passed_self s)
  · have hy := State.yield_waits ha hf hcp hm hdep hp
    exact completes_of_issue hs ((exec_yield_free hd).trans (congrArg (issue s) hy)) (parkedFor_park hs _)
  · exact completes_yield_changes hs hd ha (State.yield_changes ha hf hcp hm hdep hp hb) hu hctx
  · refine completes_of_issue hs (exec_yield_due h0 hd) ?_
    rw [State.advance, State.setTh_setTh]
    exact passed_setTh s (u := { s.th with hold := true }) (w := { s.th.advance with hold := true }) rfl rfl rfl

end Sys2Proof.Machine
end

section
/-! `halt` (R107, R234, R255): the thread leaves its kernel, its group and its slot, and its entries leave the mailboxes (R259). -/

namespace Sys2Proof.Machine

/-! ### A change applied to every thread -/

/-- The slots that a fold over some of them changes. -/
theorem getElem_foldl_slots (f : Thread → Thread) (sl : Vector (Option Thread) 16) (l : List (Fin 16)) (v : Vector (Option Thread) 16)
    (r : Fin 16) : (l.foldl (fun v (i : Fin 16) => match sl[i] with | some t => v.set i (some (f t)) | none => v) v)[r] =
      if r ∈ l ∧ (sl[r]).isSome = true then (sl[r]).map f else v[r] := by
  induction l generalizing v with
  | nil => simp
  | cons i l ih =>
    rw [List.foldl_cons, ih]
    by_cases hi : r = i
    · subst hi
      cases h : sl[r] <;> simp
    · have hne : i.val ≠ r.val := fun e => hi (Fin.ext e.symm)
      cases h : sl[i] <;> simp [hi, hne]

/-- Every slot is changed. -/
theorem getElem_mapSlots (f : Thread → Thread) (sl : Vector (Option Thread) 16) (r : Fin 16) :
    (mapSlots f sl)[r] = (sl[r]).map f := by
  have hr : r ∈ slotNumbers := by revert r; decide
  refine (getElem_foldl_slots f sl slotNumbers sl r).trans ?_
  cases h : sl[r] <;> simp [hr]

theorem State.core_mapThreads (s : State) (f : Thread → Thread) (c : Nat) :
    (s.mapThreads f).core c = { s.core c with slots := mapSlots f (s.core c).slots } := by
  have hfresh : mapSlots f ({} : CoreState).slots = ({} : CoreState).slots := rfl
  simp only [State.core, State.mapThreads, mapGet_map (fun k : CoreState => { k with slots := mapSlots f k.slots })]
  cases mapGet s.cores c with
  | none => simp only [Option.map_none, Option.getD_none, hfresh]
  | some k => rfl

/-- A state whose threads differ from another's in the tags that their waits carry. -/
structure Retagged (s u : State) : Prop where
  cur : u.cur = s.cur
  slot : u.slot = s.slot
  cycle : u.cycle = s.cycle
  mem : u.mem = s.mem
  core : ∀ c, ∃ sl : Vector (Option Thread) 16, u.core c = { s.core c with slots := sl }
  thread : ∀ c i, ∃ g : Thread → Option Tag, u.threadAt c i = (s.threadAt c i).map (fun t => { t with tag := g t })

theorem Retagged.refl (s : State) : Retagged s s :=
  ⟨rfl, rfl, rfl, rfl, fun c => ⟨(s.core c).slots, rfl⟩, fun c i => ⟨Thread.tag, by cases s.threadAt c i <;> rfl⟩⟩

theorem retagged_setGroup (s : State) (g : Group) : Retagged s (s.setGroup g) :=
  ⟨rfl, rfl, rfl, rfl, fun c => ⟨(s.core c).slots, rfl⟩, (Retagged.refl s).thread⟩
theorem retagged_setKernel (s : State) (k : Kernel) : Retagged s (s.setKernel k) :=
  ⟨rfl, rfl, rfl, rfl, fun c => ⟨(s.core c).slots, rfl⟩, (Retagged.refl s).thread⟩

theorem Retagged.trans {s u w : State} (h : Retagged s u) (k : Retagged u w) : Retagged s w := by
  refine ⟨k.cur.trans h.cur, k.slot.trans h.slot, k.cycle.trans h.cycle, k.mem.trans h.mem, fun c => ?_, fun c i => ?_⟩
  · obtain ⟨sl, hsl⟩ := h.core c
    obtain ⟨sl', hsl'⟩ := k.core c
    exact ⟨sl', by rw [hsl', hsl]⟩
  · obtain ⟨g, hg⟩ := h.thread c i
    obtain ⟨g', hg'⟩ := k.thread c i
    exact ⟨fun t => g' { t with tag := g t }, by rw [hg', hg, Option.map_map]; rfl⟩

/-- A function that changes the tags alone, applied to every thread. -/
theorem retagged_mapThreads (s : State) {f : Thread → Thread} (hf : ∀ t, ∃ g : Option Tag, f t = { t with tag := g }) :
    Retagged s (s.mapThreads f) := by
  choose g hg using hf
  obtain rfl : f = fun t => { t with tag := g t } := funext hg
  refine ⟨rfl, rfl, rfl, rfl, fun c => ⟨_, s.core_mapThreads _ c⟩, fun c i => ⟨g, ?_⟩⟩
  simp only [State.threadAt, s.core_mapThreads]
  exact getElem_mapSlots ..

/-- Tagged or not, a thread differs in its tag alone. -/
theorem retag_ite (b : Bool) (t : Thread) (tag : Tag) :
    ∃ g : Option Tag, (if b = true then { t with tag := some tag } else t) = { t with tag := g } := by
  cases b
  · exact ⟨t.tag, rfl⟩
  · exact ⟨some tag, rfl⟩

/-! ### Barriers of those who are left (R253, R255) -/

section
variable (s : State)

theorem State.retagged_phaseTag (x : Nat) (kid : BitVec 32) (gid : Option (BitVec 32)) (kind id : Nat) (old new : BitVec 32)
    (tag : Tag) : Retagged s (s.phaseTag x kid gid kind id old new tag) := by
  rw [State.phaseTag]
  split
  · exact Retagged.refl s
  · refine retagged_mapThreads s fun t => ?_
    split
    · exact retag_ite ..
    · exact retag_ite ..
    · exact ⟨t.tag, rfl⟩

theorem State.kernels_phaseTag (x : Nat) (kid : BitVec 32) (gid : Option (BitVec 32)) (kind id : Nat) (old new : BitVec 32)
    (tag : Tag) : (s.phaseTag x kid gid kind id old new tag).kernels = s.kernels := by
  rw [State.phaseTag]
  split
  · rfl
  · rw [State.mapThreads_kernels]
theorem State.groups_phaseTag (x : Nat) (kid : BitVec 32) (gid : Option (BitVec 32)) (kind id : Nat) (old new : BitVec 32)
    (tag : Tag) : (s.phaseTag x kid gid kind id old new tag).groups = s.groups := by
  rw [State.phaseTag]
  split
  · rfl
  · rw [State.mapThreads_groups]

/-- R253: the check of a group's barrier changes the group's barrier, and tags. -/
theorem State.retagged_checkGroup (g : Group) (tag : Tag) : Retagged s (s.checkGroup g tag) := by
  rw [State.checkGroup]
  exact (retagged_setGroup s _).trans (State.retagged_phaseTag ..)
theorem State.kernels_checkGroup (g : Group) (tag : Tag) : (s.checkGroup g tag).kernels = s.kernels := by
  rw [State.checkGroup, State.kernels_phaseTag, State.setGroup]
theorem State.groups_checkGroup {h g : Group} (hs : s.groups = [h]) (hg : g.same h = true) (tag : Tag) :
    (s.checkGroup g tag).groups = [{ g with bar := g.bar.check g.pop tag }] := by
  have hsame : Group.same { g with bar := g.bar.check g.pop tag } h = true := hg
  rw [State.checkGroup, State.groups_phaseTag]
  simp only [State.setGroup, hs, List.any_cons, List.map_cons, List.map_nil, hsame, Bool.true_or, if_true]

/-- R254, R255: so does that of a kernel's outside a gang. -/
theorem State.checkKernel_alone {k : Kernel} (hk : k.gang = none) (tag : Tag) : s.checkKernel k tag =
    (s.setKernel { k with bar := k.bar.check k.live tag }).phaseTag k.ctx k.kid none 2 0 k.bar.cph (k.bar.check k.live tag).cph tag := by
  simp only [State.checkKernel, hk]
theorem State.retagged_checkKernel {k : Kernel} (hk : k.gang = none) (tag : Tag) : Retagged s (s.checkKernel k tag) := by
  rw [s.checkKernel_alone hk]
  exact (retagged_setKernel s _).trans (State.retagged_phaseTag ..)
theorem State.groups_checkKernel {k : Kernel} (hk : k.gang = none) (tag : Tag) : (s.checkKernel k tag).groups = s.groups := by
  rw [s.checkKernel_alone hk, State.groups_phaseTag, State.setKernel]
theorem State.kernels_checkKernel {j k : Kernel} (hk : k.gang = none) (hs : s.kernels = [j]) (hx : j.ctx = k.ctx) (hkid : j.kid = k.kid)
    (tag : Tag) : (s.checkKernel k tag).kernels = [{ k with bar := k.bar.check k.live tag }] := by
  rw [s.checkKernel_alone hk, State.kernels_phaseTag]
  simp only [State.setKernel, hs, List.map_cons, List.map_nil, hx, hkid, and_self, if_true]

end

/-! ### A thread alone in its kernel and group records (R107, R234, R238) -/

theorem State.kernelAt_single {s : State} {k : Kernel} (hk : s.kernels = [k]) {x : Nat} {kid : BitVec 32} (hx : k.ctx = x)
    (hkid : k.kid = kid) : s.kernelAt x kid = k := by
  simp [State.kernelAt, State.kernel, hk, hx, hkid]
theorem State.groupAt_single {s : State} {g : Group} (hg : s.groups = [g]) {x : Nat} {kid gid : BitVec 32} (hx : g.ctx = x)
    (hkid : g.kid = kid) (hgid : g.gid = gid) : s.groupAt x kid gid = g := by
  simp [State.groupAt, State.group, hg, hx, hkid, hgid]

/-- R234, R238: a group, and a kernel, with one thread less. -/
def Group.departed (g : Group) (t : Thread) : Group :=
  { g with
    pop := g.pop - 1
    joins := g.joins.filter (fun j => j.1 != t.lin)
    bar := { g.bar with arrived := g.bar.arrived.filter (· != t.uid) } }
def Kernel.departed (k : Kernel) (t : Thread) : Kernel :=
  { k with
    live := k.live - 1
    bar := { k.bar with arrived := k.bar.arrived.filter (· != t.uid) } }

/-- R245: without a counter to count down the group's barrier, then the kernel's, then the node's record follow. -/
theorem State.depart_eq {s : State} {t : Thread} {k : Kernel} {g : Group} (hg : s.groupOf t = g) (hj : g.joins = []) (tag : Tag)
    (hk : (s.checkGroup (g.departed t) tag).kernelOf t = k) :
    s.depart t tag = ((s.checkGroup (g.departed t) tag).checkKernel (k.departed t) tag).freeHeld t tag := by
  subst hg hk
  simp only [State.depart, hj, List.find?_nil]
  simp only [Group.departed, Kernel.departed, hj]

/-- R275: a thread whose kernel is alone and no node's holds no record. -/
theorem State.freeHeld_plain {s : State} {t : Thread} (h : (s.kernelOf t).node = none) (tag : Tag) : s.freeHeld t tag = s := by
  simp only [State.freeHeld, State.heldRecord, h]

/-- R107, R234, R255: the records that a thread without a counter or a node's record leaves behind. -/
theorem depart_plain {s : State} {t : Thread} {k : Kernel} {g : Group} (hk : s.kernels = [k]) (hkx : k.ctx = t.ctx) (hkk : k.kid = t.kid)
    (hgang : k.gang = none) (hnode : k.node = none) (hg : s.groups = [g]) (hgx : g.ctx = t.ctx) (hgk : g.kid = t.kid)
    (hgg : g.gid = t.gid) (hj : g.joins = []) (tag : Tag) :
    Retagged s (s.depart t tag) ∧ (∃ k', (s.depart t tag).kernels = [k'] ∧ k'.live = k.live - 1) ∧
    ∃ g', (s.depart t tag).groups = [g'] ∧ g'.pop = g.pop - 1 := by
  have hgroup : s.groupOf t = g := State.groupAt_single hg hgx hgk hgg
  have hsame : (g.departed t).same g = true := by simp [Group.same, Group.departed]
  have hkernels := (s.kernels_checkGroup (g.departed t) tag).trans hk
  have hkernel : (s.checkGroup (g.departed t) tag).kernelOf t = k := State.kernelAt_single hkernels hkx hkk
  have hkernels' := State.kernels_checkKernel _ (k := k.departed t) hgang hkernels rfl rfl tag
  have hgroups := (State.groups_checkKernel (s.checkGroup (g.departed t) tag) (k := k.departed t) hgang tag).trans
    (s.groups_checkGroup hg hsame tag)
  have hfree : (((s.checkGroup (g.departed t) tag).checkKernel (k.departed t) tag).kernelOf t).node = none := by
    rw [State.kernelOf, State.kernelAt_single hkernels' hkx hkk]
    exact hnode
  rw [State.depart_eq hgroup hj tag hkernel, State.freeHeld_plain hfree]
  exact ⟨(s.retagged_checkGroup _ tag).trans (State.retagged_checkKernel _ (k := k.departed t) hgang tag), ⟨_, hkernels', rfl⟩,
    _, hgroups, rfl⟩

/-! ### Mailboxes (R107, R259, R260) -/

/-- R260: the held entries that find room are appended; nothing else of a core changes but what is held. -/
theorem placeHeld_cases (now : Nat) (l : List Mail) (k : CoreState) : ∃ more held : List Mail,
    placeHeld now k l = { k with mailbox := k.mailbox ++ more, held := held } ∧
    ∀ m ∈ more, ∃ n ∈ l, m = { n with visible := now + 1 } := by
  induction l generalizing k with
  | nil => exact ⟨[], [], by simp [placeHeld], by simp⟩
  | cons n r ih =>
    by_cases hroom : k.mailRoom n = true
    · obtain ⟨more, held, hplace, hmore⟩ := ih { k with mailbox := k.mailbox ++ [{ n with visible := now + 1 }] }
      refine ⟨{ n with visible := now + 1 } :: more, held, ?_, fun m hm => ?_⟩
      · rw [placeHeld, if_pos hroom, hplace]
        simp only [List.append_assoc, List.singleton_append]
      · rcases List.mem_cons.mp hm with rfl | hm
        · exact ⟨n, List.mem_cons_self .., rfl⟩
        · obtain ⟨n', hn', he⟩ := hmore m hm
          exact ⟨n', List.mem_cons_of_mem n hn', he⟩
    · exact ⟨[], n :: r, by rw [placeHeld, if_neg hroom, List.append_nil], by simp⟩

/-- R107: a core without the entries that a test selects. -/
def CoreState.cleared (k : CoreState) (f : Mail → Bool) : CoreState :=
  { k with mailbox := k.mailbox.filter (fun m => !f m), held := k.held.filter (fun m => !f m) }

/-- R107: where no entry is selected the core is as it was. -/
theorem CoreState.cleared_none {k : CoreState} {f : Mail → Bool} (h : (k.mailbox.any f || k.held.any f) = false) : k.cleared f = k := by
  simp only [Bool.or_eq_false_iff, List.any_eq_false] at h
  obtain ⟨hmailbox, hheld⟩ := h
  have hm : k.mailbox.filter (fun m => !f m) = k.mailbox := List.filter_eq_self.mpr fun m hm => by simp [hmailbox m hm]
  have hh : k.held.filter (fun m => !f m) = k.held := List.filter_eq_self.mpr fun m hm => by simp [hheld m hm]
  rw [CoreState.cleared, hm, hh]

/-- R107: a core of a context without the entries, those that it holds placed; another core as it was. -/
def CoreState.dropped (k : CoreState) (x : Nat) (f : Mail → Bool) (now : Nat) : CoreState :=
  if k.ctx = some x then (k.cleared f).settleMail now else k

/-- R107: what discarding entries of a context leaves of a core. -/
theorem State.core_dropMail (s : State) (x : Nat) (f : Mail → Bool) (c : Nat) : (s.dropMail x f).core c = (s.core c).dropped x f s.cycle := by
  have hclean : ∀ k : CoreState, (if k.mailbox.any f || k.held.any f then k.cleared f else k) = k.cleared f := fun k => by
    split
    · rfl
    · next h => exact (CoreState.cleared_none (Bool.eq_false_iff.mpr h)).symm
  have hcores : (s.dropMail x f).cores = s.cores.map (fun p => (p.1, p.2.dropped x f s.cycle)) := by
    refine List.map_congr_left fun p _ => ?_
    rw [CoreState.dropped, ← hclean]
    split <;> rfl
  rw [State.core, hcores, mapGet_map (fun k : CoreState => k.dropped x f s.cycle), State.core]
  cases mapGet s.cores c with
  | none => rfl
  | some k => rfl

/-- R107: nothing but the mailbox and what is held of a core changes. -/
theorem CoreState.dropped_frame (k : CoreState) (x : Nat) (f : Mail → Bool) (now : Nat) :
    ∃ mailbox held : List Mail, k.dropped x f now = { k with mailbox := mailbox, held := held } := by
  rw [CoreState.dropped]
  split
  · obtain ⟨more, held, hplace, -⟩ := placeHeld_cases now (k.cleared f).held (k.cleared f)
    exact ⟨_, held, hplace⟩
  · exact ⟨k.mailbox, k.held, rfl⟩

/-- R107, R260: the mailbox of a core of the context keeps the entries that the test does not select; what was held and is placed behind
them is not selected either. -/
theorem CoreState.mailbox_dropped {k : CoreState} {x : Nat} (h : k.ctx = some x) {f : Mail → Bool}
    (hf : ∀ m v, f { m with visible := v } = f m) (now : Nat) : ∃ more : List Mail,
    (k.dropped x f now).mailbox = k.mailbox.filter (fun m => !f m) ++ more ∧ ∀ m ∈ more, f m = false := by
  obtain ⟨more, held, hplace, hmore⟩ := placeHeld_cases now (k.cleared f).held (k.cleared f)
  refine ⟨more, ?_, fun m hm => ?_⟩
  · rw [CoreState.dropped, if_pos h, CoreState.settleMail, hplace]
    rfl
  · obtain ⟨n, hn, rfl⟩ := hmore m hm
    have hkept : (!f n) = true := (List.mem_filter.mp hn).2
    rw [hf]
    simpa using hkept

/-- R107: the slot of a halted thread is empty, and its entries are gone. -/
theorem State.core_vacate {s : State} {c : Nat} {i : Fin 16} {t : Thread} (h : s.threadAt c i = some t) (d : Nat) :
    ∃ sl : Vector (Option Thread) 16, (s.vacate c i).core d = { (s.core d).dropped t.ctx (taggedFor t) s.cycle with slots := sl } := by
  simp only [State.vacate, h]
  by_cases hd : d = c
  · subst hd
    exact ⟨_, by rw [State.core_setSlot_self, State.core_dropMail]⟩
  · exact ⟨((s.core d).dropped t.ctx (taggedFor t) s.cycle).slots, by rw [State.core_setSlot_ne _ _ _ hd, State.core_dropMail]⟩

/-- R107: only its slot is emptied. -/
theorem State.threadAt_vacate {s : State} {c : Nat} {i : Fin 16} {t : Thread} (h : s.threadAt c i = some t) (j : Fin 16) :
    (s.vacate c i).threadAt c j = if j = i then none else s.threadAt c j := by
  simp only [State.vacate, h]
  split
  · next hj => rw [hj, State.threadAt_setSlot_self]
  · next hj =>
    obtain ⟨mailbox, held, hframe⟩ := (s.core c).dropped_frame t.ctx (taggedFor t) s.cycle
    rw [State.threadAt_setSlot_ne _ _ _ hj, State.threadAt, State.core_dropMail, hframe]
    rfl

theorem State.vacate_rest {s : State} {c : Nat} {i : Fin 16} {t : Thread} (h : s.threadAt c i = some t) :
    (s.vacate c i).mem = s.mem ∧ (s.vacate c i).kernels = s.kernels ∧ (s.vacate c i).groups = s.groups ∧
    (s.vacate c i).cur = s.cur ∧ (s.vacate c i).slot = s.slot := by
  simp only [State.vacate, h]
  exact ⟨rfl, rfl, rfl, rfl, rfl⟩

/-! ### The obligation -/

/-- R107: with nothing outstanding and nothing to release the thread leaves at once. -/
theorem State.halt_eq {s : State} (hp : s.th.pending = []) (hdep : s.th.dep = Vector.replicate 8 0) (hb : s.th.beats = none)
    (hr : s.releasable s.cur s.th 5 = true) : s.halt = (s.depart s.th s.selfTag).vacate s.cur s.slot := by
  have hzero : s.th.allDepsZero = true := Thread.allDepsZero_of_forall fun k => by simp [hdep]
  have hdrained : s.resolved s.cur s.th .drained = true := by simp [State.resolved, hp, hb, hzero]
  have hrelease : s.resolved s.cur s.th (.release 5) = true := hr
  rw [State.halt, State.await_resolved _ hdrained, State.await_resolved _ hrelease]

/-- The tag of a wait decides neither whose the thread is nor which entries are the thread's. -/
theorem retag_kept (t : Thread) (g : Option Tag) :
    ({ t with tag := g } : Thread).ctx = t.ctx ∧ taggedFor { t with tag := g } = taggedFor t := ⟨rfl, rfl⟩

/-- Settles O21: `halt` is `depart`, which changes records and tags, then `vacate`, which empties the slot and discards the entries. -/
theorem halts : Obligations.Halts := by
  intro s k g hs hp hdep hb hr hk hkx hkk hgang hnode hctx hg hgx hgk hgg hj
  obtain ⟨⟨hcur, hslot, hcycle, hmem, hcore, hthread⟩, ⟨k', hk', hlive⟩, g', hg', hpop⟩ :=
    depart_plain hk hkx hkk hgang hnode hg hgx hgk hgg hj s.selfTag
  have he : exec .halt s = issue s ((s.depart s.th s.selfTag).vacate s.cur s.slot) :=
    congrArg (issue s) (State.halt_eq hp hdep hb hr)
  generalize s.depart s.th s.selfTag = u at *
  obtain ⟨t, ht, hx, htag⟩ : ∃ t : Thread, u.threadAt s.cur s.slot = some t ∧ t.ctx = s.th.ctx ∧ taggedFor t = taggedFor s.th := by
    obtain ⟨f, hf⟩ := hthread s.cur s.slot
    exact ⟨_, hf.trans (congrArg (Option.map _) (State.thread_eq_th hs)), retag_kept ..⟩
  obtain ⟨hvmem, hvkernels, hvgroups, hvcur, hvslot⟩ := State.vacate_rest ht
  have hafter : ∀ c, ∃ sl : Vector (Option Thread) 16, (u.vacate s.cur s.slot).core c =
      { (u.core c).dropped s.th.ctx (taggedFor s.th) u.cycle with slots := sl } := by
    rw [← hx, ← htag]
    exact State.core_vacate ht
  have hmail : ∀ c, (s.core c).ctx = some s.th.ctx → ∃ more : List Mail,
      ((u.vacate s.cur s.slot).core c).mailbox = (s.core c).mailbox.filter (fun m => !taggedFor s.th m) ++ more ∧
      ∀ m ∈ more, taggedFor s.th m = false := fun c hc => by
    obtain ⟨sl, hsl⟩ := hafter c
    obtain ⟨sl', hsl'⟩ := hcore c
    obtain ⟨more, hmore, hnot⟩ := CoreState.mailbox_dropped (k := u.core c) (by rw [hsl']; exact hc) (f := taggedFor s.th)
      (fun _ _ => rfl) u.cycle
    exact ⟨more, by rw [hsl, hmore, hsl'], hnot⟩
  refine completes_of_issue hs he ⟨?_, hvmem.trans hmem, ?_, ?_, fun c hc m hm hkey htt => ?_, fun j hne => ?_,
    ⟨k', hvkernels.trans hk', hlive⟩, g', hvgroups.trans hg', hpop⟩
  · rw [State.thread, hvcur, hvslot, hcur, hslot, State.threadAt_vacate ht, if_pos rfl]
  · obtain ⟨sl, hsl⟩ := hafter s.cur
    obtain ⟨sl', hsl'⟩ := hcore s.cur
    obtain ⟨mailbox, held, hframe⟩ := (u.core s.cur).dropped_frame s.th.ctx (taggedFor s.th) u.cycle
    rw [hsl, hframe, hsl']
  · obtain ⟨more, hmore, -⟩ := hmail s.cur hctx
    rw [hmore]
    exact congrArg _ (List.drop_left ..).symm
  · obtain ⟨more, hmore, hnot⟩ := hmail c hc
    have htagged : taggedFor s.th m = true := by simp [taggedFor, hkey, htt]
    rw [hmore, List.mem_append, List.mem_filter, htagged] at hm
    rcases hm with ⟨-, hm⟩ | hm
    · exact nomatch hm
    · rw [hnot m hm] at htagged
      exact nomatch htagged
  · obtain ⟨f, hf⟩ := hthread s.cur j
    rw [State.threadAt_vacate ht, if_neg hne, hf, Option.isSome_map]

end Sys2Proof.Machine
end

section
/-! The values of the scalar integer instructions, as the tables of R112, R114 to R118, R158, R159 and R195 give them. -/

namespace Sys2Proof.Machine

/-! ### Words as integers kept modulo 2⁶⁴ (R21, R111, R112) -/

theorem wrap_toInt (x : Word) : wrap x.toInt = x := BitVec.ofInt_toInt

theorem add_eq_wrap (x y : Word) : x + y = wrap (x.toInt + y.toInt) := by
  rw [wrap, BitVec.ofInt_add, BitVec.ofInt_toInt, BitVec.ofInt_toInt]

theorem sub_eq_wrap (x y : Word) : x - y = wrap (x.toInt - y.toInt) := by
  rw [Int.sub_eq_add_neg, wrap, BitVec.ofInt_add, BitVec.ofInt_neg, BitVec.ofInt_toInt, BitVec.ofInt_toInt, BitVec.sub_eq_add_neg]

theorem mul_eq_wrap (x y : Word) : x * y = wrap (x.toInt * y.toInt) := by
  rw [wrap, BitVec.ofInt_mul, BitVec.ofInt_toInt, BitVec.ofInt_toInt]

/-- R115, R131: an immediate extends its sign. -/
theorem signExtend_eq_wrap {n : Nat} (imm : BitVec n) (h : n ≤ 64) : imm.signExtend 64 = wrap imm.toInt := by
  rw [← BitVec.toInt_signExtend_of_le h, wrap_toInt]

theorem sx22_toInt (imm : BitVec 22) : (sx22 imm).toInt = imm.toInt := BitVec.toInt_signExtend_of_le (by decide)

/-! ### Shifts and fields (R112, R118) -/

theorem shiftLeft_eq_ofNat (x : Word) (n : Nat) : x <<< n = BitVec.ofNat 64 (x.toNat * 2 ^ n) := by
  simp [BitVec.toNat_eq, Nat.shiftLeft_eq]

theorem ushiftRight_eq_ofNat (x : Word) (n : Nat) : x >>> n = BitVec.ofNat 64 (x.toNat / 2 ^ n) := by
  rw [← Nat.shiftRight_eq_div_pow, ← BitVec.toNat_ushiftRight, BitVec.ofNat_toNat, BitVec.setWidth_eq]

theorem sshiftRight_eq_wrap (x : Word) (n : Nat) : x.sshiftRight n = wrap (x.toInt / 2 ^ n) := by
  rw [BitVec.sshiftRight, Int.shiftRight_eq_div_pow, Nat.cast_pow, Nat.cast_ofNat]

/-- A shift to the left multiplies the integer, kept modulo 2⁶⁴. -/
theorem shiftLeft_eq_wrap (x : Word) (n : Nat) : x <<< n = wrap (x.toInt * 2 ^ n) := by
  have hpow : wrap (2 ^ n) = BitVec.twoPow 64 n := by
    rw [← BitVec.toNat_inj, BitVec.toNat_twoPow, BitVec.toNat_ofInt]
    norm_cast
  rw [BitVec.shiftLeft_eq_mul_twoPow, ← hpow, wrap, wrap, BitVec.ofInt_mul, BitVec.ofInt_toInt]

/-- R112: the amount of a shift by a register. -/
theorem bits_shift (y : Word) : bits y 5 0 = y.toNat % 64 := by simp [bits_eq_div_mod]

theorem extractField_eq (x : Word) (pos len1 : Nat) :
    extractField x pos len1 = BitVec.ofNat 64 (x.toNat / 2 ^ pos % 2 ^ (len1 + 1)) := by
  rw [extractField, bits_eq_div_mod, show pos + len1 + 1 - pos = len1 + 1 by omega]

/-- R118: a word with a field replaced is what lies below the field, the new field, and what lies above it. -/
theorem insertField_eq (x y : Word) (pos len1 : Nat) : insertField x y pos len1 = BitVec.ofNat 64 (y.toNat % 2 ^ pos +
    x.toNat % 2 ^ (len1 + 1) * 2 ^ pos + y.toNat / 2 ^ (pos + len1 + 1) * 2 ^ (pos + len1 + 1)) := by
  have hlow := Nat.div_add_mod y.toNat (2 ^ pos)
  have hhigh := Nat.div_add_mod (y.toNat / 2 ^ pos) (2 ^ (len1 + 1))
  have htop : 2 ^ (pos + len1 + 1) = 2 ^ pos * 2 ^ (len1 + 1) := by rw [← Nat.pow_add, Nat.add_assoc]
  rw [insertField, setBits, bits_eq_div_mod, show pos + len1 + 1 - pos = len1 + 1 by omega, Nat.shiftLeft_eq, Nat.shiftLeft_eq]
  rw [Nat.div_div_eq_div_mul, ← htop] at hhigh
  generalize y.toNat / 2 ^ pos % 2 ^ (len1 + 1) = old at *
  have hsplit : y.toNat = old * 2 ^ pos + y.toNat % 2 ^ pos + y.toNat / 2 ^ (pos + len1 + 1) * 2 ^ (pos + len1 + 1) := by
    conv_lhs => rw [← hlow, ← hhigh]
    rw [htop]; ring
  congr 1
  omega

/-! ### Bits counted (R114) -/

theorem leadingZeros_eq (x : Word) (n : Nat) :
    leadingZeros x n = ((List.range n).reverse.takeWhile (fun k => !x.getLsbD k)).length := by
  induction n with
  | zero => rfl
  | succ n ih =>
    rw [List.range_succ, List.reverse_concat, List.takeWhile_cons, leadingZeros]
    cases x.getLsbD n <;> simp [ih, Nat.add_comm]

theorem trailingZeros_eq (x : Word) (n : Nat) : ∀ k,
    trailingZeros x k n = ((List.range' k n).takeWhile (fun k => !x.getLsbD k)).length := by
  induction n with
  | zero => intro k; rfl
  | succ n ih =>
    intro k
    rw [List.range'_succ, List.takeWhile_cons, trailingZeros]
    cases x.getLsbD k <;> simp [ih, Nat.add_comm]

theorem onesIn_eq (x : Word) (n : Nat) : onesIn x n = ((List.range n).filter (fun k => x.getLsbD k)).length := by
  induction n with
  | zero => rfl
  | succ n ih =>
    rw [List.range_succ, List.filter_append, onesIn, ih]
    cases h : x.getLsbD n <;> simp [h, Nat.add_comm]

/-! ### Addresses and segments (R132, R158, R159) -/

/-- R158: the address of `lea`. -/
theorem leaValue_eq (x : BitVec 4) (p q : Word) (off : BitVec 17) :
    p + sx17 off + (if x.getLsbD 2 then q <<< (x.extractLsb' 0 2).toNat else 0) =
      wrap (p.toInt + off.toInt + (if x.getLsbD 2 then q.toInt * 2 ^ (x.toNat % 4) else 0)) := by
  have hscale : (x.extractLsb' 0 2).toNat = x.toNat % 4 := by simp [BitVec.extractLsb'_toNat]
  rw [wrap, BitVec.ofInt_add, BitVec.ofInt_add, BitVec.ofInt_toInt, apply_ite (BitVec.ofInt 64), sx17,
    signExtend_eq_wrap off (by decide), hscale, shiftLeft_eq_wrap]
  rfl

/-- R131: the segment that an address names. -/
theorem segIndex_eq (a : Word) : segIndex a = Fin.ofNat 8 (a.toNat / 2 ^ 61) := by
  apply Fin.ext
  simp [segIndex, Fin.ofNat, Nat.shiftRight_eq_div_pow]

/-- R132: LIMIT of a descriptor. -/
theorem kdLimit_eq (w : Word) : kdLimit w = w.toNat % 2 ^ 57 := by simp [kdLimit, bits_eq_div_mod]

/-- R132: what stands above LIMIT in a descriptor. -/
theorem bits_aboveLimit (w : Word) : bits w 63 57 = w.toNat / 2 ^ 57 := by
  rw [bits_eq_div_mod]; omega

/-- R159: `segq` answers the descriptor with the bytes left in the segment, or the address in its base. -/
theorem segqValue_eq (t : Thread) (q : BitVec 1) (a : Word) : segqValue t q a =
    let k : Fin 8 := Fin.ofNat 8 (a.toNat / 2 ^ 61)
    let off : Nat := a.toNat % 2 ^ 61
    let limit : Nat := (t.kd[k]).toNat % 2 ^ 57
    let left : Nat := if off ≤ limit then min (limit - off + 1) (2 ^ 57 - 1) else 0
    if q = 0 then BitVec.ofNat 64 ((t.kd[k]).toNat / 2 ^ 57 * 2 ^ 57 + left)
    else BitVec.ofNat 64 ((t.kb[k]).toNat + off) := by
  simp only [segqValue, segIndex_eq, kdLimit_eq, bits_aboveLimit, segOffset, BitVec.ofNat_add, BitVec.ofNat_toNat,
    BitVec.setWidth_eq]

/-! ### The integer instructions -/

/-- Two ends of an instruction agree where the values that they write do. -/
theorem issue_setReg_congr (s : State) (d : Field) {v w : Word} (h : v = w) :
    issue s (s.setReg d v).advance = issue s (s.setReg d w).advance := by rw [h]

/-- An integer instruction that returns at once writes the value of its table and goes on. -/
theorem exec_eq_of_intResult {i : Instr} {s : State} {d : Field} {v : Word} (h : intResult i s = some (d, v)) :
    exec i s = issue s (s.setReg d v).advance := by
  have ends {d : Field} {v w : Word} (h : v = w) := issue_setReg_congr s d h
  cases i with
  | add d' a b => cases h; exact ends (add_eq_wrap ..)
  | sub d' a b => cases h; exact ends (sub_eq_wrap ..)
  | mul d' a b => cases h; exact ends (mul_eq_wrap ..)
  | sll d' a b => cases h; exact ends (by simp only [shiftLeft_eq_ofNat, bits_shift])
  | srl d' a b => cases h; exact ends (by simp only [ushiftRight_eq_ofNat, bits_shift])
  | sra d' a b => cases h; exact ends (by simp only [sshiftRight_eq_wrap, bits_shift])
  | minR d' a b => cases h; exact ends (by simp only [min_def, apply_ite wrap, wrap_toInt])
  | maxR d' a b => cases h; exact ends (by simp only [max_def, apply_ite wrap, wrap_toInt])
  | minu d' a b => cases h; exact ends (by simp only [min_def, apply_ite (BitVec.ofNat 64), BitVec.ofNat_toNat, BitVec.setWidth_eq])
  | maxu d' a b => cases h; exact ends (by simp only [max_def, apply_ite (BitVec.ofNat 64), BitVec.ofNat_toNat, BitVec.setWidth_eq])
  | clz d' a => cases h; exact ends (congrArg (BitVec.ofNat 64) (leadingZeros_eq ..))
  | ctz d' a => cases h; exact ends (by simp only [trailingZeros_eq, places, List.range_eq_range'])
  | popc d' a => cases h; exact ends (congrArg (BitVec.ofNat 64) (onesIn_eq ..))
  | addi d' a imm => cases h; exact ends (by simp only [add_eq_wrap, sx22_toInt])
  | slti d' a imm => cases h; exact ends (by simp only [sx22_toInt])
  | slli d' a n => cases h; exact ends (shiftLeft_eq_ofNat ..)
  | srli d' a n => cases h; exact ends (ushiftRight_eq_ofNat ..)
  | srai d' a n => cases h; exact ends (sshiftRight_eq_wrap ..)
  | li d' imm => cases h; exact ends (signExtend_eq_wrap imm (by decide))
  | sel d' a b c => cases h; exact ends (if_congr (not_congr (word_toNat_eq_zero _).symm) rfl rfl)
  | ext d' a pos len1 => cases h; exact ends (extractField_eq ..)
  | ins d' a b pos len1 => cases h; exact ends (insertField_eq ..)
  | lea x d' a b off => cases h; exact ends (leaValue_eq ..)
  | segq q d' a =>
    have hvalue := segqValue_eq s.th q (s.reg a)
    simp only [intResult] at h
    split at h
    case isTrue hq => cases h; exact ends (hvalue.trans (if_pos hq))
    case isFalse hq => cases h; exact ends (hvalue.trans (if_neg hq))
  | _ => cases h <;> rfl

end Sys2Proof.Machine
end

section
/-! The values of the scalar floating-point instructions (R124 to R128): rounding to an integer (R35, R40), the operations on
encodings (R42, R126, R127), the conversions, and the comparison. -/

namespace Sys2Proof.Machine

/-! ### Rounding to an integer (R35, R40) -/

/-- A whole number is itself rounded, in every mode. -/
theorem roundedInt_intCast (rm : Nat) (z : Int) : roundedInt rm (z : ℚ) = z := by
  simp [roundedInt]

/-- A number strictly between two whole ones, rounded. -/
theorem roundedInt_add (rm : Nat) (k : Int) {φ : ℚ} (h0 : 0 < φ) (h1 : φ < 1) : roundedInt rm (k + φ) =
    if rm = 0 then (if φ < 1 / 2 then k else if 1 / 2 < φ then k + 1 else if k % 2 = 0 then k else k + 1)
    else if rm = 1 then (if 0 ≤ k then k else k + 1)
    else if rm = 2 then k else k + 1 := by
  have hfloor : ⌊(k : ℚ) + φ⌋ = k := Int.floor_eq_iff.2 ⟨by linarith, by linarith⟩
  have hceil : ⌈(k : ℚ) + φ⌉ = k + 1 := Int.ceil_eq_iff.2 ⟨by push_cast; linarith, by push_cast; linarith⟩
  have hsign : 0 ≤ (k : ℚ) + φ ↔ 0 ≤ k := by rw [← Int.floor_nonneg, hfloor]
  simp only [roundedInt, hfloor, hceil, hsign, add_sub_cancel_left, gt_iff_lt]

/-- R35: whether the magnitude `q + φ` is rounded away from zero, with `φ` for the `r` of `2^d` left over. -/
theorem roundUp_iff (rm : Nat) (neg : Bool) (q : Nat) {r d : Nat} {φ : ℚ} (h : φ = r / 2 ^ d) : roundUp rm neg q r d = true ↔
    if rm = 0 then 1 / 2 < φ ∨ (φ = 1 / 2 ∧ q % 2 = 1) else if rm = 1 then False
    else if rm = 2 then neg = true ∧ φ ≠ 0 else neg = false ∧ φ ≠ 0 := by
  have hpos : (0 : ℚ) < 2 ^ d := by positivity
  have hlt : 2 ^ d < 2 * r ↔ 1 / 2 < φ := by
    rw [h, lt_div_iff₀ hpos, ← Nat.cast_lt (α := ℚ)]; push_cast
    constructor <;> intro _ <;> linarith
  have heq : 2 * r = 2 ^ d ↔ φ = 1 / 2 := by
    rw [h, div_eq_iff hpos.ne', ← Nat.cast_inj (R := ℚ)]; push_cast
    constructor <;> intro _ <;> linarith
  have hzero : r ≠ 0 ↔ φ ≠ 0 := by simp [h]
  unfold roundUp
  split_ifs <;> simp [hlt, heq, hzero, Nat.testBit_zero]

/-- R35: a magnitude `q + r/2^d` rounded, with its sign, is the signed number rounded. A negative one lies between `-q - 1` and `-q`,
so that rounding its magnitude up takes it to the lower of the two. -/
theorem roundedInt_signed (rm : Nat) (neg : Bool) (q : Nat) {r d : Nat} (hr : r < 2 ^ d) :
    (if neg then -1 else 1 : Int) * (if roundUp rm neg q r d then q + 1 else q : Nat) =
      roundedInt rm ((if neg then -1 else 1) * (q + r / 2 ^ d)) := by
  have hpos : (0 : ℚ) < 2 ^ d := by positivity
  have hup := roundUp_iff rm neg q (r := r) (d := d) rfl
  have h0 : (0 : ℚ) ≤ r / 2 ^ d := by positivity
  have h1 : (r / 2 ^ d : ℚ) < 1 := by rw [div_lt_one hpos]; exact_mod_cast hr
  generalize (r / 2 ^ d : ℚ) = φ at *
  rcases h0.eq_or_lt with rfl | h0
  · have hwhole : ((if neg then -1 else 1) * (q + 0) : ℚ) = (((if neg then -1 else 1) * q : Int) : ℚ) := by
      cases neg <;> simp
    have hexact : roundUp rm neg q r d = false := by
      rw [← Bool.not_eq_true, hup]; split_ifs <;> norm_num
    rw [hwhole, roundedInt_intCast, hexact]; simp
  · have hne := h0.ne'
    cases neg with
    | false =>
      have hx : ((if false = true then -1 else 1) * (q + φ) : ℚ) = ((q : Int) : ℚ) + φ := by simp
      rw [hx, roundedInt_add rm q h0 h1, if_congr hup rfl rfl]
      grind
    | true =>
      have hx : ((if true = true then -1 else 1) * (q + φ) : ℚ) = ((-q - 1 : Int) : ℚ) + (1 - φ) := by push_cast; simp; ring
      have hlow : 1 - φ < 1 / 2 ↔ 1 / 2 < φ := by constructor <;> intro _ <;> linarith
      have hhigh : 1 / 2 < 1 - φ ↔ φ < 1 / 2 := by constructor <;> intro _ <;> linarith
      rw [hx, roundedInt_add rm _ (by linarith) (by linarith), if_congr hup rfl rfl]
      simp only [hlow, hhigh]
      grind

/-- R40: a finite value rounded to an integer. -/
theorem roundInt_eq (rm : Nat) (neg : Bool) (m : Nat) (e : Int) : roundInt rm neg m e = roundedInt rm (FVal.fin neg m e).rat := by
  have hsign (k : Int) : (if neg then -k else k) = (if neg then -1 else 1) * k := by cases neg <;> simp
  simp only [roundInt, FVal.rat, ge_iff_le]
  rw [hsign]
  by_cases he : 0 ≤ e
  · have hwhole : ((if neg then -1 else 1) * m * 2 ^ e : ℚ) = (((if neg then -1 else 1) * (m <<< e.toNat : Nat) : Int) : ℚ) := by
      rw [Nat.shiftLeft_eq]
      conv_lhs => rw [← Int.toNat_of_nonneg he, zpow_natCast]
      push_cast
      rw [mul_assoc]
    rw [hwhole, roundedInt_intCast, if_pos he]
  · have hfrac : ((if neg then -1 else 1) * m * 2 ^ e : ℚ) =
        (if neg then -1 else 1) * ((m >>> (-e).toNat : Nat) + (m % 2 ^ (-e).toNat : Nat) / 2 ^ (-e).toNat) := by
      have hdiv : (2 ^ (-e).toNat * (m >>> (-e).toNat : Nat) + (m % 2 ^ (-e).toNat : Nat) : ℚ) = m := by
        rw [Nat.shiftRight_eq_div_pow]; exact_mod_cast Nat.div_add_mod m (2 ^ (-e).toNat)
      have hinv : (2 : ℚ) ^ e = ((2 : ℚ) ^ (-e).toNat)⁻¹ := by
        rw [← zpow_natCast, Int.toNat_of_nonneg (by omega), zpow_neg, inv_inv]
      rw [hinv, ← hdiv]
      field_simp
    rw [hfrac, ← roundedInt_signed rm neg _ (Nat.mod_lt _ (by positivity)), if_neg he]

/-- R40: a value as an integer of a range. -/
theorem toInteger_eq (rm : Nat) (sat : Bool) (lo hi indef : Int) (v : FVal) :
    toInteger rm sat lo hi indef v = intoRange lo hi indef rm sat v := by
  cases v with
  | nan => rfl
  | inf s => rfl
  | fin s m e =>
    simp only [toInteger, intoRange, roundInt_eq]
    generalize roundedInt rm (FVal.fin s m e).rat = k
    by_cases hlo : k < lo
    · simp [hlo, not_le.2 hlo]
    · by_cases hhi : hi < k
      · simp [hlo, hhi, not_le.2 hhi]
      · simp [hlo, hhi, not_lt.1 hlo, not_lt.1 hhi]

/-- R128: `fcvt` gives what its table says. -/
theorem fcvtValue_eq {x : Nat} (h : x < 16) (rm : Nat) (sat : Bool) (a : Word) : fcvtValue x rm sat a = converted x rm sat a := by
  have toI (n : Nat) (v : FVal) : BitVec.ofInt 64 (toInteger rm sat (-2 ^ (n - 1)) (2 ^ (n - 1) - 1) (-2 ^ (n - 1)) v) =
      asInteger n rm sat v := congrArg _ (toInteger_eq ..)
  match x, h with
  | 0, _ => rfl
  | 1, _ => rfl
  | 2, _ => exact toI 64 _
  | 3, _ => exact toI 64 _
  | 4, _ => rfl
  | 5, _ => rfl
  | 6, _ => exact toI 32 _
  | 7, _ => exact toI 32 _
  | 8, _ => rfl
  | 9, _ => rfl
  | 10, _ => rfl
  | 11, _ => rfl
  | 12, _ => rfl
  | 13, _ => rfl
  | 14, _ => rfl
  | 15, _ => rfl
  | _ + 16, h => omega

/-! ### Operations on encodings (R42, R126, R127) -/

/-- R126: the class of an encoding, in a format with infinities, by its fields. -/
theorem classify_eq (f : Fmt) (hinf : f.noInf = false) (hexp : 0 < f.exp) (w : Nat) : f.classify w = 2 ^ classBit f w := by
  have hmax : 2 ^ f.exp - 1 ≠ 0 := by have := Nat.one_lt_two_pow hexp.ne'; omega
  simp only [Fmt.classify, Fmt.decode, classBit, hinf, Nat.shiftRight_eq_div_pow]
  generalize w / 2 ^ f.frac % 2 ^ f.exp = e
  generalize w.testBit (f.exp + f.frac) = s
  by_cases hzero : e = 0
  · subst hzero
    by_cases hm : w % 2 ^ f.frac = 0 <;> cases s <;> simp [hmax.symm, hm]
  · by_cases htop : e = 2 ^ f.exp - 1
    · by_cases hm : w % 2 ^ f.frac = 0 <;> cases s <;> simp [hzero, ← htop, hm]
    · cases s <;> simp [hzero, htop]

/-- R23, R124: the two scalar formats have infinities and an exponent. -/
theorem scalarFmt_fields (f : BitVec 1) : (scalarFmt f).noInf = false ∧ 0 < (scalarFmt f).exp := by
  unfold scalarFmt; split <;> decide

/-- R127: the exponent and fraction of an encoding with the sign that `op` chooses. -/
theorem signOp_eq (f : Fmt) (op : BitVec 3) (a b : Nat) : f.signOp op.toNat a b =
    let n := f.exp + f.frac
    let s := if op = 0 then b.testBit n else if op = 1 then !b.testBit n else a.testBit n != b.testBit n
    a % 2 ^ n + (if s then 2 ^ n else 0) := by
  have h0 : op.toNat = 0 ↔ op = 0 := by rw [← BitVec.toNat_inj]; rfl
  have h1 : op.toNat = 1 ↔ op = 1 := by rw [← BitVec.toNat_inj]; rfl
  simp only [Fmt.signOp, Fmt.signBit, h0, h1]

/-- R42: the smaller or the larger of two registers' operands. -/
theorem pick_low (F : Fmt) (larger : Bool) (v w : Word) : F.pick larger (F.low v) (F.low w) =
    let x := F.decode (F.low v)
    let y := F.decode (F.low w)
    if x.isNan || y.isNan then F.nanBits else if (if larger then y.below x else x.below y) then F.low v else F.low w := by
  have hmod (u : Word) : F.low u % 2 ^ (F.exp + F.frac + 1) = F.low u := Nat.mod_mod ..
  rw [Fmt.pick, hmod, hmod]

/-! ### The floating-point instructions -/

/-- A floating-point instruction that returns at once writes the value of its table and goes on. -/
theorem exec_eq_of_floatResult {i : Instr} {s : State} {d : Field} {v : Word} (h : floatResult i s = some (d, v)) :
    exec i s = issue s (s.setReg d v).advance := by
  have ends {d : Field} {v w : Nat} (h : v = w) := issue_setReg_congr s d (congrArg (BitVec.ofNat 64) h)
  cases i with
  | fmin f d' a b => cases h; exact ends (pick_low _ false ..)
  | fmax f d' a b => cases h; exact ends (pick_low _ true ..)
  | fclass f d' a =>
    obtain ⟨hinf, hexp⟩ := scalarFmt_fields f
    cases h; exact ends (classify_eq _ hinf hexp _)
  | fsgn op f d' a b => cases h; exact ends (signOp_eq ..)
  | fcvt x d' a => cases h; exact issue_setReg_congr s d (fcvtValue_eq x.isLt ..)
  | _ => cases h <;> rfl

/-- R125: the four outcomes of a comparison. -/
theorem State.fcompare_eq (s : State) (f : BitVec 1) (a b : Field) :
    let x := fvalue f (s.reg a)
    let y := fvalue f (s.reg b)
    let un := x.isNan || y.isNan
    s.fcompare f a b = ⟨!un && x.lt y, !un && !x.lt y && !y.lt x, !un && y.lt x, un⟩ := by
  intro x y un
  show FVal.compare x y = _
  unfold FVal.compare
  split
  case isTrue h => simp [un, h]
  case isFalse h => simp [un, h]

/-- An instruction that sets STAT and writes one destination goes on. -/
theorem ended_stat (s : State) (w : Word) (d : Field) (v : Word) :
    Ended s { s.th with stat := w } d v s.nextPc ((s.setTh { s.th with stat := w }).setReg d v).advance :=
  ended_advance s { s.th with stat := w } d v rfl

/-- R86, R125: a comparison writes its outcomes to STAT.CF, then whether its predicate holds to its destination. -/
theorem completes_fcmp {s : State} (hs : s.thread.isSome = true) (p : BitVec 3) (f : BitVec 1) (d a b : Field) :
    Completes (.fcmp p f d a b) s (Ended s { s.th with stat := setCF s.th.stat (s.fcompare f a b).flags } d
      (if (s.fcompare f a b).test p.toNat then 1 else 0) s.nextPc) :=
  completes_of_issue hs rfl (ended_stat s _ d _)

end Sys2Proof.Machine
end

section
/-! The scalar instructions (R112 to R121, R124 to R128, R158, R159, R195): what each writes, and where it goes on. -/

namespace Sys2Proof.Machine

/-- Settles O1: an instruction that returns at once writes the value of its table; one that returns late leaves that value outstanding;
a comparison writes its four outcomes to STAT, then its destination. -/
theorem scalarResults : Obligations.ScalarResults := by
  refine ⟨fun i s d v hs h => ?_, fun i s d v hs h => ?_, fun i s d v hs h => ?_, ?_⟩
  · exact completes_of_issue hs (exec_eq_of_intResult h) (ended_setReg s d v hs)
  · have he : exec i s = issue s (s.late d v) := h.elim exec_of_divResult exec_of_lateFloat
    exact completes_of_issue hs he (passed_late s d v)
  · exact completes_of_issue hs (exec_eq_of_floatResult h) (ended_setReg s d v hs)
  · intro s p f d a b hs x y un lt gt eq v
    have hcompare : s.fcompare f a b = ⟨lt, eq, gt, un⟩ := s.fcompare_eq f a b
    have hend := completes_fcmp hs p f d a b
    rw [hcompare] at hend
    exact hend

/-- Settles O3: every branch and jump ends with the thread finished at the new PC and its link register written. -/
theorem transfers : Obligations.Transfers := by
  intro i s d v pc hs h
  obtain ⟨held, he⟩ := exec_of_transfer h
  exact completes_of_issue hs he (ended_reg s d v pc held hs)

end Sys2Proof.Machine
end

section
/-! Canonical memory (R138, R161): the places that write device memory are `homePut`, `firmPut`, the clearing of lines and of a share, and
the far packages' `remoteStore`; each keeps both memories well formed. Every other function of the model leaves them as they are or
calls these, so that each has one lemma, `State.MemOk.f` for `f`, composed as `f` is. This unit: a core's operations. -/

namespace Sys2Proof.Machine

theorem State.MemOk.ite {c : Prop} [Decidable c] {s t : State} (hs : s.MemOk) (ht : t.MemOk) : (if c then s else t).MemOk := by
  split
  · exact hs
  · exact ht
theorem State.MemOk.ite_fst {β : Type} {c : Prop} [Decidable c] {p q : State × β} (hp : p.1.MemOk) (hq : q.1.MemOk) :
    (if c then p else q).1.MemOk := by
  split
  · exact hp
  · exact hq
theorem State.MemOk.congr {s t : State} (hs : s.MemOk) (hm : t.mem = s.mem) (hr : t.rmem = s.rmem) : t.MemOk := by
  unfold State.MemOk
  rw [hm, hr]
  exact hs
theorem State.MemOk.foldl {α : Type} {f : State → α → State} {l : List α} {s : State} (hs : s.MemOk)
    (hf : ∀ t a, t.MemOk → (f t a).MemOk) : (l.foldl f s).MemOk :=
  List.foldlRecOn l f hs fun t ht a _ => hf t a ht
theorem State.MemOk.foldl_fst {α β : Type} {f : State × β → α → State × β} {l : List α} {p : State × β} (hp : p.1.MemOk)
    (hf : ∀ q a, q.1.MemOk → (f q a).1.MemOk) : (l.foldl f p).1.MemOk :=
  List.foldlRecOn (motive := fun q : State × β => q.1.MemOk) l f hp fun q hq a _ => hf q a hq

variable {s : State}

/-! ### Machine/Ops -/

theorem State.MemOk.setCore {c : Nat} {k : CoreState} (hs : s.MemOk) : (s.setCore c k).MemOk := hs
theorem State.MemOk.setCluster {n : Nat} {k : Cluster} (hs : s.MemOk) : (s.setCluster n k).MemOk := hs
theorem State.MemOk.setContext {x : Nat} {c : Context} (hs : s.MemOk) : (s.setContext x c).MemOk := hs
theorem State.MemOk.setSlot {c : Nat} {i : Fin 16} {t : Option Thread} (hs : s.MemOk) : (s.setSlot c i t).MemOk := hs.setCore
theorem State.MemOk.setTh {t : Thread} (hs : s.MemOk) : (s.setTh t).MemOk := hs.setSlot
theorem State.MemOk.logged {source port : Nat} {data : List Byte} (hs : s.MemOk) : (s.logged source port data).MemOk := .ite hs hs
theorem State.MemOk.putReg {c : Nat} {i : Fin 16} {f : Field} {v : Word} (hs : s.MemOk) : (s.putReg c i f v).MemOk := by
  unfold State.putReg
  dsimp only
  refine .ite (.ite hs hs.setCore) ?_
  split
  exacts [hs.setSlot, hs]
theorem State.MemOk.setReg {f : Field} {v : Word} (hs : s.MemOk) : (s.setReg f v).MemOk := hs.putReg
theorem State.MemOk.advance (hs : s.MemOk) : s.advance.MemOk := hs.setTh
theorem State.MemOk.jump {pc : Word} (hs : s.MemOk) : (s.jump pc).MemOk := hs.setTh
theorem State.MemOk.park {w : Wait} (hs : s.MemOk) : (s.park w).MemOk := hs.setTh
theorem State.MemOk.parkBefore {w : Wait} (hs : s.MemOk) : (s.parkBefore w).MemOk := hs.setTh
theorem State.MemOk.takeTrap {c : Nat} {i : Fin 16} {f : FaultInfo} (hs : s.MemOk) : (s.takeTrap c i f).MemOk := by
  unfold State.takeTrap
  split
  exacts [hs.setSlot, hs]
theorem State.MemOk.trap {kind : Nat} (hs : s.MemOk) : (s.trap kind).MemOk := hs.takeTrap
theorem State.MemOk.trapAt {kind : Nat} {ea : Word} {access : Nat} (hs : s.MemOk) : (s.trapAt kind ea access).MemOk := hs.takeTrap

/-! ### Machine/Paging -/

theorem State.MemOk.homePut {x : Nat} {h : Home} {bs : List Byte} (hs : s.MemOk) : (s.homePut x h bs).MemOk := by
  obtain ⟨hm, hr⟩ := hs
  unfold State.homePut
  split
  · exact ⟨hm, Memory.wf_put bs _ _ hr⟩
  · exact ⟨Memory.wf_put bs _ _ hm, hr⟩
theorem State.MemOk.firmPut {pa : Nat} {bs : List Byte} (hs : s.MemOk) : (s.firmPut pa bs).MemOk :=
  ⟨Memory.wf_put bs _ _ hs.1, hs.2⟩
theorem State.MemOk.homeWrite {x : Nat} {h : Home} {n v : Nat} (hs : s.MemOk) : (s.homeWrite x h n v).MemOk := hs.homePut
theorem State.MemOk.meetEcc {h : Home} {n : Nat} (hs : s.MemOk) : (s.meetEcc h n).MemOk := by
  unfold State.meetEcc
  split
  all_goals exact hs
theorem State.MemOk.agentMeets {x dva n : Nat} (hs : s.MemOk) : (s.agentMeets x dva n).MemOk := by
  unfold State.agentMeets
  refine .ite hs ?_
  exact .foldl hs fun _ _ ht => .ite ht (by split; exacts [ht.meetEcc, ht])
theorem State.MemOk.walkMeets {cl x dva : Nat} (hs : s.MemOk) :
    (s.walkMeets cl x dva).MemOk := .ite hs (.foldl hs fun _ _ ht => ht.meetEcc)
theorem State.MemOk.mapThreads {f : Thread → Thread} (hs : s.MemOk) : (s.mapThreads f).MemOk := hs
theorem State.MemOk.answerZeros {tag : Option Tag} (hs : s.MemOk) : (s.answerZeros tag).MemOk := .ite hs.mapThreads hs
theorem State.MemOk.answerJoins {h : Home} {tag : Tag} (hs : s.MemOk) : (s.answerJoins h tag).MemOk := hs.mapThreads
theorem State.MemOk.updateAt {x : Nat} {h : Home} {o : UpdateKind} (hs : s.MemOk) : (s.updateAt x h o).MemOk := by
  unfold State.updateAt
  split
  exacts [hs.homeWrite, hs.homeWrite, .ite hs.homeWrite.answerJoins hs.homeWrite]
theorem State.MemOk.update {u : Update} (hs : s.MemOk) : (s.update u).MemOk := by
  unfold State.update
  refine .ite hs ?_
  split
  exacts [hs.updateAt, hs, hs]
theorem State.MemOk.retryUpdates (hs : s.MemOk) : s.retryUpdates.MemOk := .foldl hs fun _ _ ht => ht.update
theorem State.MemOk.agentWrite {x dva n v : Nat} (hs : s.MemOk) : (s.agentWrite x dva n v).MemOk := hs.update
theorem State.MemOk.signal {x dva code : Nat} (hs : s.MemOk) : (s.signal x dva code).MemOk := .ite hs hs.update
theorem State.MemOk.agentPut {x dva : Nat} {l : List Word} (hs : s.MemOk) : (s.agentPut x dva l).MemOk := by
  induction l generalizing s dva with
  | nil => exact hs
  | cons w r ih => exact ih hs.agentWrite

/-! ### Machine/Trace -/

theorem State.MemOk.putHead {x : Nat} {ss : Session} {v : Nat} (hs : s.MemOk) :
    (s.putHead x ss v).MemOk := hs.setContext.agentWrite
theorem State.MemOk.append {x : Nat} {ws : List Word} {last : Bool} (hs : s.MemOk) : (s.append x ws last).1.MemOk := by
  unfold State.append
  dsimp only
  split
  · exact hs
  · exact .ite_fst hs.agentPut.putHead hs.putHead
theorem State.MemOk.appendIf {x : Nat} {k : Option Nat} {w0 w1 w2 w3 : Word} (hs : s.MemOk) :
    (s.appendIf x k w0 w1 w2 w3).MemOk :=
  .ite hs.append hs
theorem State.MemOk.edge {c : Nat} {i : Fin 16} {since : Nat} {tag : Option Tag} (hs : s.MemOk) :
    (s.edge c i since tag).MemOk := by
  unfold State.edge
  dsimp only
  split
  · exact hs
  · split
    exacts [.ite_fst hs.append hs, .setSlot (by exact .ite_fst hs.append hs)]
theorem State.MemOk.waited {w : Wait} {tag : Option Tag} (hs : s.MemOk) : (s.waited w tag).MemOk := by
  unfold State.waited
  split
  exacts [.ite hs.edge hs, hs]

/-! ### Machine/Waits -/

theorem State.MemOk.setKernel {k : Kernel} (hs : s.MemOk) : (s.setKernel k).MemOk := hs
theorem State.MemOk.setGroup {g : Group} (hs : s.MemOk) : (s.setGroup g).MemOk := hs
theorem State.MemOk.acquireAt {c : Nat} (hs : s.MemOk) : (s.acquireAt c).MemOk := hs.setCluster
theorem State.MemOk.acquireFor {c uid : Nat} (hs : s.MemOk) : (s.acquireFor c uid).MemOk := hs.setCluster
theorem State.MemOk.acquire (hs : s.MemOk) : s.acquire.MemOk := hs.acquireFor
theorem State.MemOk.setCoreFor {x c : Nat} {k : CoreState} (hs : s.MemOk) : (s.setCoreFor x c k).MemOk :=
  .ite hs.setContext (.ite hs.setCore hs)
theorem State.MemOk.leaveQueues {c uid : Nat} (hs : s.MemOk) : (s.leaveQueues c uid).MemOk := hs
theorem State.MemOk.await {w : Wait} {k : State → State} (hs : s.MemOk) (hk : ∀ t, t.MemOk → (k t).MemOk) : (s.await w k).MemOk :=
  .ite (hk _ hs) hs.park
theorem State.MemOk.sync {y : BitVec 12} {k : State → State} (hs : s.MemOk) (hk : ∀ t, t.MemOk → (k t).MemOk) :
    (s.sync y k).MemOk :=
  .ite (hk _ hs) (.ite hs.parkBefore (.ite hs.parkBefore (hk _ hs)))
theorem State.MemOk.issueSync {y : BitVec 12} (hs : s.MemOk) : (s.issueSync y).MemOk := hs.setTh
theorem State.MemOk.complete {y : BitVec 12} (hs : s.MemOk) : (s.complete y).MemOk := hs.setTh.advance
theorem State.MemOk.stage {n : Nat} (hs : s.MemOk) : (s.stage n).MemOk := hs.setTh

/-! ### Machine/Debug -/

theorem State.MemOk.stopCore {c slot cause : Nat} {pc addr : Word} (hs : s.MemOk) : (s.stopCore c slot cause pc addr).MemOk := by
  unfold State.stopCore
  dsimp only
  split
  exacts [hs.setCore.appendIf, hs.setCore]
theorem State.MemOk.watch {ea : Word} {k : Nat} {write : Bool} (hs : s.MemOk) : (s.watch ea k write).MemOk :=
  .ite hs (.ite hs.stopCore (.ite hs.stopCore hs))
theorem State.MemOk.watchBoth {ea : Word} {k : Nat} (hs : s.MemOk) : (s.watchBoth ea k).MemOk := hs.watch.watch
theorem State.MemOk.bump {c : Nat} {k : Fin 4} {ev : BitVec 8} {n : Nat} (hs : s.MemOk) : (s.bump c k ev n).MemOk := by
  unfold State.bump
  dsimp only
  split
  exacts [hs.setCore.appendIf, hs.setCore]
theorem State.MemOk.count {c ev n : Nat} (hs : s.MemOk) : (s.count c ev n).MemOk := hs
theorem State.MemOk.payOwed (hs : s.MemOk) : s.payOwed.MemOk := .foldl hs fun _ _ ht => ht.bump

/-! ### Machine/Scalar -/

theorem State.MemOk.alu2 {d a b : Field} {f : Word → Word → Word} (hs : s.MemOk) : (s.alu2 d a b f).MemOk := hs.setReg.advance
theorem State.MemOk.alu1 {d a : Field} {f : Word → Word} (hs : s.MemOk) : (s.alu1 d a f).MemOk := hs.setReg.advance
theorem State.MemOk.late {d : Field} {v : Word} (hs : s.MemOk) : (s.late d v).MemOk := hs.setTh.advance
theorem State.MemOk.branch {taken : Bool} {idx : Field} {off : BitVec 17} (hs : s.MemOk) : (s.branch taken idx off).MemOk :=
  .ite hs.jump hs.advance

/-! ### Machine/Access -/

theorem State.MemOk.updThread {uid : Nat} {f : Thread → Thread} (hs : s.MemOk) : (s.updThread uid f).MemOk := hs
theorem State.MemOk.freeWord (hs : s.MemOk) : (s.freeWord).1.MemOk := hs
theorem State.MemOk.choose (hs : s.MemOk) : (s.choose).1.MemOk := hs
theorem State.MemOk.lsRead {off n : Nat} (hs : s.MemOk) : (s.lsRead off n).1.MemOk := .ite_fst hs.freeWord hs
theorem State.MemOk.lsWrite {off n v : Nat} (hs : s.MemOk) : (s.lsWrite off n v).MemOk := hs.setCore
theorem State.MemOk.needPage {ea : Word} {dva : Nat} {write : Bool} {access : Nat} {k : Home → State} (hs : s.MemOk)
    (hk : ∀ h, (k h).MemOk) : (s.needPage ea dva write access k).MemOk := by
  unfold State.needPage
  split
  exacts [hk _, hs.setTh.park]
theorem State.MemOk.needHome {ea : Word} {dva : Nat} {write : Bool} {access : Nat} {k : Home → State} (hs : s.MemOk)
    (hk : ∀ h, (k h).MemOk) : (s.needHome ea dva write access k).MemOk :=
  .needPage hs (fun _ => .ite (hk _) hs.setTh.park)
theorem State.MemOk.inLane {h : Home} {n : Nat} {k : State → State} (hs : s.MemOk) (hk : ∀ t, t.MemOk → (k t).MemOk) :
    (s.inLane h n k).MemOk :=
  .await hs hk
theorem State.MemOk.finishLoad {d : ResultDst} {vals : List (Nat × Word)} {missing : Nat} {dep : Option (Fin 8)} {acq : Bool}
    {bank : Option Nat} (hs : s.MemOk) : (s.finishLoad d vals missing dep acq bank).MemOk :=
  .setTh (.ite hs.acquire hs)
theorem State.MemOk.send {a : Access} (hs : s.MemOk) : (s.send a).MemOk := hs
theorem State.MemOk.post {dst : Nat} {body : MsgBody} (hs : s.MemOk) : (s.post dst body).MemOk := hs
theorem State.MemOk.migrateFor {c : Nat} {ea : Word} {access : Nat} (hs : s.MemOk) : (s.migrateFor c ea access).MemOk :=
  .ite hs.trapAt hs.setTh.park
theorem State.MemOk.atomic {n : Nat} {d : Field} {ea b c : Word} {os : Field} {op : AmoOp} {y : BitVec 12} (hs : s.MemOk) :
    (s.atomic n d ea b c os op y).MemOk := by
  unfold State.atomic
  extract_lets acq dep
  refine .ite (.ite hs.finishLoad (.ite hs.trapAt hs.park)) ?_
  split
  · exact hs.trapAt
  · extract_lets go
    have hgo : ∀ u, u.MemOk → (go u).MemOk := fun u hu => by
      unfold go
      split
      · exact .needPage hu fun _ => hu.watchBoth.send.finishLoad
      · exact .ite (.finishLoad (.watchBoth hu)) hu.watchBoth.post.stage.park
    exact .ite hs.trapAt (.ite (.await hs.issueSync hgo) (hgo _ hs.issueSync))
theorem State.MemOk.load {n : Nat} {signed : Bool} {d : Field} {ea0 : Word} {os : Field} (hs : s.MemOk) :
    (s.load n signed d ea0 os).MemOk := by
  unfold State.load
  dsimp only
  split
  · exact hs.trapAt
  · exact .ite hs.migrateFor hs.lsRead.watch.finishLoad
  · refine .needPage hs fun _ => ?_
    split
    · exact hs.watch.choose.finishLoad
    · exact .finishLoad (.send (.ite hs.watch.choose hs.watch))
theorem State.MemOk.store {n : Nat} {ea v : Word} {os : Field} (hs : s.MemOk) : (s.store n ea v os).MemOk := by
  unfold State.store
  refine .ite (.ite hs.advance (.ite hs.trapAt hs.park)) ?_
  split
  · exact hs.trapAt
  · extract_lets go
    have hgo : ∀ u, u.MemOk → (go u).MemOk := fun u hu => by
      unfold go
      split
      · exact .needPage hu fun _ => hu.watch.send.advance
      · exact .ite hu.lsWrite.watch.advance hu.watch.post.stage.park
    exact .ite hs.trapAt (.ite (.await hs hgo) (hgo _ hs))
theorem State.MemOk.feAccess {op : FeOp} {o : Nat} {v : BitVec 32} {d : Field} {signed : Bool} {ea : Word} (hs : s.MemOk) :
    (s.feAccess op o v d signed ea).MemOk := by
  unfold State.feAccess
  dsimp only
  split
  · split
    exacts [hs.waited.advance, hs.waited.finishLoad]
  · refine .ite hs.watch.setTh.park ?_
    split
    exacts [hs.watch.lsWrite.setCore.advance, hs.watch.lsRead.setCore.finishLoad, hs.watch.lsRead.finishLoad]
theorem State.MemOk.fullEmpty {op : FeOp} {ea0 : Word} {v : Word} {d : Field} {signed : Bool} {os : Field} (hs : s.MemOk) :
    (s.fullEmpty op ea0 v d signed os).MemOk := by
  unfold State.fullEmpty
  dsimp only
  split
  exacts [hs.trapAt, hs.trapAt, .ite hs.migrateFor (.ite hs.trapAt (.ite (.await hs (fun _ ht => ht.feAccess)) hs.feAccess))]
theorem State.MemOk.feRound {c w : Nat} (hs : s.MemOk) : (s.feRound c w).1.MemOk := by
  unfold State.feRound
  dsimp only
  refine .ite_fst hs.setCore ?_
  refine .ite_fst (.foldl hs.setCore fun _ _ ht => ht.takeTrap) ?_
  split
  · split
    all_goals exact hs.setCore
  · exact hs.setCore
theorem State.MemOk.feExpire {c : Nat} {i : Fin 16} (hs : s.MemOk) : (s.feExpire c i).MemOk := by
  unfold State.feExpire
  split
  exacts [.ite hs.takeTrap hs, hs]
theorem State.MemOk.feRecheck {c w : Nat} (hs : s.MemOk) : (s.feRecheck c w).MemOk :=
  .ite hs (.foldl hs.feRound.setCore.count fun _ _ ht => ht.feExpire)

/-! ### Machine/ScalarFloat -/

theorem State.MemOk.setStatWord {w : Word} (hs : s.MemOk) : (s.setStatWord w).MemOk := hs.setTh

/-! ### Machine/Memory -/

theorem State.MemOk.feset {full : Bool} {ea0 : Word} (hs : s.MemOk) : (s.feset full ea0).MemOk := by
  unfold State.feset
  dsimp only
  split
  exacts [hs.trapAt, hs.trapAt, .ite hs.migrateFor (.ite hs.trapAt hs.setCore.watch.advance)]
theorem State.MemOk.dropOlder {a : Access} {h : Home} (hs : s.MemOk) : (s.dropOlder a h).MemOk := .ite hs hs
theorem State.MemOk.performAt {a : Access} (hs : s.MemOk) : (s.performAt a).MemOk := by
  unfold State.performAt
  extract_lets h old s1 s2 s3 s4 r
  have h2 : s2.MemOk := .ite hs.dropOlder.logged hs.dropOlder
  have h3 : s3.MemOk := by
    unfold s3
    split
    · exact h2
    · exact h2.homeWrite.answerZeros
    · split
      exacts [h2.homeWrite.answerZeros, h2]
  have h4 : s4.MemOk := by
    unfold s4
    split
    exacts [h3.updThread, h3.updThread, h3]
  split
  exacts [.ite h4.choose.setCluster h4.choose, h4]
theorem State.MemOk.ownAtomic {a : OwnAtomic} (hs : s.MemOk) : (s.ownAtomic a).MemOk := by
  unfold State.ownAtomic
  exact .updThread (by split; exacts [hs.setCoreFor, hs])
theorem State.MemOk.putBank {x c : Nat} {n : BitVec 4} {v : Word} (hs : s.MemOk) :
    (s.putBank x c n v).MemOk := .ite hs hs.setCoreFor
theorem State.MemOk.land {c : Nat} {i : Fin 16} {k : Nat} (hs : s.MemOk) : (s.land c i k).MemOk := by
  unfold State.land
  dsimp only
  split
  · exact hs
  · split
    · exact hs
    · refine .ite hs ?_
      split
      · split
        exacts [.putBank (.setSlot (.ite hs.acquireAt hs)), .putReg (.setSlot (.ite hs.acquireAt hs))]
      · exact .setSlot (.ite hs.acquireAt hs)
theorem State.MemOk.atInterface {k : Nat} {m : Msg} {f : State → State} (hs : s.MemOk) (hf : ∀ t, t.MemOk → (f t).MemOk) :
    (s.atInterface k m f).MemOk :=
  .ite hs (hf _ hs)
theorem State.MemOk.reply {m : Msg} {body : MsgBody} (hs : s.MemOk) : (s.reply m body).MemOk := hs
theorem State.MemOk.serve {m : Msg} (hs : s.MemOk) : (s.serve m).MemOk := by
  unfold State.serve
  split
  exacts [.ite hs.setCoreFor.reply hs.reply, .ite hs.setCoreFor.reply hs.reply, hs]
theorem State.MemOk.fill {cl x dva : Nat} {up : List (Nat × Word)} {leaf : Option (Nat × Word)} (hs : s.MemOk) :
    (s.fill cl x dva up leaf).MemOk :=
  hs.setCluster
theorem State.MemOk.walkDone {c : Nat} {i : Fin 16} (hs : s.MemOk) : (s.walkDone c i).MemOk := by
  unfold State.walkDone
  dsimp only
  split
  · exact hs
  · split
    · exact hs
    · split
      · exact .ite hs.walkMeets.fill.leaveQueues.takeTrap hs.walkMeets.fill.setSlot
      · exact hs.walkMeets.fill
      · exact hs.walkMeets.fill.leaveQueues.takeTrap

end Sys2Proof.Machine
end

section
/-! Canonical memory (R161): vectors, special functions and the tile unit. -/

namespace Sys2Proof.Machine

variable {s : State}

/-! ### Machine/Claim -/

theorem State.MemOk.renegotiate {c : Nat} {i : Fin 16} {req : Nat} (hs : s.MemOk) : (s.renegotiate c i req).MemOk := by
  unfold State.renegotiate
  split
  exacts [hs.setSlot, hs]
theorem State.MemOk.claimTo {req : Nat} {d : Field} (hs : s.MemOk) :
    (s.claimTo req d).MemOk := hs.setTh.renegotiate.setReg.advance

/-! ### Machine/Vector -/

theorem State.MemOk.vfinish {four : Bool} {ws : VWrites} (hs : s.MemOk) : (s.vfinish four ws).MemOk := hs.setTh
theorem State.MemOk.vbin {x : BitVec 4} {d a b : Field} {four : Bool} {f : BitVec 32 → BitVec 32 → BitVec 32}
    {g : Word → Word → Word} (hs : s.MemOk) : (s.vbin x d a b four f g).MemOk :=
  .ite hs.vfinish hs.vfinish
theorem State.MemOk.vfloat {x : BitVec 4} {d a b : Field} {four : Bool} {op : Fmt → Nat → Bool → Nat → Nat → Nat} (hs : s.MemOk) :
    (s.vfloat x d a b four op).MemOk :=
  hs.vbin
theorem State.MemOk.pfinish {p : Fin 4} {f : Nat → Bool} (hs : s.MemOk) : (s.pfinish p f).MemOk := hs.setTh
theorem State.MemOk.vscalar {d : Field} {v : Word} (hs : s.MemOk) : (s.vscalar d v).MemOk := hs.setTh.setReg.advance
theorem State.MemOk.needPages {seg : Fin 8} {write : Bool} {es : List VElem} {k : State → State} (hs : s.MemOk)
    (hk : ∀ t, t.MemOk → (k t).MemOk) : (s.needPages seg write es k).MemOk := by
  unfold State.needPages
  dsimp only
  split
  exacts [hs.setTh.park, hk _ hs]
theorem State.MemOk.vload {seg : Fin 8} {d : Field} {es : List VElem} (hs : s.MemOk) : (s.vload seg d es).MemOk := by
  unfold State.vload
  split
  · exact hs.trapAt
  · refine .ite hs.vfinish ?_
    extract_lets base fin r
    have hfin {t vals n} (ht : t.MemOk) : (fin t vals n).MemOk := .finishLoad ht.setTh
    have hr : r.1.MemOk := .foldl_fst hs fun _ _ ht => ht.lsRead.watch
    refine .ite (hfin hr) (.needPages hs fun t ht => hfin (.foldl_fst ht fun q a hq => ?_))
    dsimp only
    split
    · exact hq.watch.choose
    · exact .send (.ite hq.watch.choose hq.watch)
theorem State.MemOk.vstore {seg : Fin 8} {es : List VElem} (hs : s.MemOk) : (s.vstore seg es).MemOk := by
  unfold State.vstore
  split
  · exact hs.trapAt
  · exact .ite (.vfinish (.foldl hs fun _ _ ht => ht.lsWrite.watch))
      (.needPages hs (fun _ ht => .vfinish (.foldl ht fun _ _ hr => hr.watch.send)))

/-! ### Machine/Special -/

theorem State.MemOk.vspecial {p d a : Field} {f : Nat → Nat} (hs : s.MemOk) : (s.vspecial p d a f).MemOk := hs.vfinish

/-! ### Machine/Tile -/

theorem State.MemOk.setLatch {c : Nat} {l : Latch} (hs : s.MemOk) : (s.setLatch c l).MemOk := hs.setCore
theorem State.MemOk.joinLatch {j : LatchJob} {k : State → State} (hs : s.MemOk) (hk : ∀ t, t.MemOk → (k t).MemOk) :
    (s.joinLatch j k).MemOk :=
  .ite (hk _ hs.setLatch) hs.setLatch.park
theorem State.MemOk.endDep {dep : Option (Nat × Fin 8)} (hs : s.MemOk) : (s.endDep dep).MemOk := by
  unfold State.endDep
  split
  exacts [hs, hs.updThread]
theorem State.MemOk.mopCopies {tile : Nat} {y : BitVec 12} (hs : s.MemOk) : (s.mopCopies tile y).MemOk := .ite hs hs.setTh
theorem State.MemOk.mopIssue {tile : Nat} {ea : Word} {y : BitVec 12} (hs : s.MemOk) : (s.mopIssue tile ea y).MemOk := by
  unfold State.mopIssue
  dsimp only
  refine .ite (.ite hs.advance hs.park) ?_
  split
  exacts [hs.trap, .sync hs (fun _ ht => .joinLatch ht.issueSync.mopCopies (fun _ hr => hr.setTh.park))]
theorem State.MemOk.bload {ea kw : Word} {y : BitVec 12} (hs : s.MemOk) : (s.bload ea kw y).MemOk := by
  unfold State.bload
  dsimp only
  split
  exacts [hs.trapAt, hs.trap, .sync hs (fun _ ht => .joinLatch ht.issueSync (fun _ hr => hr.advance))]
theorem State.MemOk.latchStart {c : Nat} (hs : s.MemOk) : (s.latchStart c).MemOk := by
  unfold State.latchStart
  dsimp only
  split
  · exact hs
  · split
    · exact .ite hs.setLatch hs
    · exact .ite hs.setLatch hs
    · exact .ite hs.setLatch.endDep hs
    · exact hs
    · refine .ite hs ?_
      split
      · exact hs.setLatch
      · split
        · exact hs
        · split
          · exact hs.setLatch
          · split
            exacts [hs.setLatch.setSlot.takeTrap, .setSlot (.setLatch hs)]
theorem State.MemOk.fillDone {c : Nat} (hs : s.MemOk) : (s.fillDone c).MemOk := by
  unfold State.fillDone
  dsimp only
  split
  exacts [hs.setLatch.endDep, hs.setLatch, hs]
theorem State.MemOk.startRound {cl : Nat} (hs : s.MemOk) : (s.startRound cl).MemOk := .foldl hs fun _ _ ht => .ite ht ht.setLatch
theorem State.MemOk.endRound {cl : Nat} (hs : s.MemOk) : (s.endRound cl).MemOk :=
  .foldl (.foldl hs fun _ _ ht => .ite ht ht.setLatch) fun _ _ ht => ht.endDep
theorem State.MemOk.passRound {cl : Nat} (hs : s.MemOk) : (s.passRound cl).MemOk := .ite hs.endRound hs.startRound
theorem State.MemOk.mopRun {c : Nat} {i : Fin 16} {n : Nat} {last : Bool} (hs : s.MemOk) : (s.mopRun c i n last).MemOk := by
  unfold State.mopRun
  split
  · exact hs
  · split
    exacts [hs, .ite hs hs.setSlot.count]
theorem State.MemOk.lendBlocks {c : Nat} {i : Fin 16} (hs : s.MemOk) : (s.lendBlocks c i).MemOk := by
  unfold State.lendBlocks
  split
  · exact hs
  · refine .foldl hs fun _ _ ht => .ite ht (.foldl ht fun _ _ hr => ?_)
    split
    · split
      exacts [.ite hr.setSlot hr, hr]
    · exact hr
theorem State.MemOk.mopDone {c : Nat} {i : Fin 16} (hs : s.MemOk) : (s.mopDone c i).MemOk := by
  unfold State.mopDone
  dsimp only
  split
  · exact hs
  · split
    exacts [hs, .ite hs (.ite hs.mopRun hs.mopRun.setSlot.setCore)]

end Sys2Proof.Machine
end

section
/-! Canonical memory (R161): threads, groups, queues and the system registers. -/

namespace Sys2Proof.Machine

variable {s : State}

/-! ### Machine/Work -/

theorem State.MemOk.phaseTag {x : Nat} {kid : BitVec 32} {gid : Option (BitVec 32)} {kind id : Nat} {old new : BitVec 32}
    {tag : Tag} (hs : s.MemOk) : (s.phaseTag x kid gid kind id old new tag).MemOk :=
  .ite hs hs.mapThreads
theorem State.MemOk.checkGroup {g : Group} {tag : Tag} (hs : s.MemOk) : (s.checkGroup g tag).MemOk := by
  unfold State.checkGroup
  exact hs.setGroup.phaseTag
theorem State.MemOk.tell {x q packet : Nat} {g : Gang} {kind : LinkKind} (hs : s.MemOk) : (s.tell x q packet g kind).MemOk := hs
theorem State.MemOk.checkKernel {k : Kernel} {tag : Tag} (hs : s.MemOk) : (s.checkKernel k tag).MemOk := by
  unfold State.checkKernel
  dsimp only
  split
  · exact hs.setKernel.phaseTag
  · exact .phaseTag (.setKernel (.ite hs.tell hs))
theorem State.MemOk.freeRecord {x : Nat} {root : BitVec 32} {n rec : Nat} {tag : Tag} (hs : s.MemOk) :
    (s.freeRecord x root n rec tag).MemOk := by
  unfold State.freeRecord
  dsimp only
  split
  exacts [hs, hs.setKernel.setKernel]
theorem State.MemOk.freeHeld {t : Thread} {tag : Tag} (hs : s.MemOk) : (s.freeHeld t tag).MemOk := by
  unfold State.freeHeld
  split
  exacts [hs.freeRecord, hs]
theorem State.MemOk.dropMail {x : Nat} {f : Mail → Bool} (hs : s.MemOk) : (s.dropMail x f).MemOk := hs
theorem State.MemOk.deliverMail {x c : Nat} {m : Mail} (hs : s.MemOk) : (s.deliverMail x c m).MemOk := .ite hs hs.setCoreFor
theorem State.MemOk.handOver {c x : Nat} (hs : s.MemOk) : (s.handOver c x).MemOk := .ite hs hs
theorem State.MemOk.seat {c : Nat} {i : Fin 16} {t : Thread} (hs : s.MemOk) : (s.seat c i t).MemOk := .setSlot hs.handOver
theorem State.MemOk.seedNext {k : Kernel} {c : Nat} {i : Fin 16} (hs : s.MemOk) : (s.seedNext k c i).MemOk := hs.seat.setKernel
theorem State.MemOk.seedNode {k : Kernel} {n : Nat} {v : Node} {c : Nat} {i : Fin 16} (hs : s.MemOk) :
    (s.seedNode k n v c i).MemOk := by
  unfold State.seedNode
  split
  exacts [hs, hs.seat.setKernel.setKernel.setGroup.acquireAt]
theorem State.MemOk.seatEntry {c : Nat} {i : Fin 16} {e : DequeEntry} (hs : s.MemOk) :
    (s.seatEntry c i e).MemOk := hs.seat.acquireAt
theorem State.MemOk.spillTo {x c : Nat} {t : Thread} {mask : BitVec 16} (hs : s.MemOk) : (s.spillTo x c t mask).MemOk := by
  unfold State.spillTo
  dsimp only
  split
  exacts [hs.setCoreFor.firmPut, hs]
theorem State.MemOk.enqueue {c : Nat} {t : Thread} {mask : BitVec 16} (hs : s.MemOk) : (s.enqueue c t mask).MemOk :=
  .ite hs.setCore hs.spillTo
theorem State.MemOk.accept {c : Nat} {t : Thread} (hs : s.MemOk) : (s.accept c t).MemOk := by
  unfold State.accept
  dsimp only
  split
  exacts [hs.handOver.setCore.seat, hs.handOver.setCore.enqueue]
theorem State.MemOk.spillDeque {c : Nat} (hs : s.MemOk) : (s.spillDeque c).MemOk := by
  unfold State.spillDeque
  dsimp only
  refine .ite hs ?_
  split
  exacts [hs.setCore.firmPut, hs]
theorem State.MemOk.pushDeque {c : Nat} {e : DequeEntry} (hs : s.MemOk) : (s.pushDeque c e).MemOk := hs.setCore.spillDeque
theorem State.MemOk.countDown {x dva : Nat} {tag : Tag} (hs : s.MemOk) : (s.countDown x dva tag).MemOk := hs.update
theorem State.MemOk.depart {t : Thread} {tag : Tag} (hs : s.MemOk) : (s.depart t tag).MemOk := by
  unfold State.depart
  exact .freeHeld (.checkKernel (.checkGroup (by split; exacts [hs.countDown, hs])))
theorem State.MemOk.vacate {c : Nat} {i : Fin 16} (hs : s.MemOk) : (s.vacate c i).MemOk := by
  unfold State.vacate
  split
  exacts [hs, hs.dropMail.setSlot]
theorem State.MemOk.offer {c : Nat} (hs : s.MemOk) : (s.offer c).MemOk := by
  unfold State.offer
  dsimp only
  split
  · exact hs
  · split
    · exact hs.setCore.seat
    · split
      · exact hs.setCore.seatEntry
      · refine .ite hs ?_
        split
        · split
          · split
            exacts [hs.seedNode, hs]
          · exact hs.seedNext
        · split
          · split
            exacts [hs.setCore.seatEntry, hs]
          · exact hs
theorem State.MemOk.holdSame {uid : Nat} (hs : s.MemOk) : (s.holdSame uid).MemOk := by
  unfold State.holdSame
  split
  exacts [.ite hs.setTh hs, hs]
theorem State.MemOk.boundary {k : State → State} (hs : s.MemOk) (hk : ∀ t, t.MemOk → (k t).MemOk) : (s.boundary k).MemOk :=
  .ite (.holdSame (hk _ hs)) (hk _ hs)

/-! ### Machine/Threads -/

theorem State.MemOk.mig {c : Nat} (hs : s.MemOk) : (s.mig c).MemOk := .ite hs.trap (.ite hs.trap (.ite hs.advance hs.setTh.park))
theorem State.MemOk.tmask {d : Field} {m : BitVec 16} (hs : s.MemOk) : (s.tmask d m).MemOk := hs.setTh.setReg.advance
theorem State.MemOk.packUp {c : Nat} {i : Fin 16} (hs : s.MemOk) : (s.packUp c i).MemOk := by
  unfold State.packUp
  split
  exacts [hs, .ite (.count (.setCore hs)) hs]
theorem State.MemOk.arrive {k : Nat} (hs : s.MemOk) : (s.arrive k).MemOk := by
  unfold State.arrive
  dsimp only
  split
  · exact hs
  · split
    exacts [.ite (.count (.spillTo (.setCoreFor hs))) hs, .ite hs (.ite hs (.ite hs (.count (.accept hs))))]
theorem State.MemOk.changePlaces {head : Thread} (hs : s.MemOk) : (s.changePlaces head).MemOk := hs.setCore.enqueue.seat
theorem State.MemOk.yield (hs : s.MemOk) : s.yield.MemOk := by
  unfold State.yield
  split
  exacts [.ite (.await hs (fun _ ht => ht.changePlaces)) hs.advance, hs.advance]
theorem State.MemOk.halt (hs : s.MemOk) : s.halt.MemOk := .await hs (fun _ ht => .await ht (fun _ hr => hr.depart.vacate))
theorem State.MemOk.stopWrite {c slot : Nat} {pc : Word} {stop : Bool} (hs : s.MemOk) : (s.stopWrite c slot pc stop).MemOk :=
  .ite (.ite hs hs.stopCore) hs.setCore

/-! ### Machine/Group -/

theorem State.MemOk.forkAt {h : Option (Nat × Home)} {pc : Word} {b : Nat} (hs : s.MemOk) : (s.forkAt h pc b).MemOk := by
  unfold State.forkAt
  dsimp only
  refine .ite hs.trap ?_
  exact .advance (.pushDeque (.setKernel (.setGroup (by split; exacts [hs.homeWrite, hs]))))
theorem State.MemOk.fork {jn : Bool} {ea : Word} {pc : Word} {b : Nat} (hs : s.MemOk) : (s.fork jn ea pc b).MemOk := by
  unfold State.fork
  refine .ite (.await hs (fun _ ht => ht.forkAt)) ?_
  split
  exacts [hs.trapAt, hs.trapAt, .await hs (fun _ ht => .needHome ht (fun _ => .inLane ht (fun _ hr => hr.watchBoth.forkAt)))]
theorem State.MemOk.join {ea : Word} (hs : s.MemOk) : (s.join ea).MemOk := by
  unfold State.join
  split
  exacts [hs.trapAt, hs.trapAt, .needHome hs (fun _ => .inLane hs (fun _ ht => .ite ht.watch.waited.acquire.advance ht.park))]
theorem State.MemOk.resampArrive {d : Field} {n : Nat} (hs : s.MemOk) : (s.resampArrive d n).MemOk :=
  .await hs (fun _ ht => .await ht (fun _ hr => .ite hr.trap hr.setGroup.setTh.stage.park))
theorem State.MemOk.resamp {d : Field} {nw : Word} (hs : s.MemOk) : (s.resamp d nw).MemOk :=
  .ite (.ite hs.acquire.setReg.advance hs.park) (.ite hs.resampArrive (.ite hs.trap (.ite hs.trap hs.stage.resampArrive)))
theorem State.MemOk.placeClone {c : Nat} {d : Field} {t : Thread} {k : Nat} (hs : s.MemOk) : (s.placeClone c d t k).MemOk := by
  unfold State.placeClone
  dsimp only
  split
  exacts [.ite hs.seat.acquireAt.putReg hs.seat.acquireAt, .ite hs.pushDeque.putReg hs.pushDeque]
theorem State.MemOk.resampleDone {n : Nat} (hs : s.MemOk) : (s.resampleDone n).MemOk := by
  unfold State.resampleDone
  split
  · exact hs
  · extract_lets place k cb gen total at_ s1 lins ren s2 off q1 s3 k3 q2 s4 s5
    have h1 : s1.MemOk := .foldl hs fun r m hr => by
      split
      · split
        exacts [.ite hr.edge hr, hr]
      · exact hr
    have h2 : s2.MemOk := .foldl h1 fun r m hr => by
      refine .ite hr (.freeHeld ?_)
      split
      exacts [hr.countDown, hr]
    have h3 : s3.MemOk := h2.checkGroup
    have h4 : s4.MemOk := h3.checkKernel
    have h5 : s5.MemOk := .foldl h4 fun r m hr => by
      refine .ite hr.vacate ?_
      split
      exacts [hr.setSlot, hr]
    exact .ite hs (.foldl h5 fun _ _ hr => .foldl hr fun _ _ hq => hq.placeClone)
theorem State.MemOk.barrierArrive {kind id n : Nat} {k : State → BitVec 32 → State} (hs : s.MemOk)
    (hk : ∀ t a, t.MemOk → (k t a).MemOk) : (s.barrierArrive kind id n k).MemOk :=
  .ite hs.trap
    (.ite hs.trap (.await hs (fun _ ht => .ite ht.trap (.ite ht.park (hk _ _ (.ite ht.checkGroup
      (.ite ht.setGroup.phaseTag ht.checkKernel)))))))
theorem State.MemOk.endRearrive (hs : s.MemOk) : s.endRearrive.MemOk := by
  unfold State.endRearrive
  split
  exacts [hs.waited.setTh, hs]
theorem State.MemOk.barrierWait {kind id : Nat} {tok : BitVec 32} (hs : s.MemOk) : (s.barrierWait kind id tok).MemOk :=
  .await hs (fun _ ht => ht.waited.acquire.advance)
theorem State.MemOk.msend {c : Nat} {m : Mail} (hs : s.MemOk) : (s.msend c m).MemOk :=
  .ite (.ite hs.advance (.ite hs.trap hs.park))
    (.ite (.await hs (fun _ ht => ht.post.setTh.park)) (.ite hs.trap (.await hs (fun _ ht => ht.post.setTh.park))))
theorem State.MemOk.takeMail {m : Msg} {e : Mail} (hs : s.MemOk) : (s.takeMail m e).MemOk :=
  .ite hs.reply (.ite hs.reply hs.deliverMail.reply)
theorem State.MemOk.mailArrive {msg : Nat} (hs : s.MemOk) : (s.mailArrive msg).MemOk := by
  unfold State.mailArrive
  split
  · exact hs
  · split
    exacts [.atInterface hs (fun _ ht => ht.takeMail), .updThread hs, hs]
theorem State.MemOk.serveHeld {c : Nat} (hs : s.MemOk) : (s.serveHeld c).MemOk := by
  unfold State.serveHeld
  exact .foldl hs fun _ _ ht => (by split; exacts [.takeMail ht, .serve ht])
theorem State.MemOk.mpop {own : Bool} {d m : Field} (hs : s.MemOk) : (s.mpop own d m).MemOk := by
  unfold State.mpop
  dsimp only
  split
  exacts [hs.setReg.setReg.advance, hs.setCore.setReg.setReg.acquire.advance]
theorem State.MemOk.stepmark {d : Field} {v : Word} (hs : s.MemOk) : (s.stepmark d v).MemOk := by
  unfold State.stepmark
  exact .advance (.setReg (.setTh (by exact .ite_fst hs.append hs)))

/-! ### Machine/Queue -/

theorem State.MemOk.setBuf {n : Nat} {b : CircBuf} (hs : s.MemOk) : (s.setBuf n b).MemOk := hs.setCore
theorem State.MemOk.cbwait {n : Nat} {d : Field} (hs : s.MemOk) : (s.cbwait n d).MemOk :=
  .ite hs.trap (.await hs (fun _ ht => ht.waited.setBuf.acquire.setReg.advance))
theorem State.MemOk.cbrel {n : Nat} (hs : s.MemOk) : (s.cbrel n).MemOk := .ite hs.trap (.await hs (fun _ ht => ht.setBuf.advance))
theorem State.MemOk.cbfill {n : Nat} {d : Field} {ea : Word} {off : Nat} (hs : s.MemOk) : (s.cbfill n d ea off).MemOk :=
  .ite hs.setBuf.park (.ite hs.setBuf.trapAt hs.waited.setCore.acquire.setReg.advance)
theorem State.MemOk.cbput {n : Nat} {d : Field} {ea : Word} (hs : s.MemOk) : (s.cbput n d ea).MemOk := by
  unfold State.cbput
  dsimp only
  refine .ite hs.trap ?_
  split
  exacts [hs.trapAt, .ite hs.trapAt (.await hs (fun _ ht => ht.cbfill))]
theorem State.MemOk.needSpan {ea : Word} {dva : Nat} {write : Bool} {access size n p : Nat} {k : State → State} (hs : s.MemOk)
    (hk : ∀ t, t.MemOk → (k t).MemOk) : (s.needSpan ea dva write access size n p k).MemOk := by
  induction n generalizing s p with
  | zero => exact hk s hs
  | succ n ih => exact .needHome hs fun _ => .inLane hs fun _ ht => ih (.ite ht ht.meetEcc)
theorem State.MemOk.portPut {dva : Nat} {l : List Word} (hs : s.MemOk) : (s.portPut dva l).MemOk := by
  induction l generalizing s dva with
  | nil => exact hs
  | cons w r ih =>
    refine ih ?_
    split
    exacts [hs.homeWrite, hs]
theorem State.MemOk.placeRecord {root : BitVec 32} {n : Nat} {d : Field} {bytes : List Byte} (hs : s.MemOk) :
    (s.placeRecord root n d bytes).MemOk := by
  unfold State.placeRecord
  dsimp only
  split
  · exact hs
  · split
    exacts [hs, hs.waited.portPut.setKernel.setKernel.acquire.setReg.advance]
theorem State.MemOk.nqput {d : Field} {node ea : Word} (hs : s.MemOk) : (s.nqput d node ea).MemOk := by
  unfold State.nqput
  dsimp only
  split
  · exact hs.trap
  · refine .ite hs.trap ?_
    split
    · exact hs.trapAt
    · refine .ite hs.trapAt (.ite hs.trapAt (.await hs fun _ ht => .ite ht.setKernel.park (.needSpan ht fun _ hr => ?_)))
      split
      exacts [hr.placeRecord, .needSpan hr fun _ hq => hq.placeRecord]
theorem State.MemOk.nqdone {a : Word} (hs : s.MemOk) : (s.nqdone a).MemOk := by
  unfold State.nqdone
  split
  exacts [.ite hs.trap (.await hs (fun _ ht => ht.freeHeld.advance)), hs.trap]

/-! ### Machine/System -/

theorem State.MemOk.cxsave {ea : Word} (hs : s.MemOk) : (s.cxsave ea).MemOk := by
  unfold State.cxsave
  refine .ite hs.trap ?_
  split
  exacts [hs.trapAt, .await hs (fun _ ht => .await ht (fun _ hr => .needSpan hr (fun _ hq => hq.portPut.setTh.advance)))]
theorem State.MemOk.loadFrame {ea : Word} {d : Nat} (hs : s.MemOk) : (s.loadFrame ea d).MemOk :=
  .await hs (fun _ ht => .needSpan ht (fun _ hr => .ite hr.trapAt (.ite hr.acquire.setTh.setContext hr.acquire.setTh)))
theorem State.MemOk.cxload {ea : Word} (hs : s.MemOk) : (s.cxload ea).MemOk := by
  unfold State.cxload
  refine .ite hs.trap ?_
  split
  exacts [hs.trapAt, hs.loadFrame]
theorem State.MemOk.dropTranslations {x : Nat} {dva : Option Nat} {leaves : Bool} (hs : s.MemOk) :
    (s.dropTranslations x dva leaves).MemOk :=
  hs
theorem State.MemOk.tlbinv {v : Word} (hs : s.MemOk) : (s.tlbinv v).MemOk :=
  .ite hs.trap
    (.ite (.await hs (fun _ ht => ht.advance)) (.await hs (fun _ ht => .await ht.dropTranslations.setTh (fun _ hr => hr.advance))))
theorem State.MemOk.dropCode {x line : Nat} (hs : s.MemOk) : (s.dropCode x line).MemOk := hs
theorem State.MemOk.cflush {ea : Word} (hs : s.MemOk) : (s.cflush ea).MemOk := by
  unfold State.cflush
  dsimp only
  split
  exacts [hs.trapAt, .needPage hs (fun _ => .await hs (fun _ ht => ht.dropCode.advance))]
theorem State.MemOk.lineCame {c : Nat} {i : Fin 16} {a d : Nat} {l : Line} {fill : Bool} (hs : s.MemOk) :
    (s.lineCame c i a d l fill).MemOk := by
  unfold State.lineCame
  split
  exacts [hs, .ite (.setSlot (.ite hs.setCluster hs)) (.takeTrap (.ite hs.setCluster hs))]
theorem State.MemOk.fetchDone {c : Nat} {i : Fin 16} (hs : s.MemOk) : (s.fetchDone c i).MemOk := by
  unfold State.fetchDone
  dsimp only
  split
  · exact hs
  · refine .ite hs ?_
    split
    · exact hs.takeTrap
    · split
      · exact .ite (.lineCame (.ite hs hs)) (.ite hs.takeTrap hs)
      · split
        exacts [.ite (.lineCame (.ite hs hs.fill)) (.ite hs.fill.takeTrap hs.fill), hs.fill, hs.fill.takeTrap]

end Sys2Proof.Machine
end

section
/-! Canonical memory (R161): the copy engines, rays, signals and the carousels. -/

namespace Sys2Proof.Machine

variable {s : State}

/-! ### Machine/Copy -/

theorem State.MemOk.touch {uid : Nat} {f : Thread → Thread} (hs : s.MemOk) : (s.touch uid f).MemOk := hs
theorem State.MemOk.setEngine {d e : Nat} {v : Engine} (hs : s.MemOk) : (s.setEngine d e v).MemOk := hs
theorem State.MemOk.closeBatch {k : State → State} (hs : s.MemOk) (hk : ∀ t, t.MemOk → (k t).MemOk) : (s.closeBatch k).MemOk :=
  .ite (.await hs (fun _ ht => hk _ ht.setTh)) (hk _ hs.setTh)
theorem State.MemOk.batchWaited {n : Nat} (hs : s.MemOk) : (s.batchWaited n).MemOk := by
  unfold State.batchWaited
  split
  all_goals exact hs.waited
theorem State.MemOk.copyIssue {op : CopyOp} {ea : Word} {y : BitVec 12} (hs : s.MemOk) : (s.copyIssue op ea y).MemOk := by
  unfold State.copyIssue
  dsimp only
  refine .ite (.ite hs.advance hs.park) ?_
  split
  · exact hs.trapAt
  · exact .sync hs
      (fun _ ht => .ite (.await ht.issueSync (fun _ hr => .await hr (fun _ hq => .park (.setTh hq)))) (.await ht.issueSync
        (fun _ hr => .park (.setTh hr))))
theorem State.MemOk.dropBlocks {d x : Nat} {addr : Option Nat} (hs : s.MemOk) : (s.dropBlocks d x addr).MemOk :=
  .foldl hs fun _ _ ht => ht.setEngine
theorem State.MemOk.removeBlocks {addr : Option Nat} (hs : s.MemOk) : (s.removeBlocks addr).MemOk :=
  .ite hs.advance hs.dropBlocks.stage.park
theorem State.MemOk.blockFor {d e x addr : Nat} {raw : List Byte} (hs : s.MemOk) : (s.blockFor d e x addr raw).1.MemOk := by
  unfold State.blockFor
  dsimp only
  split
  exacts [hs.choose, hs.choose.setEngine]
theorem State.MemOk.copyTake {c : Nat} {i : Fin 16} (hs : s.MemOk) : (s.copyTake c i).MemOk := by
  unfold State.copyTake
  dsimp only
  split
  · exact hs
  · refine .ite hs ?_
    split
    · exact hs
    · exact .ite hs hs.takeTrap
    · refine .ite (.ite hs.takeTrap hs) ?_
      split
      · exact .takeTrap hs.meetEcc
      · exact .setSlot (.setKernel (.setEngine hs.meetEcc.blockFor))
theorem State.MemOk.engineStore {x : Nat} {shadow : Bool} {b : Byte} {p : Place} {t : State} (hs : s.MemOk)
    (he : s.engineStore x shadow b p = .ok t) : t.MemOk := by
  unfold State.engineStore at he
  split at he
  · split at he
    · split at he <;> cases he
      exact hs.homePut
    · cases he
  · split at he <;> cases he
    exact hs.setCoreFor
theorem State.MemOk.prepareOne {k : Command} {j c : Nat} (hs : s.MemOk) : (s.prepareOne k j c).1.MemOk := by
  unfold State.prepareOne
  dsimp only
  refine .ite_fst hs ?_
  refine .ite_fst hs ?_
  exact .ite_fst hs (.ite_fst hs.setCoreFor hs.setCoreFor)
theorem State.MemOk.prepare {k : Command} (hs : s.MemOk) : (s.prepare k).1.MemOk := by
  unfold State.prepare
  split
  · exact hs
  · split
    · exact hs
    · split
      · exact hs
      · refine .foldl_fst hs fun q a hq => ?_
        split
        exacts [hq.prepareOne, hq]
theorem State.MemOk.putWord {k : Command} {r : Nat} {bs : List Byte} {p : Place} {t : State} (hs : s.MemOk)
    (he : s.putWord k r bs p = .ok t) : t.MemOk := by
  refine List.foldlRecOn (motive := fun q : Except EngineStop State => ∀ t, q = .ok t → t.MemOk) _ _ (fun t ht => ?_)
    (fun q hq b _ t ht => ?_) t he
  · cases ht; exact hs
  · split at ht
    · cases ht
    · split at ht
      · cases ht; exact hq _ rfl
      · exact (hq _ rfl).engineStore ht
theorem State.MemOk.placeMeets {x : Nat} {p : Place} {n : Nat} (hs : s.MemOk) : (s.placeMeets x p n).MemOk := by
  unfold State.placeMeets
  split
  exacts [hs.agentMeets, hs]
theorem State.MemOk.moveWord {k : Command} {r w : Nat} {q : State × Command} (hs : s.MemOk) (he : s.moveWord k r w = .ok q) :
    q.1.MemOk := by
  unfold State.moveWord at he
  dsimp only at he
  split at he
  · split at he
    · cases he
    · split at he
      · cases he
      · split at he
        · next t ht =>
          cases he
          refine List.foldlRecOn (motive := fun q : Except EngineStop State => ∀ t, q = .ok t → t.MemOk) _ _ (fun t ht => ?_)
            (fun q hq d _ t ht => ?_) t ht
          · cases ht
            exact .foldl hs fun _ _ ht => ht.placeMeets
          · split at ht
            · exact (hq _ rfl).putWord ht
            · cases ht
        · cases he
  · cases he
theorem State.MemOk.setCommand {d e n : Nat} {k : Command} (hs : s.MemOk) : (s.setCommand d e n k).MemOk := hs.setEngine
theorem State.MemOk.moveGroup {k : Command} {r w : Nat} {q : State × Command} (hs : s.MemOk) (he : s.moveGroup k r w = .ok q) :
    q.1.MemOk := by
  refine List.foldlRecOn (motive := fun e : Except EngineStop (State × Command) => ∀ q, e = .ok q → q.1.MemOk) _ _
    (fun q hq => hs.moveWord hq) (fun e ih v _ q hq => ?_) q he
  split at hq
  · exact (ih _ rfl).moveWord hq
  · exact ih q hq
theorem State.MemOk.copyWord {d e n r w : Nat} (hs : s.MemOk) : (s.copyWord d e n r w).MemOk := by
  unfold State.copyWord
  split
  · exact hs
  · next k _ =>
    have hp := hs.prepare (k := k)
    refine .ite hs ?_
    split
    · next he => rw [he] at hp; exact hp.setCommand
    · next he =>
      rw [he] at hp
      split
      · next hg => exact (hp.moveGroup hg).setCommand
      · exact hp.setCommand
theorem State.MemOk.moveAll {k : Command} (hs : s.MemOk) : (s.moveAll k).1.MemOk := by
  refine .foldl_fst hs fun q _ hq => .foldl_fst hq fun q _ hq => ?_
  split
  · split
    · exact hq
    · split
      · next hg => exact hq.moveGroup hg
      · exact hq
  · exact hq
theorem State.MemOk.copyDeliver {k : Command} {tag : Tag} (hs : s.MemOk) : (s.copyDeliver k tag).MemOk := by
  refine .foldl hs fun t p ht => ?_
  refine .ite (.deliverMail ?_) ?_ <;> split
  exacts [ht.setCoreFor, ht, ht.setCoreFor, ht]
theorem State.MemOk.copyEnd {k : Command} {tag : Tag} (hs : s.MemOk) : (s.copyEnd k tag).MemOk := by
  unfold State.copyEnd
  dsimp only
  split
  exacts [hs.touch.setKernel, hs.touch]
theorem State.MemOk.copyDone {d e n : Nat} (hs : s.MemOk) : (s.copyDone d e n).1.MemOk := by
  unfold State.copyDone
  split
  · exact hs
  · next k _ =>
    extract_lets tag v r
    have hr : r.1.MemOk := by
      unfold r
      have hp := hs.prepare (k := k)
      refine .ite_fst hs ?_
      split
      · next he => rw [he] at hp; exact hp.moveAll
      · exact hp
    refine .ite_fst (.ite_fst hs.setEngine.copyEnd hs) ?_
    clear_value r
    split
    · exact hr.setCommand
    · exact hr.setCommand
    · exact hr.copyDeliver.setCommand
theorem State.MemOk.publish {ea : Word} {scope : Nat} {y : BitVec 12} (hs : s.MemOk) : (s.publish ea scope y).MemOk := by
  unfold State.publish
  refine .ite (.ite hs.advance hs.park) ?_
  refine .ite hs.trapAt ?_
  split
  exacts [hs.trapAt, hs.trapAt, .needPage hs (fun _ => (by split; exacts [.ite hs.trapAt hs.issueSync.setTh.park, hs]))]
theorem State.MemOk.swap {c : Nat} {i : Fin 16} (hs : s.MemOk) : (s.swap c i).MemOk := by
  unfold State.swap
  split
  exacts [hs, .ite hs (.setSlot (.setContext hs))]

/-! ### Machine/Ray -/

theorem State.MemOk.lsWords {off n : Nat} (hs : s.MemOk) : (s.lsWords off n).1.MemOk := by
  induction n generalizing s off with
  | zero => exact hs
  | succ n ih => exact ih hs.lsRead
theorem State.MemOk.vrtri {x : BitVec 4} {d o r : Field} {ea : Word} (hs : s.MemOk) : (s.vrtri x d o r ea).MemOk := by
  unfold State.vrtri
  split
  exacts [hs.trapAt, hs.lsWords.watch.vfinish]

/-! ### Machine/Signal -/

theorem State.MemOk.setQueue {q : Nat} {k : Queue} (hs : s.MemOk) : (s.setQueue q k).MemOk := hs
theorem State.MemOk.endPacket {q idx code : Nat} (hs : s.MemOk) : (s.endPacket q idx code).MemOk := by
  unfold State.endPacket
  split
  · exact hs
  · split
    exacts [hs, hs.signal.setQueue]
theorem State.MemOk.setDie {d : Nat} {v : Die} (hs : s.MemOk) : (s.setDie d v).MemOk := hs
theorem State.MemOk.setCar {d k : Nat} {c : Carousel} (hs : s.MemOk) : (s.setCar d k c).MemOk := hs.setDie
theorem State.MemOk.mapLiveCores {d : Nat} {f : Thread → Thread} (hs : s.MemOk) : (s.mapLiveCores d f).MemOk := hs

/-! ### Machine/Carousel -/

theorem State.MemOk.mapSubs {cl : Nat} {f : Sub → Sub} (hs : s.MemOk) : (s.mapSubs cl f).MemOk := hs.setCluster
theorem State.MemOk.dropSub {b : Sub} (hs : s.MemOk) : (s.dropSub b).MemOk := hs.setCluster
theorem State.MemOk.wakeUnsub {b : Sub} (hs : s.MemOk) : (s.wakeUnsub b).MemOk := hs.setCoreFor
theorem State.MemOk.serveRay {b : Sub} {err : Bool} (hs : s.MemOk) : (s.serveRay b err).MemOk := by
  unfold State.serveRay
  dsimp only
  split
  · exact hs.dropSub
  · exact .wakeUnsub (.ite hs.dropSub.setCoreFor hs.dropSub.setCoreFor.deliverMail)
theorem State.MemOk.passAll {d : Nat} {f : Sub → Bool} {weights : Bool} (hs : s.MemOk) : (s.passAll d f weights).MemOk := by
  unfold State.passAll
  exact .foldl hs fun _ _ ht => (by split; exacts [ht.serveRay, .ite ht.dropSub.wakeUnsub ht])
theorem State.MemOk.carWake {d k : Nat} (hs : s.MemOk) : (s.carWake d k).MemOk := .ite hs.setCar hs
theorem State.MemOk.endPromos {d k : Nat} {ps : List Promo} (hs : s.MemOk) : (s.endPromos d k ps).MemOk :=
  .foldl hs fun _ _ ht => .foldl ht fun _ _ hr => hr.touch
theorem State.MemOk.setEntry {d k i : Nat} {e : SchedEntry} (hs : s.MemOk) : (s.setEntry d k i e).MemOk := hs.setCar
theorem State.MemOk.markBad {d k i : Nat} (hs : s.MemOk) : (s.markBad d k i).MemOk := by
  unfold State.markBad
  dsimp only
  split
  exacts [hs, hs.setCar.passAll]
theorem State.MemOk.segRead {d k : Nat} (hs : s.MemOk) : (s.segRead d k).MemOk := by
  unfold State.segRead
  dsimp only
  split
  · exact hs
  · split
    · exact hs
    · refine .ite hs ?_
      split
      · exact hs
      · split
        exacts [hs.agentMeets.setCar.setEntry, .ite hs.agentMeets.markBad hs.agentMeets.setEntry]
theorem State.MemOk.setLoad {l : WeightLoad} (hs : s.MemOk) : (s.setLoad l).MemOk := hs
theorem State.MemOk.swapLayer {l : WeightLoad} {d j : Nat} (hs : s.MemOk) : (s.swapLayer l d j).MemOk := by
  unfold State.swapLayer
  exact .foldl hs fun _ _ ht => (by split; exacts [ht, by split; exacts [.ite ht.setEntry ht, ht]])
theorem State.MemOk.swapLayers {d k : Nat} (hs : s.MemOk) : (s.swapLayers d k).MemOk :=
  .foldl hs fun _ _ ht => .ite ht (.setLoad (.foldl ht fun _ _ hr => hr.swapLayer))
theorem State.MemOk.applyCmd {d k : Nat} {o : CarCmd} (hs : s.MemOk) : (s.applyCmd d k o).MemOk := by
  unfold State.applyCmd
  dsimp only
  split
  · split
    exacts [hs.setCar.endPacket, hs.endPacket]
  · exact hs.setCar.endPacket
theorem State.MemOk.endLap {d k lapn : Nat} (hs : s.MemOk) : (s.endLap d k lapn).MemOk := hs.mapLiveCores
theorem State.MemOk.lapBoundary {d k : Nat} (hs : s.MemOk) : (s.lapBoundary d k).MemOk :=
  .endLap (.setCar (.swapLayers (.foldl hs.setCar fun _ _ ht => ht.applyCmd)))
theorem State.MemOk.openEntry {d k i : Nat} {h p : List Byte} (hs : s.MemOk) : (s.openEntry d k i h p).MemOk := by
  unfold State.openEntry
  dsimp only
  split
  · exact hs
  · exact .setDie (.foldl hs fun _ _ ht => ht.mapSubs)
theorem State.MemOk.openAgain {d cl i : Nat} {h p : List Byte} {j : IxJob} (hs : s.MemOk) : (s.openAgain d cl i h p j).MemOk :=
  hs.setCluster.setDie
theorem State.MemOk.slotOpen {d k : Nat} (hs : s.MemOk) : (s.slotOpen d k).MemOk := by
  unfold State.slotOpen
  dsimp only
  refine .ite hs ?_
  split
  · exact .ite hs hs.setCar.lapBoundary.endPromos
  · split
    · refine .ite hs ?_
      split
      · split
        exacts [hs.setCar.openAgain, hs]
      · exact hs.openEntry.setCar.endPromos
      · exact hs
    · exact hs
theorem State.MemOk.carSettle {d k : Nat} (hs : s.MemOk) : (s.carSettle d k).MemOk := by
  unfold State.carSettle
  extract_lets c s1 s2 s3
  have h3 : s3.MemOk := .foldl hs.setCar.passAll.endPromos.mapLiveCores fun _ _ ht => by
    split
    all_goals exact ht.endPacket
  refine .ite hs ?_
  split
  exacts [h3.endPacket, h3]
theorem State.MemOk.carStop {d k : Nat} {packet : Option (Nat × Nat)} (hs : s.MemOk) :
    (s.carStop d k packet).MemOk := hs.setCar.carSettle
theorem State.MemOk.deliverTo {d k cl : Nat} (hs : s.MemOk) : (s.deliverTo d k cl).MemOk := by
  unfold State.deliverTo
  extract_lets v
  split
  · exact hs
  · extract_lets earlier left s1 away back s2 _ s3
    have h2 : s2.MemOk := .ite hs.setDie hs.setDie.mapSubs
    have h3 : s3.MemOk := .ite h2.setCluster (.ite h2.setCluster h2)
    exact .ite hs h3.carSettle
theorem State.MemOk.deliverWeight {j : IxJob} {b : Sub} (hs : s.MemOk) : (s.deliverWeight j b).MemOk :=
  .ite (.ite hs.setCoreFor hs.setCoreFor.mapSubs) (.ite hs.setCoreFor.dropSub (.ite hs.setCoreFor hs.setCoreFor.mapSubs))
theorem State.MemOk.testRay {j : IxJob} {b : Sub} {r first n : Nat} (hs : s.MemOk) :
    (s.testRay j b r first n).MemOk := hs.setCoreFor
theorem State.MemOk.freeEntry {cl : Nat} {j : IxJob} (hs : s.MemOk) : (s.freeEntry cl j).MemOk :=
  .carSettle (.foldl hs.setCluster fun _ _ ht => .ite ht.wakeUnsub ht)
theorem State.MemOk.testBatch {j : IxJob} {live : List Sub} (hs : s.MemOk) : (s.testBatch j live).1.MemOk := by
  unfold State.testBatch
  exact .foldl hs fun _ _ ht => (by split; exacts [ht.testRay, ht])
theorem State.MemOk.ixBatch {cl : Nat} {j : IxJob} {rest : List IxJob} (hs : s.MemOk) : (s.ixBatch cl j rest).MemOk := by
  unfold State.ixBatch
  extract_lets t part _ s1 left marked s2 live r seen s3
  have ht : t.MemOk := .mapSubs (.ite hs hs.mapSubs)
  have h1 : s1.MemOk := .foldl ht.setCluster fun _ _ hu => .ite hu hu.deliverWeight
  have h3 : s3.MemOk := .foldl (.testBatch ht.setCluster) fun _ _ hu => hu.serveRay
  exact .ite ht.freeEntry (.ite (.ite h1.freeEntry h1) (.ite h3.freeEntry h3.setCluster))
theorem State.MemOk.primitiveBatch {cl : Nat} (hs : s.MemOk) : (s.primitiveBatch cl).MemOk := by
  unfold State.primitiveBatch
  split
  exacts [hs, .ite hs hs.ixBatch]
theorem State.MemOk.applied {y : BitVec 12} {k : State → State} (hs : s.MemOk) (hk : ∀ t, t.MemOk → (k t).MemOk) :
    (s.applied y k).MemOk :=
  .ite (hk _ hs) hs.issueSync.stage.park
theorem State.MemOk.crskip {name : Word} {y : BitVec 12} (hs : s.MemOk) : (s.crskip name y).MemOk := by
  unfold State.crskip
  split
  exacts [hs.trap, .applied hs (fun _ ht => .complete (.foldl ht fun _ _ hr => hr.serveRay))]
theorem State.MemOk.crpromote {name : Word} {y : BitVec 12} (hs : s.MemOk) : (s.crpromote name y).MemOk := by
  unfold State.crpromote
  dsimp only
  split
  · exact hs.trap
  · exact .applied hs (fun _ ht => .ite ht.setCar.advance (.await ht (fun _ hr => hr.setCar.carWake.advance)))
theorem State.MemOk.crlapW {d : Field} {n : Word} {y : BitVec 12} (hs : s.MemOk) : (s.crlapW d n y).MemOk := by
  unfold State.crlapW
  dsimp only
  split
  · exact .await hs (fun _ ht => ht.waited.setReg.complete)
  · split
    · exact hs.trap
    · exact .await hs.issueSync.stage.setTh (fun _ ht => ht.waited.setReg.complete)
theorem State.MemOk.crpool {splat : Bool} {ea c l : Word} {y : BitVec 12} (hs : s.MemOk) : (s.crpool splat ea c l y).MemOk := by
  unfold State.crpool
  dsimp only
  refine .ite hs.trap ?_
  refine .ite (.applied hs (fun _ ht => ht.setCore.complete)) ?_
  refine .ite hs.trap ?_
  refine .ite hs.trapAt ?_
  split
  exacts [hs.trapAt, .ite hs.trap (.applied hs (fun _ ht => ht.setCore.complete))]
theorem State.MemOk.countTo {b : Sub} {d : Field} {y : BitVec 12} (hs : s.MemOk) : (s.countTo b d y).MemOk := by
  unfold State.countTo
  exact .complete (by split; exacts [hs.setReg, hs])
theorem State.MemOk.passBad {b : Sub} (hs : s.MemOk) : (s.passBad b).MemOk := .ite hs.serveRay hs
theorem State.MemOk.register {b : Sub} (hs : s.MemOk) : (s.register b).MemOk := by
  unfold State.register
  exact .passBad (.carWake (by split; exacts [hs.setCluster, hs.setCluster.setCore]))
theorem State.MemOk.subCount {b : Sub} {d : Field} {y : BitVec 12} (hs : s.MemOk) :
    (s.subCount b d y).MemOk := .countTo (.ite hs.setReg hs)
theorem State.MemOk.crsub {x : BitVec 4} {d : Field} {ray name : Word} {y : BitVec 12} (hs : s.MemOk) :
    (s.crsub x d ray name y).MemOk := by
  unfold State.crsub
  split
  exacts [hs.trap, .ite hs.issueSync.subCount (.ite hs.trap (.applied hs (fun _ ht => ht.register.subCount)))]
theorem State.MemOk.unsub {b : Sub} {d : Field} {y : BitVec 12} (hs : s.MemOk) : (s.unsub b d y).MemOk := by
  unfold State.unsub
  split
  · exact hs.countTo
  · refine .ite hs.setTh.park ?_
    exact .countTo (by split; exacts [hs.serveRay, hs.dropSub])
theorem State.MemOk.crunsub {x : BitVec 4} {d : Field} {ray name : Word} {y : BitVec 12} (hs : s.MemOk) :
    (s.crunsub x d ray name y).MemOk := by
  unfold State.crunsub
  refine .ite (.ite hs.park hs.unsub) ?_
  split
  exacts [hs.trap, .applied hs (fun _ ht => ht.unsub)]

/-! ### Machine/Kill -/

theorem State.MemOk.endSession {x flags : Nat} (hs : s.MemOk) : (s.endSession x flags).MemOk := by
  unfold State.endSession
  split
  exacts [hs.append.setContext, hs.setContext]
theorem State.MemOk.endKernel {k : Kernel} {code : Nat} (hs : s.MemOk) :
    (s.endKernel k code).MemOk := hs.signal.setKernel.dropMail
theorem State.MemOk.stopThreads {f : Nat → BitVec 32 → Bool} (hs : s.MemOk) : (s.stopThreads f).MemOk := hs
theorem State.MemOk.scramble {x addr : Nat} {local_ : Bool} (hs : s.MemOk) : (s.scramble x addr local_).MemOk := by
  unfold State.scramble
  dsimp only
  refine .ite hs ?_
  refine .ite (.ite hs.freeWord.setCoreFor hs.freeWord) ?_
  split
  exacts [hs.freeWord.homePut, hs.freeWord.agentWrite, hs.freeWord]
theorem State.MemOk.scrambleOutputs {k : Kernel} (hs : s.MemOk) : (s.scrambleOutputs k).MemOk :=
  .foldl hs fun _ _ ht => .ite (.foldl ht fun _ _ hr => hr.scramble) ht
theorem State.MemOk.abortKernel {k : Kernel} (hs : s.MemOk) : (s.abortKernel k).MemOk := by
  unfold State.abortKernel
  extract_lets s1 fam s2
  have h1 : s1.MemOk := by
    unfold s1
    split
    exacts [hs.tell, hs]
  have h2 : s2.MemOk := .foldl h1.stopThreads fun _ _ ht => ht.scrambleOutputs
  exact .endPacket (.foldl h2 fun _ _ ht => ht.endKernel)
theorem State.MemOk.dropSubs {x : Nat} (hs : s.MemOk) : (s.dropSubs x).MemOk := .foldl hs fun _ _ ht => ht.carSettle
theorem State.MemOk.kill {x : Nat} (hs : s.MemOk) : (s.kill x).MemOk := by
  unfold State.kill
  extract_lets c s1 s2 s3 s4 s5 c5
  have h1 : s1.MemOk := .foldl hs fun _ _ ht => ht.endKernel
  have h2 : s2.MemOk := .foldl h1 fun t l ht => .foldl (by split; exacts [ht.signal, ht]) fun _ _ hu => hu.signal
  have h3 : s3.MemOk := h2.stopThreads.endSession
  have h4 : s4.MemOk := .foldl h3 fun _ _ ht => ht.carStop
  have h5 : s5.MemOk := h4.dropSubs
  refine .ite hs ?_
  clear_value s5
  exact h5

end Sys2Proof.Machine
end

section
/-! Canonical memory (R161): queue packets, launches and weight loads. -/

namespace Sys2Proof.Machine

variable {s : State}

/-! ### Machine/Front -/

theorem State.MemOk.stopQueue {q dva reason : Nat} (hs : s.MemOk) : (s.stopQueue q dva reason).MemOk := by
  unfold State.stopQueue
  split
  all_goals exact hs
theorem State.MemOk.writeIndex {q wi : Nat} (hs : s.MemOk) : (s.writeIndex q wi).MemOk := by
  unfold State.writeIndex
  split
  exacts [hs, .ite hs (.ite hs.setQueue.stopQueue hs.setQueue)]
theorem State.MemOk.startPacket {q : Nat} {mine : List Byte → Bool} {ready : Queue → List Byte → Bool}
    {act : Queue → Nat → List Byte → State → State} (hs : s.MemOk) (hact : ∀ a b c t, t.MemOk → (act a b c t).MemOk) :
      (s.startPacket q mine ready act).MemOk := by
  unfold State.startPacket
  split
  · exact hs
  · refine .ite hs.stopQueue ?_
    refine .ite hs ?_
    split
    exacts [hs, hs.kill, .ite hs.stopQueue (.ite hs (hact _ _ _ _ hs.setQueue.setContext.agentMeets.agentWrite))]
theorem State.MemOk.endHolding {q : Nat} {barrier : Bool} (hs : s.MemOk) : (s.endHolding q barrier).MemOk := by
  unfold State.endHolding
  split
  · exact hs
  · split
    exacts [hs, .ite hs hs.setQueue.endPacket]
theorem State.MemOk.hold {q i : Nat} {barrier : Bool} {l : List Nat} (hs : s.MemOk) : (s.hold q i barrier l).MemOk := by
  unfold State.hold
  split
  exacts [hs, hs.setQueue.endHolding]
theorem State.MemOk.holdStep {q : Nat} {barrier : Bool} {mine : List Byte → Bool} {l : List Byte → List Nat} (hs : s.MemOk) :
    (s.holdStep q barrier mine l).MemOk := by
  unfold State.holdStep
  split
  · exact hs
  · split
    exacts [hs.endHolding, .startPacket hs (fun _ _ _ _ ht => ht.hold)]
theorem State.MemOk.failLaunch {l : Launch} {outsig code : Nat} (hs : s.MemOk) : (s.failLaunch l outsig code).MemOk := by
  unfold State.failLaunch
  exact .endPacket (.signal (by split; exacts [hs.tell, hs]))
theorem State.MemOk.launch {q : Nat} (hs : s.MemOk) : (s.launch q).MemOk :=
  .startPacket hs fun k i b t ht => by
    dsimp only
    split
    · exact ht.agentMeets
    · exact ht.agentMeets.failLaunch
theorem State.MemOk.firstWave {k : Kernel} {l : Launch} {es : List Nat} (hs : s.MemOk) : (s.firstWave k l es).MemOk := by
  unfold State.firstWave
  exact .foldl hs fun _ _ ht => .foldl ht fun _ _ hr => .ite hr (by split; exacts [hr.seedNext, hr])
theorem State.MemOk.pushTasks {k : Kernel} {es : List Nat} (hs : s.MemOk) : (s.pushTasks k es).MemOk :=
  .foldl hs.setKernel fun _ _ ht => ht.handOver.pushDeque
theorem State.MemOk.completeKernel {k : Kernel} (hs : s.MemOk) : (s.completeKernel k).MemOk :=
  .endPacket (.foldl hs fun _ _ ht => ht.endKernel)
theorem State.MemOk.tryComplete {k : Kernel} (hs : s.MemOk) : (s.tryComplete k).MemOk := by
  unfold State.tryComplete
  refine .ite hs ?_
  split
  exacts [hs.completeKernel, .ite (.completeKernel (.ite hs hs.setKernel.tell)) (.ite hs hs.setKernel.tell)]
theorem State.MemOk.seedLaunch {l : Launch} {d : Desc} (hs : s.MemOk) : (s.seedLaunch l d).MemOk := by
  unfold State.seedLaunch
  dsimp only
  split
  · exact .tryComplete (by split; exacts [.tell hs, hs])
  · split
    exacts [.pushTasks (by split; exacts [.tell hs, hs]), .firstWave (by split; exacts [.tell hs, hs])]
theorem State.MemOk.launchStep {l : Launch} (hs : s.MemOk) : (s.launchStep l).MemOk := by
  unfold State.launchStep
  dsimp only
  split
  · exact hs
  · refine .ite hs ?_
    refine .ite (.ite hs.seedLaunch hs) ?_
    refine .ite hs ?_
    refine .ite hs.failLaunch ?_
    refine .ite hs.failLaunch ?_
    refine .ite hs ?_
    split
    exacts [hs.failLaunch, hs, .ite hs (.ite hs (.seedLaunch (.setContext hs)))]
theorem State.MemOk.onGang {k : Nat} {f : Kernel → Gang → State} {g : Launch → Gang → State} (hs : s.MemOk)
    (hf : ∀ a b, (f a b).MemOk) (hg : ∀ a b, (g a b).MemOk) : (s.onGang k f g).MemOk := by
  unfold State.onGang
  split
  · split
    exacts [.ite hs (hf _ _), hs]
  · split
    · split
      exacts [hg _ _, hs]
    · exact hs
theorem State.MemOk.setLaunch {l : Launch} {g : Gang} (hs : s.MemOk) : (s.setLaunch l g).MemOk := hs
theorem State.MemOk.linkMsg {pkg : Nat} {data : List Byte} {f : State → State} (hs : s.MemOk) (hf : ∀ t, t.MemOk → (f t).MemOk) :
    (s.linkMsg pkg data f).MemOk :=
  .ite (hf _ hs.logged) hs
theorem State.MemOk.abortLaunch {l : Launch} (hs : s.MemOk) : (s.abortLaunch l).MemOk := by
  unfold State.abortLaunch
  dsimp only
  split
  · exact hs.failLaunch
  · exact .failLaunch (.foldl (.foldl hs fun _ _ ht => ht.scrambleOutputs) fun _ _ ht => ht.signal)
theorem State.MemOk.gangTag {k pkg : Nat} {tag : Tag} (hs : s.MemOk) : (s.gangTag k pkg tag).MemOk :=
  .onGang hs (fun _ _ => hs.setKernel) (fun _ _ => hs.setLaunch)
theorem State.MemOk.carCommand {x q i : Nat} {b : List Byte} (hs : s.MemOk) : (s.carCommand x q i b).1.MemOk := by
  unfold State.carCommand
  dsimp only
  split
  · refine .ite_fst hs ?_
    split
    exacts [hs.setCar, hs]
  · exact .ite_fst hs hs.carStop
  · refine .ite_fst hs ?_
    split
    · exact hs
    · split
      exacts [.ite_fst hs hs.setCar, hs]
  · exact .ite_fst hs hs.setCar
theorem State.MemOk.carPacket {q op : Nat} (hs : s.MemOk) : (s.carPacket q op).MemOk :=
  .startPacket hs fun k i b t ht => by
    dsimp only
    split
    · exact ht.agentMeets.endPacket
    · refine .ite ht.agentMeets.endPacket ?_
      split
      exacts [ht.agentMeets.carCommand.endPacket, ht.agentMeets.carCommand]
theorem State.MemOk.copyPacket {q : Nat} (hs : s.MemOk) : (s.copyPacket q).MemOk :=
  .startPacket hs fun k i b t ht => by
    dsimp only
    split
    · exact ht.agentMeets.endPacket
    · exact .ite ht.agentMeets.endPacket (.setEngine ht.agentMeets)
theorem State.MemOk.copyFinish {d e n : Nat} (hs : s.MemOk) : (s.copyFinish d e n).MemOk := by
  unfold State.copyFinish
  dsimp only
  split
  exacts [hs.copyDone, hs.copyDone.endPacket, hs.copyDone.freeWord.endPacket]
theorem State.MemOk.tracePacket {q op : Nat} (hs : s.MemOk) : (s.tracePacket q op).MemOk :=
  .startPacket hs fun k i b t ht => by
    have hm := ht.agentMeets (x := k.ctx) (dva := bytesNum b 8 8) (n := 64)
    dsimp only
    split
    · exact hm.endPacket
    · exact .ite hm.endPacket (.ite (.endPacket (.ite hm.endSession hm))
        (.ite hm.endPacket hm.agentWrite.setContext.endPacket))
theorem State.MemOk.discard {k : Queue} {i : Nat} {t : State} (hs : s.MemOk) (ht : s.discard k i = some t) : t.MemOk := by
  unfold State.discard at ht
  split at ht
  · split at ht <;> cases ht
    exact hs
  · split at ht
    · cases ht; exact hs.signal
    · split at ht
      · split at ht <;> cases ht
        exact hs
      · cases ht; exact hs.signal
theorem State.MemOk.resetOn {q : Nat} (hs : s.MemOk) : (s.resetOn q).MemOk := by
  unfold State.resetOn
  split
  · exact hs
  · extract_lets r s2
    have hr : r.1.MemOk := .foldl_fst hs fun p i hp => by
      split
      · next ht => exact hp.discard ht
      · exact hp
    have h2 : s2.MemOk := hr.setQueue.agentWrite
    refine .ite hs (.ite hr.setQueue ?_)
    split
    exacts [.ite h2.endSession h2, h2]
theorem State.MemOk.retryResets (hs : s.MemOk) : s.retryResets.MemOk := .foldl hs fun _ _ ht => ht.resetOn
theorem State.MemOk.queueReset {q : Nat} (hs : s.MemOk) : (s.queueReset q).MemOk := by
  unfold State.queueReset
  split
  exacts [hs, .ite hs hs.setQueue.resetOn]

/-! ### Machine/Weights -/

theorem State.MemOk.dropLoad {l : WeightLoad} (hs : s.MemOk) : (s.dropLoad l).MemOk := hs
theorem State.MemOk.writeStatus {l : WeightLoad} {failed : Option Nat} (hs : s.MemOk) :
    (s.writeStatus l failed).MemOk := hs.agentWrite
theorem State.MemOk.writeLayer {l : WeightLoad} {j : Nat} (hs : s.MemOk) : (s.writeLayer l j).MemOk := hs.agentWrite
theorem State.MemOk.startReplace {l : WeightLoad} (hs : s.MemOk) : (s.startReplace l).MemOk := by
  unfold State.startReplace
  split
  exacts [.ite hs.setLoad hs.homeWrite.setLoad, hs.setLoad]
theorem State.MemOk.loadDone {l : WeightLoad} (hs : s.MemOk) : (s.loadDone l).MemOk := by
  unfold State.loadDone
  dsimp only
  split
  · exact hs.setLoad
  · split
    · exact .ite hs.setLoad hs.writeStatus.dropLoad.endPacket
    · exact .ite hs.setLoad
        (.ite hs.startReplace (.endPacket (.dropLoad (.writeStatus (.agentWrite (.foldl hs fun _ _ ht => ht.writeLayer))))))
theorem State.MemOk.arriveLoad {l : WeightLoad} {failed : Option Nat} (hs : s.MemOk) : (s.arriveLoad l failed).MemOk :=
  hs.setLoad.tell.loadDone
theorem State.MemOk.settleLoad {l : WeightLoad} (hs : s.MemOk) : (s.settleLoad l).MemOk := .ite hs.setLoad hs.arriveLoad
theorem State.MemOk.weightload {q : Nat} (hs : s.MemOk) : (s.weightload q).MemOk :=
  .startPacket hs fun k i b t ht => by
    dsimp only
    split
    · exact ht.endPacket
    · exact .ite ht.agentMeets.endPacket (.ite ht.agentMeets.endPacket (.settleLoad ht.agentMeets))
theorem State.MemOk.shardCame {n k : Nat} {bytes : List Byte} (hs : s.MemOk) : (s.shardCame n k bytes).MemOk := by
  unfold State.shardCame
  split
  · exact hs
  · split
    exacts [hs, .ite hs (.ite hs.settleLoad hs.agentPut.settleLoad)]
theorem State.MemOk.shardLate {n k : Nat} (hs : s.MemOk) : (s.shardLate n k).MemOk := by
  unfold State.shardLate
  split
  · exact hs
  · split
    exacts [hs, .ite hs hs.settleLoad]
theorem State.MemOk.loadLate {n : Nat} (hs : s.MemOk) : (s.loadLate n).MemOk := by
  unfold State.loadLate
  split
  · exact hs
  · refine .ite hs ?_
    split
    exacts [hs.loadDone, hs.arriveLoad]
theorem State.MemOk.replaceStep {n : Nat} (hs : s.MemOk) : (s.replaceStep n).MemOk := by
  unfold State.replaceStep
  split
  · exact hs
  · exact .ite (.ite hs.startReplace (.ite hs.settleLoad hs))
      (.ite hs.writeStatus.dropLoad.endPacket (.foldl hs fun _ _ ht => ht.writeLayer))

end Sys2Proof.Machine
end

section
/-! Canonical memory (R161): contexts, Bobbin and the links. -/

namespace Sys2Proof.Machine

variable {s : State}

/-! ### Machine/Context -/

theorem State.MemOk.contain {x : Nat} (hs : s.MemOk) : (s.contain x).MemOk := .ite hs.stopThreads.setContext hs
theorem State.MemOk.contained {x : Nat} (hs : s.MemOk) : (s.contained x).MemOk := .ite hs.kill hs
theorem State.MemOk.writeFault {c : Nat} {i : Fin 16} {t : Thread} {f : FaultInfo} (hs : s.MemOk) :
    (s.writeFault c i t f).MemOk :=
  .ite hs.firmPut hs.agentPut
theorem State.MemOk.lend {c : Nat} {i : Fin 16} {t : Thread} {f : FaultInfo} (hs : s.MemOk) : (s.lend c i t f).MemOk :=
  .ite hs.setSlot hs.setSlot.setCore.setContext
theorem State.MemOk.unstrand {uid : Nat} (hs : s.MemOk) : (s.unstrand uid).MemOk := .ite hs hs
theorem State.MemOk.wakeLent {x c : Nat} {r : Faulter} (hs : s.MemOk) : (s.wakeLent x c r).MemOk := by
  unfold State.wakeLent
  exact .deliverMail (.setCoreFor (by split; exacts [hs.unstrand, hs]))
theorem State.MemOk.lendWoken {c : Nat} {i : Fin 16} {t : Thread} {f : FaultInfo} (hs : s.MemOk) :
    (s.lendWoken c i t f).MemOk := by
  unfold State.lendWoken
  dsimp only
  refine .ite hs.lend ?_
  split
  exacts [hs.lend.wakeLent, hs.lend]
theorem State.MemOk.recordFault {c : Nat} {i : Fin 16} (hs : s.MemOk) : (s.recordFault c i).MemOk := by
  unfold State.recordFault
  split
  · exact hs
  · split
    · exact hs
    · exact .ite hs (.ite hs.writeFault.contain (.ite hs.writeFault.lendWoken (.ite hs.writeFault.setSlot hs.writeFault.contain)))
theorem State.MemOk.answerTrap {c : Nat} {i : Fin 16} {ok : Nat → Bool} {v : State → Nat → Nat} (hs : s.MemOk) :
    (s.answerTrap c i ok v).MemOk := by
  unfold State.answerTrap
  split
  · exact hs
  · split
    exacts [hs, .ite hs hs.setSlot.setCore]
theorem State.MemOk.storeEntries {l : List (Nat × Word)} (hs : s.MemOk) :
    (s.storeEntries l).MemOk := .foldl hs fun _ _ ht => ht.firmPut
theorem State.MemOk.wakeThread {x c : Nat} {i : Fin 16} {t : Thread} {f : FaultInfo} (hs : s.MemOk) :
    (s.wakeThread x c i t f).MemOk :=
  .ite hs.answerTrap hs.unstrand.setCoreFor
theorem State.MemOk.wake {c : Nat} {i : Fin 16} {ptes : List (Nat × Word)} (hs : s.MemOk) : (s.wake c i ptes).MemOk := by
  unfold State.wake
  dsimp only
  split
  · exact hs
  · split
    · exact hs.storeEntries.wakeLent
    · split
      exacts [.ite hs.storeEntries.wakeThread hs.storeEntries.wakeLent, hs.storeEntries.wakeThread]
    · exact hs.storeEntries.wakeLent
    · exact hs
theorem State.MemOk.holdExpired {c : Nat} {i : Fin 16} (hs : s.MemOk) : (s.holdExpired c i).MemOk := by
  unfold State.holdExpired
  split
  exacts [hs, .ite hs.contain hs]
theorem State.MemOk.newChunk (hs : s.MemOk) : s.newChunk.MemOk := hs
theorem State.MemOk.chunk {c : Nat} {deque ok : Bool} (hs : s.MemOk) : (s.chunk c deque ok).MemOk := by
  unfold State.chunk
  dsimp only
  split
  · refine .ite hs ?_
    refine .ite (.foldl hs.newChunk.setCore fun _ _ ht => ht.spillDeque) ?_
    split
    exacts [hs.contain, hs]
  · split
    exacts [hs, .ite hs.newChunk.setCoreFor hs.contain]
theorem State.MemOk.holdCore {c : Nat} (hs : s.MemOk) : (s.holdCore c).MemOk := by
  unfold State.holdCore
  extract_lets s1
  have h1 : s1.MemOk := .foldl hs fun _ _ ht => by
    split
    exacts [.ite ht ht.leaveQueues, ht]
  split
  exacts [h1, h1.setCore]
theorem State.MemOk.newPlace {chunks used : List Nat} (hs : s.MemOk) : (s.newPlace chunks used).1.MemOk := by
  unfold State.newPlace
  split
  exacts [hs, hs.newChunk]
theorem State.MemOk.writeArrivals {k : CoreState} (hs : s.MemOk) : (s.writeArrivals k).1.MemOk :=
  List.foldrRecOn (motive := fun r : State × CoreState => r.1.MemOk) _ _ hs fun _ hr _ _ => hr.newPlace.firmPut
theorem State.MemOk.writeDeque {k : CoreState} (hs : s.MemOk) : (s.writeDeque k).1.MemOk :=
  .foldl_fst hs fun _ _ hr => hr.newPlace.firmPut
theorem State.MemOk.detach {ix : Nat} {f : Sub → Bool} (hs : s.MemOk) : (s.detach ix f).1.MemOk := by
  unfold State.detach
  dsimp only
  refine .foldl ?_ fun _ _ ht => ht.carSettle
  exact hs
theorem State.MemOk.redeliver {l : List IxJob} (hs : s.MemOk) : (s.redeliver l).MemOk := by
  unfold State.redeliver
  exact .foldl hs fun _ _ ht => (by split; exacts [ht.setCluster.carWake, ht])
theorem State.MemOk.saveIx {x cl : Nat} (hs : s.MemOk) : (s.saveIx x cl).MemOk := .foldl hs fun _ _ ht => ht.detach.setContext
theorem State.MemOk.seatSubs (hs : s.MemOk) : s.seatSubs.MemOk :=
  .foldl hs fun _ _ ht => .ite ht (.redeliver (.foldl ht.detach.setCluster fun _ _ hr => hr.setCluster))
theorem State.MemOk.saveCluster {x cl : Nat} (hs : s.MemOk) : (s.saveCluster x cl).MemOk := by
  unfold State.saveCluster
  extract_lets cs uids s1 s2 s3 y
  have h2 : s2.MemOk := .foldl hs.saveIx fun _ _ ht => ht.writeArrivals.writeDeque.setContext.setCore
  exact .setContext h2
theorem State.MemOk.restoreCore {x c : Nat} {k : CoreState} (hs : s.MemOk) : (s.restoreCore x c k).MemOk := hs.setContext.setCore
theorem State.MemOk.restoreIx {x cl : Nat} (hs : s.MemOk) : (s.restoreIx x cl).MemOk :=
  .foldl hs.setContext.redeliver fun _ _ ht => ht.carWake
theorem State.MemOk.resumeCluster {x cl : Nat} (hs : s.MemOk) : (s.resumeCluster x cl).MemOk :=
  .ite hs (.setContext (.restoreIx (.foldl hs fun _ _ ht => ht.restoreCore)))
theorem State.MemOk.resume {x cl : Nat} (hs : s.MemOk) : (s.resume x cl).MemOk := .ite hs.setContext hs.resumeCluster
theorem State.MemOk.preempt {x cl : Nat} (hs : s.MemOk) : (s.preempt x cl).MemOk := by
  unfold State.preempt
  extract_lets y s1 cs s2 s3
  have h1 : s1.MemOk := .ite hs hs.setContext
  have h2 : s2.MemOk := .foldl h1 fun _ _ ht => ht.holdCore
  have h3 : s3.MemOk := h2.saveCluster
  exact .ite hs (.ite h1 (.ite (.ite (.foldl h3 fun _ _ ht => ht.resumeCluster) h3) h2))
theorem State.MemOk.graceOver {c : Nat} {i : Fin 16} (hs : s.MemOk) : (s.graceOver c i).MemOk := by
  unfold State.graceOver
  dsimp only
  split
  · exact hs
  · split
    exacts [hs, .ite hs.setSlot hs]
theorem State.MemOk.leaveBlock {c : Nat} (hs : s.MemOk) : (s.leaveBlock c).MemOk := .ite hs hs.setCore
theorem State.MemOk.goOn {c : Nat} (hs : s.MemOk) : (s.goOn c).MemOk := hs.setCore.serveHeld
theorem State.MemOk.moveCore {c target : Nat} (hs : s.MemOk) : (s.moveCore c target).MemOk := .goOn (.seatSubs hs)
theorem State.MemOk.unmap {c : Nat} (hs : s.MemOk) : (s.unmap c).MemOk := hs
theorem State.MemOk.moveCluster {cl q : Nat} (hs : s.MemOk) : (s.moveCluster cl q).MemOk :=
  .foldl (.seatSubs (.foldl hs fun _ _ ht => ht.unmap)) fun _ _ ht => ht.goOn
theorem State.MemOk.startRemap {c target : Nat} (hs : s.MemOk) : (s.startRemap c target).MemOk := .setCore (.ite hs hs.holdCore)
theorem State.MemOk.thermal {c : Nat} (hs : s.MemOk) : (s.thermal c).MemOk := by
  unfold State.thermal
  dsimp only
  refine .ite hs ?_
  split
  · exact hs.startRemap
  · refine .ite hs ?_
    split
    exacts [.startRemap hs, hs]
  · exact .ite hs hs.holdCore.setCore
  · exact .ite hs.holdCore (.ite hs.holdCore.setCore hs.holdCore.setCore.leaveBlock)
  · exact .ite hs.holdCore hs.holdCore.setCore
  · split
    exacts [.ite hs.holdCore.moveCluster hs.holdCore, .ite hs.holdCore hs.holdCore.moveCore]
theorem State.MemOk.sense {p : Nat} {deg : Int} (hs : s.MemOk) : (s.sense p deg).MemOk := .ite hs hs
theorem State.MemOk.killOn {l : List Nat} (hs : s.MemOk) : (s.killOn l).MemOk := by
  unfold State.killOn
  exact .foldl hs fun _ _ ht => (by split; exacts [.ite ht.contain ht, ht])
theorem State.MemOk.spareCluster {cl : Nat} (hs : s.MemOk) : (s.spareCluster cl).MemOk := by
  unfold State.spareCluster
  split
  exacts [hs, .ite hs hs]
theorem State.MemOk.rehome {c : Nat} (hs : s.MemOk) : (s.rehome c).MemOk := by
  unfold State.rehome
  dsimp only
  refine .ite ?_ hs.unmap
  split
  exacts [hs, hs.unmap]
theorem State.MemOk.spareCore {p q c : Nat} (hs : s.MemOk) :
    (s.spareCore p q c).MemOk := .ite hs.unmap (.ite hs.setCore hs.startRemap)
theorem State.MemOk.clusterFails {cl : Nat} (hs : s.MemOk) : (s.clusterFails cl).MemOk := by
  unfold State.clusterFails
  extract_lets p hit s1 q1 s2 q2 s3 s4
  have h1 : s1.MemOk := hs.killOn
  clear_value s1
  have h2 : s2.MemOk := h1
  have h3 : s3.MemOk := .foldl h2.setCluster fun _ _ ht => ht.rehome
  have h4 : s4.MemOk := .foldl h3.killOn fun _ _ ht => ht.unmap
  split
  · extract_lets s5
    have h5 : s5.MemOk := .foldl h3 fun _ _ ht => ht.spareCore
    clear_value s5
    exact .seatSubs h5
  · clear_value s4
    exact .seatSubs h4
theorem State.MemOk.poll {cl : Nat} {ok : Bool} (hs : s.MemOk) : (s.poll cl ok).MemOk :=
  .ite hs (.ite hs.setCluster (.ite hs.setCluster hs.setCluster.clusterFails))
theorem State.MemOk.eccLine {line : Nat} (hs : s.MemOk) : (s.eccLine line).MemOk := by
  unfold State.eccLine
  split
  exacts [hs.contain, hs]
theorem State.MemOk.scrub {local_ : Bool} {addr : Nat} {correctable : Bool} (hs : s.MemOk) :
    (s.scrub local_ addr correctable).MemOk := by
  unfold State.scrub
  split
  exacts [.ite hs hs, .ite hs.appendIf (.contain (.ite hs hs))]

/-! ### Machine/Firmware -/

theorem State.MemOk.answer {code : Nat} {ok : Bool} (hs : s.MemOk) : (s.answer code ok).MemOk := hs
theorem State.MemOk.request {code : Nat} {ok : State → Bool} {f : State → State} (hs : s.MemOk)
    (hf : ∀ t, t.MemOk → (f t).MemOk) : (s.request code ok f).MemOk :=
  .ite (.answer (hf _ hs.logged)) hs.logged.answer
theorem State.MemOk.extend {digest : List Byte} (hs : s.MemOk) : (s.extend digest).MemOk := hs
theorem State.MemOk.atReset {seed : BitVec 256} (hs : s.MemOk) : (s.atReset seed).MemOk := hs
theorem State.MemOk.loadImage {image : List Byte} (hs : s.MemOk) : (s.loadImage image).MemOk := hs.firmPut
theorem State.MemOk.boot {draw : BitVec 256} {image sig : List Byte} (hs : s.MemOk) : (s.boot draw image sig).MemOk :=
  .ite hs.atReset.logged.loadImage (.ite hs.atReset.logged.loadImage.logged.freeWord hs.atReset.logged.loadImage)
theorem State.MemOk.addPartition {p : Nat} {slices heads encoders : List Nat} {image : List Byte} (hs : s.MemOk) :
    (s.addPartition p slices heads encoders image).MemOk :=
  hs
theorem State.MemOk.clearLines {tags : List Nat} (hs : s.MemOk) : (s.clearLines tags).MemOk :=
  ⟨Memory.wf_filter _ _ hs.1, hs.2⟩
theorem State.MemOk.giveShare {p lo hi : Nat} (hs : s.MemOk) : (s.giveShare p lo hi).MemOk := by
  unfold State.giveShare
  split
  exacts [.ite hs hs, hs]
theorem State.MemOk.clearShare {share : List (Nat × Nat)} (hs : s.MemOk) : (s.clearShare share).MemOk :=
  ⟨Memory.wf_filter _ _ hs.1, hs.2⟩
theorem State.MemOk.endPartition {p : Nat} (hs : s.MemOk) : (s.endPartition p).MemOk :=
  .clearShare (.clearLines (.foldl hs fun _ _ ht => ht.kill))
theorem State.MemOk.addContext {p root : Nat} (hs : s.MemOk) : (s.addContext p root).MemOk := hs
theorem State.MemOk.destroyCtx {x : Nat} (hs : s.MemOk) : (s.destroyCtx x).MemOk := .ite hs hs
theorem State.MemOk.addQueue {x ring size ri : Nat} {runtime : Bool} (hs : s.MemOk) : (s.addQueue x ring size ri runtime).MemOk :=
  .agentWrite hs
theorem State.MemOk.setQueueState {q : Nat} {st : QueueState} (hs : s.MemOk) : (s.setQueueState q st).MemOk := by
  unfold State.setQueueState
  split
  exacts [hs.setQueue, hs]
theorem State.MemOk.sendQuote {p : Nat} {nonce : BitVec 256} (hs : s.MemOk) : (s.sendQuote p nonce).MemOk := hs
theorem State.MemOk.replaceBobbin {image : List Byte} {version : BitVec 32} (hs : s.MemOk) :
    (s.replaceBobbin image version).MemOk :=
  hs.loadImage.extend.firmPut

/-! ### Machine/Links -/

theorem State.MemOk.portGoes {port : Nat} {up : Bool} (hs : s.MemOk) : (s.portGoes port up).MemOk := .ite hs hs
theorem State.MemOk.farFault {a : Access} {kind level : Nat} {also : Access → Bool} (hs : s.MemOk) :
    (s.farFault a kind level also).MemOk := by
  unfold State.farFault
  dsimp only
  split
  · exact hs
  · split
    · exact hs
    · refine .ite hs ?_
      split
      exacts [.ite (.setSlot hs.leaveQueues.takeTrap) hs.leaveQueues.takeTrap, hs.leaveQueues.takeTrap]
theorem State.MemOk.linkFault {k : Nat} (hs : s.MemOk) : (s.linkFault k).MemOk := by
  unfold State.linkFault
  split
  exacts [hs, .ite hs hs.farFault]
theorem State.MemOk.farRefusal {k kind level : Nat} (hs : s.MemOk) : (s.farRefusal k kind level).MemOk := by
  unfold State.farRefusal
  split
  exacts [hs, .ite hs hs.farFault]
theorem State.MemOk.correction {flags : Nat} {offset rate : Int} (hs : s.MemOk) : (s.correction flags offset rate).MemOk := by
  unfold State.correction
  exact .foldl hs fun _ _ ht => ht.appendIf
theorem State.MemOk.correct {offset rate : Int} (hs : s.MemOk) : (s.correct offset rate).MemOk :=
  .ite hs (.ite (.correction (hs.congr rfl rfl)) (.ite (.correction (hs.congr rfl rfl)) hs))
theorem State.MemOk.absorbed (hs : s.MemOk) : s.absorbed.MemOk := .ite (.correction (hs.congr rfl rfl)) hs
theorem State.MemOk.sampleDie {x d n : Nat} (hs : s.MemOk) : (s.sampleDie x d n).MemOk := hs.append
theorem State.MemOk.sample {x : Nat} (hs : s.MemOk) : (s.sample x).MemOk := by
  unfold State.sample
  split
  exacts [hs, .ite hs (.setContext (.foldl hs fun _ _ ht => ht.sampleDie))]
theorem State.MemOk.overflow {c : Nat} {n : Fin 4} (hs : s.MemOk) : (s.overflow c n).MemOk := by
  unfold State.overflow
  dsimp only
  split
  exacts [.ite (.bump hs) hs, hs]

end Sys2Proof.Machine
end

section
/-! Canonical memory (R138, R161): every step of the machine. -/

namespace Sys2Proof.Machine

variable {s : State}

/-! ### Machine/Dispatch -/

/-- An outcome whose next state, where there is one, has its memory in the canonical form. -/
def OutMemOk (o : Out) : Prop := ∀ t, o = .next t → t.MemOk
theorem OutMemOk.next (hs : s.MemOk) : OutMemOk (.next s) := by
  intro t ht
  obtain rfl := Host.Outcome.next.inj ht
  exact hs
theorem OutMemOk.issue {t : State} (ht : t.MemOk) : OutMemOk (issue s t) := by
  unfold Sys2Proof.Machine.issue
  split
  · exact .next ht
  · intro _ h
    cases h
theorem OutMemOk.mapOut {f : State → State} {o : Out} (ho : OutMemOk o) (hf : ∀ t, t.MemOk → (f t).MemOk) :
    OutMemOk (mapOut f o) := by
  cases o with
  | next t => exact .next (hf t (ho t rfl))
  | fault | refused =>
    intro _ h
    cases h
theorem OutMemOk.bindOut {f : State → Out} {o : Out} (ho : OutMemOk o) (hf : ∀ t, t.MemOk → OutMemOk (f t)) :
    OutMemOk (bindOut f o) := by
  cases o with
  | next t => exact hf t (ho t rfl)
  | fault | refused =>
    intro _ h
    cases h
theorem OutMemOk.ite {c : Prop} [Decidable c] {o p : Out} (ho : OutMemOk o) (hp : OutMemOk p) :
    OutMemOk (if c then o else p) := by
  split
  · exact ho
  · exact hp
theorem OutMemOk.acknowledgement {msg : Nat} (hs : s.MemOk) : OutMemOk (execAcknowledgement msg s) := by
  unfold execAcknowledgement
  split
  · split
    exacts [.next (.updThread hs), .next hs]
  · exact .next hs
theorem OutMemOk.negativeAcknowledgement {msg : Nat} (hs : s.MemOk) : OutMemOk (execNegativeAcknowledgement msg s) := by
  unfold execNegativeAcknowledgement
  split
  · split
    exacts [.next (.updThread hs), .next hs]
  · exact .next hs
theorem OutMemOk.remoteRequest {msg : Nat} (hs : s.MemOk) : OutMemOk (execRemoteRequest msg s) := by
  unfold execRemoteRequest
  split
  · split
    exacts [.next (.atInterface hs (fun _ ht => ht.serve)), .next (.atInterface hs (fun _ ht => ht.serve)), .next hs]
  · exact .next hs
theorem OutMemOk.requestResend {msg : Nat} (hs : s.MemOk) : OutMemOk (execRequestResend msg s) := by
  unfold execRequestResend
  split
  · split
    · exact .next hs
    · split
      exacts [.next (.contain hs), .next hs]
  · exact .next hs
theorem OutMemOk.memorySliceAccess {k : Nat} (hs : s.MemOk) : OutMemOk (execMemorySliceAccess k s) := by
  unfold execMemorySliceAccess
  split
  exacts [.next hs, .next (.ite (.performAt hs) (.performAt hs))]
/-- Every instruction and every step of hardware keeps the form: it writes memory, if at all, through the stores above. -/
theorem OutMemOk.exec {i : Instr} (hs : s.MemOk) : OutMemOk (exec i s) := by
  cases i with
  | nop => exact .issue hs.advance
  | add | sub | mul | mulh | mulhu | andR | orR | xorR | sll | srl | sra | slt | sltu | minR | maxR | minu | maxu | sel | ins | lea =>
    exact .issue hs.alu2
  | div | divu | rem | remu | fdiv | fsqrt => exact .issue hs.late
  | clz | ctz | popc | mov | addi | andi | ori | xori | slti | slli | srli | srai | ext | fcvt | segq => exact .issue hs.alu1
  | li | liL | fadd | fsub | fmul | fmin | fmax | fclass | fsgn | ffma | vlen => exact .issue hs.setReg.advance
  | beq | bne | blt | bge | bltu | bgeu => exact .issue hs.branch
  | j | jr => exact .issue hs.jump
  | jal | jalr => exact .issue hs.setReg.jump
  | fcmp => exact .issue hs.setStatWord.setReg.advance
  | ld => exact .issue hs.load
  | st => exact .issue hs.store
  | ldfe | stfe | ldff => exact .issue hs.fullEmpty
  | feset => exact .issue hs.feset
  | amoAdd | amoAnd | amoOr | amoXor | amoMin | amoMax | amoMinu | amoMaxu | amoSwap | amoFadd => exact .issue hs.atomic
  | amoCas => exact .issue (.sync hs (fun _ ht => ht.atomic))
  | fence => exact .issue (.await hs (fun _ ht => .advance (.ite ht.acquire ht)))
  | mig => exact .issue hs.mig
  | tmask => exact .issue hs.tmask
  | fork => exact .issue hs.fork
  | join => exact .issue hs.join
  | yield => exact .issue (.boundary hs (fun _ ht => .ite ht.advance ht.yield))
  | halt => exact .issue hs.halt
  | resamp => exact .issue (.boundary hs (fun _ ht => ht.resamp))
  | wset | wrsysStat | wrsysTm => exact .issue hs.setTh.advance
  | barArrive => exact .issue (.boundary hs (fun _ ht => .barrierArrive ht (fun _ _ hr => hr.setReg.advance)))
  | barWait => exact .issue hs.barrierWait
  | barSync =>
    exact .issue (.ite hs.barrierWait (.boundary hs (fun _ ht => .barrierArrive ht.endRearrive (fun _ _ hr => hr.setTh.barrierWait))))
  | msend => exact .issue hs.msend
  | mwait | dwait => exact .issue (.await hs (fun _ ht => ht.waited.advance))
  | mpop => exact .issue hs.mpop
  | cbwait => exact .issue hs.cbwait
  | cbrel => exact .issue hs.cbrel
  | cbput => exact .issue hs.cbput
  | nqput => exact .issue hs.nqput
  | nqdone => exact .issue hs.nqdone
  | cxsave => exact .issue hs.cxsave
  | cxload => exact .issue hs.cxload
  | stepmark => exact .issue (.boundary hs (fun _ ht => ht.stepmark))
  | vclaim => exact .issue (.ite hs.trap (.ite hs.trap (.await hs (fun _ ht => ht.claimTo))))
  | vrenew => exact .issue (.ite hs.trap (.await hs (fun _ ht => ht.claimTo)))
  | vfree => exact .issue (.ite hs.trap (.await hs (fun _ ht => ht.renegotiate.setTh.advance)))
  | mmode => exact .issue (.ite hs.trap (.await hs (fun _ ht => ht.setStatWord.advance)))
  | vld | vldx => exact .issue hs.vload
  | vst | vstx => exact .issue hs.vstore
  | vadd | vsub | vmul | vmin | vmax | vabs | vneg | vand | vor | vxor | vshl | vshr | vsra => exact .issue hs.vbin
  | vfadd | vfsub | vfmul | vfmin | vfmax | vfdiv => exact .issue hs.vfloat
  | vffma => exact .issue (.ite hs.vfinish hs.vfinish)
  | vcvt | vsel | vbcast | vslide | vperm => exact .issue hs.vfinish
  | vcmp | vpand | vpor | vpnot => exact .issue hs.pfinish
  | vredadd | vredmin | vredmax => exact .issue hs.vscalar
  | vexp2 | vlog2 | vrcp | vrsq | vsqrt | vsinpi | vcospi => exact .issue hs.vspecial
  | vrtri => exact .issue hs.vrtri
  | mop => exact .issue hs.mopIssue
  | bload => exact .issue hs.bload
  | bpass | bpassDrop => exact .issue (.sync hs (fun _ ht => .joinLatch ht.issueSync (fun _ hr => hr.advance)))
  | mzero | fmtset => exact .issue (.ite hs.trap hs.setTh)
  | tbset => exact .issue hs.setCore.advance
  | sclset | pendingBeat => exact .issue hs.setTh
  | crpool => exact .issue (.sync hs (fun _ ht => ht.crpool))
  | crsub => exact .issue (.sync hs (fun _ ht => ht.crsub))
  | crunsub => exact .issue (.sync hs (fun _ ht => ht.crunsub))
  | crskip => exact .issue (.sync hs (fun _ ht => ht.crskip))
  | crpromote => exact .issue (.sync hs (fun _ ht => ht.crpromote))
  | crlap => exact .issue (.sync hs (fun _ ht => (by split; exacts [ht.trap, ht.issueSync.setReg.complete])))
  | crlapW => exact .issue (.sync hs (fun _ ht => ht.crlapW))
  | cpy | cpgx | cpsx | cpmc => exact .issue hs.copyIssue
  | cpclose => exact .issue (.closeBatch hs (fun _ ht => ht.advance))
  | cpwait => exact .issue (.closeBatch hs (fun _ ht => .await ht (fun _ hr => hr.batchWaited.acquire.advance)))
  | cpinval => exact .issue (by split; exacts [hs.trapAt, hs.removeBlocks])
  | cpinvalAll => exact .issue hs.removeBlocks
  | publish => exact .issue (.sync hs (fun _ ht => ht.publish))
  | trap => exact .issue hs.takeTrap
  | eret => exact .issue (.ite hs.trap hs.loadFrame)
  | wfi => exact .issue (.ite hs.trap (.await hs (fun _ ht => ht.advance)))
  | ptsync => exact .issue (.ite hs.trap (.await hs (fun _ ht => ht.dropTranslations.advance)))
  | rdsys => exact .issue (by split; exacts [hs.late, hs.trap])
  | wrsys => exact .issue (.ite (.advance (.ite hs.setCore.stopWrite hs.setCore)) hs.trap)
  | wrsysSegment => exact .issue (.ite hs.trap hs.setTh.advance)
  | wrsysWin | wrsysMcbase | wrsysPmsel | wrsysPmc => exact .issue (.ite hs.trap hs.setCore.advance)
  | wrsysCb => exact .issue (.ite hs.trap (.ite hs.trap hs.setCore.advance))
  | brk => exact .issue (.advance (.ite hs.stopCore hs.appendIf))
  | tmark => exact .issue hs.appendIf.advance
  | tlbinv => exact .issue hs.tlbinv
  | cflush => exact .issue hs.cflush
  | dbgctlStop | dbgctlResume => exact .next hs.stopWrite
  | lineFetch => exact .next hs.fetchDone
  | resultLanding => exact .next hs.land
  | acknowledgement => exact .acknowledgement hs
  | negativeAcknowledgement => exact .negativeAcknowledgement hs
  | remoteRequest => exact .remoteRequest hs
  | pageWalk => exact .next hs.walkDone
  | faultRecord => exact .next hs.recordFault
  | wake => exact .next hs.wake
  | faultHoldExpiry => exact .next hs.holdExpired
  | migrationPack => exact .next hs.packUp
  | arrival => exact .next hs.arrive
  | chunkAllocation => exact .next hs.chunk
  | slotOffer => exact .next hs.offer
  | feRecheckRound => exact .next hs.feRecheck
  | feTimeout => exact .next hs.feExpire
  | requestResend => exact .requestResend hs
  | mailboxArrival => exact .next hs.mailArrive
  | latchQueueStart => exact .next hs.latchStart
  | fillComplete => exact .next hs.fillDone
  | passRound => exact .next hs.passRound
  | mopComplete => exact .next hs.mopDone
  | resampleComplete => exact .next hs.resampleDone
  | copyAccept => exact .next hs.copyTake
  | copyCompletion => exact .next hs.copyFinish
  | publishSwap => exact .next hs.swap
  | writeIndex => exact .next hs.logged.writeIndex
  | nopPacket => exact .next (.startPacket hs (fun _ _ _ _ ht => ht.endPacket))
  | launch => exact .next hs.launch
  | launchReady => exact .next (by split; exacts [hs.launchStep, hs])
  | kernelCompletion => exact .next (by split; exacts [hs.tryComplete, hs])
  | copyPacket => exact .next hs.copyPacket
  | signalWait | barrierAnd => exact .next hs.holdStep
  | signalStore => exact .next (.startPacket hs (fun _ _ _ _ ht => ht.agentWrite.endPacket))
  | signalDecrement => exact .next (.startPacket hs (fun _ _ _ _ ht => ht.update.endPacket))
  | carouselStart | carouselStop | carouselReplace | carouselPeriod => exact .next hs.carPacket
  | segmentRead => exact .next hs.segRead
  | slotOpen => exact .next hs.slotOpen
  | delivery => exact .next hs.deliverTo
  | primitiveBatch => exact .next hs.primitiveBatch
  | weightload => exact .next hs.weightload
  | shardTimeout => exact .next hs.shardLate
  | loadBarrierTimeout => exact .next hs.loadLate
  | loadBarrier => exact .next (by split; exacts [.ite hs (.loadDone (.foldl hs fun _ _ ht => ht.logged)), hs])
  | weightReplace => exact .next hs.replaceStep
  | traceOpen | traceClose => exact .next hs.tracePacket
  | gangAck => exact .next (.linkMsg hs (fun _ ht => .onGang ht (fun _ _ => .ite ht ht.setKernel) (fun _ _ => ht.setLaunch)))
  | gangAbort => exact .next (.linkMsg hs (fun _ ht => .onGang ht (fun _ _ => .ite ht.abortKernel ht) (fun _ _ => .ite ht.abortLaunch ht)))
  | gangTimeout => exact .next (.onGang hs (fun _ _ => .ite hs.abortKernel hs) (fun _ _ => hs))
  | gangDone => exact .next (.linkMsg hs (fun _ ht => .onGang ht (fun _ _ => ht.setKernel.tryComplete) (fun _ _ => ht.setLaunch)))
  | gangPhase => exact .next (.linkMsg hs (fun _ ht => .onGang ht (fun _ _ => ht.checkKernel) (fun _ _ => ht.setLaunch)))
  | preEmption => exact .next hs.preempt
  | graceExpiry => exact .next hs.graceOver
  | resume => exact .next hs.resume
  | thermalMigration => exact .next hs.thermal
  | clcPoll => exact .next hs.poll
  | containment => exact .next hs.contain
  | scrub => exact .next hs.scrub
  | timeCorrection => exact .next hs.logged.correct
  | samplingPulse => exact .next hs.sample
  | pmcOverflow => exact .next hs.overflow
  | flitRetry => exact .next hs
  | portDown | portTrained => exact .next hs.portGoes
  | linkDown => exact .next hs.linkFault
  | reset => exact .next hs.boot
  | createPartition => exact .next (.request hs (fun _ ht => ht.addPartition))
  | destroyPartition => exact .next (.request hs (fun _ ht => ht.endPartition))
  | createContext => exact .next (.request hs (fun _ ht => ht.addContext))
  | createQueue => exact .next (.request hs (fun _ ht => ht.addQueue))
  | resumeQueue => exact .next (.request hs (fun _ ht => ht.setQueueState))
  | resetQueue => exact .next (.request hs (fun _ ht => ht.queueReset))
  | killContext => exact .next (.request hs (fun _ ht => ht.kill))
  | quote => exact .next (.request hs (fun _ ht => ht.sendQuote))
  | liveUpdate => exact .next (.request hs (fun _ ht => ht.replaceBobbin))
  | version | gracePeriod | retiredClusters => exact .next hs.answerTrap
  | memorySliceAccess => exact .memorySliceAccess hs
  | destroyContext => exact .next hs.destroyCtx
  | destroyQueue => exact .next hs.setQueueState
  | offsetAbsorbed => exact .next hs.absorbed
  | sliceOrSwitchFailure => exact .next (.ite hs (.ite hs hs))
  | shardArrival => exact .next hs.logged.shardCame

/-! ### Machine/Micro -/

theorem State.MemOk.remotePut {a : Nat} {bytes : List Byte} (hs : s.MemOk) :
    ({ s with rmem := s.rmem.put a bytes } : State).MemOk :=
  ⟨hs.1, Memory.wf_put bytes _ _ hs.2⟩
theorem State.MemOk.micro {m : Micro} (hs : s.MemOk) : (s.micro m).MemOk := by
  cases m with
  | copyWord => exact hs.copyWord
  | store => exact hs.logged.firmPut
  | remoteStore => exact hs.remotePut
  | dropCode | dropConst => exact hs.setCluster
  | sensor => exact hs.sense
  | spare cl => exact (hs.spareCluster : (s.spareCluster cl).MemOk)
  | grace | mapRange | aperture => exact hs.setContext
  | share => exact hs.giveShare
  | refuse => exact hs.farRefusal
  | threshold | path => exact hs
  | number | part | logging | replay => exact .ite hs hs
  | sendLost k =>
    dsimp only [State.micro]
    split
    exacts [.ite hs hs, hs]
  | ecc => exact hs.eccLine
  | mopSteps => exact hs.mopRun
  | gangTag => exact hs.gangTag

/-! ### Machine/Turn -/

theorem State.MemOk.depEdge {c : Nat} {i : Fin 16} {t : Thread} (hs : s.MemOk) : (s.depEdge c i t).MemOk := by
  unfold State.depEdge
  dsimp only
  split
  · split
    exacts [.setSlot (.ite hs.edge hs), .ite hs.edge hs]
  · exact hs
theorem State.MemOk.wakeSlot {c : Nat} {i : Fin 16} (hs : s.MemOk) : (s.wakeSlot c i).MemOk := by
  unfold State.wakeSlot
  dsimp only
  split
  · exact hs
  · split
    · exact hs
    · split
      · exact .setSlot (by split; exacts [hs.depEdge, hs])
      · split
        exacts [hs.depEdge, hs]
theorem State.MemOk.seekLine (hs : s.MemOk) : s.seekLine.MemOk := by
  unfold State.seekLine
  dsimp only
  split
  · exact hs.trapAt
  · split
    exacts [hs.lineCame, hs.parkBefore]
theorem State.MemOk.readySlot {i : Fin 16} (hs : s.MemOk) : (s.readySlot i).MemOk := by
  unfold State.readySlot
  dsimp only
  split
  · exact hs
  · refine .ite hs ?_
    refine .ite (.ite hs (.seekLine hs)) ?_
    split
    · exact .ite hs (.seekLine hs)
    · split
      exacts [.parkBefore (.ite hs (.seekLine hs)), .ite hs (.seekLine hs)]
theorem State.MemOk.unlatch (hs : s.MemOk) : s.unlatch.MemOk := hs
theorem OutMemOk.issueOne {l : Line} {n : Nat} (hs : s.MemOk) : OutMemOk (s.issueOne l n) := by
  unfold State.issueOne
  split
  · exact .next hs.trap
  · exact .mapOut (.exec hs) fun _ ht => ht.unlatch
theorem State.MemOk.skipSecond {pc : Word} (hs : s.MemOk) : (s.skipSecond pc).MemOk := by
  unfold State.skipSecond
  split
  exacts [.ite hs.setTh hs, hs]
theorem State.MemOk.keepSources {pc : Word} {src : Sources} (hs : s.MemOk) : (s.keepSources pc src).MemOk := by
  unfold State.keepSources
  split
  exacts [.ite hs.setTh hs, hs]
theorem State.MemOk.rejoin {u : Thread} {src : Sources} (hs : s.MemOk) : (s.rejoin u src).MemOk := by
  unfold State.rejoin
  split
  · exact hs
  · split
    all_goals exact hs.setTh
theorem OutMemOk.issueTwo {l : Line} {n : Nat} (hs : s.MemOk) : OutMemOk (s.issueTwo l n) := by
  unfold State.issueTwo
  split
  · exact .next hs.trap
  · split
    · exact .mapOut (.exec hs) fun _ ht => ht.unlatch
    · refine .bindOut (.exec hs) fun t ht => .ite (.next ht.skipSecond) ?_
      split
      · exact .next ht
      · exact .ite (.mapOut (.exec ht) fun _ hr => hr.unlatch)
          (.ite (.mapOut (.exec ht.setTh) fun _ hr => hr.rejoin) (.next ht.keepSources))
theorem OutMemOk.issueBundle {l : Line} {n : Nat} (hs : s.MemOk) : OutMemOk (s.issueBundle l n) := by
  unfold State.issueBundle
  split
  exacts [.next hs.trap, .issueOne hs, .issueTwo hs]
theorem State.MemOk.mark (hs : s.MemOk) : s.mark.MemOk := hs.setCore
theorem State.MemOk.beatTurn {t : Thread} (hs : s.MemOk) : (s.beatTurn t).MemOk := hs.mark.setTh.lendBlocks
theorem State.MemOk.lendIf {b : Bool} (hs : s.MemOk) : (s.lendIf b).MemOk := .ite hs.lendBlocks hs
theorem OutMemOk.turnOf {t : Thread} (hs : s.MemOk) : OutMemOk (s.turnOf t) := by
  unfold State.turnOf
  refine .ite (.next hs) (.ite (.next hs.beatTurn) ?_)
  split
  · exact .next hs
  · dsimp only
    split
    · exact .next hs.setTh.stopCore
    · exact .ite (.next hs.beatTurn.count) (.issueBundle hs.mark.setTh.count.lendIf)
theorem State.MemOk.resumeSlot {i : Fin 16} (hs : s.MemOk) : (s.resumeSlot i).MemOk := by
  unfold State.resumeSlot
  dsimp only
  split
  · exact hs
  · split
    · exact hs
    · refine .ite ?_ hs
      split
      · next he => exact OutMemOk.issueBundle (s := { s with slot := i }) hs _ he
      · exact hs
theorem State.MemOk.tendSlot {c : Nat} {i : Fin 16} (hs : s.MemOk) : (s.tendSlot c i).MemOk :=
  .ite (.resumeSlot (.wakeSlot hs)) (.readySlot (.resumeSlot (.wakeSlot hs)))
theorem State.MemOk.beginTurn {c : Nat} (hs : s.MemOk) : (s.beginTurn c).MemOk := .ite hs.setCore.count hs.setCore
theorem State.MemOk.stoppedTurn {c : Nat} {i : Fin 16} (hs : s.MemOk) :
    (s.stoppedTurn c i).MemOk := .ite hs.setCore.setTh.lendBlocks hs
theorem State.MemOk.atSlot {i : Fin 16} (hs : s.MemOk) : ({ s with slot := i } : State).MemOk := hs
theorem State.MemOk.atPhase {n : Nat} (hs : s.MemOk) : ({ s with phase := n } : State).MemOk := hs
theorem OutMemOk.serveSlot {c : Nat} {i : Fin 16} (hs : s.MemOk) : OutMemOk (s.serveSlot c i) := by
  unfold State.serveSlot
  extract_lets own k s0 s1
  have h1 : s1.MemOk := hs.setCore.tendSlot.atSlot
  clear_value s1
  refine .ite (.next h1) ?_
  split
  · exact .next h1
  · exact .ite (.next (.stoppedTurn h1)) (.turnOf h1)
theorem OutMemOk.service {c : Nat} {o : Option (Fin 16)} (hs : s.MemOk) : OutMemOk (s.service c o) := by
  obtain h | ⟨i, -, h⟩ := s.service_cases c o
  · rw [h]
    exact .next hs.atPhase.beginTurn
  · rw [h]
    exact .serveSlot hs.atPhase
theorem State.MemOk.tick (hs : s.MemOk) : s.tick.MemOk := .payOwed (.foldl hs fun _ _ ht => ht.count)
theorem State.MemOk.retry (hs : s.MemOk) : s.retry.MemOk := .retryResets (.ite hs hs.retryUpdates)
theorem State.MemOk.settle (hs : s.MemOk) : s.settle.MemOk := hs.retry.answerZeros
theorem State.MemOk.outState {o : Out} (hs : s.MemOk) (ho : OutMemOk o) : (outState s o).MemOk := by
  cases o with
  | next t => exact ho t rfl
  | fault | refused => exact hs
/-- A step that the hardware may take by itself keeps the form. -/
def KeepsMemOk (f : State → Out) : Prop := ∀ t, t.MemOk → OutMemOk (f t)
theorem keepsMemOk_exec (i : Instr) : KeepsMemOk (exec i) := fun _ ht => .exec ht
theorem State.keepsMemOk_of_mem_ownSteps (s : State) : ∀ f ∈ s.ownSteps, KeepsMemOk f.2 := by
  have k := keepsMemOk_exec
  have hland (c i : Nat) : ∀ f ∈ (match s.threadAt c (Fin.ofNat 16 i) with
      | some t => (List.range t.pending.length).map (fun k => (s.landPlace c i k, execResultLanding c i k))
      | none => []), KeepsMemOk f.2 := by
    split
    · exact List.forall_mem_map.mpr fun n _ => k (.resultLanding c i n)
    · exact List.forall_mem_nil _
  have hword (d e n r w : Nat) : KeepsMemOk fun s => .next (s.copyWord d e n r w) := fun _ ht => .next ht.copyWord
  unfold State.ownSteps
  simp only [List.forall_mem_append, List.forall_mem_map, List.forall_mem_cons, List.forall_mem_flatMap, List.not_mem_nil,
    false_implies, implies_true, and_assoc, and_true]
  exact ⟨fun c _ i _ => k (.lineFetch c.1 i), fun c _ i _ => k (.pageWalk c.1 i), fun n _ => k (.memorySliceAccess n),
    fun c _ i _ => hland c.1 i,
    fun m _ => ⟨k (.remoteRequest m), k (.acknowledgement m), k (.negativeAcknowledgement m), k (.mailboxArrival m), k (.requestResend m)⟩,
    fun c _ i _ => k (.mopComplete c.1 i), fun c _ => ⟨k (.latchQueueStart c.1), k (.fillComplete c.1)⟩,
    fun c _ i _ => k (.faultRecord c.1 i), fun c _ i _ => k (.migrationPack c.1 i), fun n _ => k (.arrival n),
    fun c _ => ⟨k (.slotOffer c.1), k (.chunkAllocation c.1 false true), k (.chunkAllocation c.1 true true)⟩,
    fun n _ => k (.resampleComplete n), fun c _ i _ => k (.copyAccept c.1 i),
    fun d _ e _ p _ => ⟨k (.copyCompletion d e p.2), fun r _ w _ => hword d e p.2 r w⟩,
    fun c _ i _ => k (.publishSwap c.1 i),
    fun q _ => ⟨k (.nopPacket q.1), k (.launch q.1), k (.copyPacket q.1), k (.signalWait q.1), k (.signalStore q.1),
      k (.signalDecrement q.1), k (.barrierAnd q.1), k (.carouselStart q.1), k (.carouselStop q.1), k (.carouselReplace q.1),
      k (.carouselPeriod q.1), k (.weightload q.1), k (.traceOpen q.1)⟩,
    fun n _ => k (.launchReady n), fun p _ => ⟨k (.segmentRead p.1 p.2), k (.slotOpen p.1 p.2)⟩,
    fun cl _ => ⟨k (.primitiveBatch cl.1), k (.passRound cl.1)⟩, fun d _ p _ cl _ => k (.delivery d p.2 cl),
    fun p _ => k (.weightReplace p.2), fun x _ => ⟨k (.samplingPulse x.1), fun cl _ => k (.preEmption x.1 cl)⟩,
    fun c _ i _ => k (.graceExpiry c.1 i), fun c _ => k (.thermalMigration c.1), fun _ _ c _ => k (.thermalMigration c),
    fun c _ i _ => k (.version c.1 i), fun c _ i _ => k (.gracePeriod c.1 i), fun c _ i _ => k (.retiredClusters c.1 i),
    k .offsetAbsorbed, fun q _ => k (.traceClose q.1)⟩
theorem State.MemOk.firstChange {l : List (Nat × (State → Out))} {t : State} (hs : s.MemOk) (hl : ∀ f ∈ l, KeepsMemOk f.2)
    (he : s.firstChange l = some t) : t.MemOk := by
  obtain ⟨f, hf, hr⟩ := List.exists_of_findSome?_eq_some he
  dsimp only at hr
  split at hr
  · cases hr
  · obtain rfl := Option.some.inj hr
    exact hs.outState (hl f hf s hs)
theorem State.MemOk.takeFor {q : Producer} (hs : s.MemOk) : (s.takeFor q).MemOk := by
  unfold State.takeFor
  split
  · exact hs
  · refine .foldl hs fun t z ht => ?_
    dsimp only
    split
    · next k n _ =>
      have hp := ht.prepare (k := k)
      split <;> next he => rw [he] at hp; exact hp.setCommand
    · exact ht
  · split
    exacts [hs.primitiveBatch, hs]
theorem State.MemOk.dueProducer {t : State} (hs : s.MemOk) (he : s.dueProducer = some t) : t.MemOk := by
  obtain ⟨p, -, hp⟩ := List.exists_of_findSome?_eq_some he
  obtain ⟨b, -, hb⟩ := List.exists_of_findSome?_eq_some hp
  split at hb
  · cases hb
  · split at hb
    · cases hb
    · split at hb
      · dsimp only at hb
        split at hb
        · cases hb
        · obtain rfl := Option.some.inj hb
          exact hs.takeFor
      · cases hb
theorem State.MemOk.dueReplay {t : State} (hs : s.MemOk) (he : s.dueReplay = some t) : t.MemOk := by
  unfold State.dueReplay at he
  split at he
  · cases he
  · split at he
    · cases he
    · dsimp only at he
      split at he <;> obtain rfl := Option.some.inj he
      · exact .ite hs (.outState hs (.exec hs))
      · exact .firmPut (.logged hs)
      · exact hs
theorem forall_mem_ite_nil {α : Type} {p : α → Prop} {c : Prop} [Decidable c] {l : List α} :
    (∀ a ∈ (if c then l else []), p a) ↔ (c → ∀ a ∈ l, p a) := by
  split <;> simp [*]
theorem State.keepsMemOk_of_mem_deadlines (s : State) : ∀ f ∈ s.deadlines, KeepsMemOk f.2 := by
  have k := keepsMemOk_exec
  have hend (x : Nat) : KeepsMemOk fun s => .next (s.contained x) := fun _ ht => .next ht.contained
  unfold State.deadlines
  simp only [List.forall_mem_append, List.forall_mem_map, List.forall_mem_flatMap, List.forall_mem_singleton, forall_mem_ite_nil,
    List.mem_filterMap, forall_exists_index, and_imp, Option.ite_none_right_eq_some, Option.some.injEq, and_assoc]
  refine ⟨fun f m _ _ h => h ▸ k (.requestResend m.2), fun _ n _ => k (.linkDown n), fun _ c _ i _ => k (.graceExpiry c.1 i),
    fun n _ => k (.gangTimeout n), fun _ => k .offsetAbsorbed,
    fun l _ => ⟨fun n _ => k (.shardTimeout l.2 n), k (.loadBarrierTimeout l.2)⟩,
    fun f x _ _ h => h ▸ k (.samplingPulse x.1), fun f x _ _ h => h ▸ hend x.1⟩
theorem OutMemOk.before {n : Nat} {o : Out} (hs : s.MemOk) (h : s.before n = some o) : OutMemOk o := by
  obtain ⟨c, w, -, rfl⟩ | ⟨c, -, rfl⟩ | ⟨c, i, -, rfl⟩ | ⟨a, r, -, rfl⟩ | ⟨t, ht, rfl⟩ | ⟨-, k, -, rfl⟩ | ⟨-, t, ht, rfl⟩ :=
    State.before_cases h
  · exact .next hs.atPhase.feRecheck
  · exact .next hs.atPhase.offer
  · exact .service hs
  · exact .next (.ownAtomic hs)
  · obtain ht | ht := ht
    · exact .next (hs.dueReplay ht).atPhase
    · exact .next (hs.dueProducer ht).atPhase
  · exact .next hs.atPhase.tryComplete
  · refine .next (hs.firstChange (fun f hf => ?_) ht)
    exact s.keepsMemOk_of_mem_deadlines f (List.mem_of_mem_filter hf)
theorem OutMemOk.endCycle (hs : s.MemOk) : OutMemOk s.endCycle := by
  unfold State.endCycle
  split
  · next o ho => exact .before hs ho
  · exact .next hs.tick
theorem OutMemOk.idle (hs : s.MemOk) : OutMemOk s.idle := by
  unfold State.idle
  extract_lets due
  split
  · next t ht =>
    have h : t.MemOk := by
      split at ht
      · exact hs.firstChange (fun f hf => s.keepsMemOk_of_mem_ownSteps f (List.mem_of_mem_filter hf)) ht
      · cases ht
    cases hb : s.before t.phase with
    | none => exact .next h
    | some o => exact .before hs hb
  · exact .endCycle hs
theorem OutMemOk.item {a : Agenda} (hs : s.MemOk) : OutMemOk (s.item a) := by
  refine .ite (.next hs) ?_
  split
  · split
    · exact .serveSlot hs
    · exact .next hs
  · exact .next hs.tick
  · exact .next hs
  · exact .ite (.next hs) (.exec hs)
  · exact .next hs.micro
theorem OutMemOk.advanceAgenda (hs : s.MemOk) : OutMemOk s.advanceAgenda := by
  cases h : s.agenda with
  | nil => 
    rw [State.advanceAgenda, h]
    exact .idle hs
  | cons a r =>
    cases ha : s.ahead a with
    | none =>
      rw [State.advanceAgenda_item h ha]
      exact .item hs
    | some o =>
      rw [State.advanceAgenda_ahead h ha]
      obtain ⟨-, rfl⟩ | ⟨-, hb⟩ := State.ahead_cases ha
      · exact .endCycle hs
      · exact .before hs hb

theorem OutMemOk.step (hs : s.MemOk) : OutMemOk (step s) := .mapOut (.advanceAgenda hs) fun _ ht => ht.settle

/-- Settles O60: from every state with canonical memory, every step of the agenda or of the default order keeps it. -/
theorem memoryStaysCanonical : Obligations.MemoryStaysCanonical := by
  intro s t hs ht
  exact OutMemOk.step hs t ht

end Sys2Proof.Machine
end

section
/-! The checks of an access (R135). -/

namespace Sys2Proof.Machine

/-- R132: the kind of a descriptor. -/
theorem kdKind_eq (w : Word) : kdKind w = w.toNat / 2 ^ 62 := by
  have h := w.isLt
  rw [kdKind, bits_eq_div_mod]
  omega

section
variable {s : State} {t : Thread} {ea : Word} {n : Nat} {r : Right} {fe : Bool}

/-- R135, check 2: the kind of the segment, or a right that its descriptor does not grant. -/
theorem State.check_rights
    (h : kdKind t.kd[segIndex ea] = 0 ∨ kdKind t.kd[segIndex ea] = 3 ∨ (fe = true ∧ kdKind t.kd[segIndex ea] = 1) ∨
      grants t.kd[segIndex ea] r = false) : s.check t ea n r fe = .error kSegRights := by
  simp only [State.check, Bool.not_eq_true', if_pos h]

/-- R135, checks 3 and 4, of an access that has the right to a segment of device memory. -/
theorem State.check_device (hk : kdKind t.kd[segIndex ea] = 1) (hfe : fe = false) (hg : grants t.kd[segIndex ea] r = true) :
    s.check t ea n r fe =
      (let a := t.kb[segIndex ea].toNat + segOffset ea
       if segOffset ea + n - 1 > kdLimit t.kd[segIndex ea] ∨ a + n - 1 ≥ 2 ^ 57 then .error kSegLimit
       else if a % n ≠ 0 then .error kMisaligned else .ok (.device a)) := by
  unfold State.check
  rw [if_neg (by simp only [hk, hfe, hg]; decide), if_pos hk]
  exact (ite_or _ _ _ _).symm

/-- R135, checks 3 and 4, of an access that has the right to a segment of local stores. -/
theorem State.check_store (hk : kdKind t.kd[segIndex ea] = 2) (hg : grants t.kd[segIndex ea] r = true) :
    s.check t ea n r fe =
      (let a := t.kb[segIndex ea].toNat + segOffset ea
       if segOffset ea + n - 1 > kdLimit t.kd[segIndex ea] ∨ a + n - 1 ≥ 2 ^ 30 ∨ s.coreOk t.ctx (a / 2 ^ 18) = false ∨
          s.coreOk t.ctx ((a + n - 1) / 2 ^ 18) = false then .error kSegLimit
       else if a % n ≠ 0 then .error kMisaligned else .ok (.store (a / 2 ^ 18) (a % 2 ^ 18))) := by
  unfold State.check
  rw [if_neg (by simp only [hk, hg]; simp), if_neg (show ¬kdKind t.kd[segIndex ea] = 1 by omega)]
  simp only [Bool.not_eq_true']
  exact (ite_or _ _ _ _).symm
end

/-- Settles O8: where check 2 passes, the kind is 1 or 2, and the checks of its space decide. -/
theorem accessChecks : Obligations.AccessChecks := by
  intro s t ea n r fe _ kd a kind granted bad2 bad3
  have hkind : kdKind t.kd[segIndex ea] = kind := kdKind_eq _
  have hgrant : grants t.kd[segIndex ea] r = granted := by cases r <;> rfl
  have hlimit : kdLimit t.kd[segIndex ea] = kd % 2 ^ 57 := kdLimit_eq _
  have hlt : kind < 4 := Nat.div_lt_of_lt_mul (t.kd[segIndex ea]).isLt
  have pass : ¬bad2 → (kind = 1 ∧ fe = false ∨ kind = 2) ∧ granted = true := by
    intro h
    simp only [bad2, not_or, not_and, Bool.not_eq_false] at h
    obtain ⟨h0, h3, hfe, hg⟩ := h
    refine ⟨?_, hg⟩
    obtain hk | hk : kind = 1 ∨ kind = 2 := by omega
    · exact .inl ⟨hk, by simpa [hk] using hfe⟩
    · exact .inr hk
  have device (h : ¬bad2) (hk : kind = 1) : s.check t ea n r fe =
      if bad3 then .error 21 else if a % n ≠ 0 then .error 20 else .ok (.device a) := by
    obtain ⟨⟨-, hfe⟩ | h2, hg⟩ := pass h
    · rw [State.check_device (hkind.trans hk) hfe (hgrant.trans hg), hlimit]
      simp only [bad3, hk, true_and, OfNat.one_ne_ofNat, false_and, or_false]
      rfl
    · omega
  have store (h : ¬bad2) (hk : kind = 2) : s.check t ea n r fe =
      if bad3 then .error 21 else if a % n ≠ 0 then .error 20 else .ok (.store (a / 2 ^ 18) (a % 2 ^ 18)) := by
    rw [State.check_store (hkind.trans hk) (hgrant.trans (pass h).2), hlimit]
    simp only [bad3, hk, true_and, OfNat.ofNat_ne_one, false_and, false_or]
    rfl
  have spaces (h : ¬bad2) : kind = 1 ∨ kind = 2 := (pass h).1.imp_left And.left
  refine ⟨fun h => ?_, fun h h3 => ?_, fun h h3 hn => ?_, fun h h3 hn hk => ?_, fun h h3 hn hk => ?_⟩
  · refine State.check_rights ?_
    rw [hkind, hgrant]
    exact h
  · obtain hk | hk := spaces h
    · rw [device h hk, if_pos h3]
    · rw [store h hk, if_pos h3]
  · obtain hk | hk := spaces h
    · rw [device h hk, if_neg h3, if_pos hn]
    · rw [store h hk, if_neg h3, if_pos hn]
  · rw [device h hk, if_neg h3, if_neg (not_not_intro hn)]
  · rw [store h hk, if_neg h3, if_neg (not_not_intro hn)]

end Sys2Proof.Machine
end

section
/-! What loads, stores and atomics leave, said once: the bytes of a number in memory (R138), a loaded value in a register (R150), and the
end of an instruction whose result is outstanding, where it acquires and where it does not (R92, R166). -/

namespace Sys2Proof.Machine

/-! ### The bytes of a number -/

theorem getElem_leBytes (n : Nat) : ∀ (v k : Nat) (h : k < (leBytes v n).length), ((leBytes v n)[k]).toNat = v / 256 ^ k % 256 := by
  induction n with
  | zero => intro v k h; exact absurd h (Nat.not_lt_zero k)
  | succ n ih =>
    intro v k h
    cases k with
    | zero => simp [leBytes]
    | succ k =>
      rw [Nat.pow_succ', ← Nat.div_div_eq_div_mul]
      exact ih (v / 256) k (by simpa [leBytes] using h)

theorem Memory.read_putNum_inside (m : Memory) (a v : Nat) {n k : Nat} (h : k < n) :
    ((m.putNum a n v).read (a + k)).toNat = v / 256 ^ k % 256 := by
  have hk : k < (leBytes v n).length := by rwa [leBytes_length]
  rw [Memory.putNum, Memory.read_put_inside _ m a k hk, getElem_leBytes]

theorem Memory.read_putNum_outside (m : Memory) (v : Nat) {a n x : Nat} (h : x < a ∨ a + n ≤ x) : (m.putNum a n v).read x = m.read x :=
  Memory.read_put_outside _ m a x (by rwa [leBytes_length])

/-- R150: a loaded number is negative where its top bit is set: where its double overflows. -/
theorem extend_eq {n x : Nat} (hn : 0 < n) (hx : x < 2 ^ (8 * n)) (signed : Bool) :
    extend n signed x = if signed = true ∧ 2 ^ (8 * n) ≤ 2 * x then BitVec.ofInt 64 ((x : Int) - 2 ^ (8 * n)) else BitVec.ofNat 64 x := by
  have htop : x.testBit (8 * n - 1) = true ↔ 2 ^ (8 * n) ≤ 2 * x := by
    obtain ⟨m, rfl⟩ : ∃ m, n = m + 1 := ⟨n - 1, by omega⟩
    have hpow : 2 ^ (8 * (m + 1)) = 2 ^ (8 * m + 7) * 2 := Nat.pow_succ ..
    have hexp : 8 * (m + 1) - 1 = 8 * m + 7 := by omega
    rw [hpow] at hx ⊢
    rw [hexp]
    constructor
    · intro h
      have := Nat.ge_two_pow_of_testBit h
      omega
    · exact fun h => Nat.testBit_of_two_pow_le_and_two_pow_add_one_gt (by omega) (by omega)
  simp only [extend, htop]

/-! ### Ends that leave a result outstanding -/

section
variable {b s : State} {u : Thread}

/-- A state that differs in its issuing thread ends its instruction as the one it differs from. -/
theorem passed_of_onlyThread {w : Thread} (ho : OnlyThread b s) (hf : ∀ f, s.file f = b.file f) (hk : u.Kept w) (hg : w.g = s.th.g)
    (h0 : w.stage = 0) : Passed b u w.pc (s.setTh w) := by
  refine ⟨⟨w, State.thread_setTh _ _, hk, rfl, h0⟩, fun f => ?_, ho.setTh w⟩
  rw [State.file_setTh_same s w hg, hf]
  simp [written, discards]

/-- R166: an acquire empties the constant cache, and leaves the difference. -/
theorem OnlyThread.acquire (h : OnlyThread b s) (hu : s.th.uid = b.th.uid) : OnlyThread b.refreshed s.acquire := by
  obtain ⟨hrest, hothers, hcore, hslots⟩ := h
  refine ⟨?_, hothers, hcore, hslots⟩
  unfold State.acquire State.acquireFor
  rw [hu]
  conv_lhs => rw [hrest]
  rfl

/-- R92, R166: a load or an atomic ends with its result outstanding, and an acquire holds its thread until it lands. -/
theorem passed_finishLoad (ho : OnlyThread b s) (hf : ∀ f, s.file f = b.file f) (hk : u.Kept s.th) (hu : s.th.uid = b.th.uid)
    (d : ResultDst) (vals : List (Nat × Word)) (missing : Nat) (dep : Option (Fin 8)) (acq : Bool) (bank : Option Nat) :
    Passed (if acq then b.refreshed else b) ((u.pend d vals missing dep bank).landing acq u.nextSeq) s.nextPc
      (s.finishLoad d vals missing dep acq bank) := by
  have hseq : s.th.nextSeq = u.nextSeq := by
    unfold Thread.Kept at hk
    exact (congrArg Thread.nextSeq hk :)
  have hpend : (u.pend d vals missing dep bank).Kept (s.th.pend d vals missing dep bank).advance := by
    unfold Thread.Kept at *
    rw [hk]
    rfl
  cases acq with
  | false => exact passed_of_onlyThread ho hf hpend rfl rfl
  | true =>
    refine passed_of_onlyThread (w := { (s.th.pend d vals missing dep bank).advance with st := .parked (.landing s.th.nextSeq) })
      (ho.acquire hu) hf ?_ rfl rfl
    rw [hseq]
    unfold Thread.Kept at *
    exact congrArg (fun w : Thread => { w with st := .parked (.landing u.nextSeq) }) hpend
end

end Sys2Proof.Machine
end

section
/-! Loads and stores of the issuing core's own local store (R138, R150 to R152). -/

namespace Sys2Proof.Machine

/-! ### Size codes and offsets (R131, R150) -/

theorem exec_ld (s : State) (size : BitVec 4) (d a os : Field) (off : BitVec 17) : exec (.ld size d a os off) s =
    issue s (s.load (2 ^ (size.toNat % 4)) (size.getLsbD 2) d (s.reg a + off.signExtend 64) os) := by
  rw [← sizeBytes_eq]
  rfl
theorem exec_st (s : State) (size : BitVec 4) (os a b : Field) (off : BitVec 17) : exec (.st size os a b off) s =
    issue s (s.store (2 ^ (size.toNat % 4)) (s.reg a + off.signExtend 64) (s.reg b) os) := by
  rw [← sizeBytes_eq]
  rfl

/-! ### The own local store -/

/-- R151: a load of the own local store, an acquire or not. -/
theorem State.load_own {s : State} {n o : Nat} {ea : Word} (hr : s.th.replay = none)
    (hc : s.check s.th ea n .read false = .ok (.store s.cur o)) (hl : listClosed (s.core s.cur) o n = false)
    (hw : s.unwatched ea n false) (signed : Bool) (d os : Field) :
    s.load n signed d ea os =
      s.finishLoad (.scalar d) [(0, Machine.extend n signed ((s.core s.cur).ls.num o n))] 0 none (osOrder os).acquires := by
  simp [State.load, State.eaOf_of_no_replay hr, State.place_of_no_replay hr, hc, State.lsRead, hl, State.watch_of_unwatched hw]

/-- R152, R165: a store whose check passes is performed once its release conditions are met. -/
theorem State.store_own {s : State} {n o : Nat} {ea v : Word} {os : Field} (h0 : s.th.stage = 0)
    (hc : s.check s.th ea n .write false = .ok (.store s.cur o)) (hl : listClosed (s.core s.cur) o n = false)
    (hw : s.unwatched ea n true) (ho : s.released os) :
    s.store n ea v os = (s.withLs ((s.core s.cur).ls.putNum o n v.toNat)).advance := by
  have hwrite : (s.lsWrite o n v.toNat).unwatched ea n true := by
    have hcore : (s.lsWrite o n v.toNat).core s.cur = { s.core s.cur with ls := (s.core s.cur).ls.putNum o n v.toNat } :=
      State.core_setCore_self ..
    unfold State.unwatched
    rw [show (s.lsWrite o n v.toNat).cur = s.cur from rfl, hcore]
    exact hw
  have hgo : ((s.lsWrite o n v.toNat).watch ea n true).advance = (s.withLs ((s.core s.cur).ls.putNum o n v.toNat)).advance :=
    congrArg State.advance (State.watch_of_unwatched hwrite)
  cases hrel : (osOrder os).releases with
  | false => simp [State.store, h0, hc, hl, hrel, hgo]
  | true =>
    have hres : s.resolved s.cur s.th (.release (osScope os)) = true := ho hrel
    simp [State.store, h0, hc, hl, hrel, State.await_resolved _ hres, hgo]

/-- Settles O10: the load's result is the number in its bytes, extended; the store's bytes are its value's. -/
theorem localAccesses : Obligations.LocalAccesses := by
  refine ⟨?_, ?_⟩
  · intro s size d a os off o hs hr ea n x v acq hc hl hw
    have hv : extend n (size.getLsbD 2) x = v := extend_eq (Nat.two_pow_pos _) (Memory.num_lt _ _ _) _
    refine completes_of_issue hs (exec_ld ..) ?_
    rw [State.load_own hr hc hl hw, hv]
    exact passed_finishLoad (OnlyThread.refl s) (fun _ => rfl) s.th.kept_refl rfl _ _ _ _ _ none
  · intro s size a b os off o hs h0 ea n hc hl hw ho
    refine completes_of_issue hs (exec_st ..) ?_
    rw [State.store_own h0 hc hl hw ho]
    have hls (m : Memory) : ((s.withLs m).advance.core s.cur).ls = m :=
      (congrArg CoreState.ls (State.core_setTh_self (s.withLs m) _)).trans (congrArg CoreState.ls (State.core_setCore_self ..))
    refine ⟨⟨fun k hk => ?_, fun x hx => ?_⟩, _, passed_base ?_⟩
    · rw [hls, Memory.read_putNum_inside _ _ _ hk]
    · rw [hls, Memory.read_putNum_outside _ _ hx]
    · simp [State.th, State.thread, State.threadAt, State.withLs]

end Sys2Proof.Machine
end

section
/-! Loads and stores of device memory (R137, R140, R151, R152). -/

namespace Sys2Proof.Machine

/-! ### Acceptance (R140) -/

section
variable {s : State} {ea : Word} {dva : Nat} {write : Bool}

theorem State.needPage_hit {h : Home} (hh : s.hit (clusterOf s.cur) s.th.ctx dva write = some h) (access : Nat) (k : Home → State) :
    s.needPage ea dva write access k = k h := by
  simp [State.needPage, hh]

theorem State.needPage_miss (hh : s.hit (clusterOf s.cur) s.th.ctx dva write = none) (access : Nat) (k : Home → State) :
    s.needPage ea dva write access k = (s.setTh { s.th with walk := some ⟨ea, dva, write, access⟩ }).park .walk := by
  simp [State.needPage, hh]
end

/-! ### Stores (R152) -/

/-- R152: the access that a store of the issuing thread sends. -/
def State.storeAccess (s : State) (h : Home) (ea : Word) (dva n : Nat) (v : Word) : Access :=
  { s.mkAccess .store h ea dva n with data := v }

theorem State.store_device {s : State} {n dva : Nat} {ea v : Word} {os : Field} {h : Home} (h0 : s.th.stage = 0)
    (hc : s.check s.th ea n .write false = .ok (.device dva)) (hh : s.hit (clusterOf s.cur) s.th.ctx dva true = some h)
    (hw : s.unwatched ea n true) (ho : s.released os) : s.store n ea v os = (s.send (s.storeAccess h ea dva n v)).advance := by
  have hgo : s.needPage ea dva true 1 (fun h => ((s.watch ea n true).send { s.mkAccess .store h ea dva n with data := v }).advance) =
      (s.send (s.storeAccess h ea dva n v)).advance := by
    rw [State.needPage_hit hh, State.watch_of_unwatched hw]
    rfl
  cases hrel : (osOrder os).releases with
  | false => simp [State.store, h0, hc, hrel, hgo]
  | true =>
    have hres : s.resolved s.cur s.th (.release (osScope os)) = true := ho hrel
    simp [State.store, h0, hc, hrel, State.await_resolved _ hres, hgo]

/-! ### Loads (R137, R151) -/

/-- R150, R151: the access that a load of the issuing thread sends; the cluster whose constant cache it fills. -/
def State.loadAccess (s : State) (h : Home) (ea : Word) (dva n : Nat) (signed : Bool) (cached : Option Nat) : Access :=
  { s.mkAccess .load h ea dva n with
    ext := (if signed then 4 else 0) + Nat.log2 n, result := some s.th.nextSeq, cached := cached }

/-- R137, R151: the load is to go through the constant cache. -/
def State.loadsConst (s : State) (ea : Word) (os : Field) : Prop :=
  (s.th.kd[segIndex ea]).getLsbD 57 = true ∧ osOrder os = .plain

/-- R137, R162: what the constant cache holds for the bytes of a load: the number in the line's bytes. -/
theorem State.exists_line_of_constHit {s : State} {h : Home} {n v : Nat} (hv : s.constHit h n = some v) :
    ∃ line : List Byte, mapGet (s.cluster (clusterOf s.cur)).ccache (lineKey h) = some line ∧
      v = leNat ((line.drop (h.addr % 64)).take n) := by
  unfold State.constHit at hv
  split at hv
  · cases hv
  · split at hv
    · next line hl => exact ⟨line, hl, (Option.some.inj hv).symm⟩
    · cases hv

section
variable {s : State} {n dva : Nat} {ea : Word} {os : Field} {h : Home}

theorem State.load_device_plain (hr : s.th.replay = none) (hc : s.check s.th ea n .read false = .ok (.device dva))
    (hh : s.hit (clusterOf s.cur) s.th.ctx dva false = some h) (hw : s.unwatched ea n false) (hk : ¬s.loadsConst ea os)
    (signed : Bool) (d : Field) :
    s.load n signed d ea os =
      (s.send (s.loadAccess h ea dva n signed none)).finishLoad (.scalar d) [] 1 none (osOrder os).acquires := by
  have hconst : (kdConst s.th.kd[segIndex ea] && osOrder os == .plain) = false := by
    rw [Bool.eq_false_iff]
    simpa [State.loadsConst, kdConst] using hk
  simp only [State.load, State.eaOf_of_no_replay hr, State.place_of_no_replay hr, hc, State.needPage_hit hh,
    State.watch_of_unwatched hw, hconst, Bool.false_and, Bool.false_eq_true, if_false]
  rfl

/-- R137: a load through the constant cache is served from it, or sent to fill it. -/
theorem State.load_device_const (hr : s.th.replay = none) (hc : s.check s.th ea n .read false = .ok (.device dva))
    (hh : s.hit (clusterOf s.cur) s.th.ctx dva false = some h) (hw : s.unwatched ea n false) (hk : s.loadsConst ea os)
    (signed : Bool) (d : Field) :
    (∃ v, s.constHit h n = some v ∧
      s.load n signed d ea os = s.choose.1.finishLoad (.scalar d) [(0, Machine.extend n signed v)] 0 none false) ∨
    s.load n signed d ea os = (s.choose.1.send (s.choose.1.loadAccess h ea dva n signed (some (clusterOf s.cur)))).finishLoad
      (.scalar d) [] 1 none false := by
  obtain ⟨hbit, hplain⟩ := hk
  have hconst : (kdConst s.th.kd[segIndex ea] && osOrder os == .plain) = true := by
    rw [kdConst, hbit, hplain]
    rfl
  have hacq : (osOrder os).acquires = false := by rw [hplain]; rfl
  simp only [State.load, State.eaOf_of_no_replay hr, State.place_of_no_replay hr, hc, State.needPage_hit hh,
    State.watch_of_unwatched hw, hconst, hacq, Bool.true_and, if_true]
  split
  · next v hv =>
    split at hv
    · exact .inl ⟨v, hv, rfl⟩
    · cases hv
  · exact .inr rfl
end

/-- R150: the extension code of a load is the low three bits of its size code. -/
theorem extensionCode_eq : ∀ x : BitVec 4, (if x.getLsbD 2 then 4 else 0) + x.toNat % 4 = x.toNat % 8 := by decide

/-- The end of an instruction that leaves a result outstanding, in the state that it finishes in. -/
theorem passed_finishLoad_self (s : State) (d : Field) (vals : List (Nat × Word)) (missing : Nat) (dep : Option (Fin 8)) (acq : Bool) :
    Passed (if acq then s.refreshed else s) ((s.th.awaiting d vals missing dep).landing acq s.th.nextSeq) s.nextPc
      (s.finishLoad (.scalar d) vals missing dep acq) :=
  passed_finishLoad (OnlyThread.refl s) (fun _ => rfl) s.th.kept_refl rfl (.scalar d) vals missing dep acq none

/-- Settles O11: the access that the instruction sends, or the line that serves it, is the one of the statement. -/
theorem deviceAccesses : Obligations.DeviceAccesses := by
  intro s size d a b os off dva h hs hr h0 ea n const acq
  have hext : (if size.getLsbD 2 then 4 else 0) + Nat.log2 n = size.toNat % 8 := by
    rw [Nat.log2_two_pow]
    exact extensionCode_eq size
  have hfor (t : State) (ht : t.th = s.th) (hid : t.nextId = s.nextId) (c : Option Nat) :
      (t.loadAccess h ea dva n (size.getLsbD 2) c).For s .load h n :=
    ⟨congrArg Thread.uid ht, congrArg Thread.ctx ht, hid, rfl, rfl, rfl, rfl, rfl⟩
  refine ⟨fun hc hh hw => ⟨fun hk => ?_, fun hk => ?_⟩, fun hc hh hw ho => ?_, fun hc hh => ?_⟩
  · refine completes_of_issue hs (exec_ld ..) ?_
    rw [State.load_device_plain hr hc hh hw hk]
    exact ⟨_, hfor s rfl rfl none, rfl, hext, rfl, passed_finishLoad_self ..⟩
  · refine completes_of_issue hs (exec_ld ..) ?_
    obtain ⟨v, hv, he⟩ | he := State.load_device_const hr hc hh hw hk (size.getLsbD 2) d
    · rw [he]
      obtain ⟨line, hl, rfl⟩ := State.exists_line_of_constHit hv
      have hlt : leNat ((line.drop (h.addr % 64)).take n) < 2 ^ (8 * n) := by
        refine (leNat_lt _).trans_le ?_
        rw [Nat.pow_mul]
        exact Nat.pow_le_pow_right (by decide) (List.length_take_le ..)
      refine .inl ⟨line, hl, ?_⟩
      rw [extend_eq (Nat.two_pow_pos _) hlt]
      exact passed_finishLoad_self s.choose.1 d _ 0 none false
    · rw [he]
      exact .inr ⟨_, hfor s.choose.1 rfl rfl _, rfl, hext, rfl, passed_finishLoad_self (s.choose.1.send _) d [] 1 none false⟩
  · refine completes_of_issue hs (exec_st ..) ?_
    rw [State.store_device h0 hc hh hw ho]
    exact ⟨s.storeAccess h ea dva n (s.reg b), ⟨rfl, rfl, rfl, rfl, rfl, rfl, rfl, rfl⟩, rfl, rfl, passed_base rfl⟩
  · refine completes_of_issue hs (exec_ld ..) ?_
    have he : s.load n (size.getLsbD 2) d ea os = (s.setTh { s.th with walk := some ⟨ea, dva, false, 0⟩ }).park .walk := by
      simp only [State.load, State.eaOf_of_no_replay hr, State.place_of_no_replay hr, hc, State.needPage_miss hh]
    rw [he]
    exact ⟨parkedFor_setTh_park hs (u := { s.th with walk := some ⟨ea, dva, false, 0⟩ }) rfl rfl rfl rfl .walk, rfl⟩

end Sys2Proof.Machine
end

section
/-! The mould of the atomics (R154): the forms of one operand and `amocas`; the issue of an atomic, which counts its dependency slot up
(R94); what it does once its check passes and its release is met: on the own local store, on device memory, and for another core. -/

namespace Sys2Proof.Machine

/-! ### The issuing thread after its issue (R60, R94) -/

theorem Thread.issued_eq (u : Thread) (y : BitVec 12) :
    u.issued y = { u with dep := (u.issued y).dep, taken := (u.issued y).taken, stage := (u.issued y).stage } := by
  unfold Thread.issued
  split
  · rfl
  · split <;> rfl

section
variable {u : Thread}
theorem Thread.issued_uid (y : BitVec 12) : (u.issued y).uid = u.uid := (congrArg Thread.uid (u.issued_eq y) :)
theorem Thread.issued_ctx (y : BitVec 12) : (u.issued y).ctx = u.ctx := (congrArg Thread.ctx (u.issued_eq y) :)
theorem Thread.issued_stat (y : BitVec 12) : (u.issued y).stat = u.stat := (congrArg Thread.stat (u.issued_eq y) :)
theorem Thread.issued_pc (y : BitVec 12) : (u.issued y).pc = u.pc := (congrArg Thread.pc (u.issued_eq y) :)
theorem Thread.issued_g (y : BitVec 12) : (u.issued y).g = u.g := (congrArg Thread.g (u.issued_eq y) :)
theorem Thread.issued_held (y : BitVec 12) : (u.issued y).held = u.held := (congrArg Thread.held (u.issued_eq y) :)
theorem Thread.issued_pending (y : BitVec 12) : (u.issued y).pending = u.pending := (congrArg Thread.pending (u.issued_eq y) :)
theorem Thread.issued_nextSeq (y : BitVec 12) : (u.issued y).nextSeq = u.nextSeq := (congrArg Thread.nextSeq (u.issued_eq y) :)

/-- R94: an instruction that begins counts its slot up. -/
theorem Thread.issued_dep (h0 : u.stage = 0) (y : BitVec 12) : (u.issued y).dep = (u.counted y).dep := by
  unfold Thread.issued Thread.counted
  rw [if_neg (not_not_intro h0)]
  split <;> rfl

theorem Thread.counted_kept_issued (h0 : u.stage = 0) (y : BitVec 12) : (u.counted y).Kept (u.issued y) := by
  have hdep := Thread.issued_dep h0 y
  unfold Thread.Kept
  rw [Thread.issued_eq u y, hdep]
  rfl

/-- R154: an atomic of one operand has no dependency slot. -/
theorem Thread.counted_zero (u : Thread) : u.counted 0 = u := rfl
end

section
variable {s : State} {y : BitVec 12}

@[simp] theorem State.th_issueSync : (s.issueSync y).th = s.th.issued y := State.th_setTh ..

theorem State.nextPc_issueSync : (s.issueSync y).nextPc = s.nextPc := by
  unfold State.nextPc Thread.lineCount
  rw [State.th_issueSync, Thread.issued_pc, Thread.issued_held]

/-- A thread put in the issuing slot leaves the watchpoints of its core. -/
theorem State.unwatched_issueSync {ea : Word} {n : Nat} {write : Bool} (h : s.unwatched ea n write) :
    (s.issueSync y).unwatched ea n write := by
  have hcore : (s.issueSync y).core s.cur =
      { s.core s.cur with slots := (s.core s.cur).slots.set s.slot (some (s.th.issued y)) } := State.core_setTh_self ..
  unfold State.unwatched
  rw [State.issueSync_cur, hcore]
  exact h

theorem State.watchBoth_issueSync {ea : Word} {n : Nat} (hw : s.unwatched ea n true) (hr : s.unwatched ea n false) :
    (s.issueSync y).watchBoth ea n = s.issueSync y := by
  rw [State.watchBoth, State.watch_of_unwatched (State.unwatched_issueSync hw), State.watch_of_unwatched (State.unwatched_issueSync hr)]

/-- R165: the release of an atomic is looked at after its issue. -/
theorem State.resolved_release_issueSync {scope : Nat} (h : s.releasable s.cur s.th scope = true) :
    (s.issueSync y).resolved (s.issueSync y).cur (s.issueSync y).th (.release scope) = true := by
  simp only [State.resolved, State.releasable, State.th_issueSync, State.issueSync_cur, Thread.issued_pending, Thread.issued_uid]
  exact h

/-- R60: an instruction that has issued waits for its sync tail no more. -/
theorem State.sync_of_stage (h : s.th.stage ≠ 0) (k : State → State) : s.sync y k = k s := by
  simp [State.sync, h]
end

/-! ### The forms (R154, R156, R157) -/

theorem exec_of_amoForm {i : Instr} {op : AmoOp} {x : BitVec 4} {d a b os : Field} (h : amoForm i = some (op, x, d, a, b, os)) (s : State) :
    exec i s = issue s (s.atomic (2 ^ (x.toNat % 4)) d (s.reg a) (s.reg b) 0 os op 0) := by
  rw [← sizeBytes_eq]
  cases i
  case amoAdd | amoAnd | amoOr | amoXor | amoMin | amoMax | amoMinu | amoMaxu | amoSwap | amoFadd =>
    obtain ⟨rfl, rfl, rfl, rfl, rfl, rfl⟩ := h
    rfl
  all_goals cases h

theorem exec_amoCas {s : State} {y : BitVec 12} (h : s.th.stage = 0 → s.th.syncReady y) (x : BitVec 4) (d a b c os : Field) :
    exec (.amoCas x d a b c os y) s = issue s (s.atomic (2 ^ (x.toNat % 4)) d (s.reg a) (s.reg b) (s.reg c) os .cas y) := by
  rw [← sizeBytes_eq]
  by_cases h0 : s.th.stage = 0
  · exact congrArg (issue s) (State.sync_ready _ (h h0))
  · exact congrArg (issue s) (State.sync_of_stage h0 _)

/-! ### What an atomic does once its check passes -/

section
variable {s : State} {n : Nat} {d os : Field} {ea b c : Word} {op : AmoOp} {y : BitVec 12}

/-- R154: the place of an atomic is not in a closed list of the issuing core. -/
def State.opens (s : State) (n : Nat) : Place → Prop
  | .store cc o => cc = s.cur → listClosed (s.core s.cur) o n = false
  | .device _ => True

/-- R154: what an atomic does at a place, once it has issued and its release is met. -/
def State.atomicAt (s : State) (n : Nat) (d : Field) (ea b c : Word) (os : Field) (op : AmoOp) (dep : Option (Fin 8)) : Place → State
  | .device dva => s.needPage ea dva true 2 fun h =>
      ((s.watchBoth ea n).send { s.mkAccess (.amo op) h ea dva n with data := b, data2 := c, result := some s.th.nextSeq }).finishLoad
        (.scalar d) [] 1 dep (osOrder os).acquires
  | .store cc o =>
    if cc = s.cur then
      (({ s with amos := s.amos ++ [s.ownRequest op o n b c] } : State).watchBoth ea n).finishLoad (.scalar d) [] 1 dep (osOrder os).acquires
    else ((((s.watchBoth ea n).post cc (.atomic op o n b c s.th.stat)).stage 2).park .reply)

/-- R165: where the release that an order asks for is met, the atomic goes on. -/
theorem State.release_met (ho : s.released os) (k : State → State) :
    (if (osOrder os).releases = true then (s.issueSync y).await (.release (osScope os)) k else k (s.issueSync y)) = k (s.issueSync y) := by
  split
  · next hrel => exact State.await_resolved k (State.resolved_release_issueSync (ho hrel))
  · rfl

theorem State.atomic_of_check {p : Place} (h0 : s.th.stage = 0) (hc : s.check s.th ea n .atomic false = .ok p) (hl : s.opens n p)
    (ho : s.released os) : s.atomic n d ea b c os op y = (s.issueSync y).atomicAt n d ea b c os op (syncDep y) p := by
  have hstage : ¬s.th.stage = 2 := by omega
  cases p with
  | device dva =>
    simp only [State.atomic, if_neg hstage, hc]
    exact State.release_met ho fun s => s.atomicAt n d ea b c os op (syncDep y) (.device dva)
  | store cc o =>
    have hopen : (cc == s.cur && listClosed (s.core s.cur) o n) = false := by
      by_cases e : cc = s.cur
      · simp [hl e]
      · simp [e]
    simp only [State.atomic, if_neg hstage, hc, hopen]
    exact State.release_met ho fun s => s.atomicAt n d ea b c os op (syncDep y) (.store cc o)
end

end Sys2Proof.Machine
end

section
/-! Accesses to another core's local store (R139, R141, R143, R145, R154, R156): the migration that a load calls for, the requests that a
store and an atomic send, and what their replies bring. -/

namespace Sys2Proof.Machine

/-! ### Migration (R145) -/

section
variable {s : State} {n c o : Nat} {ea : Word}

theorem State.load_remote (hr : s.th.replay = none) (hc : s.check s.th ea n .read false = .ok (.store c o)) (hne : c ≠ s.cur)
    (signed : Bool) (d os : Field) : s.load n signed d ea os = s.migrateFor c ea 0 := by
  simp [State.load, State.eaOf_of_no_replay hr, State.place_of_no_replay hr, hc, hne]

theorem State.migrateFor_matrix (hm : statM s.th.stat = true) (access : Nat) : s.migrateFor c ea access = s.trapAt kClaim ea access :=
  if_pos hm

theorem State.migrateFor_parks (hm : statM s.th.stat = false) (access : Nat) : s.migrateFor c ea access =
    (s.setTh { s.th with replay := some ea, aux := BitVec.ofNat 64 c, stage := 1 }).park .migrate := by
  simp [State.migrateFor, hm]
end

/-! ### Requests (R143) -/

/-- R89: a state that differs in its issuing thread, which is Parked with its registers as they were. -/
theorem parkedFor_of_onlyThread {b t : State} {v : Thread} {w : Wait} (hb : b.thread.isSome = true) (h : OnlyThread b t)
    (ht : t.thread = some v) (hst : v.st = .parked w) (hpc : v.pc = b.th.pc) (hg : v.g = b.th.g) (hstat : v.stat = b.th.stat)
    (hpending : v.pending = b.th.pending) : ParkedFor b w t := by
  obtain ⟨hrest, hothers, hcore, -⟩ := h
  refine ⟨⟨b.th, v, State.thread_eq_th hb, ht, hst, hpc, hg, hstat, hpending⟩, fun c => ?_, by rw [hrest], by rw [hrest], fun c => ?_⟩
  all_goals by_cases hc : c = b.cur
  · exact .inr hc
  · exact .inl (hothers c hc)
  · subst hc
    rw [hcore]
  · rw [hothers c hc]

/-- R143: the issuing thread asks the owner, and waits for the reply. -/
def State.ask (s : State) (c : Nat) (body : MsgBody) : State := ((s.post c body).stage 2).park .reply

theorem parkedFor_ask {b s : State} (hb : b.thread.isSome = true) (h : OnlyThread b s) (hpc : s.th.pc = b.th.pc) (hg : s.th.g = b.th.g)
    (hstat : s.th.stat = b.th.stat) (hpending : s.th.pending = b.th.pending) (c : Nat) (body : MsgBody) :
    ParkedFor b .reply (s.ask c body) := by
  have hparked : ParkedFor b .reply ((s.stage 2).park .reply) := by
    refine parkedFor_of_onlyThread hb ((h.setTh _).setTh _) (State.thread_setTh _ _) rfl ?_ ?_ ?_ ?_
    all_goals rw [State.stage, State.th_setTh]
    exacts [hpc, hg, hstat, hpending]
  exact ⟨hparked.thread, hparked.core, hparked.mem⟩

theorem State.msgs_ask (s : State) (c : Nat) (body : MsgBody) : (s.ask c body).msgs = s.msgs ++ [s.outgoing c body s.selfTag] := rfl

theorem State.thread_ask (s : State) (c : Nat) (body : MsgBody) : ∃ w, (s.ask c body).thread = some w ∧ w.dep = s.th.dep := by
  refine ⟨_, State.thread_setTh _ _, ?_⟩
  rw [State.stage, State.th_setTh]
  rfl

theorem State.outgoing_issueSync (s : State) (y : BitVec 12) (c : Nat) (body : MsgBody) (g : Tag) :
    (s.issueSync y).outgoing c body g = s.outgoing c body g := by
  unfold State.outgoing
  rw [State.th_issueSync, Thread.issued_uid, Thread.issued_ctx]
  rfl

theorem State.onlyThread_issueSync (s : State) (y : BitVec 12) : OnlyThread s (s.issueSync y) := (OnlyThread.refl s).setTh _

/-! ### Stores (R152) -/

section
variable {s : State} {n c o : Nat} {ea v : Word} {os : Field}

theorem State.store_remote (h0 : s.th.stage = 0) (hc : s.check s.th ea n .write false = .ok (.store c o)) (hne : c ≠ s.cur)
    (hw : s.unwatched ea n true) (ho : s.released os) : s.store n ea v os = s.ask c (.write o n v) := by
  cases hrel : (osOrder os).releases with
  | false =>
    simp [State.store, h0, hc, hrel, hne, State.watch_of_unwatched hw]
    rfl
  | true =>
    have hres : s.resolved s.cur s.th (.release (osScope os)) = true := ho hrel
    simp [State.store, h0, hc, hrel, State.await_resolved _ hres, hne, State.watch_of_unwatched hw]
    rfl

theorem State.store_granted (h2 : s.th.stage = 2) (hg : s.th.granted = true) : s.store n ea v os = s.advance := by
  simp [State.store, h2, hg]

theorem State.store_refused (h2 : s.th.stage = 2) (hg : s.th.granted = false) (hr : s.th.refused = true) :
    s.store n ea v os = s.trapAt kRefused ea 1 := by
  simp [State.store, h2, hg, hr]
end

/-! ### Atomics (R141, R154, R156) -/

section
variable {s : State} {n c o : Nat} {d os : Field} {ea b e : Word} {op : AmoOp} {y : BitVec 12}

theorem State.atomic_granted (h2 : s.th.stage = 2) (hg : s.th.granted = true) (hc : s.check s.th ea n .atomic false = .ok (.store c o)) :
    s.atomic n d ea b e os op y = s.finishLoad (.scalar d) [(0, s.th.aux)] 0 (syncDep y) (osOrder os).acquires (some c) := by
  simp [State.atomic, h2, hg, State.servedAt, hc]

theorem State.atomic_refused (h2 : s.th.stage = 2) (hg : s.th.granted = false) (hr : s.th.refused = true) :
    s.atomic n d ea b e os op y = s.trapAt kRefused ea 2 := by
  simp [State.atomic, h2, hg, hr]

theorem State.atomic_remote (h0 : s.th.stage = 0) (hc : s.check s.th ea n .atomic false = .ok (.store c o)) (hne : c ≠ s.cur)
    (hw : s.unwatched ea n true) (hr : s.unwatched ea n false) (ho : s.released os) :
    s.atomic n d ea b e os op y = (s.issueSync y).ask c (.atomic op o n b e s.th.stat) := by
  rw [State.atomic_of_check h0 hc (fun h => absurd h hne) ho]
  have hne' : c ≠ (s.issueSync y).cur := hne
  rw [State.atomicAt, if_neg hne', State.watchBoth_issueSync hw hr, State.th_issueSync, Thread.issued_stat]
  rfl

/-- R141, R143: an atomic for another core, as it asks, when it is granted, and when it is refused. -/
theorem completes_atomic_remote {i : Instr} (hs : s.thread.isSome = true)
    (he : exec i s = issue s (s.atomic n d ea b e os op y)) (hc : s.check s.th ea n .atomic false = .ok (.store c o)) (hne : c ≠ s.cur) :
    (s.th.stage = 0 → s.unwatched ea n true → s.unwatched ea n false → s.released os →
      Completes i s (fun t => ParkedFor s .reply t ∧ (∃ g : Tag, t.msgs = s.msgs ++ [s.outgoing c (.atomic op o n b e s.th.stat) g]) ∧
        ∃ w, t.thread = some w ∧ w.dep = (s.th.counted y).dep)) ∧
    (s.th.stage = 2 → s.th.granted = true → Completes i s (Passed (if (osOrder os).acquires then s.refreshed else s)
      ((s.th.pend (.scalar d) [(0, s.th.aux)] 0 (syncDep y) (some c)).landing (osOrder os).acquires s.th.nextSeq) s.nextPc)) ∧
    (s.th.stage = 2 → s.th.granted = false → s.th.refused = true → Completes i s (Trapped s 23 ea)) := by
  refine ⟨fun h0 hw hr ho => ?_, fun h2 hg => ?_, fun h2 hg hr => ?_⟩
  · refine completes_of_issue hs he ?_
    rw [State.atomic_remote h0 hc hne hw hr ho]
    refine ⟨parkedFor_ask hs (s.onlyThread_issueSync y) ?_ ?_ ?_ ?_ _ _, ⟨(s.issueSync y).selfTag, ?_⟩, ?_⟩
    · rw [State.th_issueSync, Thread.issued_pc]
    · rw [State.th_issueSync, Thread.issued_g]
    · rw [State.th_issueSync, Thread.issued_stat]
    · rw [State.th_issueSync, Thread.issued_pending]
    · rw [State.msgs_ask, State.outgoing_issueSync]
      rfl
    · rw [← Thread.issued_dep h0, ← State.th_issueSync]
      exact State.thread_ask ..
  · refine completes_of_issue hs he ?_
    rw [State.atomic_granted h2 hg hc]
    exact passed_finishLoad (OnlyThread.refl s) (fun _ => rfl) s.th.kept_refl rfl _ _ _ _ _ _
  · exact completes_trapped_of_issue hs he (State.atomic_refused h2 hg hr)
end

/-- Settles O12: loads go to the owner's core, stores and atomics ask it. -/
theorem remoteAccesses : Obligations.RemoteAccesses := by
  refine ⟨?_, ?_⟩
  · intro s size d a os off c o hs hr ea hc hne
    refine ⟨fun hm => ?_, fun hm => ?_⟩
    · refine completes_of_issue hs (exec_ld ..) ?_
      rw [State.load_remote hr hc hne, State.migrateFor_parks hm]
      exact ⟨parkedFor_setTh_park hs (u := { s.th with replay := some ea, aux := BitVec.ofNat 64 c, stage := 1 }) rfl rfl rfl rfl _,
        _, State.thread_setTh _ _, by rw [State.th_setTh]; rfl, by rw [State.th_setTh]; rfl⟩
    · refine completes_of_issue hs (exec_ld ..) ?_
      rw [State.load_remote hr hc hne, State.migrateFor_matrix hm]
      exact trapped_trapAt hs kClaim ea 0
  · intro s c o hs _ asks atomic
    refine ⟨?_, ?_, ?_⟩
    · intro size a b os off ea n
      refine ⟨fun h0 hc hne hw ho => ?_, fun h2 hg => ?_, fun h2 hg hr => ?_⟩
      · refine completes_of_issue hs (exec_st ..) ?_
        rw [State.store_remote h0 hc hne hw ho]
        exact ⟨parkedFor_ask hs (OnlyThread.refl s) rfl rfl rfl rfl _ _, ⟨_, State.msgs_ask ..⟩, State.thread_ask ..⟩
      · refine completes_of_issue hs (exec_st ..) ?_
        rw [State.store_granted h2 hg]
        exact passed_self s
      · refine completes_of_issue hs (exec_st ..) ?_
        rw [State.store_refused h2 hg hr]
        exact trapped_trapAt hs kRefused ea 1
    · intro i op x d a b os hi hc hne
      exact completes_atomic_remote hs (exec_of_amoForm hi s) hc hne
    · intro x d a b e os y hy hc hne
      exact completes_atomic_remote hs (exec_amoCas hy x d a b e os) hc hne

end Sys2Proof.Machine
end

section
/-! What an atomic does to a memory (R155 to R157), and a result delivered to the thread with a number (R92). -/

namespace Sys2Proof.Machine

/-! ### The bytes of the number that a memory holds -/

theorem leNat_digit (bs : List Byte) : ∀ (k : Nat) (h : k < bs.length), leNat bs / 256 ^ k % 256 = (bs[k]).toNat := by
  induction bs with
  | nil => intro k h; exact absurd h (Nat.not_lt_zero k)
  | cons b r ih =>
    intro k h
    have hb : b.toNat < 256 := b.isLt
    cases k with
    | zero => simp only [leNat, List.getElem_cons_zero]; omega
    | succ k =>
      have hr : leNat (b :: r) / 256 = leNat r := by simp only [leNat]; omega
      rw [Nat.pow_succ', ← Nat.div_div_eq_div_mul, hr]
      exact ih k (by simpa using h)

theorem Memory.getElem_bytes (m : Memory) (n : Nat) : ∀ (a k : Nat) (h : k < (m.bytes a n).length), (m.bytes a n)[k] = m.read (a + k) := by
  induction n with
  | zero => intro a k h; exact absurd h (Nat.not_lt_zero k)
  | succ n ih =>
    intro a k h
    cases k with
    | zero => rfl
    | succ k =>
      rw [← Nat.add_assoc, Nat.add_right_comm]
      exact ih (a + 1) k (by simpa [Memory.bytes] using h)

theorem Memory.num_digit (m : Memory) (a : Nat) {n k : Nat} (h : k < n) : m.num a n / 256 ^ k % 256 = (m.read (a + k)).toNat := by
  have hk : k < (m.bytes a n).length := by rwa [Memory.bytes_length]
  rw [Memory.num, leNat_digit _ k hk, Memory.getElem_bytes]

/-! ### An atomic's word replaced (R155) -/

/-- R155, R156: a memory after an atomic: `cas` that does not find the value compared with writes nothing. -/
def Memory.atomically (m : Memory) (op : AmoOp) (a n b c : Nat) (stat : Word) : Memory :=
  match amoNew op n (m.num a n) b c stat with
  | some v => m.putNum a n v
  | none => m

section
variable (m : Memory) (op : AmoOp) (b c : Nat) (stat : Word) {a n : Nat}

theorem Memory.atomically_cases :
    m.atomically op a n b c stat = m.putNum a n (amoResult op n (m.num a n) b c stat) ∨
    (m.atomically op a n b c stat = m ∧ amoResult op n (m.num a n) b c stat = m.num a n) := by
  have hnew := amoNew_eq (op := op) (b := b) (c := c) (stat := stat) (Memory.num_lt m a n)
  unfold Memory.atomically
  split at hnew
  · next hmiss =>
    obtain ⟨rfl, hne⟩ := hmiss
    rw [hnew]
    exact .inr ⟨rfl, if_neg hne⟩
  · rw [hnew]
    exact .inl rfl

theorem Memory.read_atomically_inside {k : Nat} (h : k < n) :
    ((m.atomically op a n b c stat).read (a + k)).toNat = amoResult op n (m.num a n) b c stat / 256 ^ k % 256 := by
  obtain he | ⟨he, hv⟩ := m.atomically_cases op b c stat (a := a) (n := n)
  · rw [he, Memory.read_putNum_inside _ _ _ h]
  · rw [he, hv, Memory.num_digit _ _ h]

theorem Memory.read_atomically_outside {x : Nat} (h : x < a ∨ a + n ≤ x) : (m.atomically op a n b c stat).read x = m.read x := by
  obtain he | ⟨he, -⟩ := m.atomically_cases op b c stat (a := a) (n := n)
  · rw [he, Memory.read_putNum_outside _ _ h]
  · rw [he]
end

/-! ### A thread changed by its number -/

/-- The thread of one slot changed, if it has the number. -/
def updOne (uid : Nat) (f : Thread → Thread) (v : Vector (Option Thread) 16) (i : Fin 16) : Vector (Option Thread) 16 :=
  match v[i] with
  | some t => if t.uid = uid then v.set i (some (f t)) else v
  | none => v
/-- A thread changed, if it has the number. -/
def Thread.updated (uid : Nat) (f : Thread → Thread) (t : Thread) : Thread := if t.uid = uid then f t else t

theorem getElem_updOne (uid : Nat) (f : Thread → Thread) (v : Vector (Option Thread) 16) (i r : Fin 16) :
    (updOne uid f v i)[r] = if r = i then (v[r]).map (Thread.updated uid f) else v[r] := by
  unfold updOne
  by_cases hr : r = i
  · subst hr
    cases h : v[r] with
    | none => simp [h]
    | some t => by_cases ht : t.uid = uid <;> simp [h, ht, Thread.updated]
  · have hne : i.val ≠ r.val := fun e => hr (Fin.ext e.symm)
    cases h : v[i] with
    | none => simp [hr]
    | some t => by_cases ht : t.uid = uid <;> simp [ht, hr, hne]

theorem getElem_foldl_updOne (uid : Nat) (f : Thread → Thread) (r : Fin 16) (l : List (Fin 16)) (hl : l.Nodup) :
    ∀ v : Vector (Option Thread) 16,
      (l.foldl (updOne uid f) v)[r] = if r ∈ l then (v[r]).map (Thread.updated uid f) else v[r] := by
  induction l with
  | nil => intro v; simp
  | cons i l ih =>
    intro v
    obtain ⟨hi, hl⟩ := List.nodup_cons.mp hl
    rw [List.foldl_cons, ih hl, getElem_updOne]
    by_cases hr : r = i
    · subst hr
      simp [hi]
    · simp [hr]

theorem getElem_updSlots (sl : Vector (Option Thread) 16) (uid : Nat) (f : Thread → Thread) (r : Fin 16) :
    (updSlots sl uid f)[r] = (sl[r]).map (Thread.updated uid f) := by
  have hmem : r ∈ slotNumbers := by revert r; decide
  have he : updSlots sl uid f = slotNumbers.foldl (updOne uid f) sl := rfl
  rw [he, getElem_foldl_updOne uid f r slotNumbers (by decide), if_pos hmem]

theorem State.core_updThread (s : State) (uid : Nat) (f : Thread → Thread) (c : Nat) :
    (s.updThread uid f).core c = { s.core c with slots := updSlots (s.core c).slots uid f } := by
  have hfresh : updSlots ({} : CoreState).slots uid f = ({} : CoreState).slots := by
    refine Vector.ext fun i hi => (getElem_updSlots _ uid f ⟨i, hi⟩).trans ?_
    have hnone : ({} : CoreState).slots[(⟨i, hi⟩ : Fin 16)] = none := Vector.getElem_replicate ..
    exact (congrArg (Option.map (Thread.updated uid f)) hnone).trans hnone.symm
  simp only [State.core, State.updThread, mapGet_map (fun k : CoreState => { k with slots := updSlots k.slots uid f })]
  cases mapGet s.cores c with
  | none => simp only [Option.map_none, Option.getD_none, hfresh]
  | some k => rfl

theorem State.threadAt_updThread (s : State) (uid : Nat) (f : Thread → Thread) (c : Nat) (i : Fin 16) :
    (s.updThread uid f).threadAt c i = (s.threadAt c i).map (Thread.updated uid f) := by
  have hslots : ((s.updThread uid f).core c).slots = updSlots (s.core c).slots uid f := by rw [State.core_updThread]
  unfold State.threadAt
  rw [hslots]
  exact getElem_updSlots (s.core c).slots uid f i

end Sys2Proof.Machine
end

section
/-! Atomics on the own local store and on device memory (R138 to R140, R154 to R157). -/

namespace Sys2Proof.Machine

/-! ### At their issue -/

theorem State.file_issueSync (s : State) (y : BitVec 12) (f : Field) : (s.issueSync y).file f = s.file f :=
  State.file_setTh_same s _ (Thread.issued_g y) f

theorem State.ownRequest_issueSync (s : State) (y : BitVec 12) (op : AmoOp) (o n : Nat) (b c : Word) :
    (s.issueSync y).ownRequest op o n b c = s.ownRequest op o n b c := by
  unfold State.ownRequest
  rw [State.th_issueSync, Thread.issued_uid, Thread.issued_ctx, Thread.issued_stat, Thread.issued_nextSeq]
  rfl

theorem State.hit_issueSync (s : State) (y : BitVec 12) (dva : Nat) :
    (s.issueSync y).hit (clusterOf (s.issueSync y).cur) (s.issueSync y).th.ctx dva true = s.hit (clusterOf s.cur) s.th.ctx dva true := by
  rw [State.th_issueSync, Thread.issued_ctx]
  rfl

/-- States that differ in their issuing thread still do after one thing that is done outside it. -/
theorem OnlyThread.withAmos {s t : State} (h : OnlyThread s t) (l : List OwnAtomic) :
    OnlyThread { s with amos := l } { t with amos := l } :=
  ⟨congrArg (fun q : State => { q with amos := l }) h.rest, h.others, h.core, h.slots⟩
theorem OnlyThread.send {s t : State} (h : OnlyThread s t) (a : Access) : OnlyThread (s.send a) (t.send a) :=
  ⟨congrArg (fun q : State => q.send a) h.rest, h.others, h.core, h.slots⟩

section
variable {s : State} {n : Nat} {d os : Field} {ea b c : Word} {op : AmoOp} {y : BitVec 12}

/-- R94, R166: the end of an atomic that has issued: what it has done outside its thread is in `base`. -/
theorem passed_finishLoad_issued {base t : State} (h0 : s.th.stage = 0) (ho : OnlyThread base t) (hb : base.th = s.th)
    (ht : t.th = (s.issueSync y).th) (hf : ∀ f, t.file f = base.file f) (d : Field) (acq : Bool) :
    Passed (if acq then base.refreshed else base) (((s.th.counted y).awaiting d [] 1 (syncDep y)).landing acq s.th.nextSeq) s.nextPc
      (t.finishLoad (.scalar d) [] 1 (syncDep y) acq) := by
  have hth : t.th = s.th.issued y := ht.trans State.th_issueSync
  have hpc : t.nextPc = s.nextPc := by
    refine Eq.trans ?_ (State.nextPc_issueSync (y := y))
    rw [State.nextPc, ht]
    rfl
  rw [← hpc]
  refine passed_finishLoad ho hf ?_ ?_ (.scalar d) [] 1 (syncDep y) acq none
  · rw [hth]
    exact Thread.counted_kept_issued h0 y
  · rw [hth, hb, Thread.issued_uid]

theorem completes_atomic_own {i : Instr} {o : Nat} (hs : s.thread.isSome = true) (h0 : s.th.stage = 0)
    (he : exec i s = issue s (s.atomic n d ea b c os op y)) (hc : s.check s.th ea n .atomic false = .ok (.store s.cur o))
    (hl : listClosed (s.core s.cur) o n = false) (hw : s.unwatched ea n true) (hr : s.unwatched ea n false) (ho : s.released os) :
    let r : State := { s with amos := s.amos ++ [s.ownRequest op o n b c] }
    Completes i s (Passed (if (osOrder os).acquires then r.refreshed else r)
      (((s.th.counted y).awaiting d [] 1 (syncDep y)).landing (osOrder os).acquires s.th.nextSeq) s.nextPc) := by
  intro r
  refine completes_of_issue hs he ?_
  have hwatch : ({ s.issueSync y with amos := s.amos ++ [s.ownRequest op o n b c] } : State).watchBoth ea n =
      { s.issueSync y with amos := s.amos ++ [s.ownRequest op o n b c] } := by
    have hw' : State.unwatched { s.issueSync y with amos := s.amos ++ [s.ownRequest op o n b c] } ea n true := State.unwatched_issueSync hw
    have hr' : State.unwatched { s.issueSync y with amos := s.amos ++ [s.ownRequest op o n b c] } ea n false := State.unwatched_issueSync hr
    rw [State.watchBoth, State.watch_of_unwatched hw', State.watch_of_unwatched hr']
  rw [State.atomic_of_check h0 hc (fun _ => hl) ho, State.atomicAt, if_pos (show s.cur = (s.issueSync y).cur from rfl), State.ownRequest_issueSync, State.issueSync_amos, hwatch]
  exact passed_finishLoad_issued h0 ((s.onlyThread_issueSync y).withAmos (s.amos ++ [s.ownRequest op o n b c])) rfl rfl (s.file_issueSync y) d _

theorem completes_atomic_device {i : Instr} {dva : Nat} {h : Home} (hs : s.thread.isSome = true) (h0 : s.th.stage = 0)
    (he : exec i s = issue s (s.atomic n d ea b c os op y)) (hc : s.check s.th ea n .atomic false = .ok (.device dva))
    (hh : s.hit (clusterOf s.cur) s.th.ctx dva true = some h) (hw : s.unwatched ea n true) (hr : s.unwatched ea n false)
    (ho : s.released os) :
    Completes i s (fun t => ∃ a : Access, a.For s (.amo op) h n ∧ a.data = b ∧ a.data2 = c ∧ a.stat = s.th.stat ∧
      a.result = some s.th.nextSeq ∧ Passed (if (osOrder os).acquires then (s.send a).refreshed else s.send a)
        (((s.th.counted y).awaiting d [] 1 (syncDep y)).landing (osOrder os).acquires s.th.nextSeq) s.nextPc t) := by
  refine completes_of_issue hs he ?_
  have hhit : (s.issueSync y).hit (clusterOf (s.issueSync y).cur) (s.issueSync y).th.ctx dva true = some h :=
    (s.hit_issueSync y dva).trans hh
  rw [State.atomic_of_check h0 hc trivial ho, State.atomicAt, State.needPage_hit hhit, State.watchBoth_issueSync hw hr]
  have hth := State.th_issueSync (s := s) (y := y)
  refine ⟨_, ⟨?_, ?_, rfl, rfl, rfl, rfl, rfl, rfl⟩, rfl, rfl, ?_, ?_,
    passed_finishLoad_issued h0 ((s.onlyThread_issueSync y).send _) rfl rfl (s.file_issueSync y) d _⟩
  · exact (congrArg Thread.uid hth).trans (Thread.issued_uid y)
  · exact (congrArg Thread.ctx hth).trans (Thread.issued_ctx y)
  · exact (congrArg Thread.stat hth).trans (Thread.issued_stat y)
  · exact congrArg some ((congrArg Thread.nextSeq hth).trans (Thread.issued_nextSeq y))
end

/-! ### At the core's interface (R139, R155) -/

theorem State.ownAtomic_unsaved {s : State} {y : OwnAtomic} (hsaved : mapGet (s.context y.ctx).saved y.core = none)
    (hctx : (s.core y.core).ctx = some y.ctx) :
    let q := s.core y.core
    let deliver (t : Thread) := t.deliver y.result 0 (BitVec.ofNat 64 (q.ls.num y.off y.size))
    let ls := q.ls.atomically y.op y.off y.size y.data.toNat y.data2.toNat y.stat
    ∃ r : State, s.ownAtomic y = r.updThread y.uid deliver ∧ (∀ c, (r.core c).ls = if c = y.core then ls else (s.core c).ls) ∧
      (∀ c i, r.threadAt c i = s.threadAt c i) ∧ r.mem = s.mem := by
  intro q deliver ls
  unfold State.ownAtomic
  simp only [State.coreFor_unsaved hsaved hctx, State.setCoreFor_unsaved hsaved hctx]
  cases hnew : amoNew y.op y.size ((s.core y.core).ls.num y.off y.size) y.data.toNat y.data2.toNat y.stat with
  | none =>
    have hls : ls = q.ls := by simp only [ls, q, Memory.atomically, hnew]
    refine ⟨s, rfl, fun c => ?_, fun _ _ => rfl, rfl⟩
    split
    · next hc => rw [hls, hc]
    · rfl
  | some v =>
    have hls : ls = q.ls.putNum y.off y.size v := by simp only [ls, q, Memory.atomically, hnew]
    refine ⟨s.setCore y.core { q with ls := q.ls.putNum y.off y.size v }, rfl, fun c => ?_, s.threadAt_setCore_slots y.core rfl, rfl⟩
    rw [State.core_setCore]
    split
    · exact hls.symm
    · rfl

/-- Settles O13: an atomic is sent with its operands; the interface replaces the word and hands the old value to the result. -/
theorem atomics : Obligations.Atomics := by
  refine ⟨⟨?_, ?_⟩, ?_⟩
  · intro s o hs h0 goes
    refine ⟨?_, ?_⟩
    · intro i op x d a b os hi hc hl hw hr ho
      exact completes_atomic_own (y := 0) hs h0 (exec_of_amoForm hi s) hc hl hw hr ho
    · intro x d a b c os y hy hc hl hw hr ho
      exact completes_atomic_own hs h0 (exec_amoCas (fun _ => hy) x d a b c os) hc hl hw hr ho
  · intro s y hsaved hctx t old
    obtain ⟨r, he, hls, hthreads, hmem⟩ := State.ownAtomic_unsaved hsaved hctx
    have hcore (c : Nat) : (t.core c).ls = (r.core c).ls := by
      show ((s.ownAtomic y).core c).ls = _
      rw [he, State.core_updThread]
    refine ⟨fun k hk => ?_, fun x hx => ?_, fun c hc => ?_, ?_, fun c i u hu => ?_⟩
    · rw [hcore, hls, if_pos rfl, Memory.read_atomically_inside _ _ _ _ _ hk]
    · rw [hcore, hls, if_pos rfl, Memory.read_atomically_outside _ _ _ _ _ hx]
    · rw [hcore, hls, if_neg hc]
    · show (s.ownAtomic y).mem = s.mem
      rw [he, State.updThread_mem, hmem]
    · show (s.ownAtomic y).threadAt c i = _
      rw [he, State.threadAt_updThread, hthreads, hu]
      rfl
  · intro s dva h hs h0 goes
    refine ⟨?_, ?_⟩
    · intro i op x d a b os hi hc hh hw hr ho
      exact completes_atomic_device (y := 0) hs h0 (exec_of_amoForm hi s) hc hh hw hr ho
    · intro x d a b c os y hy hc hh hw hr ho
      exact completes_atomic_device hs h0 (exec_amoCas (fun _ => hy) x d a b c os) hc hh hw hr ho

end Sys2Proof.Machine
end

section
/-! Accesses performed at their homes (R155, R161, R162). -/

namespace Sys2Proof.Machine

/-! ### Joins that a counter answers (R245) -/

/-- No thread waits in a `join`. -/
def State.noJoins (s : State) : Prop := ∀ p ∈ s.cores, ∀ o ∈ p.2.slots.toList, ∀ t, o = some t → ∀ d, t.st ≠ .parked (.join d)

theorem State.joinDone_of_not_joining {s : State} {t : Thread} (h : ∀ d, t.st ≠ .parked (.join d)) : s.joinDone t = false := by
  unfold State.joinDone
  split
  · next d hd => exact absurd hd (h d)
  · rfl

theorem State.answerZeros_of_noJoins {s : State} (h : s.noJoins) (tag : Option Tag) : s.answerZeros tag = s := by
  refine if_neg fun hany => ?_
  obtain ⟨p, hp, hp'⟩ := List.any_eq_true.mp hany
  obtain ⟨o, ho, ho'⟩ := List.any_eq_true.mp hp'
  cases o with
  | none => cases ho'
  | some t =>
    have hdone : s.joinDone t = true := ho'
    rw [State.joinDone_of_not_joining (h p hp _ ho t rfl)] at hdone
    cases hdone

/-! ### What an access does at its home -/

/-- R161, R354: an access of the network is performed, unless it meets a poisoned line to read. -/
theorem exec_memorySliceAccess {s : State} {k : Nat} {a : Access} (hk : s.nextAt k = some a)
    (hp : a.op = .store ∨ s.poison.contains (a.addr / 64) = false) :
    exec (.memorySliceAccess k) s = .next (({ s with flight := listDel s.flight k }).performAt a) := by
  show execMemorySliceAccess k s = _
  unfold execMemorySliceAccess
  rw [hk]
  obtain hop | hp := hp
  · simp [hop]
  · simp only [hp, Bool.and_false, Bool.false_and, Bool.false_eq_true, if_false]

/-- What an access leaves where it writes nothing: all but the constant caches. -/
structure KeepsMemory (s t : State) : Prop where
  mem : t.mem = s.mem
  rmem : t.rmem = s.rmem
  cores : t.cores = s.cores
  flight : t.flight = s.flight

theorem keepsMemory_dropOlder (s : State) (a : Access) (h : Home) : KeepsMemory s (s.dropOlder a h) := by
  unfold State.dropOlder
  split <;> exact ⟨rfl, rfl, rfl, rfl⟩

/-- R161: bytes written at a home of this package, where no thread waits in a `join`. -/
structure WritesBytes (s : State) (m : Memory) (t : State) : Prop where
  mem : t.mem = m
  rmem : t.rmem = s.rmem
  cores : t.cores = s.cores
  flight : t.flight = s.flight

theorem writesBytes_homeWrite {s r : State} (hr : KeepsMemory s r) (hj : s.noJoins) {h : Home} (hl : h.remote = false) (x n v : Nat)
    (tag : Option Tag) : WritesBytes s (s.mem.putNum h.addr n v) ((r.homeWrite x h n v).answerZeros tag) := by
  obtain ⟨hmem, hrmem, hcores, hflight⟩ := hr
  have hput : WritesBytes s (s.mem.putNum h.addr n v) (r.homeWrite x h n v) := by
    unfold State.homeWrite State.homePut
    rw [hl]
    exact ⟨by rw [← hmem]; rfl, hrmem, hcores, hflight⟩
  have hj' : (r.homeWrite x h n v).noJoins := by
    unfold State.noJoins
    rw [hput.cores]
    exact hj
  rw [State.answerZeros_of_noJoins hj']
  exact hput

section
variable {s : State} {a : Access} (hl : a.remote = false) (hcached : a.cached = none)
include hl hcached

/-- R161, R162: a load reads. -/
theorem State.performAt_load {q : Nat} (hop : a.op = .load) (hq : a.result = some q) :
    s.performAt a = s.updThread a.uid (fun t => t.deliver q a.elem (a.image (s.mem.num a.addr a.size))) := by
  have hold : s.homeRead ⟨false, a.home, a.addr⟩ a.size = s.mem.num a.addr a.size := rfl
  simp [State.performAt, hl, hcached, hop, hq, State.dropOlder, AccessOp.writes, hold]

/-- R161: a store writes. -/
theorem State.performAt_store (hop : a.op = .store) (hq : a.result = none) (hj : s.noJoins) :
    WritesBytes s (s.mem.putNum a.addr a.size a.data.toNat) (s.performAt a) := by
  have h := writesBytes_homeWrite (keepsMemory_dropOlder s a ⟨false, a.home, a.addr⟩) hj (h := ⟨false, a.home, a.addr⟩) rfl a.ctx a.size
    a.data.toNat (some a.tag)
  simpa [State.performAt, hl, hcached, hop, hq] using h

/-- R155: an atomic replaces its bytes in one step, and hands the old value to its result. -/
theorem State.performAt_atomic {q : Nat} {op : AmoOp} (hop : a.op = .amo op) (hq : a.result = some q) (hj : s.noJoins) :
    ∃ r, WritesBytes s (s.mem.atomically op a.addr a.size a.data.toNat a.data2.toNat a.stat) r ∧
      s.performAt a = r.updThread a.uid (fun t => t.deliver q a.elem (BitVec.ofNat 64 (s.mem.num a.addr a.size))) := by
  have hold : s.homeRead ⟨false, a.home, a.addr⟩ a.size = s.mem.num a.addr a.size := rfl
  have hkeep := keepsMemory_dropOlder s a ⟨false, a.home, a.addr⟩
  cases hnew : amoNew op a.size (s.mem.num a.addr a.size) a.data.toNat a.data2.toNat a.stat with
  | none =>
    refine ⟨s.dropOlder a ⟨false, a.home, a.addr⟩, ?_, by simp [State.performAt, hl, hcached, hop, hq, hold, hnew]⟩
    obtain ⟨hmem, hrmem, hcores, hflight⟩ := hkeep
    exact ⟨by simp only [Memory.atomically, hnew, hmem], hrmem, hcores, hflight⟩
  | some v =>
    have h := writesBytes_homeWrite hkeep hj (h := ⟨false, a.home, a.addr⟩) rfl a.ctx a.size v (some a.tag)
    refine ⟨_, ?_, by simp [State.performAt, hl, hcached, hop, hq, hold, hnew]; rfl⟩
    simpa only [Memory.atomically, hnew] using h
end

/-- Settles O17: a store and an atomic write the bytes of their value and no other; a load delivers the number that it reads. -/
theorem accessesPerformed : Obligations.AccessesPerformed := by
  intro s k a hk hl hcached still wrote
  let s0 : State := { s with flight := listDel s.flight k }
  refine ⟨fun hop hq hj => ?_, fun q op hop hq hj hp => ?_, fun q hop hq hp => ?_⟩
  · obtain ⟨hmem, hrmem, hcores, hflight⟩ := State.performAt_store (s := s0) hl hcached hop hq hj
    refine ⟨_, exec_memorySliceAccess hk (.inl hop), ⟨fun j hj => ?_, fun x hx => ?_, hflight, hrmem⟩, hcores⟩
    · rw [hmem, Memory.read_putNum_inside _ _ _ hj]
    · rw [hmem, Memory.read_putNum_outside _ _ hx]
  · obtain ⟨r, ⟨hmem, hrmem, hcores, hflight⟩, he⟩ := State.performAt_atomic (s := s0) hl hcached hop hq hj
    refine ⟨_, exec_memorySliceAccess hk (.inr hp), ?_⟩
    rw [he]
    refine ⟨⟨fun j hj => ?_, fun x hx => ?_, hflight, hrmem⟩, fun c i u hu => ?_⟩
    · rw [State.updThread_mem, hmem, Memory.read_atomically_inside _ _ _ _ _ hj]
    · rw [State.updThread_mem, hmem, Memory.read_atomically_outside _ _ _ _ _ hx]
    · have hr : r.threadAt c i = some u := by
        rw [← hu]
        unfold State.threadAt State.core
        rw [hcores]
      rw [State.threadAt_updThread, hr]
      rfl
  · rw [exec_memorySliceAccess hk (.inr hp)]
    exact congrArg Host.Outcome.next (State.performAt_load (s := s0) hl hcached hop hq)

end Sys2Proof.Machine
end

section
/-! Full/empty instructions on the own local store (R146, R153). -/

namespace Sys2Proof.Machine

/-! ### A word's full/empty state -/

theorem CoreState.full_setFull (k : CoreState) (w : Nat) (full : Bool) (tag : Tag) (now : Nat) : (k.setFull w full tag now).full w = full := by
  by_cases h : k.full w = full
  · rw [CoreState.setFull, if_pos h, h]
  · rw [CoreState.setFull, if_neg h]
    cases full <;> simp [CoreState.full]
theorem CoreState.setFull_eq (k : CoreState) (w : Nat) (full : Bool) (tag : Tag) (now : Nat) : k.setFull w full tag now =
    { k with emptyWords := (k.setFull w full tag now).emptyWords, dirty := (k.setFull w full tag now).dirty
             feTags := (k.setFull w full tag now).feTags } := by
  unfold CoreState.setFull
  split <;> rfl
@[simp] theorem CoreState.slots_setFull (k : CoreState) (w : Nat) (full : Bool) (tag : Tag) (now : Nat) :
    (k.setFull w full tag now).slots = k.slots := by rw [CoreState.setFull_eq]
@[simp] theorem CoreState.ls_setFull (k : CoreState) (w : Nat) (full : Bool) (tag : Tag) (now : Nat) :
    (k.setFull w full tag now).ls = k.ls := by rw [CoreState.setFull_eq]
@[simp] theorem CoreState.pool_setFull (k : CoreState) (w : Nat) (full : Bool) (tag : Tag) (now : Nat) :
    (k.setFull w full tag now).pool = k.pool := by rw [CoreState.setFull_eq]
@[simp] theorem CoreState.wpa_setFull (k : CoreState) (w : Nat) (full : Bool) (tag : Tag) (now : Nat) :
    (k.setFull w full tag now).wpa = k.wpa := by rw [CoreState.setFull_eq]
@[simp] theorem CoreState.wpc_setFull (k : CoreState) (w : Nat) (full : Bool) (tag : Tag) (now : Nat) :
    (k.setFull w full tag now).wpc = k.wpc := by rw [CoreState.setFull_eq]

/-- The issuing core with the state of one of its words set. -/
def State.withFull (s : State) (w : Nat) (full : Bool) : State := s.setCore s.cur ((s.core s.cur).setFull w full s.selfTag s.cycle)

section
variable (s : State) (w : Nat) (full : Bool)

@[simp] theorem State.core_withFull : (s.withFull w full).core s.cur = (s.core s.cur).setFull w full s.selfTag s.cycle :=
  State.core_setCore_self ..
theorem State.withFull_lsWrite (o n v : Nat) : (s.lsWrite o n v).withFull w full =
    s.setCore s.cur (CoreState.setFull { s.core s.cur with ls := (s.core s.cur).ls.putNum o n v } w full (s.lsWrite o n v).selfTag s.cycle) := by
  have hcore : (s.lsWrite o n v).core (s.lsWrite o n v).cur = { s.core s.cur with ls := (s.core s.cur).ls.putNum o n v } :=
    State.core_setCore_self ..
  rw [State.withFull, hcore]
  exact congrArg (fun l => { s with cores := l }) (mapPut_mapPut ..)
@[simp] theorem State.th_withFull : (s.withFull w full).th = s.th := by
  simp [State.th, State.thread, State.threadAt, State.withFull]
@[simp] theorem State.core_advance (s : State) : s.advance.core s.cur =
    { s.core s.cur with slots := (s.core s.cur).slots.set s.slot (some s.th.advance) } := State.core_setTh_self ..
theorem State.full_advance_withFull : ((s.withFull w full).advance.core s.cur).full w = full := by
  have h := State.core_advance (s.withFull w full)
  rw [show (s.withFull w full).cur = s.cur from rfl] at h
  rw [h, State.core_withFull]
  exact CoreState.full_setFull ..
end

/-! ### What a full/empty instruction does -/

/-- R146: a thread that waits with its request. -/
def Thread.feWaiting (u : Thread) (r : FeReq) : Thread := { u with fe := some r, feCount := 0 }

section
variable {s : State} {o : Nat} {ea : Word}

/-- R146, R153: an access whose check passes, a `stfe` once its release conditions are met. -/
theorem State.fullEmpty_own {op : FeOp} {os : Field} (hr : s.th.replay = none)
    (hc : s.check s.th ea 4 op.right true = .ok (.store s.cur o)) (hl : listClosed (s.core s.cur) o 4 = false)
    (ho : op = .stfe → s.releasable s.cur s.th (osScope os) = true) (v : Word) (d : Field) (signed : Bool) :
    s.fullEmpty op ea v d signed os = s.feAccess op o (v.truncate 32) d signed ea := by
  have hres (h : op = .stfe) (k : State → State) : s.await (.release (osScope os)) k = k s := State.await_resolved k (ho h)
  unfold State.fullEmpty
  simp only [State.eaOf_of_no_replay hr, State.place_of_no_replay hr, hc, ne_eq, not_true_eq_false, if_false, hl, Bool.false_eq_true, and_false]
  split
  · next h => exact hres h.1 _
  · rfl

section
variable {op : FeOp} (hg : s.th.granted = false) (hw : s.unwatched ea 4 (op == .stfe))
include hg hw

/-- R146: an access whose word is in the other state waits on it. -/
theorem State.feAccess_waits (h : (op = .stfe) = (s.core s.cur).full (o / 4)) (v : BitVec 32) (d : Field) (signed : Bool) :
    s.feAccess op o v d signed ea =
      (s.setTh (s.th.feWaiting ⟨o / 4, ea, op, v, d, signed⟩)).park (.fullEmpty (o / 4)) := by
  simp only [State.feAccess, hg, Bool.false_eq_true, if_false, State.watch_of_unwatched hw, if_pos h, Thread.feWaiting]
end

section
variable (hg : s.th.granted = false)
include hg

theorem State.feAccess_stfe (hw : s.unwatched ea 4 true) (h : (s.core s.cur).full (o / 4) = false) (v : BitVec 32) (d : Field) (signed : Bool) :
    s.feAccess .stfe o v d signed ea = ((s.lsWrite o 4 v.toNat).withFull (o / 4) true).advance := by
  have hw' : s.unwatched ea 4 (FeOp.stfe == .stfe) := hw
  simp only [State.feAccess, hg, Bool.false_eq_true, if_false, State.watch_of_unwatched hw', h, eq_self, eq_iff_iff, true_iff]
  rfl
section
variable (hw : s.unwatched ea 4 false) (h : (s.core s.cur).full (o / 4) = true) (hl : listClosed (s.core s.cur) o 4 = false)
include hw h hl

theorem State.feAccess_ldfe (v : BitVec 32) (d : Field) (signed : Bool) :
    s.feAccess .ldfe o v d signed ea =
      (s.withFull (o / 4) false).finishLoad (.scalar d) [(0, Machine.extend 4 signed ((s.core s.cur).ls.num o 4))] 0 none true := by
  have hw' : s.unwatched ea 4 (FeOp.ldfe == .stfe) := hw
  have hread : s.lsRead o 4 = (s, (s.core s.cur).ls.num o 4) := by simp [State.lsRead, hl]
  simp only [State.feAccess, hg, Bool.false_eq_true, if_false, State.watch_of_unwatched hw', h, hread, reduceCtorEq, eq_self, eq_iff_iff, iff_true]
  rfl
theorem State.feAccess_ldff (v : BitVec 32) (d : Field) (signed : Bool) :
    s.feAccess .ldff o v d signed ea =
      s.finishLoad (.scalar d) [(0, Machine.extend 4 signed ((s.core s.cur).ls.num o 4))] 0 none true := by
  have hw' : s.unwatched ea 4 (FeOp.ldff == .stfe) := hw
  have hread : s.lsRead o 4 = (s, (s.core s.cur).ls.num o 4) := by simp [State.lsRead, hl]
  simp only [State.feAccess, hg, Bool.false_eq_true, if_false, State.watch_of_unwatched hw', h, hread, reduceCtorEq, eq_self, eq_iff_iff, iff_true]
end
end

/-- R153: `feset`. -/
theorem State.feset_own (hr : s.th.replay = none) (hc : s.check s.th ea 4 .write true = .ok (.store s.cur o))
    (hl : listClosed (s.core s.cur) o 4 = false) (hw : s.unwatched ea 4 true) (full : Bool) :
    s.feset full ea = (s.withFull (o / 4) full).advance := by
  have hw' : (s.withFull (o / 4) full).unwatched ea 4 true := by
    unfold State.unwatched at *
    rw [show (s.withFull (o / 4) full).cur = s.cur from rfl, State.core_withFull]
    simpa only [watches, CoreState.wpa_setFull, CoreState.wpc_setFull] using hw
  have hgo : ((s.withFull (o / 4) full).watch ea 4 true).advance = (s.withFull (o / 4) full).advance :=
    congrArg State.advance (State.watch_of_unwatched hw')
  simp only [State.feset, State.eaOf_of_no_replay hr, State.place_of_no_replay hr, hc, ne_eq, not_true_eq_false, if_false, hl, Bool.false_eq_true]
  exact hgo

end

end Sys2Proof.Machine
end

section
/-! Full/empty instructions: what they complete with and what they wait with (R146, R153). -/

namespace Sys2Proof.Machine

theorem osScope_eq (os : Field) : osScope os = os.toNat % 8 := by simp [osScope]

/-- The thread after a full/empty load: its result is outstanding, and it is held until that lands. -/
def Thread.landingFe (u : Thread) (d : Field) (v : Word) : Thread := { u.awaiting d [(0, v)] 0 none with st := .parked (.landing u.nextSeq) }
/-- The loaded word, extended as the size code says. -/
def feValue (size : BitVec 4) (x : Nat) : Word :=
  if size.getLsbD 2 = true ∧ 2 ^ 32 ≤ 2 * x then BitVec.ofInt 64 ((x : Int) - 2 ^ 32) else BitVec.ofNat 64 x

theorem extend_word (size : BitVec 4) (m : Memory) (o : Nat) : extend 4 (size.getLsbD 2) (m.num o 4) = feValue size (m.num o 4) :=
  extend_eq (by decide) (Memory.num_lt m o 4) _

section
variable {s : State} {o : Nat} {ea : Word} (hs : s.thread.isSome = true) (hr : s.th.replay = none) (hg : s.th.granted = false)
  (hl : listClosed (s.core s.cur) o 4 = false)
include hs hr hg hl

section
variable {i : Instr} {op : FeOp} {os d : Field} {v : Word} {signed : Bool} (he : exec i s = issue s (s.fullEmpty op ea v d signed os))
  (hc : s.check s.th ea 4 op.right true = .ok (.store s.cur o)) (hw : s.unwatched ea 4 (op == .stfe))
include he hc hw

/-- R146: the instruction waits on a word in the other state. -/
theorem completes_fullEmpty_waits (ho : op = .stfe → s.releasable s.cur s.th (osScope os) = true) (h : (op = .stfe) = (s.core s.cur).full (o / 4)) :
    Completes i s (fun t => ParkedFor s (.fullEmpty (o / 4)) t ∧ (t.core s.cur).emptyWords = (s.core s.cur).emptyWords ∧
      ∃ u r, t.thread = some u ∧ u.fe = some r ∧ r.word = o / 4 ∧ r.op = op) := by
  refine completes_of_issue hs he ?_
  rw [State.fullEmpty_own hr hc hl ho, State.feAccess_waits hg hw h]
  generalize hu : s.th.feWaiting ⟨o / 4, ea, op, v.truncate 32, d, signed⟩ = u
  have hfe : u.fe = some ⟨o / 4, ea, op, v.truncate 32, d, signed⟩ := by rw [← hu]; rfl
  have honly : OnlyThread s ((s.setTh u).park (.fullEmpty (o / 4))) := ((OnlyThread.refl s).setTh u).setTh _
  refine ⟨parkedFor_setTh_park hs ?_ ?_ ?_ ?_ _, (congrArg CoreState.emptyWords honly.core :), _, ⟨o / 4, ea, op, v.truncate 32, d, signed⟩,
    State.thread_setTh .., ?_, rfl, rfl⟩
  on_goal 5 => rw [State.th_setTh]; exact hfe
  all_goals rw [← hu]; rfl
end

/-- R146, R153: `ldfe` reads a Full word, and leaves it Empty. -/
theorem completes_ldfe {size : BitVec 4} {d a os : Field} {off : BitVec 17} (hea : s.reg a + off.signExtend 64 = ea)
    (hc : s.check s.th ea 4 .readWrite true = .ok (.store s.cur o)) (hw : s.unwatched ea 4 false) (h : (s.core s.cur).full (o / 4) = true) :
    Completes (.ldfe size d a os off) s (fun t => (t.core s.cur).full (o / 4) = false ∧ ∃ q, q.ls = (s.core s.cur).ls ∧
      Passed (s.setCore s.cur q).refreshed (s.th.landingFe d (feValue size ((s.core s.cur).ls.num o 4))) s.nextPc t) := by
  refine completes_of_issue hs (t := s.fullEmpty .ldfe ea 0 d (size.getLsbD 2) os) (by rw [← hea]; rfl) ?_
  rw [State.fullEmpty_own (op := .ldfe) hr hc hl nofun, State.feAccess_ldfe hg hw h hl, extend_word]
  have hp := passed_finishLoad_self (s.withFull (o / 4) false) d [(0, feValue size ((s.core s.cur).ls.num o 4))] 0 none true
  have hpc : (s.withFull (o / 4) false).nextPc = s.nextPc := by rw [State.nextPc, State.nextPc, State.th_withFull]
  rw [State.th_withFull, hpc] at hp
  refine ⟨?_, _, CoreState.ls_setFull .., hp⟩
  have hcore := hp.frame.core
  rw [show ((if true = true then (s.withFull (o / 4) false).refreshed else s.withFull (o / 4) false) : State).cur = s.cur from rfl] at hcore
  rw [hcore]
  have hrefreshed : (s.withFull (o / 4) false).refreshed.core s.cur = (s.core s.cur).setFull (o / 4) false s.selfTag s.cycle := State.core_withFull ..
  refine (?_ : _ = ((s.withFull (o / 4) false).refreshed.core s.cur).full (o / 4)).trans ?_
  · rfl
  · rw [hrefreshed, CoreState.full_setFull]

/-- R146, R153: `ldff` reads a Full word. -/
theorem completes_ldff {size : BitVec 4} {d a os : Field} {off : BitVec 17} (hea : s.reg a + off.signExtend 64 = ea)
    (hc : s.check s.th ea 4 .read true = .ok (.store s.cur o)) (hw : s.unwatched ea 4 false) (h : (s.core s.cur).full (o / 4) = true) :
    Completes (.ldff size d a os off) s
      (Passed s.refreshed (s.th.landingFe d (feValue size ((s.core s.cur).ls.num o 4))) s.nextPc) := by
  refine completes_of_issue hs (t := s.fullEmpty .ldff ea 0 d (size.getLsbD 2) os) (by rw [← hea]; rfl) ?_
  rw [State.fullEmpty_own (op := .ldff) hr hc hl nofun, State.feAccess_ldff hg hw h hl, extend_word]
  exact passed_finishLoad_self s d _ 0 none true

/-- R146, R153: `stfe` writes an Empty word, and leaves it Full. -/
theorem completes_stfe {a b os : Field} {off : BitVec 17} (hea : s.reg a + off.signExtend 64 = ea)
    (hc : s.check s.th ea 4 .write true = .ok (.store s.cur o)) (hw : s.unwatched ea 4 true) (h : (s.core s.cur).full (o / 4) = false)
    (ho : s.releasable s.cur s.th (osScope os) = true) :
    Completes (.stfe os a b off) s (fun t => Stored s o 4 ((s.reg b).toNat % 2 ^ 32) t ∧ (t.core s.cur).full (o / 4) = true ∧
      ∃ q, Passed (s.setCore s.cur q) s.th s.nextPc t) := by
  refine completes_of_issue hs (t := s.fullEmpty .stfe ea (s.reg b) 0x1F false os) (by rw [← hea]; rfl) ?_
  rw [State.fullEmpty_own (op := .stfe) hr hc hl (fun _ => ho), State.feAccess_stfe hg hw h]
  have hv : ((s.reg b).truncate 32).toNat = (s.reg b).toNat % 2 ^ 32 := BitVec.toNat_setWidth ..
  rw [hv, State.withFull_lsWrite]
  generalize hq : CoreState.setFull { s.core s.cur with ls := (s.core s.cur).ls.putNum o 4 ((s.reg b).toNat % 2 ^ 32) } (o / 4) true
    (s.lsWrite o 4 ((s.reg b).toNat % 2 ^ 32)).selfTag s.cycle = q
  have hcore : (s.setCore s.cur q).advance.core s.cur = { q with slots := ((s.setCore s.cur q).advance.core s.cur).slots } := by
    have h := State.core_advance (s.setCore s.cur q)
    rw [State.setCore_cur, State.core_setCore_self] at h
    rw [h]
  have hls : ((s.setCore s.cur q).advance.core s.cur).ls = (s.core s.cur).ls.putNum o 4 ((s.reg b).toNat % 2 ^ 32) := by
    rw [hcore, ← hq, CoreState.ls_setFull]
  have hslots : q.slots = (s.core s.cur).slots := by rw [← hq, CoreState.slots_setFull]
  refine ⟨⟨fun k hk => ?_, fun x hx => ?_⟩, ?_, q, passed_base ?_⟩
  · rw [hls, Memory.read_putNum_inside _ _ _ hk]
  · rw [hls, Memory.read_putNum_outside _ _ hx]
  · have hfull : (q.full (o / 4)) = true := by rw [← hq, CoreState.full_setFull]
    rw [hcore]
    exact hfull
  · simp [State.th, State.thread, State.threadAt, hslots]

omit hg in
/-- R153: `feset` sets the state of a word, and leaves its data. -/
theorem completes_feset {st : BitVec 1} {a : Field} {off : BitVec 17} (hea : s.reg a + off.signExtend 64 = ea)
    (hc : s.check s.th ea 4 .write true = .ok (.store s.cur o)) (hw : s.unwatched ea 4 true) :
    Completes (.feset st a off) s (fun t => (t.core s.cur).full (o / 4) = (st == 1) ∧
      ∃ q, q.ls = (s.core s.cur).ls ∧ Passed (s.setCore s.cur q) s.th s.nextPc t) := by
  refine completes_of_issue hs (t := s.feset (st == 1) ea) (by rw [← hea]; rfl) ?_
  rw [State.feset_own hr hc hl hw]
  exact ⟨State.full_advance_withFull .., _, CoreState.ls_setFull .., passed_base (State.th_withFull ..)⟩

end

end Sys2Proof.Machine
end

section
/-! A re-check round on a word (R147): who waits on it, which of them go on, and how it leaves the word. -/

namespace Sys2Proof.Machine

/-! ### Slots changed one by one -/

theorem CoreState.slots_updSlot (k : CoreState) (i j : Fin 16) (f : Thread → Thread) :
    (k.updSlot i f).slots[j] = if j = i then (k.slots[j]).map f else k.slots[j] := by
  unfold CoreState.updSlot
  by_cases h : j = i
  · subst h
    cases ht : k.slots[j] <;> simp [ht]
  · have hne : i.val ≠ j.val := fun e => h (Fin.ext e.symm)
    cases k.slots[i] <;> simp [h, hne]
theorem CoreState.updSlot_eq (k : CoreState) (i : Fin 16) (f : Thread → Thread) : k.updSlot i f = { k with slots := (k.updSlot i f).slots } := by
  unfold CoreState.updSlot
  split <;> rfl

theorem CoreState.slots_foldl_updSlot (f : Thread → Thread) (j : Fin 16) (l : List (Fin 16)) (hl : l.Nodup) : ∀ k : CoreState,
    (l.foldl (fun k i => k.updSlot i f) k).slots[j] = if j ∈ l then (k.slots[j]).map f else k.slots[j] := by
  induction l with
  | nil => intro k; simp
  | cons i l ih =>
    intro k
    obtain ⟨hi, hl⟩ := List.nodup_cons.mp hl
    rw [List.foldl_cons, ih hl, CoreState.slots_updSlot]
    by_cases hj : j = i
    · subst hj
      simp [hi]
    · simp [hj]
theorem CoreState.foldl_updSlot_eq (f : Thread → Thread) (l : List (Fin 16)) : ∀ k : CoreState,
    l.foldl (fun k i => k.updSlot i f) k = { k with slots := (l.foldl (fun k i => k.updSlot i f) k).slots } := by
  induction l with
  | nil => intro k; rfl
  | cons i l ih =>
    intro k
    rw [List.foldl_cons, ih, CoreState.updSlot_eq]

/-! ### The threads that wait on a word -/

/-- The thread of a slot waits on a word with an operation. -/
def CoreState.Waits (k : CoreState) (w : Nat) (op : FeOp) (i : Fin 16) (t : Thread) (r : FeReq) : Prop :=
  k.slots[i] = some t ∧ t.fe = some r ∧ r.word = w ∧ r.op = op

section
variable {k : CoreState} {w : Nat} {op op' : FeOp} {i j : Fin 16} {t u : Thread} {r q : FeReq}

theorem mem_feParked : i ∈ feParked k w op ↔ ∃ t r, k.Waits w op i t r := by
  have hall : ∀ i : Fin 16, i ∈ slotNumbers := by decide
  unfold feParked CoreState.Waits
  rw [List.mem_filter]
  cases hk : k.slots[i] with
  | none => simp
  | some t => cases hf : t.fe <;> simp [hf, hall i]
theorem CoreState.Waits.mem (h : k.Waits w op i t r) : i ∈ feParked k w op := mem_feParked.mpr ⟨t, r, h⟩

/-- A thread waits with one operation. -/
theorem CoreState.Waits.unique (h : k.Waits w op i t r) (h' : k.Waits w op' i u q) : t = u ∧ r = q ∧ op = op' := by
  obtain ⟨ht, hr, -, hop⟩ := h
  obtain ⟨hu, hq, -, hop'⟩ := h'
  obtain rfl : t = u := Option.some.inj (ht.symm.trans hu)
  obtain rfl : r = q := Option.some.inj (hr.symm.trans hq)
  exact ⟨rfl, rfl, hop.symm.trans hop'⟩
theorem CoreState.Waits.not_mem (h : k.Waits w op i t r) (hne : op ≠ op') : i ∉ feParked k w op' := fun hm => by
  obtain ⟨u, q, hu⟩ := mem_feParked.mp hm
  exact hne (h.unique hu).2.2

theorem nodup_feParked (k : CoreState) (w : Nat) (op : FeOp) : (feParked k w op).Nodup := List.Nodup.filter _ (by decide)
theorem sorted_feParked (k : CoreState) (w : Nat) (op : FeOp) : (feParked k w op).Pairwise (· < ·) := List.Pairwise.filter _ (by decide)

/-- R147: the thread of the lowest slot among those that wait with an operation. -/
def CoreState.First (k : CoreState) (w : Nat) (op : FeOp) (i : Fin 16) (t : Thread) (r : FeReq) : Prop :=
  k.Waits w op i t r ∧ ∀ j, j < i → ∀ u q, ¬k.Waits w op j u q

theorem CoreState.First.parked (h : k.First w op i t r) : ∃ l, feParked k w op = i :: l := by
  obtain ⟨hw, hfirst⟩ := h
  have hmem := hw.mem
  have hsorted := sorted_feParked k w op
  have hhead {j : Fin 16} (hj : j ∈ feParked k w op) : ¬j < i := fun hlt => by
    obtain ⟨u, q, hu⟩ := mem_feParked.mp hj
    exact hfirst j hlt u q hu
  cases hp : feParked k w op with
  | nil => rw [hp] at hmem; cases hmem
  | cons j l =>
    rw [hp] at hmem hsorted
    obtain rfl | hl := List.mem_cons.mp hmem
    · exact ⟨l, rfl⟩
    · exact absurd ((List.pairwise_cons.mp hsorted).1 i hl) (hhead (by rw [hp]; exact List.mem_cons_self))
/-- The first of those that wait. -/
theorem CoreState.first_of_parked {l : List (Fin 16)} (h : feParked k w op = i :: l) : ∃ t r, k.First w op i t r := by
  obtain ⟨t, r, hw⟩ := mem_feParked.mp (by rw [h]; exact List.mem_cons_self : i ∈ feParked k w op)
  refine ⟨t, r, hw, fun j hj u q hu => ?_⟩
  have hmem := hu.mem
  have hsorted := sorted_feParked k w op
  rw [h] at hmem hsorted
  obtain rfl | hl := List.mem_cons.mp hmem
  · exact absurd hj (lt_irrefl _)
  · exact absurd ((List.pairwise_cons.mp hsorted).1 j hl) hj.asymm
end

/-- The slot of the first of those that wait, alone. -/
def firstParked (k : CoreState) (w : Nat) (op : FeOp) : List (Fin 16) := (feParked k w op).take 1

theorem firstParked_subset (k : CoreState) (w : Nat) (op : FeOp) : firstParked k w op ⊆ feParked k w op := List.take_subset 1 _
theorem CoreState.First.mem {k : CoreState} {w : Nat} {op : FeOp} {i : Fin 16} {t : Thread} {r : FeReq} (h : k.First w op i t r) :
    i ∈ firstParked k w op := by
  obtain ⟨l, hl⟩ := h.parked
  rw [firstParked, hl]
  exact List.mem_cons_self
theorem CoreState.Waits.first_of_mem {k : CoreState} {w : Nat} {op : FeOp} {i : Fin 16} {t : Thread} {r : FeReq} (h : k.Waits w op i t r)
    (hm : i ∈ firstParked k w op) : k.First w op i t r := by
  cases hp : feParked k w op with
  | nil => rw [firstParked, hp] at hm; cases hm
  | cons j l =>
    rw [firstParked, hp] at hm
    obtain rfl : i = j := List.mem_singleton.mp hm
    obtain ⟨u, q, hu⟩ := CoreState.first_of_parked hp
    obtain ⟨rfl, rfl, -⟩ := h.unique hu.1
    exact hu

/-! ### Threads that go on -/

/-- R147: the thread of a slot goes on, with a value. -/
def CoreState.Went (k : CoreState) (i : Fin 16) (v : Nat) : Prop :=
  ∃ x, k.slots[i] = some x ∧ x.granted = true ∧ x.fe = none ∧ x.aux = BitVec.ofNat 64 v

/-- The threads of some slots, which wait on a word, go on with a value; the others stay, and the core is otherwise the same but for the
state of its words. -/
structure CoreState.Lets (k : CoreState) (l : List (Fin 16)) (v : Nat) (k' : CoreState) : Prop where
  went : ∀ i ∈ l, k'.Went i v
  kept : ∀ i, i ∉ l → k'.slots[i] = k.slots[i]
  ls : k'.ls = k.ls
  pool : k'.pool = k.pool

theorem CoreState.lets_nil (k : CoreState) (v : Nat) : k.Lets [] v k := ⟨nofun, fun _ _ => rfl, rfl, rfl⟩

/-- Those that let threads go on with other operations leave those that wait. -/
theorem CoreState.Lets.feParked_eq {k k' : CoreState} {l : List (Fin 16)} {v w : Nat} {op op' : FeOp} (h : k.Lets l v k')
    (hl : l ⊆ feParked k w op) (hne : op ≠ op') : feParked k' w op' = feParked k w op' := by
  refine List.filter_congr fun i _ => ?_
  by_cases hi : i ∈ l
  · obtain ⟨x, hx, -, hfe, -⟩ := h.went i hi
    obtain ⟨t, r, ht, hr, -, rfl⟩ := mem_feParked.mp (hl hi)
    simp [hx, hfe, ht, hr, hne]
  · rw [h.kept i hi]

/-- R147: some of those that wait are let go on. -/
theorem CoreState.lets_foldl {k : CoreState} {l : List (Fin 16)} {w : Nat} {op : FeOp} (hl : l ⊆ feParked k w op) (hn : l.Nodup) (v : Nat)
    (tag : Option Tag) : k.Lets l v (l.foldl (fun k i => k.updSlot i (fun t => feGrant t v tag)) k) := by
  have hslots := fun j => CoreState.slots_foldl_updSlot (fun t => feGrant t v tag) j l hn k
  refine ⟨fun i hi => ?_, fun i hi => ?_, by rw [CoreState.foldl_updSlot_eq], by rw [CoreState.foldl_updSlot_eq]⟩
  · obtain ⟨t, -, ht, -⟩ := mem_feParked.mp (hl hi)
    have h := hslots i
    rw [if_pos hi, ht] at h
    exact ⟨feGrant t v tag, h, rfl, rfl, rfl⟩
  · rw [hslots i, if_neg hi]

theorem CoreState.Lets.setFull {k k' : CoreState} {l : List (Fin 16)} {v : Nat} (h : k.Lets l v k') (w : Nat) (full : Bool) (tag : Tag)
    (now : Nat) : k.Lets l v (k'.setFull w full tag now) := by
  obtain ⟨hwent, hkept, hls, hpool⟩ := h
  unfold CoreState.Went at hwent
  refine ⟨?_, ?_, ?_, ?_⟩
  · unfold CoreState.Went
    rwa [CoreState.slots_setFull]
  · rwa [CoreState.slots_setFull]
  · rwa [CoreState.ls_setFull]
  · rwa [CoreState.pool_setFull]

/-! ### The steps of a round -/

/-- R147: the first step: the readers of a Full word go on. -/
def CoreState.readersGo (k : CoreState) (w : Nat) : CoreState :=
  if k.full w then (feParked k w .ldff).foldl (fun k' i => k'.updSlot i (fun t => feGrant t (k.ls.num (4 * w) 4) (mapGet k'.feTags w))) k else k
/-- R147: the second step: the first that empties a Full word goes on. -/
def State.emptierGoes (s : State) (c w v : Nat) (k : CoreState) : CoreState :=
  if k.full w then
    match feParked k w .ldfe with
    | i :: _ => match k.slots[i] with
      | some t => (k.updSlot i (fun t => feGrant t v (mapGet k.feTags w))).setFull w false (s.tagOf c i t) s.cycle
      | none => k
    | [] => k
  else k
/-- R147, R316: the third step: the first that fills an Empty word goes on, or all that wait to fill it trap. -/
def State.writerGoes (s : State) (c w : Nat) (k : CoreState) : State × Bool :=
  if k.full w then (s.setCore c k, false)
  else if listClosed k (4 * w) 4 then
    ((feParked k w .stfe).foldl (fun (r : State) i => r.takeTrap c i
      { kind := kSegRights, ea := (((k.slots[i]).bind (·.fe)).map (·.ea)).getD 0, access := 1 }) (s.setCore c k), false)
  else match feParked k w .stfe with
    | i :: _ => match k.slots[i] with
      | some t =>
        let k' := (k.updSlot i (fun t => feGrant t 0 (mapGet k.feTags w))).setFull w true (s.tagOf c i t) s.cycle
        (s.setCore c { k' with ls := k'.ls.putNum (4 * w) 4 (match t.fe with | some r => r.value.toNat | none => 0) }, true)
      | none => (s.setCore c k, false)
    | [] => (s.setCore c k, false)

theorem State.feRound_eq (s : State) (c w : Nat) : s.feRound c w =
    s.writerGoes c w (s.emptierGoes c w ((s.core c).ls.num (4 * w) 4) ((s.core c).readersGo w)) := by
  unfold State.feRound
  extract_lets k v k1 k2
  have h1 : (s.core c).readersGo w = k1 := rfl
  rw [h1]
  clear_value k1
  have h2 : s.emptierGoes c w v k1 = k2 := rfl
  rw [h2]
  clear_value k2
  rfl

theorem CoreState.feTags_updSlot (k : CoreState) (i : Fin 16) (f : Thread → Thread) : (k.updSlot i f).feTags = k.feTags := by
  rw [CoreState.updSlot_eq]
/-- The tag that the readers get is the word's, which their going on leaves. -/
theorem CoreState.foldl_feGrant (w v : Nat) (tag : Option Tag) (l : List (Fin 16)) : ∀ k : CoreState, mapGet k.feTags w = tag →
    l.foldl (fun k i => k.updSlot i (fun t => feGrant t v (mapGet k.feTags w))) k = l.foldl (fun k i => k.updSlot i (fun t => feGrant t v tag)) k := by
  induction l with
  | nil => exact fun _ _ => rfl
  | cons i l ih =>
    intro k hk
    rw [List.foldl_cons, List.foldl_cons, hk]
    exact ih _ (by rw [CoreState.feTags_updSlot, hk])

theorem CoreState.lets_readersGo (k : CoreState) (w : Nat) :
    k.Lets (if k.full w then feParked k w .ldff else []) (k.ls.num (4 * w) 4) (k.readersGo w) := by
  unfold CoreState.readersGo
  split
  · rw [CoreState.foldl_feGrant w _ _ _ k rfl]
    exact CoreState.lets_foldl (List.Subset.refl _) (nodup_feParked ..) _ _
  · exact CoreState.lets_nil ..
theorem CoreState.full_readersGo (k : CoreState) (w w' : Nat) : (k.readersGo w).full w' = k.full w' := by
  unfold CoreState.readersGo
  split
  · rw [CoreState.foldl_feGrant w _ _ _ k rfl, CoreState.foldl_updSlot_eq]
    rfl
  · rfl

section
variable (s : State) (c w v : Nat) (k : CoreState)

theorem State.emptierGoes_of_parked {i : Fin 16} {t : Thread} {l : List (Fin 16)} (hf : k.full w = true) (hp : feParked k w .ldfe = i :: l)
    (ht : k.slots[i] = some t) : s.emptierGoes c w v k =
      (([i]).foldl (fun k' i => k'.updSlot i (fun t => feGrant t v (mapGet k.feTags w))) k).setFull w false (s.tagOf c i t) s.cycle := by
  simp only [State.emptierGoes, hf, if_true, hp, ht, List.foldl_cons, List.foldl_nil]

theorem State.lets_emptierGoes : k.Lets (if k.full w then firstParked k w .ldfe else []) v (s.emptierGoes c w v k) := by
  cases hf : k.full w with
  | false => simpa [State.emptierGoes, hf] using k.lets_nil v
  | true =>
    cases hp : feParked k w .ldfe with
    | nil => simpa [State.emptierGoes, hf, hp, firstParked] using k.lets_nil v
    | cons i l =>
      obtain ⟨t, r, ⟨ht, -⟩, -⟩ := CoreState.first_of_parked hp
      have hfirst : firstParked k w .ldfe = [i] := by rw [firstParked, hp]; rfl
      rw [State.emptierGoes_of_parked s c w v k hf hp ht, if_pos rfl, hfirst]
      exact (CoreState.lets_foldl (hfirst ▸ firstParked_subset k w .ldfe) (List.nodup_singleton i) v _).setFull ..
theorem State.full_emptierGoes : (s.emptierGoes c w v k).full w = (k.full w && (feParked k w .ldfe).isEmpty) := by
  cases hf : k.full w with
  | false => simp [State.emptierGoes, hf]
  | true =>
    cases hp : feParked k w .ldfe with
    | nil => simp [State.emptierGoes, hf, hp]
    | cons i l =>
      obtain ⟨t, r, ⟨ht, -⟩, -⟩ := CoreState.first_of_parked hp
      rw [State.emptierGoes_of_parked s c w v k hf hp ht, CoreState.full_setFull]
      rfl
end

end Sys2Proof.Machine
end

section
/-! The third step of a round (R147, R316), the re-checks that failed (R148), and the round as a whole. -/

namespace Sys2Proof.Machine

/-! ### States that differ in the slots of one core -/

/-- Memory is the same, and a core but for its slots. -/
structure OnlySlots (c : Nat) (s t : State) : Prop where
  mem : t.mem = s.mem
  core : t.core c = { s.core c with slots := (t.core c).slots }

section
variable {c : Nat} {s t u : State}

theorem OnlySlots.refl (c : Nat) (s : State) : OnlySlots c s s := ⟨rfl, rfl⟩
theorem OnlySlots.trans (h : OnlySlots c s t) (h' : OnlySlots c t u) : OnlySlots c s u :=
  ⟨h'.mem.trans h.mem, by rw [h'.core, h.core]⟩
theorem OnlySlots.foldl {α : Type} {f : State → α → State} (h : ∀ s a, OnlySlots c s (f s a)) (l : List α) : ∀ s, OnlySlots c s (l.foldl f s) := by
  induction l with
  | nil => exact OnlySlots.refl c
  | cons a l ih => exact fun s => (h s a).trans (ih _)
theorem OnlySlots.full (h : OnlySlots c s t) (w : Nat) : (t.core c).full w = (s.core c).full w := by rw [h.core]; rfl
theorem OnlySlots.ls (h : OnlySlots c s t) : (t.core c).ls = (s.core c).ls := by rw [h.core]
theorem OnlySlots.dirty (h : OnlySlots c s t) : (t.core c).dirty = (s.core c).dirty := by rw [h.core]

theorem onlySlots_takeTrap (s : State) (c : Nat) (i : Fin 16) (f : FaultInfo) : OnlySlots c s (s.takeTrap c i f) := by
  unfold State.takeTrap
  split
  · exact ⟨rfl, by rw [State.core_setSlot_self]⟩
  · exact OnlySlots.refl c s
theorem onlySlots_feExpire (s : State) (c : Nat) (i : Fin 16) : OnlySlots c s (s.feExpire c i) := by
  unfold State.feExpire
  split
  · split
    · exact onlySlots_takeTrap ..
    · exact OnlySlots.refl c s
  · exact OnlySlots.refl c s
end

theorem State.threadAt_takeTrap (s : State) (c : Nat) (i j : Fin 16) (f : FaultInfo) :
    (s.takeTrap c i f).threadAt c j = if j = i then (s.threadAt c j).map (·.fail f) else s.threadAt c j := by
  by_cases hj : j = i
  · subst hj
    cases ht : s.threadAt c j with
    | none => simp [State.takeTrap, ht]
    | some t => simp [State.takeTrap_of_threadAt ht]
  · cases ht : s.threadAt c i with
    | none => simp [State.takeTrap, ht, hj]
    | some t => simp [State.takeTrap_of_threadAt ht, State.threadAt_setSlot_ne _ _ _ hj, hj]
theorem State.threadAt_foldl_takeTrap (c : Nat) (f : Fin 16 → FaultInfo) (j : Fin 16) (l : List (Fin 16)) (hl : l.Nodup) : ∀ s : State,
    (l.foldl (fun (r : State) i => r.takeTrap c i (f i)) s).threadAt c j =
      if j ∈ l then (s.threadAt c j).map (·.fail (f j)) else s.threadAt c j := by
  induction l with
  | nil => intro s; simp
  | cons i l ih =>
    intro s
    obtain ⟨hi, hl⟩ := List.nodup_cons.mp hl
    rw [List.foldl_cons, ih hl, State.threadAt_takeTrap]
    by_cases hj : j = i
    · subst hj
      simp [hi]
    · simp [hj]

/-! ### The first two steps -/

/-- R147: the word reads Empty when the third step comes: it was Empty, or a thread has emptied it. -/
def CoreState.emptied (k : CoreState) (w : Nat) : Bool := !k.full w || !(feParked k w .ldfe).isEmpty

/-- R147: a core after the first two steps of a round. -/
structure Emptying (k : CoreState) (w : Nat) (k' : CoreState) : Prop where
  readers : k.full w = true → ∀ i ∈ feParked k w .ldff, k'.Went i (k.ls.num (4 * w) 4)
  emptier : k.full w = true → ∀ i ∈ firstParked k w .ldfe, k'.Went i (k.ls.num (4 * w) 4)
  kept : ∀ i, ¬(k.full w = true ∧ (i ∈ feParked k w .ldff ∨ i ∈ firstParked k w .ldfe)) → k'.slots[i] = k.slots[i]
  writers : feParked k' w .stfe = feParked k w .stfe
  full : k'.full w = !k.emptied w
  ls : k'.ls = k.ls
  pool : k'.pool = k.pool

theorem CoreState.Went.not_mem {k : CoreState} {i : Fin 16} {v : Nat} (h : k.Went i v) (w : Nat) (op : FeOp) : i ∉ feParked k w op := by
  intro hm
  obtain ⟨x, hx, -, hfe, -⟩ := h
  obtain ⟨t, r, ht, hr, -⟩ := mem_feParked.mp hm
  obtain rfl : x = t := Option.some.inj (hx.symm.trans ht)
  rw [hfe] at hr
  cases hr
theorem CoreState.Went.congr {k k' : CoreState} {i : Fin 16} {v : Nat} (h : k.Went i v) (he : k'.slots[i] = k.slots[i]) : k'.Went i v := by
  obtain ⟨x, hx, hg⟩ := h
  exact ⟨x, he.trans hx, hg⟩

theorem emptying (s : State) (c w : Nat) (k : CoreState) :
    Emptying k w (s.emptierGoes c w (k.ls.num (4 * w) 4) (k.readersGo w)) := by
  have h1 := k.lets_readersGo w
  have hfull1 := k.full_readersGo w w
  generalize hk1 : k.readersGo w = k1 at h1 hfull1 ⊢
  have h2 := s.lets_emptierGoes c w (k.ls.num (4 * w) 4) k1
  have hfull2 := s.full_emptierGoes c w (k.ls.num (4 * w) 4) k1
  generalize s.emptierGoes c w (k.ls.num (4 * w) 4) k1 = k2 at h2 hfull2 ⊢
  have hl1 : (if k.full w then feParked k w .ldff else []) ⊆ feParked k w .ldff := by split <;> simp
  have hemptiers : feParked k1 w .ldfe = feParked k w .ldfe := h1.feParked_eq hl1 nofun
  have hl2 : (if k1.full w then firstParked k1 w .ldfe else []) ⊆ feParked k1 w .ldfe := by
    split
    · exact firstParked_subset ..
    · exact List.nil_subset _
  have hfirst : firstParked k1 w .ldfe = firstParked k w .ldfe := by rw [firstParked, hemptiers, firstParked]
  refine ⟨fun hf i hi => ?_, fun hf i hi => ?_, fun i hi => ?_, ?_, ?_, h2.ls.trans h1.ls, h2.pool.trans h1.pool⟩
  · have hwent : k1.Went i _ := h1.went i (by rwa [if_pos hf])
    exact hwent.congr (h2.kept i fun hm => hwent.not_mem _ _ (hl2 hm))
  · exact h2.went i (by rw [hfull1, if_pos hf, hfirst]; exact hi)
  · rw [h2.kept i ?_, h1.kept i ?_]
    · intro hm
      cases hf : k.full w with
      | false => rw [hf] at hm; cases hm
      | true => rw [hf] at hm; exact hi ⟨hf, .inl hm⟩
    · intro hm
      rw [hfull1, hfirst] at hm
      cases hf : k.full w with
      | false => rw [hf] at hm; cases hm
      | true => rw [hf] at hm; exact hi ⟨hf, .inr hm⟩
  · exact (h2.feParked_eq (op' := .stfe) hl2 nofun).trans (h1.feParked_eq hl1 nofun)
  · rw [hfull2, hfull1, hemptiers, CoreState.emptied]
    simp

/-! ### The third step -/

/-- R147, R316: what the third step leaves, and whether a thread has filled the word. -/
structure Filling (s : State) (c w : Nat) (k : CoreState) (r : State × Bool) : Prop where
  mem : r.1.mem = s.mem
  went : ∀ i v, k.Went i v → (r.1.core c).Went i v
  kept : ∀ i, ¬(k.full w = false ∧ (if listClosed k (4 * w) 4 then i ∈ feParked k w .stfe else i ∈ firstParked k w .stfe)) →
    (r.1.core c).slots[i] = k.slots[i]
  full : k.full w = true → (r.1.core c).full w = true ∧ (r.1.core c).ls = k.ls
  empty : k.full w = false → feParked k w .stfe = [] ∨ listClosed k (4 * w) 4 = true → (r.1.core c).full w = false ∧ (r.1.core c).ls = k.ls
  writer : k.full w = false → listClosed k (4 * w) 4 = false → ∀ i t q, k.First w .stfe i t q →
    (r.1.core c).Went i 0 ∧ (r.1.core c).full w = true ∧ r.2 = true ∧ (r.1.core c).ls = k.ls.putNum (4 * w) 4 q.value.toNat
  trapped : k.full w = false → listClosed k (4 * w) 4 = true → ∀ i ∈ feParked k w .stfe,
    ∃ x f, (r.1.core c).slots[i] = some x ∧ x.st = .faulted ∧ x.fe = none ∧ x.fault = some f ∧ f.kind = 22

section
variable (s : State) (c w : Nat) (k : CoreState)

/-- Nothing is done where the word is Full, or where no thread waits to fill it. -/
theorem filling_setCore (hclosed : listClosed k (4 * w) 4 = false ∨ k.full w = true) (h : k.full w = true ∨ feParked k w .stfe = []) :
    Filling s c w k (s.setCore c k, false) := by
  have hnone (hf : k.full w = false) : feParked k w .stfe = [] := h.resolve_left (by simp [hf])
  have hopen (hf : k.full w = false) : listClosed k (4 * w) 4 = false := hclosed.resolve_right (by simp [hf])
  refine ⟨rfl, fun i v hw => ?_, fun i _ => ?_, fun hf => ?_, fun hf _ => ?_, fun hf _ i t q hq => ?_, fun hf hl => ?_⟩
  · rwa [State.core_setCore_self]
  · rw [State.core_setCore_self]
  · rw [State.core_setCore_self]
    exact ⟨hf, rfl⟩
  · rw [State.core_setCore_self]
    exact ⟨hf, rfl⟩
  · have hm := hq.1.mem
    rw [hnone hf] at hm
    cases hm
  · rw [hopen hf] at hl
    cases hl

/-- R316: those that would write a closed list area trap. -/
theorem filling_trap (hf : k.full w = false) (hl : listClosed k (4 * w) 4 = true) (f : Fin 16 → FaultInfo) (hkind : ∀ i, (f i).kind = 22) :
    Filling s c w k ((feParked k w .stfe).foldl (fun (r : State) i => r.takeTrap c i (f i)) (s.setCore c k), false) := by
  have hslots : OnlySlots c (s.setCore c k) ((feParked k w .stfe).foldl (fun (r : State) i => r.takeTrap c i (f i)) (s.setCore c k)) :=
    OnlySlots.foldl (fun r i => onlySlots_takeTrap r c i (f i)) _ _
  have hat := fun j => State.threadAt_foldl_takeTrap c f j _ (nodup_feParked k w .stfe) (s.setCore c k)
  generalize (feParked k w .stfe).foldl (fun (r : State) i => r.takeTrap c i (f i)) (s.setCore c k) = t at hslots hat
  have hbefore (j : Fin 16) : (s.setCore c k).threadAt c j = k.slots[j] := by rw [State.threadAt, State.core_setCore_self]
  have hkept (j : Fin 16) (hj : j ∉ feParked k w .stfe) : (t.core c).slots[j] = k.slots[j] := by
    have h := hat j
    rwa [if_neg hj, hbefore] at h
  refine ⟨hslots.mem, fun i v hw => hw.congr (hkept i (hw.not_mem _ _)), fun i hi => hkept i fun hm => hi ⟨hf, by rwa [if_pos hl]⟩, fun h => ?_,
    fun _ _ => ?_, fun _ h => ?_, fun _ _ i hi => ?_⟩
  · rw [hf] at h; cases h
  · rw [hslots.full, hslots.ls, State.core_setCore_self]
    exact ⟨hf, rfl⟩
  · rw [hl] at h; cases h
  · obtain ⟨u, q, hu, -⟩ := mem_feParked.mp hi
    have h := hat i
    rw [if_pos hi, hbefore, hu] at h
    exact ⟨u.fail (f i), f i, h, rfl, rfl, rfl, hkind i⟩

/-- R147: the first that fills an Empty word goes on. -/
theorem filling_write (hf : k.full w = false) (hl : listClosed k (4 * w) 4 = false) {i : Fin 16} {t : Thread} {q : FeReq}
    (hq : k.First w .stfe i t q) {k' : CoreState} (hk : k.Lets [i] 0 k') (hfull : k'.full w = true) :
    Filling s c w k (s.setCore c { k' with ls := k'.ls.putNum (4 * w) 4 q.value.toNat }, true) := by
  obtain ⟨l, hp⟩ := hq.parked
  have hfirst : firstParked k w .stfe = [i] := by rw [firstParked, hp]; rfl
  refine ⟨rfl, fun j v hw => ?_, fun j hj => ?_, fun h => ?_, fun _ h => ?_, fun _ _ j u p hu => ?_, fun _ h => ?_⟩
  · rw [State.core_setCore_self]
    exact hw.congr (hk.kept j fun hm => hw.not_mem w .stfe (firstParked_subset k w .stfe (hfirst ▸ hm)))
  · rw [State.core_setCore_self]
    exact hk.kept j fun hm => hj ⟨hf, by rw [hl, hfirst]; exact hm⟩
  · rw [hf] at h; cases h
  · rw [hp, hl] at h
    obtain h | h := h <;> cases h
  · have hj : j ∈ firstParked k w .stfe := hu.mem
    rw [hfirst] at hj
    obtain rfl := List.mem_singleton.mp hj
    obtain ⟨-, rfl, -⟩ := hu.1.unique hq.1
    rw [State.core_setCore_self, ← hk.ls]
    exact ⟨hk.went j hj, hfull, rfl, rfl⟩
  · rw [hl] at h; cases h

theorem filling : Filling s c w k (s.writerGoes c w k) := by
  unfold State.writerGoes
  cases hf : k.full w with
  | true => exact filling_setCore s c w k (.inr hf) (.inl hf)
  | false =>
    cases hl : listClosed k (4 * w) 4 with
    | true => exact filling_trap s c w k hf hl _ fun _ => rfl
    | false =>
      cases hp : feParked k w .stfe with
      | nil => exact filling_setCore s c w k (.inl hl) (.inr hp)
      | cons i l =>
        obtain ⟨t, q, hq⟩ := CoreState.first_of_parked hp
        obtain ⟨ht, hfe, -⟩ := hq.1
        have hlets : k.Lets [i] 0 _ := (CoreState.lets_foldl (by rw [hp]; simp : [i] ⊆ feParked k w .stfe) (List.nodup_singleton i) 0
          (mapGet k.feTags w)).setFull w true (s.tagOf c i t) s.cycle
        have h := filling_write s c w k hf hl hq hlets (CoreState.full_setFull ..)
        simpa only [Bool.false_eq_true, if_false, ht, hfe, List.foldl_cons, List.foldl_nil] using h
end

end Sys2Proof.Machine
end

section
/-! The re-checks that fail in a round (R148), the round and its timeouts, and what full/empty accesses do as a whole. -/

namespace Sys2Proof.Machine

/-! ### The re-checks that fail -/

/-- R148: a thread whose re-check has failed once more. -/
def Thread.feFailed (t : Thread) : Thread := { t with feCount := t.feCount + 1 }

/-- The slots whose threads wait on a word. -/
def feWaiters (k : CoreState) (w : Nat) : List (Fin 16) := feParked k w .ldfe ++ feParked k w .ldff ++ feParked k w .stfe

theorem mem_feWaiters {k : CoreState} {w : Nat} {i : Fin 16} : i ∈ feWaiters k w ↔ ∃ op t r, k.Waits w op i t r := by
  simp only [feWaiters, List.mem_append, mem_feParked]
  constructor
  · rintro ((h | h) | h)
    exacts [⟨_, h⟩, ⟨_, h⟩, ⟨_, h⟩]
  · rintro ⟨op, h⟩
    cases op with
    | ldfe => exact .inl (.inl h)
    | ldff => exact .inl (.inr h)
    | stfe => exact .inr h
theorem nodup_feWaiters (k : CoreState) (w : Nat) : (feWaiters k w).Nodup := by
  have hdisj {op op' : FeOp} (hne : op ≠ op') : (feParked k w op).Disjoint (feParked k w op') := fun i hi hi' => by
    obtain ⟨t, r, h⟩ := mem_feParked.mp hi
    exact h.not_mem hne hi'
  have hfe : (feParked k w .ldfe).Disjoint (feParked k w .ldff) := hdisj nofun
  have hst : (feParked k w .ldfe ++ feParked k w .ldff).Disjoint (feParked k w .stfe) :=
    List.disjoint_append_left.mpr ⟨hdisj nofun, hdisj nofun⟩
  exact (((nodup_feParked ..).append (nodup_feParked ..) hfe).append (nodup_feParked ..) hst :)

theorem State.threadAt_feExpire (s : State) (c : Nat) (i j : Fin 16) (h : j = i → ∀ t, s.threadAt c j = some t → feExpired t = false) :
    (s.feExpire c i).threadAt c j = s.threadAt c j := by
  unfold State.feExpire
  split
  · next t ht =>
    split
    · next he =>
      have hne : j ≠ i := fun e => by
        subst e
        rw [h rfl t ht] at he
        cases he
      rw [State.threadAt_takeTrap, if_neg hne]
    · rfl
  · rfl
/-- R148: a thread whose re-checks have not come to their limit stays. -/
theorem State.threadAt_foldl_feExpire (c : Nat) (j : Fin 16) (l : List (Fin 16)) : ∀ s : State,
    (j ∈ l → ∀ t, s.threadAt c j = some t → feExpired t = false) → (l.foldl (fun s i => s.feExpire c i) s).threadAt c j = s.threadAt c j := by
  induction l with
  | nil => exact fun _ _ => rfl
  | cons i l ih =>
    intro s h
    have hi : (s.feExpire c i).threadAt c j = s.threadAt c j := s.threadAt_feExpire c i j fun e => h (e ▸ List.mem_cons_self)
    rw [List.foldl_cons, ih _ (fun hj => hi ▸ h (List.mem_cons_of_mem i hj)), hi]

/-! ### A round -/

/-- R147: the words that are to be checked again after a round: this one, where a thread has filled it. -/
def CoreState.dirtyAfter (k : CoreState) (w now : Nat) (filled : Bool) : List (Nat × Nat) :=
  if filled then k.dirty.filter (fun p => p.1 != w) ++ [(w, now)] else k.dirty.filter (fun p => p.1 != w)
/-- A core after a round, its failed re-checks counted. -/
def CoreState.rechecked (k : CoreState) (w now : Nat) (filled : Bool) : CoreState :=
  (feWaiters k w).foldl (fun k i => k.updSlot i Thread.feFailed) { k with dirty := k.dirtyAfter w now filled }

theorem State.feRecheck_eq {s : State} {c w : Nat} (h : s.roundDue c w = true) : s.feRecheck c w =
    (feWaiters ((s.feRound c w).1.core c) w).foldl (fun s i => s.feExpire c i)
      (((s.feRound c w).1.setCore c (((s.feRound c w).1.core c).rechecked w s.cycle (s.feRound c w).2)).count c 8
        (feWaiters ((s.feRound c w).1.core c) w).length) := by
  unfold State.feRecheck
  rw [h]
  rfl

theorem State.roundDue_iff {s : State} {c w : Nat} : s.roundDue c w = true ↔ ∃ n, (w, n) ∈ (s.core c).dirty ∧ n < s.cycle := by
  simp only [State.roundDue, List.any_eq_true, Bool.and_eq_true, beq_iff_eq, decide_eq_true_eq]
  constructor
  · rintro ⟨⟨x, n⟩, hm, rfl, hn⟩
    exact ⟨n, hm, hn⟩
  · rintro ⟨n, hm, hn⟩
    exact ⟨(w, n), hm, rfl, hn⟩

/-- R147, R148: what the failed re-checks of a round add to it. -/
structure Rechecked (c w : Nat) (k : CoreState) (now : Nat) (filled : Bool) (u : State) : Prop where
  full : (u.core c).full w = k.full w
  ls : (u.core c).ls = k.ls
  dirty : filled = true → (w, now) ∈ (u.core c).dirty
  kept : ∀ i, (∀ op t r, ¬k.Waits w op i t r) → u.threadAt c i = k.slots[i]
  counted : ∀ op i t r, k.Waits w op i t r → statFte t.stat = false → u.threadAt c i = some t.feFailed

theorem State.rechecked {s : State} {c w : Nat} (h : s.roundDue c w = true) : (s.feRecheck c w).mem = (s.feRound c w).1.mem ∧
    Rechecked c w ((s.feRound c w).1.core c) s.cycle (s.feRound c w).2 (s.feRecheck c w) := by
  rw [State.feRecheck_eq h]
  generalize s.feRound c w = r
  generalize hk : r.1.core c = k
  have hcount (i : Fin 16) := CoreState.slots_foldl_updSlot Thread.feFailed i (feWaiters k w) (nodup_feWaiters k w)
    { k with dirty := k.dirtyAfter w s.cycle r.2 }
  have hrest : k.rechecked w s.cycle r.2 = _ := CoreState.foldl_updSlot_eq Thread.feFailed (feWaiters k w)
    { k with dirty := k.dirtyAfter w s.cycle r.2 }
  generalize hm : (r.1.setCore c (k.rechecked w s.cycle r.2)).count c 8 (feWaiters k w).length = m
  have hcore : m.core c = k.rechecked w s.cycle r.2 := by rw [← hm]; exact State.core_setCore_self ..
  have hmem : m.mem = r.1.mem := by rw [← hm]; rfl
  have honly : OnlySlots c m ((feWaiters k w).foldl (fun s i => s.feExpire c i) m) :=
    OnlySlots.foldl (fun s i => onlySlots_feExpire s c i) _ _
  have hat (i : Fin 16) := State.threadAt_foldl_feExpire c i (feWaiters k w) m
  have hslot (i : Fin 16) : m.threadAt c i = if i ∈ feWaiters k w then (k.slots[i]).map Thread.feFailed else k.slots[i] := by
    rw [State.threadAt, hcore]
    exact hcount i
  generalize (feWaiters k w).foldl (fun s i => s.feExpire c i) m = u at honly hat
  refine ⟨honly.mem.trans hmem, ?_, ?_, fun hr => ?_, fun i hi => ?_, fun op i t q ht hfte => ?_⟩
  · rw [honly.full, hcore, hrest]; rfl
  · rw [honly.ls, hcore, hrest]
  · rw [honly.dirty, hcore, hrest, CoreState.dirtyAfter, if_pos hr]
    exact List.mem_append_right _ (List.mem_singleton_self _)
  · have hnot : i ∉ feWaiters k w := fun hm => by
      obtain ⟨op, t, q, ht⟩ := mem_feWaiters.mp hm
      exact hi op t q ht
    rw [hat i fun hm => absurd hm hnot, hslot, if_neg hnot]
  · have hin : i ∈ feWaiters k w := mem_feWaiters.mpr ⟨op, t, q, ht⟩
    have hfailed : m.threadAt c i = some t.feFailed := by rw [hslot, if_pos hin, ht.1]; rfl
    rw [hat i fun _ x hx => ?_, hfailed]
    obtain rfl : t.feFailed = x := Option.some.inj (hfailed.symm.trans hx)
    have hstat : statFte t.feFailed.stat = false := hfte
    simp [feExpired, hstat]

end Sys2Proof.Machine
end

section
/-! Full/empty accesses: a round from its steps, and the obligation. -/

namespace Sys2Proof.Machine

theorem CoreState.Waits.of_slot {k k' : CoreState} {w : Nat} {op : FeOp} {i : Fin 16} {t : Thread} {q : FeReq} (h : k.Waits w op i t q)
    (he : k'.slots[i] = k.slots[i]) : k'.Waits w op i t q := ⟨he.trans h.1, h.2⟩
theorem feParked_eq_nil {k : CoreState} {w : Nat} {op : FeOp} (h : ∀ i t q, ¬k.Waits w op i t q) : feParked k w op = [] :=
  List.eq_nil_iff_forall_not_mem.mpr fun i hi => by
    obtain ⟨t, q, ht⟩ := mem_feParked.mp hi
    exact h i t q ht
theorem CoreState.emptied_iff {k : CoreState} {w : Nat} :
    k.emptied w = true ↔ ¬k.full w = true ∨ ¬∀ i t q, ¬k.Waits w .ldfe i t q := by
  have hnone : feParked k w .ldfe = [] ↔ ∀ i t q, ¬k.Waits w .ldfe i t q :=
    ⟨fun h i t q ht => List.not_mem_nil (h ▸ ht.mem), feParked_eq_nil⟩
  rw [← hnone, CoreState.emptied]
  simp

section
variable {s u : State} {c w : Nat} {k k2 : CoreState} {r : State × Bool} (hE : Emptying k w k2) (hF : Filling s c w k2 r)
  (hR : Rechecked c w (r.1.core c) s.cycle r.2 u)

/-- R147: a thread goes on: it has its answer and waits no more. -/
def State.Goes (u : State) (c : Nat) (i : Fin 16) (v : Nat) : Prop :=
  ∃ x, u.threadAt c i = some x ∧ x.granted = true ∧ x.fe = none ∧ x.aux = BitVec.ofNat 64 v

include hR in
theorem Rechecked.goes {i : Fin 16} {v : Nat} (h : (r.1.core c).Went i v) : u.Goes c i v := by
  obtain ⟨x, hx, hgo⟩ := h
  refine ⟨x, (hR.kept i fun op t q ht => ?_).trans hx, hgo⟩
  exact CoreState.Went.not_mem ⟨x, hx, hgo⟩ w op ht.mem
include hR in
theorem Rechecked.trapped {i : Fin 16} (h : ∃ x f, (r.1.core c).slots[i] = some x ∧ x.st = .faulted ∧ x.fe = none ∧ x.fault = some f ∧ f.kind = 22) :
    ∃ x f, u.threadAt c i = some x ∧ x.st = .faulted ∧ x.fault = some f ∧ f.kind = 22 := by
  obtain ⟨x, f, hx, hst, hfe, hfault⟩ := h
  refine ⟨x, f, (hR.kept i ?_).trans hx, hst, hfault⟩
  rintro op t q ⟨ht, hq, -⟩
  obtain rfl : x = t := Option.some.inj (hx.symm.trans ht)
  rw [hfe] at hq
  cases hq
include hR in
theorem Rechecked.stays {op : FeOp} {i : Fin 16} {t : Thread} {q : FeReq} (h : k.Waits w op i t q) (he : (r.1.core c).slots[i] = k.slots[i])
    (hfte : statFte t.stat = false) : u.threadAt c i = some { t with feCount := t.feCount + 1 } :=
  hR.counted op i t q (h.of_slot he) hfte

section
variable {i : Fin 16} {t : Thread} {q : FeReq}

include hE in
theorem Emptying.stfe_kept (h : k.Waits w .stfe i t q) : k2.slots[i] = k.slots[i] :=
  hE.kept i fun hm => hm.2.elim (h.not_mem (op' := .ldff) nofun) fun hm => h.not_mem (op' := .ldfe) nofun (firstParked_subset _ _ _ hm)
include hE in
theorem Emptying.first (h : k.First w .stfe i t q) : k2.First w .stfe i t q := by
  refine (h.1.of_slot (hE.stfe_kept h.1)).first_of_mem ?_
  have hm := h.mem
  rwa [firstParked, ← hE.writers] at hm
include hE in
theorem Emptying.closed : listClosed k2 (4 * w) 4 = listClosed k (4 * w) 4 := by unfold listClosed; rw [hE.pool]

include hE in
theorem Emptying.mem_writers : (if listClosed k2 (4 * w) 4 then i ∈ feParked k2 w .stfe else i ∈ firstParked k2 w .stfe) →
    i ∈ feParked k w .stfe := by
  rw [← hE.writers]
  split
  · exact id
  · exact fun hm => firstParked_subset _ _ _ hm
include hE hF in
/-- A thread that waits on the word with another operation, or on none, is not touched by the third step. -/
theorem Filling.kept_of_not_stfe (h : i ∉ feParked k w .stfe) : (r.1.core c).slots[i] = k2.slots[i] :=
  hF.kept i fun hm => h (hE.mem_writers hm.2)
end
end

/-- R147, R148: a round that is due. -/
theorem State.round {s : State} {c w : Nat} (h : s.roundDue c w = true) : ∃ k2 r, Emptying (s.core c) w k2 ∧ Filling s c w k2 r ∧
    Rechecked c w (r.1.core c) s.cycle r.2 (s.feRecheck c w) ∧ (s.feRecheck c w).mem = s.mem := by
  have hE := emptying s c w (s.core c)
  have hF := filling s c w (s.emptierGoes c w ((s.core c).ls.num (4 * w) 4) ((s.core c).readersGo w))
  obtain ⟨hmem, hR⟩ := State.rechecked h
  rw [State.feRound_eq] at hmem hR
  exact ⟨_, _, hE, hF, hR, hmem.trans hF.mem⟩

/-- R148: an access whose limit is reached traps. -/
theorem State.feExpire_expired {s : State} {c : Nat} {i : Fin 16} {t : Thread} (ht : s.threadAt c i = some t) (he : feExpired t = true) :
    ∃ f, f.kind = 24 ∧ s.feExpire c i = s.setSlot c i (some (t.fail f)) := by
  refine ⟨{ kind := kFeTimeout, ea := (t.fe.map (·.ea)).getD 0, access := (t.fe.map (·.op.right.code)).getD 0 }, rfl, ?_⟩
  simp only [State.feExpire, ht, he, if_true]
  exact State.takeTrap_of_threadAt ht _
theorem State.feExpire_unexpired {s : State} {c : Nat} {i : Fin 16} {t : Thread} (ht : s.threadAt c i = some t) (he : feExpired t = false) :
    s.feExpire c i = s := by
  simp [State.feExpire, ht, he]

theorem exec_feTimeout (s : State) (c : Nat) (i : Fin 16) : exec (.feTimeout c i.val) s = .next (s.feExpire c i) := by
  have hi : Fin.ofNat 16 i.val = i := Fin.ext (Nat.mod_eq_of_lt i.isLt)
  show execFeTimeout c i.val s = _
  rw [execFeTimeout, hi]

theorem completes_feTimeout {s : State} {c : Nat} {i : Fin 16} {t : Thread} (ht : s.threadAt c i = some t) (he : feExpired t = true) :
    Completes (.feTimeout c i.val) s (fun u => u.mem = s.mem ∧ (u.core c).ls = (s.core c).ls ∧
      ∃ v f, u.threadAt c i = some v ∧ v.st = .faulted ∧ v.fault = some f ∧ f.kind = 24) := by
  obtain ⟨f, hkind, hexp⟩ := State.feExpire_expired ht he
  refine ⟨_, exec_feTimeout s c i, ?_⟩
  rw [hexp]
  exact ⟨rfl, by rw [State.core_setSlot_self], t.fail f, f, State.threadAt_setSlot_self .., rfl, rfl, hkind⟩

/-- Settles O14: the accesses one by one; a round from its three steps and the re-checks that fail in it. -/
theorem fullEmptyAccesses : Obligations.FullEmptyAccesses := by
  refine ⟨?_, ?_, ?_⟩
  · intro s size d a b os off o hs hr hg hl ea k w x v waits
    refine ⟨fun hc hw h => completes_ldfe hs hr hg hl rfl hc hw h, fun hc hw h => completes_ldff hs hr hg hl rfl hc hw h,
      fun hc hw h ho => completes_stfe hs hr hg hl rfl hc hw h ((osScope_eq os).symm ▸ ho), fun st hc hw => completes_feset hs hr hl rfl hc hw⟩
  · intro s size d a b os off o hs hr hg hl ea k w waits
    refine ⟨fun hc hw h => ?_, fun hc hw h => ?_, fun hc hw h ho => ?_⟩
    · exact completes_fullEmpty_waits (op := .ldfe) hs hr hg hl rfl hc hw nofun (by rw [h]; simp)
    · exact completes_fullEmpty_waits (op := .ldff) hs hr hg hl rfl hc hw nofun (by rw [h]; simp)
    · exact completes_fullEmpty_waits (op := .stfe) hs hr hg hl rfl hc hw (fun _ => (osScope_eq os).symm ▸ ho) (by rw [h]; simp)
  · intro s c w k due waits none_ first full emptied closed goes stays
    refine ⟨fun hdue => ?_, fun hdue => ?_, fun i t ht => ⟨fun hfe hfte hn => ?_, fun h => ?_⟩⟩
    · have hnot : s.roundDue c w = false := by
        rw [Bool.eq_false_iff]
        exact fun h => hdue (State.roundDue_iff.mp h)
      show execFeRecheckRound c w s = _
      simp [execFeRecheckRound, State.feRecheck, hnot]
    · obtain ⟨k2, r, hE, hF, hR, hmem⟩ := State.round (State.roundDue_iff.mpr hdue)
      have hemptied : emptied → k2.full w = false := fun h => by rw [hE.full, CoreState.emptied_iff.mpr h]; rfl
      have hnot_emptied : ¬emptied → k2.full w = true := fun h => by
        rw [hE.full, Bool.eq_false_iff.mpr fun he => h (CoreState.emptied_iff.mp he)]
        rfl
      refine ⟨_, rfl, hmem, fun hf => ⟨fun i t q h => ?_, fun i t q h => ?_⟩, fun he => ?_, fun he h => ?_, fun he hcl i t q h => ?_,
        fun he hcl i t q h => ?_, fun i t q h hf hfte => ?_, fun i t q h hn hfte => ?_, fun i t q h hn hfte => ?_, fun i h => ?_⟩
      · exact hR.goes (hF.went i _ (hE.readers hf i (CoreState.Waits.mem h)))
      · exact hR.goes (hF.went i _ (hE.emptier hf i (CoreState.First.mem h)))
      · obtain ⟨hfull, hls⟩ := hF.full (hnot_emptied he)
        exact ⟨hR.full.trans hfull, hR.ls.trans (hls.trans hE.ls)⟩
      · have hnone : feParked k2 w .stfe = [] ∨ listClosed k2 (4 * w) 4 = true := by
          rw [hE.writers, hE.closed]
          exact h.imp feParked_eq_nil id
        obtain ⟨hfull, hls⟩ := hF.empty (hemptied he) hnone
        exact ⟨hR.full.trans hfull, hR.ls.trans (hls.trans hE.ls)⟩
      · have hopen : listClosed k2 (4 * w) 4 = false := by rw [hE.closed]; exact Bool.eq_false_iff.mpr hcl
        obtain ⟨hwent, hfull, hfilled, hls⟩ := hF.writer (hemptied he) hopen i t q (hE.first h)
        exact ⟨hR.goes hwent, hR.full.trans hfull, hR.dirty hfilled, hR.ls.trans (hls.trans (by rw [hE.ls]))⟩
      · have hmem : i ∈ feParked k2 w .stfe := by rw [hE.writers]; exact CoreState.Waits.mem h
        exact hR.trapped (hF.trapped (hemptied he) (by rw [hE.closed]; exact hcl) i hmem)
      · have hw : k.Waits w .ldff i t q := h
        exact hR.stays hw ((Filling.kept_of_not_stfe hE hF (hw.not_mem nofun)).trans (hE.kept i fun hm => hf hm.1)) hfte
      · have hw : k.Waits w .ldfe i t q := h
        refine hR.stays hw ((Filling.kept_of_not_stfe hE hF (hw.not_mem nofun)).trans (hE.kept i ?_)) hfte
        rintro ⟨hf, hm | hm⟩
        · exact hw.not_mem (op' := .ldff) nofun hm
        · exact hn.elim (fun hn => hn hf) fun hn => hn (hw.first_of_mem hm)
      · have hw : k.Waits w .stfe i t q := h
        refine hR.stays hw ((hF.kept i ?_).trans (hE.stfe_kept hw)) hfte
        rintro ⟨hf, hm⟩
        obtain hn | ⟨hcl, hn⟩ := hn
        · rw [hnot_emptied hn] at hf
          cases hf
        · rw [hE.closed, if_neg hcl, firstParked, hE.writers] at hm
          exact hn (hw.first_of_mem hm)
      · have hnot (op : FeOp) : i ∉ feParked k w op := fun hm => by
          obtain ⟨t, q, ht⟩ := mem_feParked.mp hm
          exact h t q op ht
        have hslot : (r.1.core c).slots[i] = k.slots[i] :=
          (Filling.kept_of_not_stfe hE hF (hnot .stfe)).trans
            (hE.kept i fun hm => hm.2.elim (hnot .ldff) fun hm => hnot .ldfe (firstParked_subset _ _ _ hm))
        refine (hR.kept i fun op t q ht => h t q op (CoreState.Waits.of_slot ht hslot.symm)).trans hslot
    · exact completes_feTimeout ht (by simp [feExpired, hfe, hfte, hn])
    · have he : feExpired t = false := by
        obtain h | h | h := h
        · simp [feExpired, Option.isNone_iff_eq_none.mp h]
        · simp [feExpired, h]
        · simp [feExpired, Nat.not_le.mpr h]
      rw [exec_feTimeout, State.feExpire_unexpired ht he]

end Sys2Proof.Machine
end

section
/-! The instructions that set a register of the core (R142, R224, R278, R288, R392, R395, R396). -/

namespace Sys2Proof.Machine

/-- An instruction that replaces its core, but for the slots, and goes on. -/
theorem completes_setCore {s : State} (hs : s.thread.isSome = true) {i : Instr} {q : CoreState}
    (he : exec i s = issue s (s.setCore s.cur q).advance) (hq : q.slots = (s.core s.cur).slots) :
    Completes i s (Passed (s.setCore s.cur q) s.th s.nextPc) :=
  completes_of_issue hs he (passed_base (by simp [State.th, State.thread, State.threadAt, hq]))
/-- An instruction that is refused. -/
theorem completes_trap {s : State} (hs : s.thread.isSome = true) {i : Instr} {kind : Nat} (he : exec i s = issue s (s.trap kind)) :
    Completes i s (Trapped s kind 0) := completes_of_issue hs he (trapped_trap hs kind)

/-! ### The values that may be written -/

/-- The bits above a place are the number's quotient. -/
theorem bits_top (v : Word) (lo : Nat) (h : lo ≤ 63) : bits v 63 lo = v.toNat / 2 ^ lo := by
  have hpow : 2 ^ lo * 2 ^ (63 + 1 - lo) = 2 ^ 64 := by rw [← Nat.pow_add]; congr 1; omega
  rw [bits_eq_div_mod, Nat.mod_eq_of_lt (Nat.div_lt_of_lt_mul (by rw [hpow]; exact v.isLt))]

theorem winOk_iff (v : Word) : winOk v = true ↔
    v.toNat / 2 ^ 36 % 2 ^ 22 = 0 ∧ (v.getLsbD 63 = true → 1 ≤ v.toNat / 2 ^ 58 % 8 ∧ v.toNat / 2 ^ 58 % 8 ≤ 3) := by
  simp only [winOk, bits_eq_div_mod, Bool.and_eq_true, Bool.or_eq_true, Bool.not_eq_true', beq_iff_eq, decide_eq_true_eq]
  cases v.getLsbD 63 <;> simp
theorem cbOk_eq_false_iff (v : Word) : cbOk v = false ↔ v.toNat / 2 ^ 57 ≠ 0 ∨ v.toNat % 64 ≠ 0 ∨
    v.toNat % 2 ^ 18 + 64 * (v.toNat / 2 ^ 18 % 64 + 1) * (v.toNat / 2 ^ 24 % 64 + 1) > 0x40000 := by
  have htop := bits_top v 57 (by decide)
  simp only [cbOk, htop, bits_eq_div_mod, Bool.and_eq_false_iff, beq_eq_false_iff_ne, decide_eq_false_iff_not, Nat.not_le, or_assoc, pow_zero,
    Nat.div_one, Nat.reduceAdd, Nat.reduceSub, Nat.reducePow, ne_eq, gt_iff_lt]
theorem CircBuf.configured_eq (v : Word) : CircBuf.configured v =
    { en := v.getLsbD 30, cnt := v.toNat / 2 ^ 24 % 64, sz := v.toNat / 2 ^ 18 % 64, base := v.toNat % 2 ^ 18
      slots := if v.getLsbD 30 then List.replicate (v.toNat / 2 ^ 24 % 64 + 1) .free else [] } := by
  simp only [CircBuf.configured, bits_eq_div_mod, pow_zero, Nat.div_one, Nat.reduceAdd, Nat.reduceSub, Nat.reducePow]

/-! ### The debug registers (R392) -/

section
variable {s : State} (a : Field) (hp : statPriv s.th.stat = 2)
include hp

/-- R392: firmware's write of a debug register other than DBGCTL. -/
theorem exec_wrsys_debug (num : BitVec 12) (h : 0x0D0 ≤ num.toNat) (h' : num.toNat < 0x0D8) :
    exec (.wrsys num a) s = issue s (s.setCore s.cur ((s.core s.cur).debugWrite num.toNat (s.reg a))).advance := by
  have hdebug : 0x0D0 ≤ num.toNat ∧ num.toNat ≤ 0x0D8 ∧ statPriv s.th.stat = 2 := ⟨h, h'.le, hp⟩
  exact (congrArg (issue s) (if_pos hdebug)).trans (congrArg (fun z : State => issue s z.advance) (if_neg h'.ne))
theorem completes_wrsys_debug (hs : s.thread.isSome = true) (num : BitVec 12) (h : 0x0D0 ≤ num.toNat) (h' : num.toNat < 0x0D8)
    {q : CoreState} (hq : (s.core s.cur).debugWrite num.toNat (s.reg a) = q) (hslots : q.slots = (s.core s.cur).slots) :
    Completes (.wrsys num a) s (Passed (s.setCore s.cur q) s.th s.nextPc) :=
  completes_setCore hs (hq ▸ exec_wrsys_debug a hp num h h') hslots

/-- R393: firmware's write of DBGCTL. -/
theorem exec_wrsys_dbgctl : exec (.wrsys 0x0D8 a) s =
    issue s ((s.setCore s.cur { s.core s.cur with stopEn := (s.reg a).getLsbD 0 }).stopWrite s.cur s.slot.val s.th.pc ((s.reg a).getLsbD 1)).advance := by
  have hdebug : 0x0D0 ≤ (0x0D8 : BitVec 12).toNat ∧ (0x0D8 : BitVec 12).toNat ≤ 0x0D8 ∧ statPriv s.th.stat = 2 :=
    ⟨by decide, by decide, hp⟩
  exact (congrArg (issue s) (if_pos hdebug)).trans (congrArg (fun z : State => issue s z.advance) (if_pos rfl))
end

/-- The core after a write of DBGCTL. -/
def CoreState.dbgctl (k : CoreState) (v : Word) : CoreState := { k with stopEn := v.getLsbD 0, stopped := v.getLsbD 1 }
/-- R393: the record of a core that a write of DBGCTL stops. -/
def State.stopRecord (s : State) : List Word :=
  [recordHead 7 0 s.time, BitVec.ofNat 64 ((s.slotEntity s.cur s.slot.val).toNat + 32 * 2 ^ 40), s.th.pc, 0]

/-- R393: STOP is written where the core goes on, or has stopped already. -/
theorem State.stopWrite_quiet {s : State} {v : Word} (h : v.getLsbD 1 = false ∨ (s.core s.cur).stopped = true) (pc : Word) :
    (s.setCore s.cur { s.core s.cur with stopEn := v.getLsbD 0 }).stopWrite s.cur s.slot.val pc (v.getLsbD 1) =
      s.setCore s.cur ((s.core s.cur).dbgctl v) := by
  cases hv : v.getLsbD 1 with
  | false =>
    simp only [State.stopWrite, Bool.false_eq_true, if_false, State.core_setCore_self, CoreState.dbgctl, hv]
    exact congrArg (fun l => { s with cores := l }) (mapPut_mapPut ..)
  | true =>
    have hstopped : (s.core s.cur).stopped = true := h.resolve_left (by simp [hv])
    simp only [State.stopWrite, if_true, State.core_setCore_self, hstopped, CoreState.dbgctl, hv]
/-- R393: what a core that stops records. -/
theorem State.stopCore_eq (s : State) (c slot cause : Nat) (pc addr : Word) : s.stopCore c slot cause pc addr =
    match (s.core c).ctx with
    | some x => (s.setCore c { s.core c with stopped := true }).recorded x 3
        [recordHead 7 0 s.time, BitVec.ofNat 64 ((s.slotEntity c slot).toNat + cause % 256 * 2 ^ 40), pc, addr]
    | none => s.setCore c { s.core c with stopped := true } := rfl
/-- R393: STOP is written, and the core stops, with its record if its session wants it. -/
theorem State.stopWrite_stops {s : State} {v : Word} (hv : v.getLsbD 1 = true) (hk : (s.core s.cur).stopped = false) :
    (s.setCore s.cur { s.core s.cur with stopEn := v.getLsbD 0 }).stopWrite s.cur s.slot.val s.th.pc (v.getLsbD 1) =
      match (s.core s.cur).ctx with
      | some x => (s.setCore s.cur ((s.core s.cur).dbgctl v)).recorded x 3 s.stopRecord
      | none => s.setCore s.cur ((s.core s.cur).dbgctl v) := by
  generalize hz : s.setCore s.cur { s.core s.cur with stopEn := v.getLsbD 0 } = z
  have hcore : z.core s.cur = { s.core s.cur with stopEn := v.getLsbD 0 } := by rw [← hz, State.core_setCore_self]
  have hrunning : (z.core s.cur).stopped = false := by rw [hcore]; exact hk
  have hctx : (z.core s.cur).ctx = (s.core s.cur).ctx := by rw [hcore]
  have hstopped : z.setCore s.cur { z.core s.cur with stopped := true } = s.setCore s.cur ((s.core s.cur).dbgctl v) := by
    rw [hcore, CoreState.dbgctl, hv, ← hz]
    exact congrArg (fun l => { s with cores := l }) (mapPut_mapPut ..)
  have hrecord : [recordHead 7 0 z.time, BitVec.ofNat 64 ((z.slotEntity s.cur s.slot.val).toNat + 32 * 2 ^ 40), s.th.pc, 0] = s.stopRecord := by
    rw [← hz]; rfl
  rw [State.stopWrite, if_pos hv, hrunning, if_neg Bool.false_ne_true, State.stopCore_eq, hctx, hstopped]
  exact congrArg (fun w => match (s.core s.cur).ctx with
    | some x => (s.setCore s.cur ((s.core s.cur).dbgctl v)).recorded x 3 w
    | none => s.setCore s.cur ((s.core s.cur).dbgctl v)) hrecord

section
variable {s : State} (hs : s.thread.isSome = true) (a : Field) (hp : statPriv s.th.stat = 2)
include hs hp

/-- R393: a write of DBGCTL that leaves no record. -/
theorem completes_dbgctl_quiet (h : (s.reg a).getLsbD 1 = false ∨ (s.core s.cur).stopped = true ∨ (s.core s.cur).ctx = none ∨
      (∃ x, (s.core s.cur).ctx = some x ∧ s.tracing x 3 = false)) :
    Completes (.wrsys 0x0D8 a) s (Passed (s.setCore s.cur ((s.core s.cur).dbgctl (s.reg a))) s.th s.nextPc) := by
  refine completes_setCore hs ((exec_wrsys_dbgctl a hp).trans (congrArg (fun z : State => issue s z.advance) ?_)) rfl
  by_cases hq : (s.reg a).getLsbD 1 = false ∨ (s.core s.cur).stopped = true
  · exact State.stopWrite_quiet hq _
  · obtain ⟨hv, hk⟩ := not_or.mp hq
    rw [State.stopWrite_stops (Bool.not_eq_false _ ▸ hv) (Bool.eq_false_iff.mpr hk)]
    obtain h | h | h | ⟨x, hx, ht⟩ := h
    · exact absurd h hv
    · exact absurd h hk
    · rw [h]
    · rw [hx]
      exact if_neg (Bool.eq_false_iff.mp ht)
/-- R393: a write of DBGCTL that stops its core, with a record. -/
theorem completes_dbgctl_recorded {x : Nat} (hv : (s.reg a).getLsbD 1 = true) (hk : (s.core s.cur).stopped = false)
    (hx : (s.core s.cur).ctx = some x) (ht : s.tracing x 3 = true) : Completes (.wrsys 0x0D8 a) s
      (Passed ((s.setCore s.cur ((s.core s.cur).dbgctl (s.reg a))).append x s.stopRecord false).1 s.th s.nextPc) := by
  have hrec : (s.setCore s.cur ((s.core s.cur).dbgctl (s.reg a))).recorded x 3 s.stopRecord =
      ((s.setCore s.cur ((s.core s.cur).dbgctl (s.reg a))).append x s.stopRecord false).1 := if_pos ht
  refine completes_of_issue hs (exec_wrsys_dbgctl a hp) ?_
  rw [State.stopWrite_stops hv hk, hx, ← hrec]
  refine passed_base ((State.th_recorded ..).trans ?_)
  simp [State.th, State.thread, State.threadAt, CoreState.dbgctl]
end

/-! ### The code table (R224) -/

/-- Elements set one by one are each the last one written there. -/
theorem getElem_foldl_set {α : Type} (f : Fin 16 → α) (j : Fin 16) (l : List (Fin 16)) : ∀ v : Vector α 16,
    (l.foldl (fun v (i : Fin 16) => v.set i (f i)) v)[j] = if j ∈ l then f j else v[j] := by
  induction l with
  | nil => intro v; simp
  | cons i l ih =>
    intro v
    rw [List.foldl_cons, ih]
    by_cases hl : j ∈ l
    · simp [hl]
    · by_cases hj : j = i
      · subst hj
        simp
      · have hne : i.val ≠ j.val := fun e => hj (Fin.ext e.symm)
        simp [hl, hj, hne]

theorem toNat_wordByte (w : Word) (k : Nat) : (wordByte w k).toNat = w.toNat / 256 ^ k % 256 := by
  rw [wordByte, BitVec.extractLsb'_toNat, Nat.shiftRight_eq_div_pow, Nat.pow_mul]
/-- The code table as `tbset` sets it: its bytes, and how it is written. -/
def codeTable (x y : Word) (i : Fin 16) : Byte := if i.val < 8 then wordByte x i.val else wordByte y (i.val - 8)
def tableOf (x y : Word) (v : Vector Byte 16) : Vector Byte 16 := slotNumbers.foldl (fun v (i : Fin 16) => v.set i (codeTable x y i)) v

theorem completes_tbset {s : State} (hs : s.thread.isSome = true) (a b : Field) : Completes (.tbset a b) s (fun t => ∃ table : Vector Byte 16,
    (∀ i : Fin 16, table[i] = codeTable (s.reg a) (s.reg b) i) ∧ Passed (s.setCore s.cur { s.core s.cur with table := table }) s.th s.nextPc t) := by
  obtain ⟨t, he, ht⟩ := completes_setCore hs (i := .tbset a b)
    (q := { s.core s.cur with table := tableOf (s.reg a) (s.reg b) (s.core s.cur).table }) rfl rfl
  have hall : ∀ i : Fin 16, i ∈ slotNumbers := by decide
  exact ⟨t, he, _, fun i => (getElem_foldl_set _ i slotNumbers _).trans (if_pos (hall i)), ht⟩

/-! ### The obligation -/

/-- An instruction that sets its core where a condition refuses nothing. -/
theorem completes_unless {s : State} (hs : s.thread.isSome = true) {i : Instr} {bad : Prop} [Decidable bad] {kind : Nat} {q : CoreState}
    (he : exec i s = issue s (if bad then s.trap kind else (s.setCore s.cur q).advance)) (hq : q.slots = (s.core s.cur).slots)
    {ok : Prop} [Decidable ok] (h : ok ↔ ¬bad) :
    if ok then Completes i s (Passed (s.setCore s.cur q) s.th s.nextPc) else Completes i s (Trapped s kind 0) := by
  split
  · next hok => exact completes_setCore hs (by rw [he, if_neg (h.mp hok)]) hq
  · next hno => exact completes_trap hs (by rw [he, if_pos (not_not.mp (mt h.mpr hno))])

/-! ### Circular buffers (R278) -/

/-- R278: a buffer that a producer fills or a consumer holds, or that a producer waits for. -/
def CircBuf.Busy (b : CircBuf) : Prop := .filling ∈ b.slots ∨ .held ∈ b.slots ∨ b.waiters ≠ []

section
variable {s : State} (n : BitVec 2) (a : Field)

theorem exec_wrsysCb_malformed (h : (!cbOk (s.reg a)) = true) : exec (.wrsysCb n a) s = issue s (s.trap 17) := congrArg (issue s) (if_pos h)
variable (h : ¬(!cbOk (s.reg a)) = true)
include h

theorem exec_wrsysCb_busy (hb : ((s.core s.cur).cb[n.toFin]).Busy) : exec (.wrsysCb n a) s = issue s (s.trap 37) :=
  congrArg (issue s) ((if_neg h).trans (if_pos (by simpa [CircBuf.Busy] using hb)))
theorem exec_wrsysCb_set (hb : ¬((s.core s.cur).cb[n.toFin]).Busy) : exec (.wrsysCb n a) s =
    issue s (s.setCore s.cur { s.core s.cur with cb := (s.core s.cur).cb.set n.toNat (CircBuf.configured (s.reg a)) n.isLt }).advance :=
  congrArg (issue s) ((if_neg h).trans (if_neg (by simpa [CircBuf.Busy] using hb)))
end

/-- Settles O5: each instruction's value is one that may be written, or is refused; DBGCTL by what its core was. -/
theorem coreSettings : Obligations.CoreSettings := by
  intro s a b hs k v set refused buf
  refine ⟨fun m => ?_, ?_, fun n => ?_, fun n hp => ?_, fun n hp => ?_, fun hp => ?_, fun hp => ?_, ?_⟩
  · exact completes_unless hs (i := .wrsysWin m a) (bad := (!winOk v) = true) rfl rfl ((winOk_iff v).symm.trans (by simp))
  · refine completes_unless hs (i := .wrsysMcbase a) (bad := bits v 63 18 ≠ 0) rfl rfl ?_
    rw [bits_top v 18 (by decide)]
    omega
  · split
    · next hbad =>
      have hno : (!cbOk v) = true := by rw [(cbOk_eq_false_iff v).mpr hbad]; rfl
      exact completes_trap hs (exec_wrsysCb_malformed n a hno)
    · next hok =>
      have hyes : ¬(!cbOk v) = true := fun h => hok ((cbOk_eq_false_iff v).mp (by simpa using h))
      split
      · next hbusy => exact completes_trap hs (exec_wrsysCb_busy n a hyes hbusy)
      · next hfree =>
        have he := exec_wrsysCb_set n a hyes hfree
        rw [CircBuf.configured_eq] at he
        exact completes_setCore hs he rfl
  · exact completes_unless hs (i := .wrsysPmsel n a) (bad := statPriv s.th.stat = 0 ∨ v.toNat > 8) rfl rfl (by simp [hp])
  · have hw : (if s.wrapped s.cur n.toFin = none then v else v ||| 0x8000000000000000) =
        if (s.wrapped s.cur n.toFin).isSome then v ||| (1 <<< 63) else v := by
      cases s.wrapped s.cur n.toFin <;> rfl
    rw [hw]
    refine completes_unless hs (i := .wrsysPmc n a) (bad := statPriv s.th.stat = 0 ∨ bits v 62 48 ≠ 0) rfl rfl ?_
    rw [bits_eq_div_mod]
    simp [hp]
  · intro z record
    exact ⟨fun h => completes_dbgctl_quiet hs a hp h, fun x hv hk hx ht => completes_dbgctl_recorded hs a hp hv hk hx ht⟩
  · have hset {num : BitVec 12} (h : 0x0D0 ≤ num.toNat) (h' : num.toNat < 0x0D8) {q : CoreState} (hq : k.debugWrite num.toNat v = q)
        (hslots : q.slots = k.slots) : set q (.wrsys num a) := completes_wrsys_debug a hp hs num h h' hq hslots
    exact ⟨hset (by decide) (by decide) rfl rfl, hset (by decide) (by decide) rfl rfl, hset (by decide) (by decide) rfl rfl,
      hset (by decide) (by decide) rfl rfl, hset (by decide) (by decide) rfl rfl, hset (by decide) (by decide) rfl rfl,
      hset (by decide) (by decide) rfl rfl, hset (by decide) (by decide) rfl rfl⟩
  · obtain ⟨t, he, table, htable, ht⟩ := completes_tbset hs a b
    refine ⟨t, he, table, fun i => ?_, ht⟩
    rw [htable, codeTable]
    split <;> exact toNat_wordByte ..

end Sys2Proof.Machine
end

section
/-! The copy engines of a die (R281), and the blocks that they keep (R286, R293). -/

namespace Sys2Proof.Machine

/-! ### Engines by their number (R281) -/

section
variable (s : State) {d e : Nat} (hd : d < 4) (he : e < 16)
include hd he

theorem State.engine_eq : s.engine d e = s.dies[d].engines[e] := by simp [State.engine, hd, he]

theorem State.engine_setEngine_self (v : Engine) : (s.setEngine d e v).engine d e = v := by
  rw [State.engine_eq _ hd he]
  simp [State.setEngine, Nat.mod_eq_of_lt hd, Nat.mod_eq_of_lt he]

theorem State.engine_setEngine_ne (v : Engine) {e' : Nat} (he' : e' < 16) (h : e' ≠ e) :
    (s.setEngine d e v).engine d e' = s.engine d e' := by
  rw [State.engine_eq _ hd he', State.engine_eq _ hd he']
  simp [State.setEngine, Nat.mod_eq_of_lt hd, Nat.mod_eq_of_lt he, h.symm]

end

theorem dieOf_lt {c : Nat} (h : c < 4096) : dieOf c < 4 := by unfold dieOf; omega
theorem engineOf_lt (c : Nat) : engineOf c < 16 := by unfold engineOf; omega

/-! ### Cached blocks that are removed (R293) -/

/-- R293: a removal drops a cached block: one of the context, at the address if one is named. -/
def dropsBlock (x : Nat) (addr : Option Nat) (b : Nat × Nat × Nat × List Byte) : Bool :=
  b.1 == x && (match addr with | some a => b.2.1 == a | none => true)

/-- R293: the removal at one engine. -/
def State.dropAt (d x : Nat) (addr : Option Nat) (s : State) (e : Nat) : State :=
  s.setEngine d e { s.engine d e with cache := (s.engine d e).cache.filter (fun b => !dropsBlock x addr b) }

theorem State.dropBlocks_eq_foldl (s : State) (d x : Nat) (addr : Option Nat) :
    s.dropBlocks d x addr = (List.range 16).foldl (State.dropAt d x addr) s := rfl

/-- R293: a removal changes the dies alone. -/
theorem State.dropBlocks_dies (s : State) (d x : Nat) (addr : Option Nat) :
    s.dropBlocks d x addr = { s with dies := (s.dropBlocks d x addr).dies } := by
  rw [State.dropBlocks_eq_foldl]
  generalize List.range 16 = l
  induction l generalizing s with
  | nil => rfl
  | cons e l ih => exact ih (s.dropAt d x addr e)

/-- R293: each engine that is visited once keeps the blocks that the removal does not name. -/
theorem State.engine_foldl_dropAt {d e : Nat} (hd : d < 4) (he : e < 16) (x : Nat) (addr : Option Nat) (l : List Nat)
    (hl : l.Nodup) (hlt : ∀ n ∈ l, n < 16) (s : State) :
    (l.foldl (State.dropAt d x addr) s).engine d e = if e ∈ l then
      { s.engine d e with cache := (s.engine d e).cache.filter (fun b => !dropsBlock x addr b) } else s.engine d e := by
  induction l generalizing s with
  | nil => rfl
  | cons n l ih =>
    obtain ⟨hn, hl⟩ := List.nodup_cons.mp hl
    have hn16 : n < 16 := hlt n List.mem_cons_self
    rw [List.foldl_cons, ih hl fun m hm => hlt m (List.mem_cons_of_mem n hm)]
    by_cases h : e = n
    · subst h
      simp [hn, State.dropAt, State.engine_setEngine_self _ hd he]
    · simp [h, State.dropAt, State.engine_setEngine_ne _ hd hn16 _ he h]

theorem State.mem_cache_dropBlocks (s : State) {d e : Nat} (hd : d < 4) (he : e < 16) (x : Nat) (addr : Option Nat)
    (b : Nat × Nat × Nat × List Byte) :
    b ∈ ((s.dropBlocks d x addr).engine d e).cache ↔ b ∈ (s.engine d e).cache ∧ ¬dropsBlock x addr b = true := by
  rw [State.dropBlocks_eq_foldl, State.engine_foldl_dropAt hd he x addr _ List.nodup_range fun n hn => List.mem_range.mp hn,
    if_pos (List.mem_range.mpr he)]
  simp

/-- R293, log 70: the thread waits for its removal until the next cycle. -/
theorem State.removeBlocks_removes {s : State} (h0 : s.th.stage = 0) (addr : Option Nat) :
    s.removeBlocks addr = ((s.dropBlocks (dieOf s.cur) s.th.ctx addr).stage 1).park (.applying s.cycle) :=
  if_neg (by omega)
theorem State.removeBlocks_removed {s : State} (h1 : s.th.stage = 1) (addr : Option Nat) : s.removeBlocks addr = s.advance :=
  if_pos h1

/-- R89: the issuing thread waits in a phase of its instruction. -/
theorem parkedFor_stage_park {s : State} (hs : s.thread.isSome = true) (n : Nat) (w : Wait) :
    ParkedFor s w ((s.stage n).park w) ∧ ∃ u, ((s.stage n).park w).thread = some u ∧ u.stage = n := by
  refine ⟨parkedFor_setTh_park hs (u := { s.th with stage := n, granted := false, refused := false }) rfl rfl rfl rfl w,
    _, State.thread_setTh _ _, ?_⟩
  rw [State.stage, State.th_setTh]
  rfl

/-- R293: what a removal leaves. -/
theorem removed_removeBlocks {s : State} (hs : s.thread.isSome = true) (h0 : s.th.stage = 0) (hc : s.cur < 4096) (addr : Option Nat) :
    let u := s.removeBlocks addr
    ParkedFor { s with dies := u.dies } (.applying s.cycle) u ∧ (∃ w, u.thread = some w ∧ w.stage = 1) ∧
      ∀ e, e < 16 → ∀ b, b ∈ (u.engine (dieOf s.cur) e).cache ↔
        b ∈ (s.engine (dieOf s.cur) e).cache ∧ ¬dropsBlock s.th.ctx addr b = true := by
  have hmem {e : Nat} (he : e < 16) := s.mem_cache_dropBlocks (dieOf_lt hc) he s.th.ctx addr
  rw [State.removeBlocks_removes h0]
  rw [State.dropBlocks_dies] at hmem ⊢
  generalize (s.dropBlocks (dieOf s.cur) s.th.ctx addr).dies = v at hmem ⊢
  obtain ⟨hparked, hstage⟩ := parkedFor_stage_park (s := { s with dies := v }) hs 1 (.applying s.cycle)
  exact ⟨hparked, hstage, fun e he b => hmem he b⟩

end Sys2Proof.Machine
end

section
/-! Copy instructions (R172, R285, R290 to R294): issue, batches, removals, and `publish`. -/

namespace Sys2Proof.Machine

/-! ### Batches (R291, R292) -/

/-- R291: a batch that is open can be closed: it is empty, its commands have completed, or fewer than sixteen are outstanding. -/
def BatchTracker.closable (b : BatchTracker) : Prop := b.opened = 0 ∨ b.live = 0 ∨ b.closed.length < 16

section
variable {s : State} (hroom : s.th.batch.closable)
include hroom

/-- R291: where the batch can be closed, an instruction that closes it goes on with it closed. -/
theorem State.closeBatch_room (k : State → State) : s.closeBatch k = k (s.setTh { s.th with batch := s.th.batch.close }) := by
  unfold State.closeBatch
  dsimp only
  split
  · next h =>
    obtain ⟨hopened, hlive⟩ := h
    exact State.await_resolved _ (decide_eq_true ((hroom.resolve_left hopened).resolve_left hlive))
  · rfl

/-- R291. -/
theorem exec_cpclose : exec .cpclose s = issue s (s.setTh { s.th with batch := s.th.batch.close }).advance :=
  congrArg (issue s) (State.closeBatch_room hroom _)

/-- R292: `cpwait`, where few enough closed batches are outstanding. -/
theorem exec_cpwait_goes {n : Field} (hb : s.th.blocked = none) (hn : s.th.batch.close.closed.length ≤ n.toNat) :
    exec (.cpwait n) s = issue s (s.setTh { s.th with batch := s.th.batch.close }).acquire.advance := by
  have hres : (s.setTh { s.th with batch := s.th.batch.close }).resolved s.cur
      (s.setTh { s.th with batch := s.th.batch.close }).th (.batch n.toNat) = true := by
    rw [State.th_setTh]
    exact decide_eq_true hn
  have hwaited : (s.setTh { s.th with batch := s.th.batch.close }).batchWaited n.toNat =
      s.setTh { s.th with batch := s.th.batch.close } := by
    have hth : (s.setTh { s.th with batch := s.th.batch.close }).th.blocked = none := by rw [State.th_setTh]; exact hb
    unfold State.batchWaited
    rw [hth]
    exact State.waited_of_unblocked hth _ _
  refine congrArg (issue s) ((State.closeBatch_room hroom _).trans ((State.await_resolved _ hres).trans ?_))
  rw [hwaited]

/-- R292: where more of them are, its thread waits for them. -/
theorem exec_cpwait_parks {n : Field} (hn : s.th.batch.close.closed.length > n.toNat) :
    exec (.cpwait n) s = issue s ((s.setTh { s.th with batch := s.th.batch.close }).park (.batch n.toNat)) := by
  have hres : (s.setTh { s.th with batch := s.th.batch.close }).resolved s.cur
      (s.setTh { s.th with batch := s.th.batch.close }).th (.batch n.toNat) = false := by
    rw [State.th_setTh]
    exact decide_eq_false (Nat.not_le_of_gt hn)
  exact congrArg (issue s) ((State.closeBatch_room hroom _).trans (State.await_parked _ hres))

end

/-- R166: the issuing thread goes on after it has acquired. -/
theorem passed_acquire (s : State) (u : Thread) (huid : u.uid = s.th.uid) (hg : u.g = s.th.g) :
    Passed s.refreshed u (nextPc u.pc u.lineCount) (s.setTh u).acquire.advance := by
  have hth : (s.setTh u).acquire.th = u := (State.th_acquire _).trans (State.th_setTh s u)
  have ho : OnlyThread s.refreshed (s.setTh u).acquire :=
    ((OnlyThread.refl s).setTh u).acquire ((congrArg Thread.uid (State.th_setTh s u)).trans huid)
  have hp := passed_of_onlyThread (w := u.advance) (u := u) ho (fun f => State.file_setTh_same s u hg f)
    (Thread.kept_finish u.kept_refl _ _) (congrArg Thread.g hth).symm rfl
  unfold State.advance
  rw [hth]
  exact hp

/-! ### Issue (R285) -/

/-- R285: the number of a copy instruction. -/
def CopyOp.code : CopyOp → Nat
  | .cpy => 0
  | .cpgx => 1
  | .cpsx => 2
  | .cpmc => 3

theorem exec_of_copyForm {i : Instr} {a : Field} {y : BitVec 12} {code : Nat} (h : copyForm i = some (a, y, code)) (s : State) :
    ∃ op : CopyOp, op.code = code ∧ exec i s = issue s (s.copyIssue op (s.reg a) y) := by
  cases i
  case cpy => obtain ⟨rfl, rfl, rfl⟩ := h; exact ⟨.cpy, rfl, rfl⟩
  case cpgx => obtain ⟨rfl, rfl, rfl⟩ := h; exact ⟨.cpgx, rfl, rfl⟩
  case cpsx => obtain ⟨rfl, rfl, rfl⟩ := h; exact ⟨.cpsx, rfl, rfl⟩
  case cpmc => obtain ⟨rfl, rfl, rfl⟩ := h; exact ⟨.cpmc, rfl, rfl⟩
  all_goals cases h

section
variable {s : State} {t : Thread} {ea : Word} {d : Nat}

/-- R285: the check of a block's address fails as the check of its access does, or on its alignment. -/
theorem State.checkBlock_of_error {k : Nat} (h : s.checkGlobal t ea 64 .read = .error k) : s.checkBlock t ea = .error k := by
  simp [State.checkBlock, h]
theorem State.checkBlock_of_unaligned (h : s.checkGlobal t ea 64 .read = .ok d) (hm : ea.toNat % 64 ≠ 0 ∨ d % 64 ≠ 0) :
    s.checkBlock t ea = .error kMisaligned := by
  rw [State.checkBlock, h]
  exact if_pos hm
theorem State.checkBlock_of_aligned (h : s.checkGlobal t ea 64 .read = .ok d) (hea : ea.toNat % 64 = 0) (hd : d % 64 = 0) :
    s.checkBlock t ea = .ok d := by
  rw [State.checkBlock, h]
  exact if_neg (by omega)
end

section
variable {s : State} {op : CopyOp} {ea : Word} {y : BitVec 12}

/-- R285: a copy instruction that its engine has accepted goes on. -/
theorem State.copyIssue_granted (h2 : s.th.stage = 2) (hg : s.th.granted = true) : s.copyIssue op ea y = s.advance := by
  simp [State.copyIssue, h2, hg]

theorem State.copyIssue_of_error (h0 : s.th.stage = 0) {k : Nat} (h : s.checkBlock s.th ea = .error k) :
    s.copyIssue op ea y = s.trapAt k ea 0 := by
  simp [State.copyIssue, h0, h]

/-- R285: what a thread keeps while its command waits for its engine, once it has been sent as message `n`. -/
def Thread.copying (t : Thread) (aux : Word) (n : Nat) : Thread := { t with stage := 2, aux := aux, granted := false, sent := n }

/-- R285: the block's DVA, its segment and the instruction's number, for the engine. -/
def copyAux (op : CopyOp) (ea : Word) (d : Nat) : Word := BitVec.ofNat 64 (4 * (8 * d + (segIndex ea).val) + op.code)

/-- R18, R285: the command is sent to its engine, and its thread waits. -/
def State.sendCopy (s : State) (aux : Word) : State :=
  ({ s with nextId := s.nextId + 1 }.setTh (s.th.copying aux s.nextId)).park .engine

/-- R285, R291: a copy instruction whose block may be read, once it has issued: it waits until a full batch can be closed, and until its
thread's writes can be seen. -/
def State.copyWaits (s : State) (aux : Word) : State :=
  let go (s : State) : State := s.await (.release 5) fun s => s.sendCopy aux
  if s.th.batch.opened = 64 ∧ s.th.batch.live ≠ 0 then s.await .batchRoom go else go s

variable {d : Nat} (h0 : s.th.stage = 0) (hb : s.checkBlock s.th ea = .ok d)
include h0 hb

theorem State.copyIssue_of_ok : s.copyIssue op ea y = s.sync y fun s => (s.issueSync y).copyWaits (copyAux op ea d) := by
  have haux : copyAux op ea d = BitVec.ofNat 64 ((d * 8 + (segIndex ea).val) * 4 + op.code) := by
    unfold copyAux
    congr 1
    omega
  unfold State.copyIssue
  rw [if_neg (by omega), hb, haux]
  cases op <;> rfl

/-- R60, R285: the sync tail's wait comes after the checks. -/
theorem State.copyIssue_depZero (hz : s.th.depsZero (syncWait y) = false) :
    s.copyIssue op ea y = s.parkBefore (.depZero (syncWait y)) := by
  rw [State.copyIssue_of_ok h0 hb]
  simp [State.sync, h0, hz]

theorem State.copyIssue_ready (hy : s.th.syncReady y) : s.copyIssue op ea y = (s.issueSync y).copyWaits (copyAux op ea d) :=
  (State.copyIssue_of_ok h0 hb).trans (State.sync_ready _ hy)
end

theorem Thread.issued_batch (u : Thread) (y : BitVec 12) : (u.issued y).batch = u.batch := (congrArg Thread.batch (u.issued_eq y) :)

section
variable {s : State} {aux : Word} {y : BitVec 12}

/-- R291: a full batch cannot be closed while sixteen are outstanding. -/
theorem State.copyWaits_batchRoom (hfull : s.th.batch.opened = 64) (hlive : s.th.batch.live ≠ 0) (hn : s.th.batch.closed.length ≥ 16) :
    s.copyWaits aux = s.park .batchRoom :=
  (if_pos ⟨hfull, hlive⟩).trans (State.await_parked _ (decide_eq_false (Nat.not_lt_of_ge hn)))

theorem State.copyWaits_sends (hn : s.th.batch.opened ≠ 64 ∨ s.th.batch.live = 0 ∨ s.th.batch.closed.length < 16)
    (hr : s.resolved s.cur s.th (.release 5) = true) : s.copyWaits aux = s.sendCopy aux := by
  unfold State.copyWaits
  dsimp only
  split
  · next h =>
    obtain ⟨hfull, hlive⟩ := h
    have hroom : s.resolved s.cur s.th .batchRoom = true :=
      decide_eq_true ((hn.resolve_left (not_not_intro hfull)).resolve_left hlive)
    exact (State.await_resolved _ hroom).trans (State.await_resolved _ hr)
  · exact State.await_resolved _ hr

/-- R285: the thread of a command that has been sent. -/
theorem State.thread_sendCopy (s : State) (aux : Word) : ∃ w, (s.sendCopy aux).thread = some w ∧ w.dep = s.th.dep ∧
    w.batch = s.th.batch ∧ w.aux = aux ∧ w.stage = 2 ∧ w.granted = false := by
  refine ⟨_, State.thread_setTh _ _, ?_⟩
  rw [State.th_setTh]
  exact ⟨rfl, rfl, rfl, rfl, rfl⟩

theorem parkedFor_sendCopy {b : State} (hb : b.thread.isSome = true) (h : OnlyThread b s) (hpc : s.th.pc = b.th.pc) (hg : s.th.g = b.th.g)
    (hstat : s.th.stat = b.th.stat) (hpending : s.th.pending = b.th.pending) (aux : Word) : ParkedFor b .engine (s.sendCopy aux) := by
  have hparked : ParkedFor b .engine ((s.setTh (s.th.copying aux s.nextId)).park .engine) := by
    refine parkedFor_of_onlyThread hb ((h.setTh _).setTh _) (State.thread_setTh _ _) rfl ?_ ?_ ?_ ?_
    all_goals rw [State.th_setTh]
    exacts [hpc, hg, hstat, hpending]
  exact ⟨hparked.thread, hparked.core, hparked.mem⟩
end

end Sys2Proof.Machine
end

section
/-! Copy instructions, continued: what each of them completes with (R285), and `publish` (R172, R294). -/

namespace Sys2Proof.Machine

/-! ### Issue (R285) -/

theorem parkedFor_parkBefore {s : State} (hs : s.thread.isSome = true) (w : Wait) : ParkedFor s w (s.parkBefore w) :=
  parkedFor_of_onlyThread hs ((OnlyThread.refl s).setTh _) (State.thread_setTh _ _) rfl rfl rfl rfl rfl

section
variable {s : State} (hs : s.thread.isSome = true) (y : BitVec 12)
include hs

/-- R285, R291: a thread waits before its full batch can be closed. -/
theorem parkedFor_copyWaits (aux : Word) (hfull : s.th.batch.opened = 64) (hlive : s.th.batch.live ≠ 0)
    (hn : s.th.batch.closed.length ≥ 16) : ParkedFor s .batchRoom ((s.issueSync y).copyWaits aux) := by
  rw [State.copyWaits_batchRoom]
  · exact parkedFor_setTh_park hs (Thread.issued_pc y) (Thread.issued_g y) (Thread.issued_stat y) (Thread.issued_pending y) _
  all_goals rw [State.th_issueSync, Thread.issued_batch]
  exacts [hfull, hlive, hn]

/-- R285: a command on its way to its engine. -/
theorem sent_copyWaits (h0 : s.th.stage = 0) (aux : Word)
    (hn : s.th.batch.opened ≠ 64 ∨ s.th.batch.live = 0 ∨ s.th.batch.closed.length < 16) (hr : s.releasable s.cur s.th 5 = true) :
    let u := (s.issueSync y).copyWaits aux
    ParkedFor s .engine u ∧ ∃ w, u.thread = some w ∧ w.dep = (s.th.counted y).dep ∧ w.batch = s.th.batch ∧
      w.aux = aux ∧ w.stage = 2 ∧ w.granted = false := by
  intro u
  have hu : u = (s.issueSync y).sendCopy aux := by
    refine State.copyWaits_sends ?_ (State.resolved_release_issueSync hr)
    rw [State.th_issueSync, Thread.issued_batch]
    exact hn
  rw [hu]
  refine ⟨parkedFor_sendCopy hs (s.onlyThread_issueSync y) ?_ ?_ ?_ ?_ aux, ?_⟩
  · rw [State.th_issueSync, Thread.issued_pc]
  · rw [State.th_issueSync, Thread.issued_g]
  · rw [State.th_issueSync, Thread.issued_stat]
  · rw [State.th_issueSync, Thread.issued_pending]
  · rw [← Thread.issued_dep h0, ← Thread.issued_batch s.th y, ← State.th_issueSync]
    exact State.thread_sendCopy ..

end

/-! ### Removals (R293) -/

theorem dropsBlock_at_iff (x a : Nat) (b : Nat × Nat × Nat × List Byte) : dropsBlock x (some a) b = true ↔ b.1 = x ∧ b.2.1 = a := by
  simp [dropsBlock]
theorem dropsBlock_all_iff (x : Nat) (b : Nat × Nat × Nat × List Byte) : dropsBlock x none b = true ↔ b.1 = x := by
  simp [dropsBlock]

theorem exec_cpinval {s : State} {a : Field} {d : Nat} (h : s.checkBlock s.th (s.reg a) = .ok d) :
    exec (.cpinval a) s = issue s (s.removeBlocks (some d)) := by
  show execCpinval a s = _
  rw [execCpinval, h]

theorem exec_cpinval_of_error {s : State} {a : Field} {k : Nat} (h : s.checkBlock s.th (s.reg a) = .error k) :
    exec (.cpinval a) s = issue s (s.trapAt k (s.reg a) 0) := by
  show execCpinval a s = _
  rw [execCpinval, h]

/-! ### `publish` (R172, R294) -/

/-- R135: an access that reaches device memory is through a GLOBAL segment. -/
theorem State.kdKind_of_check_device {s : State} {t : Thread} {ea : Word} {n dva : Nat} {r : Right}
    (h : s.check t ea n r false = .ok (.device dva)) : kdKind t.kd[segIndex ea] = 1 := by
  by_contra hk
  unfold State.check at h
  simp only [if_neg hk] at h
  split at h
  · cases h
  · split at h
    · cases h
    · split at h
      · cases h
      · split at h <;> cases h

section
variable {s : State} {ea : Word} {y : BitVec 12} {sc : Nat}

theorem State.publish_granted (h2 : s.th.stage = 2) (hg : s.th.granted = true) : s.publish ea sc y = s.advance := by
  simp [State.publish, h2, hg]

variable {dva : Nat} {e : TlbEntry} {h : Home} (h0 : s.th.stage = 0) (hc : s.check s.th ea 4 .write false = .ok (.device dva))
  (hh : s.hit (clusterOf s.cur) s.th.ctx dva true = some h) (he : tlbHit (s.cluster (clusterOf s.cur)) s.th.ctx dva true = some e)
include h0 hc hh he

/-- R294: `publish` of a page that the port translates: one that is in no publish pair traps. -/
theorem State.publish_unpaired (hp : ptePP e.entry = false) : s.publish ea sc y = s.trapAt kBadPublish ea 1 := by
  unfold State.publish
  rw [if_neg (by omega), if_neg (not_not_intro (State.kdKind_of_check_device hc))]
  simp only [hc, State.needPage_hit hh, he, hp, Bool.not_false, if_true]

/-- R294: for one that is in a pair it waits for its swap, with the scope and the region kept. -/
theorem State.publish_paired (hp : ptePP e.entry = true) : s.publish ea sc y =
    (s.setTh { s.th.issued y with stage := 2, aux := BitVec.ofNat 64 (sc * 4096 + pteRgn e.entry) }).park .publish := by
  unfold State.publish
  rw [if_neg (by omega), if_neg (not_not_intro (State.kdKind_of_check_device hc))]
  simp only [hc, State.needPage_hit hh, he, hp, Bool.not_true, Bool.false_eq_true, if_false, State.th_issueSync]
  rw [State.issueSync, State.setTh_setTh]
end

/-- R341: the region of an entry, by division. -/
theorem pteRgn_eq_mod (e : Word) : pteRgn e = e.toNat % 4096 := by simp [pteRgn, bits]

/-- R172, R294: the thread of a `publish` that waits for its swap. -/
theorem waits_publish {s : State} (hs : s.thread.isSome = true) (h0 : s.th.stage = 0) (y : BitVec 12) (aux : Word) :
    let u := (s.setTh { s.th.issued y with stage := 2, aux := aux }).park .publish
    ParkedFor s .publish u ∧ ∃ w, u.thread = some w ∧ w.dep = (s.th.counted y).dep ∧ w.aux = aux := by
  refine ⟨parkedFor_setTh_park hs (u := { s.th.issued y with stage := 2, aux := aux }) (Thread.issued_pc y) (Thread.issued_g y)
    (Thread.issued_stat y) (Thread.issued_pending y) _, _, State.thread_setTh _ _, ?_⟩
  rw [State.th_setTh]
  exact ⟨Thread.issued_dep h0 y, rfl⟩

/-! ### The obligation -/

/-- Settles O43: each instruction's checks in their order, then its waits; the removals engine by engine. -/
theorem copyInstructions : Obligations.CopyInstructions := by
  intro s i a n y code hs ea t b closed room removing
  refine ⟨fun hi => ?copy, fun hr => ?cpclose, fun hr hb hn => ?cpwait, fun hr hn => ?cpwaitParks, fun e he => ?cpinvalError,
    fun d hd => ⟨fun hm => ?cpinvalUnaligned, fun hea h64 => ⟨fun h0 hc => ?cpinval, fun h1 => ?cpinvalDone⟩⟩,
    fun h0 hc => ?cpinvalAll, fun h1 => ?cpinvalAllDone, fun sc => ⟨fun h2 hg => ?publishDone,
      fun dva e h h0 hy hck hh he => ⟨fun hp => ?publishUnpaired, fun hp => ?publish⟩⟩⟩
  case copy =>
    obtain ⟨op, rfl, he⟩ := exec_of_copyForm hi s
    refine ⟨fun h2 hg => ?_, fun h0 => ⟨fun e hd => ?_, fun d hd hm => ?_, fun d hd hea h64 hz => ?_,
      fun hy d hd hea h64 => ⟨fun hfull hlive hn => ?_, fun hn hrel => ?_⟩⟩⟩
    · exact completes_of_issue hs (he.trans (congrArg (issue s) (State.copyIssue_granted h2 hg))) (passed_self s)
    · exact completes_trapped_of_issue hs he (State.copyIssue_of_error h0 (State.checkBlock_of_error hd))
    · exact completes_trapped_of_issue hs he (State.copyIssue_of_error h0 (State.checkBlock_of_unaligned hd hm))
    · have hgo := State.copyIssue_depZero (op := op) h0 (State.checkBlock_of_aligned hd hea h64) hz
      exact completes_of_issue hs (he.trans (congrArg (issue s) hgo)) (parkedFor_parkBefore hs _)
    · have hgo := State.copyIssue_ready (op := op) h0 (State.checkBlock_of_aligned hd hea h64) hy
      exact completes_of_issue hs (he.trans (congrArg (issue s) hgo)) (parkedFor_copyWaits hs y _ hfull hlive hn)
    · have hgo := State.copyIssue_ready (op := op) h0 (State.checkBlock_of_aligned hd hea h64) hy
      exact completes_of_issue hs (he.trans (congrArg (issue s) hgo)) (sent_copyWaits hs y h0 _ hn hrel)
  case cpclose => exact completes_of_issue hs (exec_cpclose hr) (passed_advance s { s.th with batch := b.close } rfl)
  case cpwait => exact completes_of_issue hs (exec_cpwait_goes hr hb hn) (passed_acquire s { s.th with batch := b.close } rfl rfl)
  case cpwaitParks =>
    exact completes_of_issue hs (exec_cpwait_parks hr hn)
      (parkedFor_setTh_park hs (u := { s.th with batch := b.close }) rfl rfl rfl rfl _)
  case cpinvalError => exact completes_trapped_of_issue hs (exec_cpinval_of_error (State.checkBlock_of_error he)) rfl
  case cpinvalUnaligned => exact completes_trapped_of_issue hs (exec_cpinval_of_error (State.checkBlock_of_unaligned hd hm)) rfl
  case cpinval =>
    obtain ⟨hparked, hstage, hcache⟩ := removed_removeBlocks hs h0 hc (some d)
    refine completes_of_issue hs (exec_cpinval (State.checkBlock_of_aligned hd hea h64)) ⟨hparked, hstage, fun e he z => ?_⟩
    rw [hcache e he z, dropsBlock_at_iff]
  case cpinvalDone =>
    have hgo := congrArg (issue s) (State.removeBlocks_removed h1 (some d))
    exact completes_of_issue hs ((exec_cpinval (State.checkBlock_of_aligned hd hea h64)).trans hgo) (passed_self s)
  case cpinvalAll =>
    obtain ⟨hparked, hstage, hcache⟩ := removed_removeBlocks hs h0 hc none
    refine completes_of_issue hs rfl ⟨hparked, hstage, fun e he z => ?_⟩
    rw [hcache e he z, dropsBlock_all_iff]
  case cpinvalAllDone => exact completes_of_issue hs (congrArg (issue s) (State.removeBlocks_removed h1 none)) (passed_self s)
  case publishDone =>
    have hstage : s.th.stage ≠ 0 := by rw [h2]; decide
    have hgo : exec (.publish a sc y) s = issue s s.advance := congrArg (issue s)
      ((State.sync_of_stage hstage _).trans (State.publish_granted h2 hg))
    exact completes_of_issue hs hgo (passed_self s)
  case publishUnpaired =>
    have hgo : exec (.publish a sc y) s = issue s (s.trapAt kBadPublish ea 1) := congrArg (issue s)
      ((State.sync_ready _ hy).trans (State.publish_unpaired h0 hck hh he hp))
    exact completes_trapped_of_issue hs hgo rfl
  case publish =>
    have hgo := congrArg (issue s) ((State.sync_ready (fun s => s.publish (s.reg a) sc.toNat y) hy).trans
      (State.publish_paired (sc := sc.toNat) h0 hck hh he hp))
    rw [pteRgn_eq_mod, Nat.mul_comm] at hgo
    exact completes_of_issue hs hgo (waits_publish hs h0 y _)

end Sys2Proof.Machine
end

section
/-! An engine accepts the command of a waiting thread, or refuses it (R281, R285, R286, R290). -/

namespace Sys2Proof.Machine

/-! ### The block (R286) -/

/-- R286: an engine that has taken a fresh copy of a block and keeps no other. -/
def State.tookBlock (s : State) (d e x addr : Nat) (raw : List Byte) : State :=
  s.choose.1.setEngine d e { s.engine d e with cache := [(x, addr, leNat (raw.take 2), raw)] }

theorem State.blockFor_of_cache_nil {s : State} {d e : Nat} (h : (s.engine d e).cache = []) (x addr : Nat) (raw : List Byte) :
    s.blockFor d e x addr raw = (s.tookBlock d e x addr raw, raw) := by
  simp [State.blockFor, State.tookBlock, h]

/-- R285: what the check of a command depends on is not what changes as an engine takes a block. -/
theorem State.checkCommand_tookBlock (s : State) (a : List Agenda) (d e x addr : Nat) (raw : List Byte) :
    (({ s with agenda := a } : State).tookBlock d e x addr raw).checkCommand = s.checkCommand := rfl

/-! ### The command (R285, R290) -/

/-- R290: the batch that a thread's next command belongs to: a full one is closed first. -/
def BatchTracker.next (b : BatchTracker) : BatchTracker := if b.opened = 64 then b.close else b
/-- R290: a batch with one more command. -/
def BatchTracker.add (b : BatchTracker) : BatchTracker := { b with opened := b.opened + 1, live := b.live + 1 }

/-- R285: the command that an engine makes of a waiting thread and its block. -/
def State.commandOf (s : State) (c : Nat) (i : Fin 16) (t : Thread) (p : Block) : Command :=
  { id := s.nextId, op := copyOp (t.aux.toNat % 4), block := p, uid := t.uid, ctx := t.ctx, core := c, kid := t.kid, tidx := t.tidx
    kb := t.kb, kd := t.kd, batch := some t.batch.next.number, dep := t.taken, tag := s.tagOf c i t }

/-- R285, R290: the engine accepts the command of a waiting thread, which goes on. -/
def State.acceptCopy (s : State) (c : Nat) (i : Fin 16) (t : Thread) (p : Block) : State :=
  let v := s.engine (dieOf c) (engineOf c)
  let s2 := ({ s with nextId := s.nextId + 1 } : State).setEngine (dieOf c) (engineOf c)
    { v with commands := v.commands ++ [s.commandOf c i t p] }
  let k := s2.kernelAt t.ctx t.kid
  (s2.setKernel { k with copies := k.copies + 1 }).setSlot c i (some { t with granted := true, batch := t.batch.next.add })

section
variable {s : State} {c : Nat} {i : Fin 16} {t : Thread}

theorem State.mem_acceptCopy (p : Block) : (s.acceptCopy c i t p).mem = s.mem := rfl
theorem State.threadAt_acceptCopy (p : Block) :
    (s.acceptCopy c i t p).threadAt c i = some { t with granted := true, batch := t.batch.next.add } := State.threadAt_setSlot_self ..
theorem State.commands_acceptCopy (hc : c < 4096) (p : Block) : ((s.acceptCopy c i t p).engine (dieOf c) (engineOf c)).commands =
    (s.engine (dieOf c) (engineOf c)).commands ++ [s.commandOf c i t p] :=
  congrArg Engine.commands (State.engine_setEngine_self { s with nextId := s.nextId + 1 } (dieOf_lt hc) (engineOf_lt c) _)

theorem State.commands_tookBlock (hc : c < 4096) (x addr : Nat) (raw : List Byte) :
    ((s.tookBlock (dieOf c) (engineOf c) x addr raw).engine (dieOf c) (engineOf c)).commands =
      (s.engine (dieOf c) (engineOf c)).commands := by
  rw [State.tookBlock, State.engine_setEngine_self _ (dieOf_lt hc) (engineOf_lt c)]

/-! ### Acceptance (R285, R286) -/

/-- R285, R286: what an engine that has taken a thread's block does, by what the check of the command finds. -/
def State.answerCopy (s : State) (c : Nat) (i : Fin 16) (t : Thread) (raw : List Byte) : Option (Nat × Word × Nat) → State
  | some (k, ea, access) => ({ s with free := s.free + 1 } : State).takeTrap c i { kind := k, ea := ea, access := access }
  | none => (s.tookBlock (dieOf c) (engineOf c) t.ctx (t.aux.toNat / 32) raw).acceptCopy c i t (Block.parse raw)

variable {h : Home} {sh : Nat} {en : Word} (ht : s.threadAt c i = some t) (hst : t.st = .parked .engine) (hg : t.granted = false)
  (hh : t.hold = false) (hn : (s.engine (dieOf c) (engineOf c)).commands.length < 64) (ho : s.overtakes c t = false)
  (hx : s.agentXlat t.ctx (t.aux.toNat / 32) false false = .ok sh en h) (hr : s.reachable h = true)
  (hv : (s.engine (dieOf c) (engineOf c)).cache = [])
include ht hst hg hh hn ho hx hr hv

/-- R285, R286, R354: an engine with room takes the block of the thread whose turn it is, and checks it. -/
theorem State.copyTake_takes : ∃ a : List Agenda, s.copyTake c i =
    ({ s with agenda := a } : State).answerCopy c i t (leBytes (s.homeRead h 64) 64)
      (s.checkCommand c t (copyOp (t.aux.toNat % 4)) (Block.parse (leBytes (s.homeRead h 64) 64)) (leBytes (s.homeRead h 64) 64)) := by
  obtain ⟨a, ha⟩ := s.meetEcc_eq h 64
  refine ⟨a, ?_⟩
  have hgo : ¬(t.st ≠ .parked .engine ∨ t.granted = true ∨ t.hold = true ∨
      (s.engine (dieOf c) (engineOf c)).commands.length ≥ 64 ∨ s.overtakes c t = true) := by
    simp [hst, hg, hh, ho]
    omega
  have hv' : (({ s with agenda := a } : State).engine (dieOf c) (engineOf c)).cache = [] := hv
  unfold State.copyTake
  simp only [ht, if_neg hgo, hx, hr, ha, State.blockFor_of_cache_nil hv', State.checkCommand_tookBlock, Bool.not_true,
    Bool.false_eq_true, if_false]
  rfl

/-- R7, R285: a command whose block is bad traps, and leaves the engine and the batch as they were. -/
theorem completes_copyAccept_refused {k access : Nat} {ea : Word} (hk : let raw := leBytes (s.homeRead h 64) 64
      s.checkCommand c t (copyOp (t.aux.toNat % 4)) (Block.parse raw) raw = some (k, ea, access)) :
    Completes (.copyAccept c i.val) s (fun u => u.mem = s.mem ∧ u.dies = s.dies ∧ ∃ w f, u.threadAt c i = some w ∧
      w.st = .faulted ∧ w.fault = some f ∧ f.kind = k ∧ f.ea = ea ∧ w.batch = t.batch) := by
  obtain ⟨a, he⟩ := State.copyTake_takes ht hst hg hh hn ho hx hr hv
  refine ⟨s.copyTake c i, congrArg (fun j => Host.Outcome.next (s.copyTake c j)) (Fin.ofNat_val_eq_self i), ?_⟩
  have htrap (f : FaultInfo) := State.takeTrap_of_threadAt (s := { s with agenda := a, free := s.free + 1 }) ht f
  rw [he, hk, State.answerCopy, htrap]
  exact ⟨rfl, rfl, _, _, State.threadAt_setSlot_self .., rfl, rfl, rfl, rfl, rfl⟩

/-- R285, R290: a good command is the engine's last, and its thread goes on with one command more in its batch. -/
theorem completes_copyAccept_good (hc : c < 4096) (hk : let raw := leBytes (s.homeRead h 64) 64
      s.checkCommand c t (copyOp (t.aux.toNat % 4)) (Block.parse raw) raw = none) :
    Completes (.copyAccept c i.val) s (fun u => u.mem = s.mem ∧
      (∃ k : Command, (u.engine (dieOf c) (engineOf c)).commands = (s.engine (dieOf c) (engineOf c)).commands ++ [k] ∧
        k.op = copyOp (t.aux.toNat % 4) ∧ k.block = Block.parse (leBytes (s.homeRead h 64) 64) ∧ k.uid = t.uid ∧ k.core = c ∧
        k.kb = t.kb ∧ k.kd = t.kd ∧ k.batch = some t.batch.next.number ∧ k.dep = t.taken) ∧
      ∃ w, u.threadAt c i = some w ∧ w.granted = true ∧ w.batch = t.batch.next.add) := by
  obtain ⟨a, he⟩ := State.copyTake_takes ht hst hg hh hn ho hx hr hv
  refine ⟨s.copyTake c i, congrArg (fun j => Host.Outcome.next (s.copyTake c j)) (Fin.ofNat_val_eq_self i), ?_⟩
  rw [he, hk]
  refine ⟨State.mem_acceptCopy _, ⟨_, (State.commands_acceptCopy hc _).trans (congrArg (· ++ _) (State.commands_tookBlock hc ..)),
    rfl, rfl, rfl, rfl, rfl, rfl, rfl, rfl⟩, _, State.threadAt_acceptCopy _, rfl, rfl⟩

end

end Sys2Proof.Machine
end

section
/-! The places of a copy command's rows in local stores, and the bytes that an engine reads and writes there (R171, R283, R287). -/

namespace Sys2Proof.Machine

/-! ### A core with its local store replaced -/

theorem State.setCore_setCore (s : State) (c : Nat) (k q : CoreState) : (s.setCore c k).setCore c q = s.setCore c q := by
  simp [State.setCore, mapPut_mapPut]

/-- The state with the local store of a core replaced. -/
def State.setLs (s : State) (c : Nat) (m : Memory) : State := s.setCore c { s.core c with ls := m }

section
variable (s : State) (c : Nat) (m : Memory)

theorem State.core_setLs_self : (s.setLs c m).core c = { s.core c with ls := m } := State.core_setCore_self ..
theorem State.core_setLs_ne {z : Nat} (h : z ≠ c) : (s.setLs c m).core z = s.core z := State.core_setCore_ne _ _ h
theorem State.setLs_setLs (m' : Memory) : (s.setLs c m).setLs c m' = s.setLs c m' := by
  unfold State.setLs
  rw [State.core_setCore_self, State.setCore_setCore]

/-- A replaced local store is all that differs in a core. -/
theorem State.core_setLs (z : Nat) : (s.setLs c m).core z = { s.core z with ls := ((s.setLs c m).core z).ls } := by
  by_cases h : z = c
  · subst h
    rw [State.core_setLs_self]
  · rw [State.core_setLs_ne s c m h]

theorem State.ctx_setLs (z : Nat) : ((s.setLs c m).core z).ctx = (s.core z).ctx := by rw [State.core_setLs]
theorem State.holding_setLs (z : Nat) : (s.setLs c m).holding z = s.holding z := by
  unfold State.holding
  rw [State.core_setLs]

theorem State.holds_setLs (x z : Nat) : (s.setLs c m).holds x z = s.holds x z := by
  unfold State.holds
  rw [State.ctx_setLs]
  rfl

theorem State.listClosed_coreFor_setLs (x z o n : Nat) : listClosed ((s.setLs c m).coreFor x z) o n = listClosed (s.coreFor x z) o n := by
  unfold State.coreFor
  rw [State.ctx_setLs]
  change listClosed (match mapGet (s.context x).saved z with | some k => k | none => _) o n = _
  cases mapGet (s.context x).saved z with
  | some k => rfl
  | none =>
    dsimp only
    split
    · rw [State.core_setLs]
      rfl
    · rfl

/-- R283, R285: where a row lies does not depend on what the local stores hold. -/
theorem State.cmdPlace_setLs (k : Command) (ea : Int) (n : Nat) (r : Right) : (s.setLs c m).cmdPlace k ea n r = s.cmdPlace k ea n r := by
  have hspan : (s.setLs c m).checkSpan = s.checkSpan := rfl
  unfold State.cmdPlace State.cmdRange
  simp only [hspan, State.holds_setLs, State.listClosed_coreFor_setLs]
end

/-! ### Places (R283) -/

theorem Place.add_store {c o n : Nat} (h : o + n < 2 ^ 18) : (Place.store c o).add n = .store c (o + n) := by
  simp only [Place.add, Nat.div_eq_of_lt h, Nat.mod_eq_of_lt h, Nat.add_zero]

/-- R283: a row that lies in a local store lies in it whole. -/
theorem State.cmdPlace_store_le {s : State} {k : Command} {ea : Int} {n c o : Nat} {r : Right}
    (h : s.cmdPlace k ea n r = some (.store c o)) : o + n ≤ 2 ^ 18 := by
  unfold State.cmdPlace at h
  split at h
  · split at h
    · cases h
    · next hle =>
      cases h
      omega
  · next hne => exact absurd h (hne c o)

section
variable {s : State} {k : Command} (hop : k.op = .cpy)
include hop

/-- R283: the first row of a `cpy` starts at the block's own addresses. -/
theorem State.rowSrc_zero : s.rowSrc k 0 = s.cmdPlace k k.block.src.toNat k.block.len .read := by
  simp [State.rowSrc, Command.index, hop]
theorem State.rowDst_zero (hcb : k.block.cb = false) :
    s.rowDst k 0 = (s.cmdPlace k k.block.dst.toNat k.block.len .write).map ([·]) := by
  simp [State.rowDst, Command.index, hop, hcb]
end

/-! ### Bytes of a local store (R287) -/

section
variable {s : State} {x c : Nat} (hsaved : (s.context x).saved = []) (hctx : (s.core c).ctx = some x)
include hsaved hctx

theorem State.engineBytes_store (n : Nat) : ∀ o, o + n ≤ 2 ^ 18 →
    s.engineBytes x (.store c o) n = .ok ((s.core c).ls.bytes o n) := by
  have hcore : s.coreFor x c = s.core c := State.coreFor_unsaved (by rw [hsaved]; rfl) hctx
  induction n with
  | zero => intro o _; rfl
  | succ n ih =>
    intro o ho
    have hrest : s.engineBytes x ((Place.store c o).add 1) n = .ok ((s.core c).ls.bytes (o + 1) n) := by
      cases n with
      | zero => rfl
      | succ n => rw [Place.add_store (by omega), ih (o + 1) (by omega)]
    simp only [State.engineBytes, State.engineByte, hcore, hrest, Memory.bytes]

theorem State.engineStore_store (b : Byte) (o : Nat) :
    s.engineStore x false b (.store c o) = .ok (s.setLs c ((s.core c).ls.write o b)) := by
  have hget : mapGet (s.context x).saved c = none := by rw [hsaved]; rfl
  simp only [State.engineStore, State.coreFor_unsaved hget hctx, State.setCoreFor_unsaved hget hctx, Bool.false_eq_true, if_false]
  rfl

/-- R287: one byte of a row written, as `putWord` writes it. -/
def State.putByte (k : Command) (r : Nat) (p : Place) (q : Except EngineStop State) (b : Byte × Nat) : Except EngineStop State :=
  match q with
  | .error e => .error e
  | .ok s => if s.covered k r (p.add b.2) then .ok s else s.engineStore k.ctx k.block.shd b.1 (p.add b.2)

variable {k : Command} (hk : k.ctx = x) (hdone : k.done = []) (hshd : k.block.shd = false)
include hk hdone hshd

omit hsaved hctx hk hshd in
theorem State.covered_of_done_nil (r : Nat) (p : Place) : s.covered k r p = false := by simp [State.covered, hdone]

theorem State.putByte_store (r : Nat) {o j : Nat} (h : o + j < 2 ^ 18) (b : Byte) :
    State.putByte k r (.store c o) (.ok s) (b, j) = .ok (s.setLs c ((s.core c).ls.write (o + j) b)) := by
  simp only [State.putByte, State.covered_of_done_nil hdone, Place.add_store h, hk, hshd, State.engineStore_store hsaved hctx,
    Bool.false_eq_true, if_false]

/-- R171, R287: the bytes of a word written to a local store, one after the other. -/
theorem State.putWord_store (r : Nat) (b : Byte) (bs : List Byte) {o : Nat} (h : o + (b :: bs).length ≤ 2 ^ 18) :
    s.putWord k r (b :: bs) (.store c o) = .ok (s.setLs c ((s.core c).ls.put o (b :: bs))) := by
  have hrest : ∀ (bs : List Byte) (m : Memory) (j : Nat), o + j + bs.length ≤ 2 ^ 18 →
      (bs.zipIdx j).foldl (State.putByte k r (.store c o)) (.ok (s.setLs c m)) = .ok (s.setLs c (m.put (o + j) bs)) := by
    intro bs
    induction bs with
    | nil => intro m j _; rfl
    | cons b bs ih =>
      intro m j hj
      rw [List.length_cons] at hj
      have hctx' : ((s.setLs c m).core c).ctx = some x := (State.ctx_setLs ..).trans hctx
      rw [List.zipIdx_cons, List.foldl_cons,
        State.putByte_store (s := s.setLs c m) hsaved hctx' hk hdone hshd r (by omega), State.setLs_setLs,
        State.core_setLs_self, ih _ _ (by omega)]
      rfl
  rw [List.length_cons] at h
  show ((b :: bs).zipIdx).foldl (State.putByte k r (.store c o)) (.ok s) = _
  rw [List.zipIdx_cons, List.foldl_cons, State.putByte_store hsaved hctx hk hdone hshd r (by omega), hrest _ _ _ (by omega)]
  rfl

end

end Sys2Proof.Machine
end

section
/-! A `cpy` of one row of four bytes between local stores (R171, R283, R287), and the end of a command (R289). -/

namespace Sys2Proof.Machine

/-! ### The words of the row (R171) -/

theorem Place.lane_store {c o : Nat} (h : o % 4 = 0) : (Place.store c o).lane = 0 := h

section
variable {s : State} {k : Command} {c1 o1 c2 o2 : Nat} (hlen : k.block.len = 4)
include hlen

/-- R171: no other row shares a word that its own row fills, or one that it has no byte of. -/
theorem State.sharers_eq_nil {q : Place} (hdst : s.rowDst k 0 = some [q]) (hq : q.lane = 0) (w : Nat) (hw : w < 2) :
    s.sharers k 0 w = [] := by
  have hpart : ([q].filter (fun d => let sp := wordSpan d.lane k.block.len w; decide (sp.1 < sp.2 ∧ sp.2 < sp.1 + 4))) = [] := by
    refine List.filter_eq_nil_iff.mpr fun d hd => ?_
    rw [List.mem_singleton.mp hd]
    simp only [hq, hlen, wordSpan, decide_eq_true_eq]
    omega
  simp only [State.sharers, hdst, hpart, List.isEmpty_nil, if_true]

/-- R171: the second aligned word of an aligned row of four bytes has none of its bytes. -/
theorem State.moveWord_past {p q : Place} (hsrc : s.rowSrc k 0 = some p) (hdst : s.rowDst k 0 = some [q]) (hq : q.lane = 0)
    (hheld : s.heldPlace q = false) :
    ∃ b, s.moveWord k 0 1 = .ok (s, { k with done := k.done ++ [(0, 1)], bases := b }) := by
  have hspan : wordSpan q.lane k.block.len 1 = (4, 4) := by rw [hq, hlen]; rfl
  simp only [State.moveWord, hsrc, hdst, List.any_cons, List.any_nil, hheld, Bool.or_false, Bool.false_eq_true, if_false,
    List.map_cons, List.map_nil, hspan, List.filter_cons, List.filter_nil, Nat.lt_irrefl, decide_false, List.flatMap_nil,
    State.fetchWords, List.foldl_nil, List.foldl_cons, Nat.sub_self, List.range_zero, State.putWord, List.zipIdx_nil, ite_self]
  exact ⟨_, rfl⟩

/-- R171, R287: the one aligned word of an aligned row of four bytes, which its source word is read for. -/
theorem State.moveWord_aligned {p q : Place} (hsrc : s.rowSrc k 0 = some p) (hdst : s.rowDst k 0 = some [q]) (hp : p.lane = 0)
    (hq : q.lane = 0) (hheld : s.heldPlace q = false) {k1 : Command} {s1 : State} (hfetch : s.fetchWords k 0 p [0] = .ok k1)
    (hput : (s.placeMeets k.ctx (p.add 0) 4).putWord k 0 ((List.range 4).map (k1.byte 0 0)) (q.add 0) = .ok s1) :
    ∃ b, s.moveWord k 0 0 = .ok (s1, { k1 with done := k.done ++ [(0, 0)], words := k.words, bases := b }) := by
  have hspan : wordSpan 0 k.block.len 0 = (0, 4) := by rw [hlen]; rfl
  have hneed : (List.range ((4 - 1 + 0) / 4 + 1)).filter (fun i => decide ((0 + 0) / 4 ≤ i)) = [0] := rfl
  have hrange : (List.range (4 - 0)).map (fun i => k1.byte 0 0 (0 + i)) = (List.range 4).map (k1.byte 0 0) :=
    List.map_congr_left fun i _ => by rw [Nat.zero_add]
  have hmeets : s.placeMeets k.ctx (p.add 0) (4 - 0) = s.placeMeets k.ctx (p.add 0) 4 := rfl
  simp only [State.moveWord, hsrc, hdst, hp, hq, hspan, hheld, List.any_cons, List.any_nil, Bool.or_false, Bool.false_eq_true, if_false,
    List.map_cons, List.map_nil, List.filter_cons_of_pos, List.filter_nil, Nat.zero_lt_succ, decide_true, if_true,
    List.flatMap_cons, List.flatMap_nil, hneed, List.append_nil, hfetch, List.foldl_cons, List.foldl_nil, hrange, hmeets, hput,
    List.all_cons, List.all_nil, beq_self_eq_true, Bool.and_true]
  exact ⟨_, rfl⟩

variable (hsaved : (s.context k.ctx).saved = []) (hctx1 : (s.core c1).ctx = some k.ctx) (hwords : k.words = [])
include hsaved hctx1 hwords

/-- R171: the one source word of an aligned row of four bytes is read whole. -/
theorem State.fetchWords_store (h1 : o1 % 4 = 0) (hle : o1 + 4 ≤ 2 ^ 18) :
    s.fetchWords k 0 (.store c1 o1) [0] = .ok { k with words := [(0, (s.core c1).ls.bytes o1 4)] } := by
  have hspan : wordSpan (Place.store c1 o1).lane k.block.len 0 = (0, 4) := by rw [Place.lane_store h1, hlen]; rfl
  have hkey : wordKey 0 0 = 0 := rfl
  have hplace : (Place.store c1 o1).add 0 = .store c1 o1 := Place.add_store (by omega)
  simp only [State.fetchWords, List.foldl_cons, List.foldl_nil, hwords, mapGet_nil, Option.isSome_none, Bool.false_eq_true, if_false,
    hspan, hplace, hkey, Nat.sub_zero, State.engineBytes_store hsaved hctx1 4 o1 hle, mapPut]

omit hsaved hctx1 hwords in
/-- R171: the bytes of the row are those of its source word. -/
theorem Command.bytes_of_word (m : Memory) (o : Nat) :
    (List.range 4).map (({ k with words := [(0, m.bytes o 4)] } : Command).byte 0 0) = m.bytes o 4 := by
  simp [Command.byte, wordSpan, wordKey, hlen, mapGet, Memory.bytes, List.range_succ]

/-- R171, R287: the first word of the row is read and written. -/
theorem State.moveWord_store (hctx2 : (s.core c2).ctx = some k.ctx) (hdone : k.done = []) (hshd : k.block.shd = false)
    (hsrc : s.rowSrc k 0 = some (.store c1 o1)) (hdst : s.rowDst k 0 = some [.store c2 o2])
    (h1 : o1 % 4 = 0) (h2 : o2 % 4 = 0) (hle1 : o1 + 4 ≤ 2 ^ 18) (hle2 : o2 + 4 ≤ 2 ^ 18) (hheld : s.holding c2 = false) :
    ∃ b, s.moveWord k 0 0 = .ok (s.setLs c2 ((s.core c2).ls.put o2 ((s.core c1).ls.bytes o1 4)),
      { k with done := [(0, 0)], bases := b }) := by
  have hfetch := State.fetchWords_store hlen hsaved hctx1 hwords h1 hle1
  have hput : s.putWord k 0 ((List.range 4).map (({ k with words := [(0, (s.core c1).ls.bytes o1 4)] } : Command).byte 0 0))
      ((Place.store c2 o2).add 0) = .ok (s.setLs c2 ((s.core c2).ls.put o2 ((s.core c1).ls.bytes o1 4))) := by
    rw [Command.bytes_of_word hlen, Place.add_store (by omega)]
    exact State.putWord_store hsaved hctx2 rfl hdone hshd 0 _ _ hle2
  obtain ⟨b, hb⟩ := State.moveWord_aligned hlen hsrc hdst (Place.lane_store h1) (Place.lane_store h2) hheld hfetch hput
  rw [hdone] at hb
  exact ⟨b, hb⟩

end

end Sys2Proof.Machine
end

section
/-! The steps of the copy engines (R172, R285, R287, R289): a command's words are moved, a command ends, and a
`publish` swaps its region. -/

namespace Sys2Proof.Machine

/-! ### A command is performed (R287, R289) -/

/-- R171, R287: a `cpy` of one aligned row of four bytes that has not moved a word, needs no buffer slot, leaves no mailbox entry, and
has met no stop. -/
structure Command.OneWord (k : Command) : Prop where
  op : k.op = .cpy
  nrow : k.block.nrow = 1
  len : k.block.len = 4
  mb : k.block.mb = false
  cb : k.block.cb = false
  shd : k.block.shd = false
  done : k.done = []
  err : k.err = false
  delivered : k.delivered = none
  fault : k.fault = none
  taken : k.taken = []
  words : k.words = []

/-- R171: that row lies in local stores of the command's context, which is not saved. -/
structure State.Copies (s : State) (k : Command) (c1 o1 c2 o2 : Nat) : Prop where
  aligned1 : o1 % 4 = 0
  aligned2 : o2 % 4 = 0
  ctx1 : (s.core c1).ctx = some k.ctx
  ctx2 : (s.core c2).ctx = some k.ctx
  open2 : (s.core c2).remapStep ≠ 3
  saved : (s.context k.ctx).saved = []
  src : s.cmdPlace k k.block.src.toNat 4 .read = some (.store c1 o1)
  dst : s.cmdPlace k k.block.dst.toNat 4 .write = some (.store c2 o2)

/-- R287: the state in which the word is at its destination. -/
def State.copied (s : State) (c1 o1 c2 o2 : Nat) : State := s.setLs c2 ((s.core c2).ls.put o2 ((s.core c1).ls.bytes o1 4))

section
variable {s : State} {k : Command} {c1 o1 c2 o2 : Nat} (hk : k.OneWord)
include hk

/-- R288, R289: such a command is ready for its first write. -/
theorem State.prepare_oneWord : s.prepare k = (s, k, none) := by
  obtain ⟨hop, -, -, -, hcb, -, -, -, -, hfault, -, -⟩ := hk
  have hstands : s.faultStands k = none := by rw [State.faultStands, hfault]
  have hlist : s.readList k = .ok k := if_pos (.inl hop)
  have hland : k.landings = [(0, k.core)] := if_neg (by rw [hop]; decide)
  simp [State.prepare, hstands, hlist, hop, hland, State.prepareOne, hcb]

variable (hc : s.Copies k c1 o1 c2 o2)
include hc

/-- R171, R287: the first aligned word of its row holds the row. -/
theorem State.moveGroup_first :
    ∃ b, s.moveGroup k 0 0 = .ok (s.copied c1 o1 c2 o2, { k with done := [(0, 0)], bases := b }) := by
  obtain ⟨hop, -, hlen, -, hcb, hshd, hdone, -, -, -, -, hwords⟩ := hk
  obtain ⟨h1, h2, hctx1, hctx2, hopen, hsaved, hsrc, hdst⟩ := hc
  have hheld : s.holding c2 = false := beq_eq_false_iff_ne.mpr hopen
  have hsrc0 : s.rowSrc k 0 = some (.store c1 o1) := by rw [State.rowSrc_zero hop, hlen, hsrc]
  have hdst0 : s.rowDst k 0 = some [.store c2 o2] := by rw [State.rowDst_zero hop hcb, hlen, hdst]; rfl
  rw [State.moveGroup, State.sharers_eq_nil hlen hdst0 (Place.lane_store h2) 0 (by decide)]
  exact State.moveWord_store hlen hsaved hctx1 hwords hctx2 hdone hshd hsrc0 hdst0 h1 h2 (State.cmdPlace_store_le hsrc)
    (State.cmdPlace_store_le hdst) hheld

/-- R171: the second one holds none of it. -/
theorem State.moveGroup_second (l b : List (Nat × Nat)) :
    ∃ b', (s.copied c1 o1 c2 o2).moveGroup { k with done := l, bases := b } 0 1 =
      .ok (s.copied c1 o1 c2 o2, { k with done := l ++ [(0, 1)], bases := b' }) := by
  obtain ⟨hop, -, hlen, -, hcb, -, -, -, -, -, -, -⟩ := hk
  obtain ⟨-, h2, -, -, hopen, -, hsrc, hdst⟩ := hc
  have hheld : (s.copied c1 o1 c2 o2).heldPlace (.store c2 o2) = false :=
    (State.holding_setLs ..).trans (beq_eq_false_iff_ne.mpr hopen)
  have hsrc0 : (s.copied c1 o1 c2 o2).rowSrc { k with done := l, bases := b } 0 = some (.store c1 o1) := by
    rw [State.rowSrc_zero (by exact hop), State.copied, State.cmdPlace_setLs]
    exact hlen ▸ hsrc
  have hdst0 : (s.copied c1 o1 c2 o2).rowDst { k with done := l, bases := b } 0 = some [.store c2 o2] := by
    rw [State.rowDst_zero (by exact hop) (by exact hcb), State.copied, State.cmdPlace_setLs]
    exact congrArg (Option.map ([·])) (hlen ▸ hdst)
  rw [State.moveGroup, State.sharers_eq_nil (by exact hlen) hdst0 (Place.lane_store h2) 1 (by decide)]
  exact State.moveWord_past (k := { k with done := l, bases := b }) hlen hsrc0 hdst0 (Place.lane_store h2) hheld

/-- R287, R289: all its words are moved. -/
theorem State.moveAll_oneWord :
    ∃ b, s.moveAll k = (s.copied c1 o1 c2 o2, { k with done := [(0, 0), (0, 1)], bases := b }, none) := by
  have hrows : List.range k.block.nrow = [0] := by rw [hk.nrow]; rfl
  have hcount : List.range k.block.wordCount = [0, 1] := by rw [Block.wordCount, hk.len]; rfl
  have hnone : k.done.contains (0, 0) = false := by rw [hk.done]; rfl
  have hone : [(0, 0)].contains (0, 1) = false := rfl
  obtain ⟨b, hfirst⟩ := State.moveGroup_first hk hc
  obtain ⟨b', hsecond⟩ := State.moveGroup_second hk hc [(0, 0)] b
  refine ⟨b', ?_⟩
  simp only [State.moveAll, hrows, hcount, List.foldl_cons, List.foldl_nil, hnone, hfirst, hone, hsecond, Bool.false_eq_true, if_false,
    List.cons_append, List.nil_append]
end

/-- R289: a command that holds no buffer slot and asks for no mailbox entry delivers nothing beside its words. -/
theorem State.copyDeliver_bare {s : State} {k : Command} (htaken : k.taken = []) (hmb : k.block.mb = false) (tag : Tag) :
    s.copyDeliver k tag = s := by
  simp only [State.copyDeliver, htaken, hmb, mapGet_nil, Bool.false_eq_true, if_false]
  exact List.foldl_fixed ..

/-- R287, R289: the command has moved its words, and its delivery can be seen from the next cycle on. -/
theorem State.copyDone_oneWord {s : State} {k : Command} {c1 o1 c2 o2 d e n : Nat} (hk : k.OneWord) (hc : s.Copies k c1 o1 c2 o2)
    (hn : (s.engine d e).commands[n]? = some k) :
    ∃ q : Command, q.delivered = some s.cycle ∧ q.err = false ∧
      s.copyDone d e n = ((s.copied c1 o1 c2 o2).setCommand d e n q, none) := by
  obtain ⟨b, hall⟩ := State.moveAll_oneWord hk hc
  have hfresh : k.delivered.isSome = false := by rw [hk.delivered]; rfl
  refine ⟨{ k with done := [(0, 0), (0, 1)], bases := b, err := false, delivered := some s.cycle, fault := none }, rfl, rfl, ?_⟩
  simp only [State.copyDone, hn, hfresh, hk.err, State.prepare_oneWord hk, hall, Bool.false_eq_true, if_false]
  rw [State.copyDeliver_bare (by exact hk.taken) (by exact hk.mb)]
  rfl

/-- R289: a step that ends no packet leaves the state that the engine leaves. -/
theorem State.copyFinish_of_none {s u : State} {d e n : Nat} (h : s.copyDone d e n = (u, none)) : s.copyFinish d e n = u := by
  rw [State.copyFinish, h]

/-- R287, R289: the row is read and written, and nothing else in any local store. -/
theorem completes_copyCompletion_oneWord {s : State} {k : Command} {c1 o1 c2 o2 d e n : Nat} (hd : d < 4) (he : e < 16)
    (hk : k.OneWord) (hc : s.Copies k c1 o1 c2 o2) (hn : (s.engine d e).commands[n]? = some k) :
    Completes (.copyCompletion d e n) s (fun u => u.mem = s.mem ∧
      (∀ x, x < 4 → (u.core c2).ls.read (o2 + x) = (s.core c1).ls.read (o1 + x)) ∧
      (∀ z x, (z ≠ c2 ∨ x < o2 ∨ o2 + 4 ≤ x) → (u.core z).ls.read x = (s.core z).ls.read x) ∧
      ∃ q, (u.engine d e).commands[n]? = some q ∧ q.delivered = some s.cycle ∧ q.err = false) := by
  obtain ⟨q, hq, herr, hdone⟩ := State.copyDone_oneWord hk hc hn
  have hbytes : ((s.core c1).ls.bytes o1 4).length = 4 := Memory.bytes_length ..
  refine ⟨_, congrArg Host.Outcome.next (State.copyFinish_of_none hdone), rfl, fun x hx => ?_, fun z x h => ?_, q, ?_, hq, herr⟩
  · show ((s.copied c1 o1 c2 o2).core c2).ls.read (o2 + x) = _
    rw [State.copied, State.core_setLs_self, Memory.read_put_inside _ _ _ _ (by omega), Memory.getElem_bytes]
  · show ((s.copied c1 o1 c2 o2).core z).ls.read x = _
    by_cases hz : z = c2
    · subst hz
      rw [State.copied, State.core_setLs_self, Memory.read_put_outside _ _ _ _ (by omega)]
    · rw [State.copied, State.core_setLs_ne _ _ _ hz]
  · obtain ⟨hlt, -⟩ := List.getElem?_eq_some_iff.mp hn
    rw [State.setCommand, State.engine_setEngine_self _ hd he, listSet_eq_set]
    exact List.getElem?_set_self hlt

/-! ### The end of a command (R285, R289, R290) -/

/-- R285, R290: the end of a command changes threads and its kernel's count. -/
theorem State.copyEnd_frame (s : State) (k : Command) (tag : Tag) : (s.copyEnd k tag).dies = s.dies ∧ (s.copyEnd k tag).mem = s.mem := by
  unfold State.copyEnd
  dsimp only
  split <;> exact ⟨rfl, rfl⟩

/-- R289: a command that was delivered in an earlier cycle, and whose deliveries hold nothing, ends. -/
theorem completes_copyCompletion_ends {s : State} {k : Command} {d e n z : Nat} (hd : d < 4) (he : e < 16)
    (hn : (s.engine d e).commands[n]? = some k) (hdel : k.delivered = some z) (hz : z < s.cycle) (hmb : k.block.mb = false)
    (hcb : k.block.cb = false) (hp : k.packet = none) : Completes (.copyCompletion d e n) s (fun u =>
      (u.engine d e).commands = listDel (s.engine d e).commands n ∧ u.mem = s.mem) := by
  have hseen : s.copySeen k = true := by simp [State.copySeen, hdel, hz, hmb, hcb]
  have hdone : s.copyDone d e n = ((s.setEngine d e { s.engine d e with commands := listDel (s.engine d e).commands n }).copyEnd k
      (s.agentTag (s.entity d 1 e 0) k.tag), none) := by
    simp only [State.copyDone, hn, hdel, hseen, hp, Option.isSome_some, if_true, Option.map_none]
  obtain ⟨hdies, hmem⟩ := State.copyEnd_frame (s.setEngine d e { s.engine d e with commands := listDel (s.engine d e).commands n }) k
    (s.agentTag (s.entity d 1 e 0) k.tag)
  refine ⟨_, congrArg Host.Outcome.next (State.copyFinish_of_none hdone), ?_, hmem⟩
  have heng := State.engine_setEngine_self s hd he { s.engine d e with commands := listDel (s.engine d e).commands n }
  rw [State.engine, hdies]
  exact congrArg Engine.commands heng

/-! ### `publish` (R172, R173) -/

/-- R172: a context with the other frame of a region selected. -/
def Context.flip (x : Context) (rgn : Nat) : Context := { x with sel := mapPut x.sel rgn (!(mapGet x.sel rgn).getD false) }

theorem Context.selects_flip (x : Context) (rgn g : Nat) :
    (mapGet (x.flip rgn).sel g).getD false = ((mapGet x.sel g).getD false != decide (g = rgn)) := by
  rw [Context.flip, mapGet_mapPut]
  by_cases h : g = rgn <;> simp [h]

/-- R137, R170: the state in which no constant cache keeps a line. -/
def State.coldConst (s : State) : State := { s with clusters := s.clusters.map (fun p => (p.1, { p.2 with ccache := [] })) }

theorem State.cluster_coldConst (s : State) (n : Nat) : s.coldConst.cluster n = { s.cluster n with ccache := [] } :=
  s.cluster_map (f := fun k => { k with ccache := [] }) rfl n

section
variable {s : State} {c : Nat} {i : Fin 16} {t : Thread} (ht : s.threadAt c i = some t) (hst : t.st = .parked .publish)
  (hg : t.granted = false) (hh : t.hold = false) (hr : s.releasable c t (t.aux.toNat / 4096) = true)
  (hk : ∀ z ∈ s.dies.toList, ∀ e ∈ z.engines.toList, ∀ k ∈ e.commands,
    k.uid ≠ t.uid ∨ s.shadows k (t.aux.toNat % 4096) = false)
include ht hst hg hh hr hk

/-- R172, R173: a swap whose releases hold, and whose thread has no command to the shadow left. -/
theorem State.swap_due : s.swap c i =
    (s.coldConst.setContext t.ctx ((s.context t.ctx).flip (t.aux.toNat % 4096))).setSlot c i (some { t with granted := true }) := by
  have hnone : s.dies.toList.any (fun d => d.engines.toList.any (fun e =>
      e.commands.any (fun k => k.uid == t.uid && s.shadows k (t.aux.toNat % 4096)))) = false := by
    simp only [List.any_eq_false, Bool.not_eq_true, Bool.and_eq_false_iff, beq_eq_false_iff_ne]
    exact hk
  simp only [State.swap, ht, hst, hg, hh, hr, hnone]
  rfl

/-- R172, R173: it selects the other frame of the region alone, and no constant cache keeps a line. -/
theorem completes_publishSwap : Completes (.publishSwap c i.val) s (fun u => u.mem = s.mem ∧
    u.threadAt c i = some { t with granted := true } ∧ (∀ cl, (u.cluster cl).ccache = []) ∧
    ∀ g, (mapGet (u.context t.ctx).sel g).getD false =
      ((mapGet (s.context t.ctx).sel g).getD false != decide (g = t.aux.toNat % 4096))) := by
  refine ⟨s.swap c i, congrArg (fun j => Host.Outcome.next (s.swap c j)) (Fin.ofNat_val_eq_self i), ?_⟩
  rw [State.swap_due ht hst hg hh hr hk]
  refine ⟨rfl, State.threadAt_setSlot_self .., fun cl => congrArg Cluster.ccache (s.cluster_coldConst cl), fun g => ?_⟩
  have hctx : ((s.coldConst.setContext t.ctx ((s.context t.ctx).flip (t.aux.toNat % 4096))).setSlot c i
      (some { t with granted := true })).context t.ctx = (s.context t.ctx).flip (t.aux.toNat % 4096) :=
    State.context_setContext_self ..
  rw [hctx, Context.selects_flip]
end

/-! ### The obligation -/

/-- Settles O44: acceptance and refusal, the word, the end, and the swap. -/
theorem copySteps : Obligations.CopySteps := by
  intro s c i t ht hc
  refine ⟨fun h sh en hst hg hh hn ho hx hr hv => ⟨fun kind a acc hk => ?_, fun hk => ?_⟩, ?_, ?_, fun hst hg hh hr hk => ?_⟩
  · exact completes_copyAccept_refused ht hst hg hh hn ho hx hr hv hk
  · exact completes_copyAccept_good ht hst hg hh hn ho hx hr hv hc hk
  · intro d e n k c1 o1 c2 o2 hd he hn hop hnrow hlen hmb hcb hshd hdone herr hdel hfault htaken hwords h1 h2 hctx1 hctx2 hopen hsaved
      hsrc hdst
    exact completes_copyCompletion_oneWord hd he ⟨hop, hnrow, hlen, hmb, hcb, hshd, hdone, herr, hdel, hfault, htaken, hwords⟩
      ⟨h1, h2, hctx1, hctx2, hopen, hsaved, hsrc, hdst⟩ hn
  · intro d e n k z hd he hn hdel hz hmb hcb hp
    exact completes_copyCompletion_ends hd he hn hdel hz hmb hcb hp
  · exact completes_publishSwap ht hst hg hh hr hk

end Sys2Proof.Machine
end

section
/-! Vector arithmetic (R189, R191, R192, R199 to R201): what each operation makes of two elements, and the end of the instruction. -/

namespace Sys2Proof.Machine

/-! ### Elements of a width as integers (R199) -/

section
variable {w : Nat} (p q : BitVec w) (n : Nat)

theorem minElem_eq : (if p.toInt ≤ q.toInt then p else q) = BitVec.ofInt w (min p.toInt q.toInt) := by
  simp only [min_def, apply_ite (BitVec.ofInt w), BitVec.ofInt_toInt]
theorem maxElem_eq : (if p.toInt ≤ q.toInt then q else p) = BitVec.ofInt w (max p.toInt q.toInt) := by
  simp only [max_def, apply_ite (BitVec.ofInt w), BitVec.ofInt_toInt]
theorem negElem_eq : -p = BitVec.ofInt w (-p.toInt) := by rw [BitVec.ofInt_neg, BitVec.ofInt_toInt]
/-- R199: the absolute value; that of the least integer is itself, kept modulo the width. -/
theorem absElem_eq : (if p.toInt < 0 then -p else p) = BitVec.ofInt w (p.toInt.natAbs : Int) := by
  by_cases h : p.toInt < 0
  · rw [if_pos h, Int.ofNat_natAbs_of_nonpos h.le, negElem_eq]
  · rw [if_neg h, Int.natAbs_of_nonneg (not_lt.1 h), BitVec.ofInt_toInt]
theorem shlElem_eq : p <<< n = BitVec.ofNat w (p.toNat * 2 ^ n) := by
  simp [BitVec.toNat_eq, Nat.shiftLeft_eq]
theorem shrElem_eq : p >>> n = BitVec.ofNat w (p.toNat / 2 ^ n) := by
  rw [← Nat.shiftRight_eq_div_pow, ← BitVec.toNat_ushiftRight, BitVec.ofNat_toNat, BitVec.setWidth_eq]
theorem sraElem_eq : p.sshiftRight n = BitVec.ofInt w (p.toInt / 2 ^ n) := by
  rw [BitVec.sshiftRight, Int.shiftRight_eq_div_pow, Nat.cast_pow, Nat.cast_ofNat]
end

/-- R42: the smaller or the larger of two elements of a format's width. -/
theorem ofNat_pick (F : Fmt) {w : Nat} (hw : F.exp + F.frac + 1 = w) (larger : Bool) (p q : BitVec w) :
    BitVec.ofNat w (F.pick larger p.toNat q.toNat) =
      if (F.decode p.toNat).isNan || (F.decode q.toNat).isNan then BitVec.ofNat w F.nanBits
      else if (if larger then (F.decode q.toNat).below (F.decode p.toNat) else (F.decode p.toNat).below (F.decode q.toNat)) then p
      else q := by
  have hmod (u : BitVec w) : u.toNat % 2 ^ (F.exp + F.frac + 1) = u.toNat := by rw [hw]; exact Nat.mod_eq_of_lt u.isLt
  simp only [Fmt.pick, hmod, apply_ite (BitVec.ofNat w), BitVec.ofNat_toNat, BitVec.setWidth_eq]

/-! ### The end of an instruction of two elements (R189, R191, R199, R200) -/

section
variable (s : State) {x : BitVec 4} (d a b : Field) (four : Bool) (f : BitVec 32 → BitVec 32 → BitVec 32) (g : Word → Word → Word)

theorem State.vbin_narrow (h : x.getLsbD 0 = false) : s.vbin x d a b four f g =
    s.vfinish four [((vreg d).val, (s.activeX x).map (fun e => (e, f (s.velem a e) (s.velem b e))))] :=
  if_neg (ne_true_of_eq_false h)
theorem State.vbin_wide (h : x.getLsbD 0 = true) : s.vbin x d a b four f g =
    s.vfinish true (pairWrites d ((s.activeX x).map (fun e => (e, g (s.velem64 a e) (s.velem64 b e))))) :=
  if_pos h
end

/-- An instruction whose meaning is the end of a vector instruction. -/
theorem completes_vfinish {i : Instr} {s : State} {four : Bool} {ws : VWrites} (hs : s.thread.isSome = true)
    (he : exec i s = issue s (s.vfinish four ws)) : Completes i s (VectorEnded s four ws) :=
  completes_of_issue hs he (vectorEnded_vfinish s four ws)

section
variable {i : Instr} {s : State} {x : BitVec 4} {d a b : Field} {four : Bool} {f : BitVec 32 → BitVec 32 → BitVec 32}
  {g : Word → Word → Word} (hs : s.thread.isSome = true) (he : exec i s = issue s (s.vbin x d a b four f g))
include hs he

theorem completes_vbin_narrow (h : x.getLsbD 0 = false) : Completes i s (VectorEnded s four
    [((vreg d).val, (s.activeX x).map (fun e => (e, f (s.velem a e) (s.velem b e))))]) :=
  completes_vfinish hs (he.trans (congrArg (issue s) (s.vbin_narrow d a b four f g h)))
theorem completes_vbin_wide (h : x.getLsbD 0 = true) : Completes i s (VectorEnded s true
    (pairWrites d ((s.activeX x).map (fun e => (e, g (s.velem64 a e) (s.velem64 b e)))))) :=
  completes_vfinish hs (he.trans (congrArg (issue s) (s.vbin_wide d a b four f g h)))
end

/-! ### The instructions -/

/-- R199: each integer instruction applies the operation of its table, at the two widths. -/
theorem exec_vectorInt {i : Instr} {s : State} {x : BitVec 4} {d a b : Field} {f : ∀ w : Nat, BitVec w → BitVec w → BitVec w}
    (h : vectorInt i = some (x, d, a, b, f)) : exec i s = issue s (s.vbin x d a b false (f 32) (f 64)) := by
  have ends {f f' : BitVec 32 → BitVec 32 → BitVec 32} {g g' : Word → Word → Word} (hf : ∀ p q, f p q = f' p q)
      (hg : ∀ p q, g p q = g' p q) : issue s (s.vbin x d a b false f g) = issue s (s.vbin x d a b false f' g') := by
    rw [funext₂ hf, funext₂ hg]
  cases i with
  | vmin => cases h; exact ends minElem_eq minElem_eq
  | vmax => cases h; exact ends maxElem_eq maxElem_eq
  | vabs => cases h; exact ends (fun p _ => absElem_eq p) (fun p _ => absElem_eq p)
  | vneg => cases h; exact ends (fun p _ => negElem_eq p) (fun p _ => negElem_eq p)
  | vshl => cases h; exact ends (fun p _ => shlElem_eq p _) (fun p _ => shlElem_eq p _)
  | vshr => cases h; exact ends (fun p _ => shrElem_eq p _) (fun p _ => shrElem_eq p _)
  | vsra => cases h; exact ends (fun p _ => sraElem_eq p _) (fun p _ => sraElem_eq p _)
  | _ => cases h <;> rfl

/-- R200: each floating-point instruction rounds its exact operation once, in the format of its width. -/
theorem exec_vectorFloat {i : Instr} {s : State} {x : BitVec 4} {d a b : Field} {four : Bool} {f : Nat → FVal → FVal → FVal}
    (h : vectorFloat i = some (x, d, a, b, four, f)) : exec i s = issue s (s.vbin x d a b four
      (fun p q => BitVec.ofNat 32 (fp32.round s.rm s.sat (f s.rm (fp32.decode p.toNat) (fp32.decode q.toNat))))
      (fun p q => BitVec.ofNat 64 (fp64.round s.rm s.sat (f s.rm (fp64.decode p.toNat) (fp64.decode q.toNat))))) := by
  cases i
  case vfadd | vfsub | vfmul | vfdiv => cases h; rfl
  all_goals exact nomatch h

/-- R42, R200: `vfmin` and `vfmax` write the default NaN or one of the two elements. -/
theorem State.vfloat_pick (s : State) (x : BitVec 4) (d a b : Field) (larger : Bool) :
    s.vfloat x d a b false (fun F _ _ p q => F.pick larger p q) = s.vbin x d a b false
      (fun p q =>
        let u := fp32.decode p.toNat
        let v := fp32.decode q.toNat
        if u.isNan || v.isNan then 0x7FC00000 else if (if larger then v.below u else u.below v) then p else q)
      (fun p q =>
        let u := fp64.decode p.toNat
        let v := fp64.decode q.toNat
        if u.isNan || v.isNan then 0x7FF8000000000000 else if (if larger then v.below u else u.below v) then p else q) := by
  have h32 := ofNat_pick fp32 (w := 32) rfl larger
  have h64 := ofNat_pick fp64 (w := 64) rfl larger
  exact congrArg₂ (s.vbin x d a b false) (funext₂ h32) (funext₂ h64)

theorem exec_vfmin (s : State) (x : BitVec 4) (d a b : Field) :
    exec (.vfmin x d a b) s = issue s (s.vfloat x d a b false (fun F _ _ p q => F.pick false p q)) := rfl
theorem exec_vfmax (s : State) (x : BitVec 4) (d a b : Field) :
    exec (.vfmax x d a b) s = issue s (s.vfloat x d a b false (fun F _ _ p q => F.pick true p q)) := rfl
/-- R201: `vffma` rounds the sum of a product and an addend once. -/
theorem exec_vffma (s : State) (x : BitVec 4) (d a b c : Field) : exec (.vffma x d a b c) s = issue s (if x.getLsbD 0 then
      s.vfinish true (pairWrites d ((s.activeX x).map (fun e =>
        (e, BitVec.ofNat 64 (fp64.fma s.rm s.sat (s.velem64 a e).toNat (s.velem64 b e).toNat (s.velem64 c e).toNat)))))
    else
      s.vfinish false [((vreg d).val, (s.activeX x).map (fun e =>
        (e, BitVec.ofNat 32 (fp32.fma s.rm s.sat (s.velem a e).toNat (s.velem b e).toNat (s.velem c e).toNat))))]) := rfl

/-- Settles O31: an instruction of two elements is `vbin` of its operation, `vffma` writes its three-element sums itself. -/
theorem vectorArithmetic : Obligations.VectorArithmetic := by
  intro s i x d a b c hs act rnd v32 v64 narrow wide least W
  have hmin := (exec_vfmin s x d a b).trans (congrArg (issue s) (s.vfloat_pick x d a b false))
  have hmax := (exec_vfmax s x d a b).trans (congrArg (issue s) (s.vfloat_pick x d a b true))
  refine ⟨fun f h => ⟨fun hW => ?_, fun hW => ?_⟩, fun four f h => ⟨fun hW => ?_, fun hW => ?_⟩,
    fun hW => ⟨?_, ?_, ?_⟩, fun hW => ⟨?_, ?_, ?_⟩⟩
  · exact completes_vbin_narrow hs (exec_vectorInt h) hW
  · exact completes_vbin_wide hs (exec_vectorInt h) hW
  · exact (completes_vbin_narrow hs (exec_vectorFloat h) hW :)
  · exact (completes_vbin_wide hs (exec_vectorFloat h) hW :)
  · exact completes_vbin_narrow hs hmin hW
  · exact completes_vbin_narrow hs hmax hW
  · exact completes_vfinish hs ((exec_vffma ..).trans (congrArg (issue s) (if_neg (ne_true_of_eq_false hW))))
  · exact completes_vbin_wide hs hmin hW
  · exact completes_vbin_wide hs hmax hW
  · exact completes_vfinish hs ((exec_vffma ..).trans (congrArg (issue s) (if_pos hW)))

end Sys2Proof.Machine
end

section
/-! Vector conversions, comparisons, moves and reductions (R202 to R206). -/

namespace Sys2Proof.Machine

/-! ### Conversion (R202) -/

/-- R202: the table of `vcvt`. -/
def vectorConverted (c : BitVec 5) (rm : Nat) (sat : Bool) (w : BitVec 32) : BitVec 32 :=
  let formats : List Fmt := [fp16, bf16, e4m3, e5m2]
  let F := formats.getD ((c.toNat - 2) / 2) fp16
  let int (n : Nat) (lo hi indef : Int) : BitVec 32 :=
    BitVec.ofNat 32 ((intoRange lo hi indef rm sat (fp32.decode w.toNat)) % 2 ^ n).toNat
  if c = 0 then BitVec.ofNat 32 (fp32.round rm sat (.fin (decide (w.toInt < 0)) w.toInt.natAbs 0))
  else if c = 1 then int 32 (-2 ^ 31) (2 ^ 31 - 1) (-2 ^ 31)
  else if c.toNat < 10 ∧ c.toNat % 2 = 0 then BitVec.ofNat 32 (F.round rm sat (fp32.decode w.toNat))
  else if c.toNat < 10 then BitVec.ofNat 32 (fp32.round rm sat (F.decode (w.toNat % 2 ^ (F.exp + F.frac + 1))))
  else if c = 10 then BitVec.ofNat 32 ((if sat then max (-128) (min 127 w.toInt) else w.toInt) % 256).toNat
  else if c = 11 then BitVec.ofNat 32 ((if sat then max 0 (min 255 w.toInt) else w.toInt) % 256).toNat
  else if c = 12 then BitVec.ofInt 32 (w.truncate 8).toInt
  else if c = 13 then BitVec.ofNat 32 (w.toNat % 256)
  else if c = 14 then int 8 (-128) 127 (-128)
  else int 8 0 255 0

/-- R202: an integer narrowed to eight bits. -/
theorem narrow_eq (sat : Bool) (lo hi v : Int) :
    narrow sat lo hi 8 v = ((if sat then max lo (min hi v) else v) % 256).toNat := by
  cases sat <;> rfl

/-- R202: the low byte of an element, its sign extended, and alone. -/
theorem signExtend_byte (w : BitVec 32) : (w.truncate 8).signExtend 32 = BitVec.ofInt 32 (w.truncate 8).toInt := rfl
theorem zeroExtend_byte (w : BitVec 32) : (w.truncate 8).zeroExtend 32 = BitVec.ofNat 32 (w.toNat % 256) := by
  simp [BitVec.toNat_eq]

/-- R202: the codes above 14 are all the last row of the table. -/
theorem vectorConverted_last {n : Nat} (h : 15 ≤ n) (h' : n < 32) (rm : Nat) (sat : Bool) (w : BitVec 32) :
    vectorConverted (BitVec.ofNat 5 n) rm sat w =
      BitVec.ofNat 32 ((intoRange 0 255 0 rm sat (fp32.decode w.toNat)) % 256).toNat := by
  have hn : (BitVec.ofNat 5 n).toNat = n := Nat.mod_eq_of_lt h'
  have hne (k : BitVec 5) (hk : k.toNat < 15) : BitVec.ofNat 5 n ≠ k := by
    rintro rfl
    omega
  have hlt : ¬n < 10 := by omega
  simp only [vectorConverted, hn, hlt, false_and, if_false, hne 0 (by decide), hne 1 (by decide), hne 10 (by decide), hne 11 (by decide),
    hne 12 (by decide), hne 13 (by decide), hne 14 (by decide)]
  rfl

/-- R202: `vcvt` gives what its table says. -/
theorem vcvtValue_eq (c : BitVec 5) (rm : Nat) (sat : Bool) (w : BitVec 32) : vcvtValue c.toNat rm sat w = vectorConverted c rm sat w := by
  have int (n : Nat) (lo hi indef : Int) :
      BitVec.ofNat 32 ((toInteger rm sat lo hi indef (fp32.decode w.toNat)) % 2 ^ n).toNat =
        BitVec.ofNat 32 ((intoRange lo hi indef rm sat (fp32.decode w.toNat)) % 2 ^ n).toNat := by rw [toInteger_eq]
  obtain ⟨n, hn, rfl⟩ : ∃ n, n < 32 ∧ c = BitVec.ofNat 5 n := ⟨c.toNat, c.isLt, by simp⟩
  match n, hn with
  | 0, _ => rfl
  | 1, _ => exact int 32 _ _ _
  | 2, _ => rfl
  | 3, _ => rfl
  | 4, _ => rfl
  | 5, _ => rfl
  | 6, _ => rfl
  | 7, _ => rfl
  | 8, _ => rfl
  | 9, _ => rfl
  | 10, _ => exact congrArg (BitVec.ofNat 32) (narrow_eq ..)
  | 11, _ => exact congrArg (BitVec.ofNat 32) (narrow_eq ..)
  | 12, _ => exact signExtend_byte w
  | 13, _ => exact zeroExtend_byte w
  | 14, _ => exact int 8 _ _ _
  | n + 15, h =>
    have hv : vcvtValue (n + 15) rm sat w = _ := int 8 0 255 0
    rw [vectorConverted_last (by omega) h, BitVec.toNat_ofNat, Nat.mod_eq_of_lt h]
    exact hv

/-! ### Comparison (R203) -/

/-- R125: no value is below a NaN, and a NaN is below no value. -/
theorem FVal.lt_of_isNan {x y : FVal} (h : (x.isNan || y.isNan) = true) : x.lt y = false := by
  cases x <;> cases y <;> simp_all [FVal.isNan, FVal.lt]

theorem FVal.compare_eq (x y : FVal) : x.compare y =
    let un := x.isNan || y.isNan
    ⟨x.lt y, !un && !x.lt y && !y.lt x, y.lt x, un⟩ := by
  unfold FVal.compare
  split
  · next h => simp [h, FVal.lt_of_isNan h, FVal.lt_of_isNan ((Bool.or_comm ..).trans h)]
  · next h => simp [h]

/-- R203: the table of `vcmp`. -/
def vectorCondition (n : Nat) (p q : BitVec 32) : Bool :=
  let lt := (fp32.decode p.toNat).lt (fp32.decode q.toNat)
  let un := (fp32.decode p.toNat).isNan || (fp32.decode q.toNat).isNan
  let eq := !un && !lt && !(fp32.decode q.toNat).lt (fp32.decode p.toNat)
  match n with
  | 0 => decide (p = q)
  | 1 => decide (p ≠ q)
  | 2 => decide (p.toInt < q.toInt)
  | 3 => decide (p.toInt ≤ q.toInt)
  | 4 => decide (p.toNat < q.toNat)
  | 5 => decide (p.toNat ≤ q.toNat)
  | 6 => eq
  | 7 => lt
  | 8 => lt || eq
  | _ => un

theorem vcond_eq (n : Nat) (p q : BitVec 32) : vcond n p q = vectorCondition n p q := by
  unfold vcond
  simp only [FVal.compare_eq]
  match n with
  | 1 => exact (decide_not ..).symm
  | 0 | 2 | 3 | 4 | 5 | 6 | 7 | 8 | _ + 9 => rfl

/-! ### Predicates (R203, R204) -/

/-- THE end of an instruction that leaves the thread at its instruction as `u`, with one destination written. -/
theorem ended_advance_of {s : State} {u : Thread} (d : Field) (v : Word) (hg : u.g = s.th.g) (hpc : u.pc = s.th.pc)
    (hl : u.lineCount = s.th.lineCount) : Ended s u d v s.nextPc ((s.setTh u).setReg d v).advance := by
  have h := ended_advance s u d v hg
  rw [hpc, hl] at h
  exact h

/-- R203: a predicate register written below VL. -/
def Thread.withPred (t : Thread) (p : Fin 4) (f : Nat → Bool) : Thread := { t with vp := t.vp.set p ((List.range t.vl).map f) }

section
variable (t : Thread) (p : Fin 4) (f : Nat → Bool)
theorem Thread.withPred_g : (t.withPred p f).g = t.g := rfl
theorem Thread.withPred_pc : (t.withPred p f).pc = t.pc := rfl
theorem Thread.withPred_lineCount : (t.withPred p f).lineCount = t.lineCount := rfl
theorem Thread.withPred_advance : (t.withPred p f).advance = t.advance.withPred p f := rfl
end

theorem Thread.marked_g (t : Thread) : t.marked.g = t.g := rfl
theorem Thread.marked_pc (t : Thread) : t.marked.pc = t.pc := rfl
theorem Thread.marked_lineCount (t : Thread) : t.marked.lineCount = t.lineCount := rfl

theorem State.pfinish_eq (s : State) (p : Fin 4) (f : Nat → Bool) : s.pfinish p f = (s.setTh (s.th.marked.withPred p f)).advance := by
  rw [State.advance, State.th_setTh, State.setTh_setTh, Thread.withPred_advance]
  rfl

/-- R203: the end of an instruction that writes a predicate register. -/
theorem completes_pfinish {i : Instr} {s : State} {p : Fin 4} {f : Nat → Bool} (hs : s.thread.isSome = true)
    (he : exec i s = issue s (s.pfinish p f)) : Completes i s (Passed s (s.th.marked.withPred p f) s.nextPc) := by
  refine completes_of_issue hs (he.trans (congrArg (issue s) (s.pfinish_eq p f))) (ended_advance_of 0x1F 0 ?_ ?_ ?_)
  · rw [Thread.withPred_g, Thread.marked_g]
  · rw [Thread.withPred_pc, Thread.marked_pc]
  · rw [Thread.withPred_lineCount, Thread.marked_lineCount]

/-! ### Reductions (R205) -/

/-- R205: the end of an instruction that writes a scalar register. -/
theorem completes_vscalar {i : Instr} {s : State} {d : Field} {v w : Word} (hs : s.thread.isSome = true)
    (he : exec i s = issue s (s.vscalar d v)) (hv : v = w) : Completes i s (Ended s s.th.marked d w s.nextPc) :=
  completes_of_issue hs he (hv ▸ ended_advance_of d v s.th.marked_g s.th.marked_pc s.th.marked_lineCount)

theorem vsum_int (rm : Nat) (sat : Bool) (l : List (BitVec 32)) : vsum false rm sat l = BitVec.ofInt 64 (l.map (·.toInt)).sum := by
  rw [List.sum_eq_foldl]
  rfl
theorem vsum_fp (rm : Nat) (sat : Bool) (l : List (BitVec 32)) : vsum true rm sat l =
    if l = [] then 0 else BitVec.ofNat 64 (fp32.round rm sat (FVal.sum rm (l.map (fun v => fp32.decode v.toNat)))) := by
  cases l <;> rfl

/-- R205: the smaller or the larger of two elements as integers. -/
def extremeInt (larger : Bool) (m w : BitVec 32) : BitVec 32 :=
  if larger then (if m.toInt ≤ w.toInt then w else m) else (if m.toInt ≤ w.toInt then m else w)

theorem toInt_extremeInt (larger : Bool) (m w : BitVec 32) :
    (extremeInt larger m w).toInt = if larger then max m.toInt w.toInt else min m.toInt w.toInt := by
  cases larger
  · simp only [extremeInt, Bool.false_eq_true, if_false, min_def, apply_ite BitVec.toInt]
  · simp only [extremeInt, if_true, max_def, apply_ite BitVec.toInt]

/-- R205: the least or the greatest of a list of integers, from the bound of the elements' range. -/
theorem vextreme_int (larger : Bool) (l : List (BitVec 32)) : vextreme larger false l = BitVec.ofInt 64
    (if larger then (l.map (·.toInt)).foldl max (-2 ^ 31) else (l.map (·.toInt)).foldl min (2 ^ 31 - 1)) := by
  cases l with
  | nil => cases larger <;> rfl
  | cons v r =>
    have hv : vextreme larger false (v :: r) = BitVec.ofInt 64 (r.foldl (extremeInt larger) v).toInt := rfl
    have hlo := v.le_toInt
    have hhi := v.toInt_lt
    rw [hv, List.map_cons, List.foldl_cons, List.foldl_cons, List.foldl_map, List.foldl_map]
    cases larger
    · rw [min_eq_right (by omega), if_neg Bool.false_ne_true]
      exact congrArg _ (List.foldl_hom BitVec.toInt (fun m w => (toInt_extremeInt false m w).symm)).symm
    · rw [max_eq_right (by omega), if_pos rfl]
      exact congrArg _ (List.foldl_hom BitVec.toInt (fun m w => (toInt_extremeInt true m w).symm)).symm

/-- R42: an infinity yields to every other value. -/
theorem FVal.not_inf_below (v : FVal) : (FVal.inf false).below v = false := by
  cases v <;> simp [FVal.below, FVal.lt, FVal.neg]
theorem FVal.not_below_inf (v : FVal) : v.below (.inf true) = false := by
  cases v <;> simp [FVal.below, FVal.lt, FVal.neg, FVal.isInf]

/-- R205: the first element of a reduction is its own smallest and largest. -/
theorem pick_first (larger : Bool) (v : Nat) :
    fp32.pick larger (if larger then 0xFF800000 else 0x7F800000) v = fp32.pick larger v v := by
  have hlo : fp32.decode 0x7F800000 = .inf false := by decide
  have hhi : fp32.decode 0xFF800000 = .inf true := by decide
  cases larger
  · simp only [Fmt.pick, hlo, Bool.false_eq_true, if_false, FVal.not_inf_below, ite_self, Bool.or_self]
    rfl
  · simp only [Fmt.pick, hhi, if_true, FVal.not_below_inf, Bool.false_eq_true, if_false, ite_self, Bool.or_self]
    rfl

theorem vextreme_fp (larger : Bool) (l : List (BitVec 32)) : vextreme larger true l = BitVec.ofNat 64
    ((l.map (·.toNat)).foldl (fp32.pick larger) (if larger then 0xFF800000 else 0x7F800000)) := by
  cases l with
  | nil => cases larger <;> rfl
  | cons v r =>
    rw [List.map_cons, List.foldl_cons, List.foldl_map, pick_first]
    rfl

/-! ### The obligation -/

/-- R206: an element of `vbcast`. -/
theorem vbcast_elem (x : BitVec 4) (v : Word) (e : Nat) :
    ((if x.getLsbD 0 then v + BitVec.ofNat 64 e else v) : Word).truncate 32 =
      BitVec.ofNat 32 (v.toNat + if x.getLsbD 0 then e else 0) := by
  split <;> simp [BitVec.toNat_eq]

/-- The writes of two functions that agree. -/
theorem writes_congr {f g : Nat → BitVec 32} (h : ∀ e, f e = g e) (d : Field) (es : List Nat) :
    ([((vreg d).val, es.map (fun e => (e, f e)))] : VWrites) = [((vreg d).val, es.map (fun e => (e, g e)))] := by
  rw [funext h]

/-- Settles O32: each instruction ends with its elements, its predicate register or its scalar register written, with the value of its
table. -/
theorem vectorMoves : Obligations.VectorMoves := by
  intro s x d a b hs act vl rm sat v32 puts pred src ends
  refine ⟨fun c => ?_, fun c k => ?_, fun k => ?_, fun p q r => ⟨?_, ?_, ?_⟩, ?_, fun k => ?_, ?_, fun hW => ⟨?_, ?_, ?_⟩,
    fun hW => ⟨?_, ?_, ?_⟩⟩
  · exact completes_vfinish hs (congrArg (fun ws => issue s (s.vfinish false ws)) (writes_congr (fun e => vcvtValue_eq c rm sat _) d act))
  · exact completes_pfinish hs (congrArg (fun f => issue s (s.pfinish k.toFin f)) (funext fun e => vcond_eq c.toNat _ _))
  · exact completes_vfinish hs rfl
  · exact completes_pfinish hs rfl
  · exact completes_pfinish hs rfl
  · exact completes_pfinish hs rfl
  · exact completes_vfinish hs (congrArg (fun ws => issue s (s.vfinish false ws)) (writes_congr (vbcast_elem x (s.reg a)) d act))
  · exact completes_vfinish hs rfl
  · exact completes_vfinish hs rfl
  · exact completes_vscalar hs rfl (by rw [hW]; exact vsum_int ..)
  · exact completes_vscalar hs rfl (by rw [hW]; exact vextreme_int false _)
  · exact completes_vscalar hs rfl (by rw [hW]; exact vextreme_int true _)
  · exact completes_vscalar hs rfl (by rw [hW]; exact vsum_fp ..)
  · exact completes_vscalar hs rfl (by rw [hW]; exact vextreme_fp false _)
  · exact completes_vscalar hs rfl (by rw [hW]; exact vextreme_fp true _)

end Sys2Proof.Machine
end

section
/-! Lists in the order of a key (R181), the values of a register's strips (R183), and registers changed one by one. -/

namespace Sys2Proof.Machine

/-! ### Sorting by a key -/

section
variable {α : Type} (key : α → Nat)

theorem insertBy_perm (x : α) (l : List α) : (insertBy key x l).Perm (x :: l) := by
  induction l with
  | nil => rfl
  | cons y r ih =>
    rw [insertBy]
    split
    · rfl
    · exact (ih.cons y).trans (.swap x y r)

theorem insertBy_pairwise (x : α) {l : List α} (h : l.Pairwise (fun p q => key p ≤ key q)) :
    (insertBy key x l).Pairwise (fun p q => key p ≤ key q) := by
  induction l with
  | nil => exact List.pairwise_singleton _ x
  | cons y r ih =>
    obtain ⟨hy, hr⟩ := List.pairwise_cons.1 h
    rw [insertBy]
    split
    · next hlt => exact List.pairwise_cons.2 ⟨List.forall_mem_cons.2 ⟨hlt.le, fun z hz => hlt.le.trans (hy z hz)⟩, h⟩
    · next hge =>
      refine List.pairwise_cons.2 ⟨fun z hz => ?_, ih hr⟩
      obtain rfl | hz := List.mem_cons.1 ((insertBy_perm key x r).mem_iff.1 hz)
      · exact not_lt.1 hge
      · exact hy z hz

theorem foldl_insertBy (l : List α) : ∀ r : List α, r.Pairwise (fun p q => key p ≤ key q) →
    (l.foldl (fun r x => insertBy key x r) r).Perm (r ++ l) ∧
      (l.foldl (fun r x => insertBy key x r) r).Pairwise (fun p q => key p ≤ key q) := by
  induction l with
  | nil => exact fun r hr => ⟨by simp, hr⟩
  | cons x l ih =>
    intro r hr
    obtain ⟨hp, ho⟩ := ih (insertBy key x r) (insertBy_pairwise key x hr)
    exact ⟨hp.trans (((insertBy_perm key x r).append_right l).trans List.perm_middle.symm), ho⟩

theorem sortBy_perm (l : List α) : (sortBy key l).Perm l := (foldl_insertBy key l [] .nil).1
theorem sortBy_pairwise (l : List α) : (sortBy key l).Pairwise (fun p q => key p ≤ key q) := (foldl_insertBy key l [] .nil).2

/-- What an ordered list holds beyond its first `n` elements comes after all of these. -/
theorem take_of_not_mem {R : α → α → Prop} {l : List α} (h : l.Pairwise R) {n : Nat} {q : α} (hq : q ∈ l) (hn : q ∉ l.take n) :
    (l.take n).length = n ∧ ∀ p ∈ l.take n, R p q := by
  have hdrop : q ∈ l.drop n := by
    rw [← List.take_append_drop n l] at hq
    exact (List.mem_append.1 hq).resolve_left hn
  have hlt : n < l.length := by
    by_contra hle
    rw [List.drop_eq_nil_of_le (not_lt.1 hle)] at hdrop
    exact List.not_mem_nil hdrop
  rw [← List.take_append_drop n l] at h
  exact ⟨List.length_take_of_le hlt.le, fun p hp => (List.pairwise_append.1 h).2.2 p hp q hdrop⟩
end

/-! ### The rank of strips (R181) -/

theorem absDiff_eq (p q : Nat) : absDiff p q = ((p : Int) - q).natAbs := by
  unfold absDiff
  omega

theorem absDiff_lt {p q n : Nat} (hp : p < n) (hq : q < n) : absDiff p q < n := by
  unfold absDiff
  omega

/-- R181: the key as one number orders strips by the distance of their cores, then by their own, then by their number. -/
theorem stripKey_lt_iff {h p q : Nat} (hh : h < 32) (hp : p < 32) (hq : q < 32) : stripKey h p < stripKey h q ↔
    absDiff (p / 4) (h / 4) < absDiff (q / 4) (h / 4) ∨ (absDiff (p / 4) (h / 4) = absDiff (q / 4) (h / 4) ∧
      (absDiff p h < absDiff q h ∨ (absDiff p h = absDiff q h ∧ p < q))) := by
  have hbp := absDiff_lt hp hh
  have hbq := absDiff_lt hq hh
  unfold stripKey
  generalize absDiff (p / 4) (h / 4) = ap, absDiff (q / 4) (h / 4) = aq, absDiff p h = bp, absDiff q h = bq at *
  omega

theorem eq_of_stripKey_eq {h p q : Nat} (hp : p < 32) (hq : q < 32) (he : stripKey h p = stripKey h q) : p = q := by
  unfold stripKey at he
  omega

/-- R181: no strip comes before the home strip. -/
theorem stripKey_home_le (h p : Nat) : stripKey h h ≤ stripKey h p := by
  unfold stripKey absDiff
  omega

theorem mem_rankOrder {h q : Nat} {l : List Nat} : q ∈ rankOrder h l ↔ q ∈ l := (sortBy_perm _ l).mem_iff
theorem length_rankOrder (h : Nat) (l : List Nat) : (rankOrder h l).length = l.length := (sortBy_perm _ l).length_eq
theorem nodup_rankOrder {h : Nat} {l : List Nat} : (rankOrder h l).Nodup ↔ l.Nodup := (sortBy_perm _ l).nodup_iff

/-- R181: different strips stand in the order of their keys. -/
theorem pairwise_rankOrder (h : Nat) {l : List Nat} (hn : l.Nodup) (hl : ∀ q ∈ l, q < 32) :
    (rankOrder h l).Pairwise (fun p q => stripKey h p < stripKey h q) := by
  refine ((sortBy_pairwise (stripKey h) l).and (nodup_rankOrder (h := h).2 hn)).imp_of_mem ?_
  intro p q hp hq ⟨hle, hne⟩
  exact hle.lt_of_ne fun he => hne (eq_of_stripKey_eq (hl p (mem_rankOrder.1 hp)) (hl q (mem_rankOrder.1 hq)) he)

/-! ### The values of strips (R183) -/

section
variable {α : Type} (zero : α)

@[simp] theorem length_stripValues (old : List Nat) (vals : List α) (q : Nat) : (stripValues zero old vals q).length = 16 := by
  unfold stripValues
  split <;> simp

theorem map_getD_range {l : List α} {n : Nat} (h : l.length = n) : (List.range n).map (fun m => l.getD m zero) = l := by
  refine List.ext_getElem (by simp [h]) fun m h1 h2 => ?_
  simp [h2]

/-- R183: of blocks of sixteen values in the order of a list, the values at a strip's place are those of its block. -/
theorem getD_flatMap_place {f : Nat → List α} (hf : ∀ q, (f q).length = 16) {q m : Nat} (hm : m < 16) : ∀ {new : List Nat} {r : Nat},
    new.idxOf? q = some r → (new.flatMap f).getD (16 * r + m) zero = (f q).getD m zero := by
  intro new
  induction new with
  | nil => intro r h; cases h
  | cons p new ih =>
    intro r h
    rw [List.idxOf?_cons] at h
    rw [List.flatMap_cons]
    by_cases hp : p = q
    · obtain rfl : 0 = r := by simpa [hp] using h
      rw [Nat.mul_zero, Nat.zero_add, List.getD_append _ _ _ _ (by rw [hf]; exact hm), hp]
    · obtain ⟨r', hr', rfl⟩ : ∃ r', new.idxOf? q = some r' ∧ r' + 1 = r := by simpa [hp] using h
      rw [List.getD_append_right _ _ _ _ (by rw [hf]; omega), hf, ← ih hr']
      congr 1
      omega

/-- R183: a strip that is held afterwards has the values that it had, or zeros where it was not held. -/
theorem stripValues_rerank (old : List Nat) {new : List Nat} (vals : List α) {q : Nat} (hq : q ∈ new) :
    stripValues zero new (rerank zero old new vals) q = stripValues zero old vals q := by
  obtain ⟨r, hr⟩ : ∃ r, new.idxOf? q = some r := by
    rw [← Option.isSome_iff_exists]
    simpa using hq
  have hlen := length_stripValues zero old vals
  rw [stripValues, hr, ← map_getD_range zero (hlen q)]
  exact List.map_congr_left fun m hm => getD_flatMap_place zero hlen (List.mem_range.1 hm) hr
end

/-! ### Registers changed one by one -/

/-- Elements changed one by one are each changed once. -/
theorem getElem_foldl_change {α : Type} {n : Nat} (f : α → α) (j : Fin n) (l : List (Fin n)) (hl : l.Nodup) : ∀ v : Vector α n,
    (l.foldl (fun v (i : Fin n) => v.set i (f v[i])) v)[j] = if j ∈ l then f v[j] else v[j] := by
  induction l with
  | nil => intro v; simp
  | cons i l ih =>
    intro v
    obtain ⟨hi, hl⟩ := List.nodup_cons.1 hl
    rw [List.foldl_cons, ih hl]
    by_cases hj : j = i
    · subst hj
      simp [hi]
    · have hne : i.val ≠ j.val := fun e => hj (Fin.ext e.symm)
      simp [hj, hne]

theorem getElem_mapRegs16 (f : List (BitVec 32) → List (BitVec 32)) (v : Vector (List (BitVec 32)) 16) (r : Fin 16) :
    (mapRegs16 f v)[r] = f v[r] := by
  have hr : r ∈ slotNumbers := by revert r; decide
  exact (getElem_foldl_change f r slotNumbers (by decide) v).trans (if_pos hr)
theorem getElem_mapRegs4 (f : List Bool → List Bool) (v : Vector (List Bool) 4) (r : Fin 4) : (mapRegs4 f v)[r] = f v[r] := by
  have hr : r ∈ ([0, 1, 2, 3] : List (Fin 4)) := by revert r; decide
  exact (getElem_foldl_change f r [0, 1, 2, 3] (by decide) v).trans (if_pos hr)

section
variable (t : Thread) (n : Nat) {new : List Nat} {q : Nat} (hq : q ∈ new)
include hq

theorem Thread.stripValues_reclaim (r : Fin 16) :
    stripValues 0 new (t.reclaim n new).v[r] q = stripValues 0 t.claim.strips t.v[r] q := by
  have h : (t.reclaim n new).v[r] = rerank 0 t.claim.strips new t.v[r] := getElem_mapRegs16 _ t.v r
  rw [h, stripValues_rerank 0 _ _ hq]
theorem Thread.stripValues_reclaim_vp (r : Fin 4) :
    stripValues false new (t.reclaim n new).vp[r] q = stripValues false t.claim.strips t.vp[r] q := by
  have h : (t.reclaim n new).vp[r] = rerank false t.claim.strips new t.vp[r] := getElem_mapRegs4 _ t.vp r
  rw [h, stripValues_rerank false _ _ hq]
end

end Sys2Proof.Machine
end

section
/-! Renegotiation (R180 to R182), and the claim instructions (R195). -/

namespace Sys2Proof.Machine

/-! ### The strips held after a renegotiation (R182) -/

theorem homeStrip_lt (c : Nat) (i : Fin 16) : homeStrip c i < 32 := by
  have := i.isLt
  unfold homeStrip
  omega

/-- R182: the held strips that stay: the first of those that are not under recall. -/
def State.stripsKept (s : State) (c : Nat) (i : Fin 16) (held : List Nat) (n : Nat) : List Nat :=
  (rankOrder (homeStrip c i) (held.filter (fun q => !s.recalled c i q))).take n
/-- R182: the strips of free pairs that nobody wants and that are not kept, in rank order. -/
def State.stripsFree (s : State) (c : Nat) (i : Fin 16) (kept : List Nat) : List Nat :=
  (rankOrder (homeStrip c i) (List.range 32)).filter (fun q => !kept.contains q && s.pairFree c i q && !s.wanted c q (homeWin i))
/-- R182: the strips that are taken to those that are kept. -/
def State.stripsTaken (s : State) (c : Nat) (i : Fin 16) (held : List Nat) (n : Nat) : List Nat :=
  (s.stripsFree c i (s.stripsKept c i held n)).take (n - (s.stripsKept c i held n).length)

section
variable {s : State} {c : Nat} {i : Fin 16} {held : List Nat} {n q : Nat}

theorem State.negotiated_eq : s.negotiated c i held n = rankOrder (homeStrip c i) (s.stripsKept c i held n ++ s.stripsTaken c i held n) := rfl

theorem State.mem_negotiated : q ∈ s.negotiated c i held n ↔ q ∈ s.stripsKept c i held n ∨ q ∈ s.stripsTaken c i held n := by
  rw [State.negotiated_eq, mem_rankOrder, List.mem_append]

theorem State.of_mem_stripsKept (h : q ∈ s.stripsKept c i held n) : q ∈ held ∧ s.recalled c i q = false := by
  simpa using mem_rankOrder.1 (List.mem_of_mem_take h)

theorem State.mem_stripsFree {kept : List Nat} : q ∈ s.stripsFree c i kept ↔
    q ∉ kept ∧ q < 32 ∧ s.pairFree c i q = true ∧ s.wanted c q (homeWin i) = false := by
  simp only [State.stripsFree, List.mem_filter, mem_rankOrder, List.mem_range, Bool.and_eq_true, Bool.not_eq_true',
    List.contains_eq_mem, decide_eq_false_iff_not]
  tauto

theorem State.of_mem_stripsTaken (h : q ∈ s.stripsTaken c i held n) :
    q ∉ s.stripsKept c i held n ∧ q < 32 ∧ s.pairFree c i q = true ∧ s.wanted c q (homeWin i) = false :=
  State.mem_stripsFree.1 (List.mem_of_mem_take h)

theorem State.length_stripsKept_le : (s.stripsKept c i held n).length ≤ n := List.length_take_le ..

theorem State.length_negotiated :
    (s.negotiated c i held n).length = (s.stripsKept c i held n).length + (s.stripsTaken c i held n).length := by
  rw [State.negotiated_eq, length_rankOrder, List.length_append]

/-- R182: at most the strips asked for. -/
theorem State.length_negotiated_le : (s.negotiated c i held n).length ≤ n := by
  have hk : (s.stripsKept c i held n).length ≤ n := State.length_stripsKept_le
  have ht : (s.stripsTaken c i held n).length ≤ n - (s.stripsKept c i held n).length := List.length_take_le ..
  rw [State.length_negotiated]
  omega

/-- R180, R182: a strip is held afterwards because it stays or because it was free. -/
theorem State.of_mem_negotiated (h : q ∈ s.negotiated c i held n) : (q ∈ held ∧ s.recalled c i q = false) ∨
    (q < 32 ∧ s.pairFree c i q = true ∧ s.wanted c q (homeWin i) = false) :=
  (State.mem_negotiated.1 h).imp State.of_mem_stripsKept fun h => (State.of_mem_stripsTaken h).2

theorem State.pairwise_stripsFree (kept : List Nat) :
    (s.stripsFree c i kept).Pairwise (fun p q => stripKey (homeStrip c i) p < stripKey (homeStrip c i) q) :=
  (pairwise_rankOrder _ List.nodup_range fun _ => List.mem_range.1).filter _

/-- R182: a free strip is not taken only where as many as asked for are held, each of them kept or with a smaller key. -/
theorem State.free_not_negotiated (hq : q < 32) (hf : s.pairFree c i q = true) (hw : s.wanted c q (homeWin i) = false)
    (hn : q ∉ s.negotiated c i held n) : (s.negotiated c i held n).length = n ∧ ∀ p ∈ s.negotiated c i held n,
      (p ∈ held ∧ s.recalled c i p = false) ∨ stripKey (homeStrip c i) p < stripKey (homeStrip c i) q := by
  rw [State.mem_negotiated, not_or] at hn
  obtain ⟨hkept, htaken⟩ := hn
  obtain ⟨hlen, hbefore⟩ := take_of_not_mem (s.pairwise_stripsFree _) (State.mem_stripsFree.2 ⟨hkept, hq, hf, hw⟩) htaken
  have hk : (s.stripsKept c i held n).length ≤ n := State.length_stripsKept_le
  refine ⟨?_, fun p hp => (State.mem_negotiated.1 hp).imp State.of_mem_stripsKept (hbefore p)⟩
  rw [State.length_negotiated, State.stripsTaken, hlen]
  omega

section
variable (hnd : held.Nodup)
include hnd

theorem State.nodup_negotiated : (s.negotiated c i held n).Nodup := by
  rw [State.negotiated_eq, nodup_rankOrder]
  refine List.nodup_append'.2 ⟨?_, ?_, fun q hk ht => (State.of_mem_stripsTaken ht).1 hk⟩
  · exact (nodup_rankOrder.2 (hnd.filter _)).sublist (List.take_sublist ..)
  · exact ((nodup_rankOrder.2 List.nodup_range).filter _).sublist (List.take_sublist ..)

variable (hlt : ∀ q ∈ held, q < 32)
include hlt

/-- R182: a held strip is dropped only where as many as asked for are kept, each with a smaller key. -/
theorem State.stays_not_kept (hq : q ∈ held) (hr : s.recalled c i q = false) (hn : q ∉ s.stripsKept c i held n) :
    (s.stripsKept c i held n).length = n ∧ ∀ p ∈ s.stripsKept c i held n,
      stripKey (homeStrip c i) p < stripKey (homeStrip c i) q := by
  refine take_of_not_mem (pairwise_rankOrder _ (hnd.filter _) fun p hp => hlt p (List.mem_filter.1 hp).1) ?_ hn
  rw [mem_rankOrder, List.mem_filter, hr]
  exact ⟨hq, rfl⟩

theorem State.stays_not_negotiated (hq : q ∈ held) (hr : s.recalled c i q = false) (hn : q ∉ s.negotiated c i held n) :
    (s.negotiated c i held n).length = n ∧ ∀ p ∈ s.negotiated c i held n,
      (p ∈ held ∧ s.recalled c i p = false) ∧ stripKey (homeStrip c i) p < stripKey (homeStrip c i) q := by
  obtain ⟨hlen, hbefore⟩ := State.stays_not_kept hnd hlt hq hr fun hk => hn (State.mem_negotiated.2 (.inl hk))
  have hnone : s.stripsTaken c i held n = [] := by rw [State.stripsTaken, hlen, Nat.sub_self, List.take_zero]
  refine ⟨by rw [State.length_negotiated, hlen, hnone]; rfl, fun p hp => ?_⟩
  rw [State.mem_negotiated, hnone, or_iff_left List.not_mem_nil] at hp
  exact ⟨State.of_mem_stripsKept hp, hbefore p hp⟩

omit hnd in
theorem State.lt_of_mem_negotiated (h : q ∈ s.negotiated c i held n) : q < 32 :=
  (State.of_mem_negotiated h).elim (fun h => hlt q h.1) (fun h => h.1)

theorem State.pairwise_negotiated :
    (s.negotiated c i held n).Pairwise (fun p q => stripKey (homeStrip c i) p < stripKey (homeStrip c i) q) := by
  refine pairwise_rankOrder _ (nodup_rankOrder.1 (State.nodup_negotiated hnd)) fun q hq => ?_
  exact State.lt_of_mem_negotiated hlt (mem_rankOrder.2 hq)

/-- R184: the home strip is never under recall, and comes first. -/
theorem State.home_mem_negotiated (hh : homeStrip c i ∈ held) (hn : 0 < n) : homeStrip c i ∈ s.negotiated c i held n := by
  by_contra hne
  obtain ⟨hlen, hbefore⟩ := State.stays_not_negotiated hnd hlt hh (by simp [State.recalled]) hne
  obtain ⟨p, hp⟩ := List.exists_mem_of_length_pos (hlen.symm ▸ hn)
  exact absurd (hbefore p hp).2 (stripKey_home_le _ p).not_gt
end
end

/-! ### The claim instructions (R195) -/

section
variable (t : Thread) (n : Nat) (new : List Nat) (c : Nat) (i : Fin 16)
theorem Thread.reclaim_lineCount : (t.reclaim n new).lineCount = t.lineCount := rfl
theorem Thread.homeClaim_lineCount : (t.homeClaim c i).lineCount = t.lineCount := rfl
/-- The claim with which a thread enters a slot does not depend on the one that it had. -/
theorem Thread.homeClaim_reclaim : (t.reclaim n new).homeClaim c i = t.homeClaim c i := rfl
end

section
variable {s : State} (hs : s.thread.isSome = true)

/-- R182: the strips that the issuing thread holds after a renegotiation, CP set. -/
def State.reclaimed (s : State) (n : Nat) : List Nat := (s.setTh s.th.marked).negotiated s.cur s.slot s.th.claim.strips n

/-- R195: what `vclaim` and `vrenew` do once the thread is idle. -/
theorem State.claimTo_eq (n : Nat) (d : Field) : s.claimTo n d = ((s.setTh (s.th.marked.reclaim n (s.reclaimed n))).setReg d
    (BitVec.ofNat 64 (16 * (s.reclaimed n).length))).advance := by
  have h : (s.setTh s.th.present).renegotiate s.cur s.slot n = s.setTh (s.th.marked.reclaim n (s.reclaimed n)) := by
    have ht : (s.setTh s.th.present).threadAt s.cur s.slot = some s.th.present := State.thread_setTh s _
    rw [State.renegotiate, ht]
    exact State.setTh_setTh ..
  rw [State.claimTo, h, State.th_setTh]
  rfl

include hs in
/-- R182: the renegotiation of the issuing thread. -/
theorem State.renegotiate_self (n : Nat) : s.renegotiate s.cur s.slot n =
    s.setTh (s.th.reclaim n (s.negotiated s.cur s.slot s.th.claim.strips n)) := by
  have ht : s.threadAt s.cur s.slot = some s.th := State.thread_eq_th hs
  rw [State.renegotiate, ht]
  rfl

/-- R183: a thread whose vector instructions are over and whose loads to vector registers have landed. -/
theorem State.resolved_vector (hb : s.th.beats = none) (hp : ∀ p ∈ s.th.pending, ∃ f, p.dst = .scalar f) :
    s.resolved s.cur s.th .vector = true := by
  have hall : (s.th.pending.all fun p => match p.dst with | .vector _ => false | .scalar _ => true) = true := by
    rw [List.all_eq_true]
    intro p h
    obtain ⟨f, hf⟩ := hp p h
    rw [hf]
  unfold State.resolved
  rw [hb]
  exact hall
end

section
variable {s : State} (hm : statM s.th.stat = false) (hr : s.resolved s.cur s.th .vector = true)
include hm hr

theorem exec_vclaim_idle {a : Field} (h1 : 1 ≤ (s.reg a).toNat) (h32 : (s.reg a).toNat ≤ 32) (d : Field) :
    exec (.vclaim d a) s = issue s (s.claimTo (s.reg a).toNat d) := by
  refine congrArg (issue s) ((if_neg (ne_true_of_eq_false hm)).trans ((if_neg ?_).trans (State.await_resolved _ hr)))
  omega
theorem exec_vrenew_idle (d : Field) : exec (.vrenew d) s = issue s (s.claimTo s.th.claim.req d) :=
  congrArg (issue s) ((if_neg (ne_true_of_eq_false hm)).trans (State.await_resolved _ hr))
/-- R195: `vfree` leaves the claim with which a thread enters its slot. -/
theorem exec_vfree_idle (hs : s.thread.isSome = true) : exec .vfree s = issue s (s.setTh (s.th.homeClaim s.cur s.slot)).advance := by
  refine congrArg (issue s) ((if_neg (ne_true_of_eq_false hm)).trans ((State.await_resolved _ hr).trans ?_))
  dsimp only
  rw [State.renegotiate_self hs, State.th_setTh, State.setTh_setTh, Thread.homeClaim_reclaim]
end

/-- Settles O37: the strips of a renegotiation are `negotiated`, ordered by `stripKey`; a register's values follow their strips. -/
theorem claims : Obligations.Claims := by
  intro s d a hs idle old base home apart before stays free renegotiates
  have hkey {p q : Nat} (hp : p < 32) (hq : q < 32) : stripKey home p < stripKey home q ↔ before p q := by
    have h := stripKey_lt_iff (homeStrip_lt s.cur s.slot) hp hq
    simp only [absDiff_eq] at h
    exact h
  have hclaimTo (hnd : old.Nodup) (hlt : ∀ q ∈ old, q < 32) (n : Nat) : renegotiates n (s.claimTo n d) := by
    have hsmall {q : Nat} (h : q ∈ s.reclaimed n) : q < 32 := State.lt_of_mem_negotiated hlt h
    rw [State.claimTo_eq]
    refine ⟨s.th.marked.reclaim n (s.reclaimed n), s.reclaimed n, rfl, rfl, State.length_negotiated_le, State.nodup_negotiated hnd,
      fun q hq => State.of_mem_negotiated hq, ?_, State.home_mem_negotiated hnd hlt, fun q hq hn => ?_, fun q hq hn => ?_,
      fun q hq => ⟨fun r => ?_, fun r => ?_⟩, ?_⟩
    · exact (State.pairwise_negotiated hnd hlt).imp_of_mem fun hp hq h => (hkey (hsmall hp) (hsmall hq)).1 h
    · obtain ⟨hlen, hall⟩ := State.stays_not_negotiated hnd hlt hq.1 hq.2 hn
      exact ⟨hlen, fun p hp => ⟨(hall p hp).1, (hkey (hsmall hp) (hlt q hq.1)).1 (hall p hp).2⟩⟩
    · obtain ⟨hq32, hpair, hwanted⟩ := hq
      obtain ⟨hlen, hall⟩ := State.free_not_negotiated hq32 hpair hwanted hn
      exact ⟨hlen, fun p hp => (hall p hp).imp_right (hkey (hsmall hp) hq32).1⟩
    · exact s.th.marked.stripValues_reclaim n hq r
    · exact s.th.marked.stripValues_reclaim_vp n hq r
    · exact ended_advance_of d _ ((Thread.reclaim_g ..).trans (Thread.marked_g _)) ((Thread.reclaim_pc ..).trans (Thread.marked_pc _))
        ((Thread.reclaim_lineCount ..).trans (Thread.marked_lineCount _))
  have hidle (h : idle) : s.resolved s.cur s.th .vector = true := State.resolved_vector h.1 h.2
  refine ⟨fun hm => ⟨?_, ?_, ?_⟩, fun hn => ?_, fun hi hm hnd hlt => ⟨fun h1 h32 => ?_, ?_, ?_⟩⟩
  · exact completes_of_issue hs (congrArg (issue s) (if_pos hm)) (trapped_trap hs 18)
  · exact completes_of_issue hs (congrArg (issue s) (if_pos hm)) (trapped_trap hs 18)
  · exact completes_of_issue hs (congrArg (issue s) (if_pos hm)) (trapped_trap hs 18)
  · refine completes_of_issue hs (congrArg (issue s) ?_) (trapped_trap hs 18)
    exact (ite_congr rfl (fun _ => rfl) (fun _ => if_pos hn)).trans (ite_self _)
  · exact completes_of_issue hs (exec_vclaim_idle hm (hidle hi) h1 h32 d) (hclaimTo hnd hlt _)
  · exact completes_of_issue hs (exec_vrenew_idle hm (hidle hi) d) (hclaimTo hnd hlt _)
  · exact completes_of_issue hs (exec_vfree_idle hm (hidle hi) hs)
      (ended_advance_of 0x1F 0 (Thread.homeClaim_g ..) (Thread.homeClaim_pc ..) (Thread.homeClaim_lineCount ..))

end Sys2Proof.Machine
end

section
/-! The elements of a vector access and the checks over all of them (R196, R197). -/

namespace Sys2Proof.Machine

/-! ### The first check that fails -/

/-- The kind of the first of some checks that an element fails, and the first element that fails it. -/
def firstFailing {α : Type} (cs : List (Nat × (α → Bool))) (es : List α) : Option (Nat × α) :=
  cs.findSome? (fun c => (es.find? c.2).map (Prod.mk c.1))

/-- What a check decides, and what it leaves to those after it. -/
theorem eq_firstFailing_cons {α : Type} {k : Nat} {bad : α → Bool} {cs : List (Nat × (α → Bool))} {es : List α} {o : Option (Nat × α)}
    (hsome : ∀ v, es.find? bad = some v → o = some (k, v)) (hnone : es.find? bad = none → o = firstFailing cs es) :
    o = firstFailing ((k, bad) :: cs) es := by
  rw [firstFailing, List.findSome?_cons]
  cases h : es.find? bad with
  | some v => exact hsome v h
  | none => exact hnone h

section
variable {α : Type} {before after : List (Nat × (α → Bool))} {es : List α} (h : ∀ c ∈ before, ∀ v ∈ es, c.2 v = false)
include h

theorem firstFailing_none : firstFailing before es = none := by
  refine List.findSome?_eq_none_iff.2 fun c hc => ?_
  rw [List.find?_eq_none.2 fun v hv => ne_true_of_eq_false (h c hc v hv)]
  rfl

theorem firstFailing_some {k : Nat} {bad : α → Bool} {p r : List α} {v : α} (hes : es = p ++ v :: r) (hp : ∀ u ∈ p, bad u = false)
    (hv : bad v = true) : firstFailing (before ++ (k, bad) :: after) es = some (k, v) := by
  have hfind : es.find? bad = some v := by
    rw [List.find?_eq_some_iff_append]
    exact ⟨hv, p, r, hes, fun u hu => by rw [hp u hu]; rfl⟩
  have hnone : before.findSome? (fun c => (es.find? c.2).map (Prod.mk c.1)) = none := firstFailing_none h
  rw [firstFailing, List.findSome?_append, hnone, List.findSome?_cons, hfind]
  rfl
end

/-! ### The elements and their checks (R196, R197) -/

/-- R196: the accesses of some elements, by their offsets and what a store writes. -/
def velems (act : List Nat) (off : Nat → Int) (data : Nat → BitVec 32) : List VElem := act.map (fun e => ⟨e, off e, data e⟩)

/-- R197: where an offset in a segment lies in its space. -/
def State.vplace (s : State) (seg : Fin 8) (o : Int) : Nat := (s.th.kb[seg]).toNat + o.toNat
/-- R135, R197: the four bytes at an offset are inside the segment and its space. -/
def State.vfits (s : State) (seg : Fin 8) (o : Int) : Prop :=
  let kind := (s.th.kd[seg]).toNat / 2 ^ 62
  0 ≤ o ∧ o + 3 ≤ ((s.th.kd[seg]).toNat % 2 ^ 57 : Nat) ∧ (kind = 1 → s.vplace seg o + 3 < 2 ^ 57) ∧
    (kind = 2 → s.vplace seg o + 3 < 2 ^ 30 ∧ s.coreOk s.th.ctx (s.vplace seg o / 2 ^ 18) = true ∧
      s.coreOk s.th.ctx ((s.vplace seg o + 3) / 2 ^ 18) = true)
/-- R197: the segment has a space, and its descriptor grants what the instruction does. -/
def State.vgranted (s : State) (seg : Fin 8) (write : Bool) : Prop :=
  (kdKind s.th.kd[seg] = 1 ∨ kdKind s.th.kd[seg] = 2) ∧ (if write then kdW s.th.kd[seg] else kdR s.th.kd[seg]) = true

/-- R197, check 3 of an element. -/
def State.vlimit (s : State) (seg : Fin 8) : VElem → Bool := fun v =>
  decide (v.off < 0 ∨ v.off + 3 > kdLimit s.th.kd[seg]) ||
    (if kdKind s.th.kd[seg] = 1 then decide (s.vplace seg v.off + 3 ≥ 2 ^ 57)
     else decide (s.vplace seg v.off + 3 ≥ 2 ^ 30) || !s.coreOk s.th.ctx (s.vplace seg v.off / 2 ^ 18) ||
      !s.coreOk s.th.ctx ((s.vplace seg v.off + 3) / 2 ^ 18))
/-- R197: an element of another core's store, one that is not aligned, and a store into the closed list area. -/
def State.vremote (s : State) (seg : Fin 8) : VElem → Bool := fun v => kdKind s.th.kd[seg] == 2 && s.vplace seg v.off / 2 ^ 18 != s.cur
def State.vmisaligned (s : State) (seg : Fin 8) : VElem → Bool := fun v => s.vplace seg v.off % 4 != 0
def State.vclosed (s : State) (seg : Fin 8) (write : Bool) : VElem → Bool := fun v =>
  write && kdKind s.th.kd[seg] == 2 && listClosed (s.core s.cur) (s.vplace seg v.off % 2 ^ 18) 4

section
variable {s : State} {seg : Fin 8} {write : Bool}

/-- R197: the checks over all elements come one after another. -/
theorem State.vcheck_eq_firstFailing (h : s.vgranted seg write) (es : List VElem) : s.vcheck seg write es = firstFailing
    [(kSegLimit, s.vlimit seg), (kVecRemote, s.vremote seg), (kMisaligned, s.vmisaligned seg), (kSegRights, s.vclosed seg write)] es := by
  obtain ⟨hk, hg⟩ := h
  cases es with
  | nil => rfl
  | cons v0 r =>
    have hbad : ¬(kdKind s.th.kd[seg] = 0 ∨ kdKind s.th.kd[seg] = 3 ∨
        (!(if write then kdW s.th.kd[seg] else kdR s.th.kd[seg])) = true) := by
      rw [hg]
      generalize kdKind s.th.kd[seg] = kind at hk
      simp only [Bool.not_true, Bool.false_eq_true, or_false]
      omega
    unfold State.vcheck State.vlimit State.vremote State.vmisaligned State.vclosed State.vplace
    dsimp only
    rw [if_neg hbad]
    refine eq_firstFailing_cons (fun v h => by simp only [h]) fun h => ?_
    simp only [h]
    refine eq_firstFailing_cons (fun v h => by simp only [h]) fun h => ?_
    simp only [h]
    refine eq_firstFailing_cons (fun v h => by simp only [h]) fun h => ?_
    simp only [h]
    refine eq_firstFailing_cons (fun v h => by simp only [h]) fun h => ?_
    simp only [h]
    rfl

theorem State.vcheck_rights (h : ¬s.vgranted seg write) (v : VElem) (r : List VElem) : s.vcheck seg write (v :: r) = some (kSegRights, v) := by
  have hlt : kdKind s.th.kd[seg] < 4 := by
    rw [kdKind_eq]
    exact Nat.div_lt_of_lt_mul (s.th.kd[seg]).isLt
  have hbad : kdKind s.th.kd[seg] = 0 ∨ kdKind s.th.kd[seg] = 3 ∨
      (!(if write then kdW s.th.kd[seg] else kdR s.th.kd[seg])) = true := by
    by_contra hne
    simp only [not_or, Bool.not_eq_true', Bool.not_eq_false] at hne
    obtain ⟨h0, h3, hg⟩ := hne
    exact h ⟨by omega, hg⟩
  exact if_pos hbad

theorem State.vlimit_eq_false_iff (h : s.vgranted seg write) (v : VElem) : s.vlimit seg v = false ↔ s.vfits seg v.off := by
  have hkind := kdKind_eq s.th.kd[seg]
  have hlimit := kdLimit_eq s.th.kd[seg]
  unfold State.vlimit State.vfits
  rw [← hkind, hlimit]
  have hk := h.1
  generalize kdKind s.th.kd[seg] = kind at hk
  obtain rfl | rfl := hk <;>
    simp only [Bool.or_eq_false_iff, decide_eq_false_iff_not, Bool.not_eq_false', not_or, not_lt, not_le, ge_iff_le, gt_iff_lt, and_assoc,
      if_true, forall_const, OfNat.one_ne_ofNat, OfNat.ofNat_ne_one, if_false, false_imp_iff, and_true, true_and]

theorem State.vremote_eq_false_iff (v : VElem) :
    s.vremote seg v = false ↔ (kdKind s.th.kd[seg] = 2 → s.vplace seg v.off / 2 ^ 18 = s.cur) := by
  simp [State.vremote]

theorem State.vmisaligned_eq_false_iff (v : VElem) : s.vmisaligned seg v = false ↔ s.vplace seg v.off % 4 = 0 := by
  simp [State.vmisaligned]
end

/-! ### What the checks answer (R197) -/

theorem forall_mem_velems {act : List Nat} {off : Nat → Int} {data : Nat → BitVec 32} {P : VElem → Prop} :
    (∀ v ∈ velems act off data, P v) ↔ ∀ e ∈ act, P ⟨e, off e, data e⟩ := List.forall_mem_map

theorem velems_append {act p r : List Nat} {e : Nat} (off : Nat → Int) (data : Nat → BitVec 32) (h : act = p ++ e :: r) :
    velems act off data = velems p off data ++ ⟨e, off e, data e⟩ :: velems r off data := by
  rw [h, velems, List.map_append, List.map_cons]
  rfl

section
variable {s : State} {seg : Fin 8} {write : Bool} {act p r : List Nat} {e : Nat} {off : Nat → Int} (data : Nat → BitVec 32)
  (hg : s.vgranted seg write)
include hg

/-- R197: every active element passes the checks. -/
theorem State.vcheck_none (hfit : ∀ e ∈ act, s.vfits seg (off e))
    (hown : ∀ e ∈ act, kdKind s.th.kd[seg] = 2 → s.vplace seg (off e) / 2 ^ 18 = s.cur)
    (halign : ∀ e ∈ act, s.vplace seg (off e) % 4 = 0) (hopen : ∀ e ∈ act, s.vclosed seg write ⟨e, off e, data e⟩ = false) :
    s.vcheck seg write (velems act off data) = none := by
  rw [State.vcheck_eq_firstFailing hg]
  refine firstFailing_none ?_
  simp only [List.forall_mem_cons, forall_mem_velems]
  exact ⟨fun e he => (State.vlimit_eq_false_iff hg _).2 (hfit e he), fun e he => (State.vremote_eq_false_iff _).2 (hown e he),
    fun e he => (State.vmisaligned_eq_false_iff _).2 (halign e he), hopen, List.forall_mem_nil _⟩

variable (hact : act = p ++ e :: r)
include hact

theorem State.vcheck_limit (hp : ∀ e ∈ p, s.vfits seg (off e)) (he : ¬s.vfits seg (off e)) :
    s.vcheck seg write (velems act off data) = some (kSegLimit, ⟨e, off e, data e⟩) := by
  rw [State.vcheck_eq_firstFailing hg]
  refine firstFailing_some (before := []) (List.forall_mem_nil _) (velems_append off data hact) ?_ ?_
  · exact forall_mem_velems.2 fun e he => (State.vlimit_eq_false_iff hg _).2 (hp e he)
  · exact Bool.eq_true_of_not_eq_false fun h => he ((State.vlimit_eq_false_iff hg _).1 h)

variable (hfit : ∀ e ∈ act, s.vfits seg (off e))
include hfit

theorem State.vcheck_remote (hp : ∀ e ∈ p, s.vplace seg (off e) / 2 ^ 18 = s.cur) (hk : kdKind s.th.kd[seg] = 2)
    (he : s.vplace seg (off e) / 2 ^ 18 ≠ s.cur) : s.vcheck seg write (velems act off data) = some (kVecRemote, ⟨e, off e, data e⟩) := by
  rw [State.vcheck_eq_firstFailing hg]
  refine firstFailing_some (before := [(kSegLimit, s.vlimit seg)]) ?_ (velems_append off data hact) ?_ ?_
  · simp only [List.forall_mem_cons, forall_mem_velems]
    exact ⟨fun e he => (State.vlimit_eq_false_iff hg _).2 (hfit e he), List.forall_mem_nil _⟩
  · exact forall_mem_velems.2 fun e he => (State.vremote_eq_false_iff _).2 fun _ => hp e he
  · exact Bool.eq_true_of_not_eq_false fun h => he ((State.vremote_eq_false_iff _).1 h hk)

variable (hown : ∀ e ∈ act, kdKind s.th.kd[seg] = 2 → s.vplace seg (off e) / 2 ^ 18 = s.cur)
include hown

theorem State.vcheck_misaligned (hp : ∀ e ∈ p, s.vplace seg (off e) % 4 = 0) (he : s.vplace seg (off e) % 4 ≠ 0) :
    s.vcheck seg write (velems act off data) = some (kMisaligned, ⟨e, off e, data e⟩) := by
  rw [State.vcheck_eq_firstFailing hg]
  refine firstFailing_some (before := [(kSegLimit, s.vlimit seg), (kVecRemote, s.vremote seg)]) ?_ (velems_append off data hact) ?_ ?_
  · simp only [List.forall_mem_cons, forall_mem_velems]
    exact ⟨fun e he => (State.vlimit_eq_false_iff hg _).2 (hfit e he), fun e he => (State.vremote_eq_false_iff _).2 (hown e he),
      List.forall_mem_nil _⟩
  · exact forall_mem_velems.2 fun e he => (State.vmisaligned_eq_false_iff _).2 (hp e he)
  · exact Bool.eq_true_of_not_eq_false fun h => he ((State.vmisaligned_eq_false_iff _).1 h)

theorem State.vcheck_closed (halign : ∀ e ∈ act, s.vplace seg (off e) % 4 = 0)
    (hp : ∀ e ∈ p, s.vclosed seg write ⟨e, off e, data e⟩ = false) (he : s.vclosed seg write ⟨e, off e, data e⟩ = true) :
    s.vcheck seg write (velems act off data) = some (kSegRights, ⟨e, off e, data e⟩) := by
  rw [State.vcheck_eq_firstFailing hg]
  refine firstFailing_some (before := [(kSegLimit, s.vlimit seg), (kVecRemote, s.vremote seg), (kMisaligned, s.vmisaligned seg)]) ?_
    (velems_append off data hact) (forall_mem_velems.2 hp) he
  simp only [List.forall_mem_cons, forall_mem_velems]
  exact ⟨fun e he => (State.vlimit_eq_false_iff hg _).2 (hfit e he), fun e he => (State.vremote_eq_false_iff _).2 (hown e he),
    fun e he => (State.vmisaligned_eq_false_iff _).2 (halign e he), List.forall_mem_nil _⟩
end

end Sys2Proof.Machine
end

section
/-! The mould of the vector loads and stores (R196, R198), and accesses to the issuing core's own store. -/

namespace Sys2Proof.Machine

/-! ### The mould -/

/-- R198: a vector store, or a load to a register. -/
def State.vaccess (s : State) (write : Bool) (seg : Fin 8) (d : Field) (es : List VElem) : State :=
  if write then s.vstore seg es else s.vload seg d es

/-- R197: what a store of the issuing thread writes for an element; a load writes nothing. -/
def State.vdatum (s : State) (write : Bool) (d : Field) (e : Nat) : BitVec 32 := if write then s.velem d e else 0

section
variable {s : State} {x : BitVec 4} (d a b : Field) (imm : BitVec 17) (h : s.th.vdata = none)
include h

theorem State.asIssued_of_none (es : List VElem) : s.asIssued es = es := by rw [State.asIssued, h]

theorem exec_vectorStrided (x : BitVec 4) :
    let ea := s.reg a + imm.signExtend 64
    let off (e : Nat) : Int := (ea.toNat % 2 ^ 61 : Nat) + e * (if x.getLsbD 0 then (s.reg b).toInt else 4)
    exec (.vld x d a b imm) s = issue s (s.vaccess false (segIndex ea) d (velems (s.activeX x) off (s.vdatum false d))) ∧
    exec (.vst x d a b imm) s = issue s (s.vaccess true (segIndex ea) d (velems (s.activeX x) off (s.vdatum true d))) := by
  refine ⟨congrArg (fun es => issue s (s.vload _ d es)) (State.asIssued_of_none h _), ?_⟩
  refine congrArg (fun es => issue s (s.vstore _ es)) ((State.asIssued_of_none h _).trans ?_)
  exact List.map_map

theorem exec_vectorIndexed (x : BitVec 4) :
    let ea := s.reg a + imm.signExtend 64
    let off (e : Nat) : Int := (ea.toNat % 2 ^ 61 : Nat) + (s.velem b e).toInt
    exec (.vldx x d a b imm) s = issue s (s.vaccess false (segIndex ea) d (velems (s.activeX x) off (s.vdatum false d))) ∧
    exec (.vstx x d a b imm) s = issue s (s.vaccess true (segIndex ea) d (velems (s.activeX x) off (s.vdatum true d))) := by
  refine ⟨congrArg (fun es => issue s (s.vload _ d es)) (State.asIssued_of_none h _), ?_⟩
  refine congrArg (fun es => issue s (s.vstore _ es)) ((State.asIssued_of_none h _).trans ?_)
  exact List.map_map
end

theorem State.vaccess_load (s : State) (seg : Fin 8) (d : Field) (es : List VElem) : s.vaccess false seg d es = s.vload seg d es := rfl
theorem State.vaccess_store (s : State) (seg : Fin 8) (d : Field) (es : List VElem) : s.vaccess true seg d es = s.vstore seg es := rfl

/-- R197: the checks trap. -/
theorem State.vaccess_trap {s : State} {write : Bool} {seg : Fin 8} {es : List VElem} {k : Nat} {v : VElem}
    (h : s.vcheck seg write es = some (k, v)) (d : Field) :
    s.vaccess write seg d es = s.trapAt k (velemEa seg v) (if write then 5 else 4) := by
  cases write
  · simp only [State.vaccess, State.vload, h]; rfl
  · simp only [State.vaccess, State.vstore, h]; rfl

/-- R198: with no active element nothing is accessed. -/
theorem State.vaccess_nil (s : State) (write : Bool) (seg : Fin 8) (d : Field) : s.vaccess write seg d [] = s.vfinish false [] := by
  cases write
  · rfl
  · exact ite_self _

/-! ### Loads of the own store (R198) -/

/-- A fold that leaves its state and adds one value for each element. -/
theorem foldl_collect {α β σ : Type} {f : σ × List β → α → σ × List β} {g : α → β} {s : σ} {es : List α}
    (h : ∀ v ∈ es, ∀ l, f (s, l) v = (s, l ++ [g v])) : ∀ l, es.foldl f (s, l) = (s, l ++ es.map g) := by
  induction es with
  | nil => intro l; simp
  | cons v r ih =>
    obtain ⟨hv, hr⟩ := List.forall_mem_cons.1 h
    intro l
    rw [List.foldl_cons, hv, ih hr, List.map_cons, List.append_assoc, List.singleton_append]

/-- R92: a vector load of the issuing thread ends with its result outstanding. -/
theorem passed_vectorLoad (s : State) (r : Nat) (vals : List (Nat × Word)) (n : Nat) :
    Passed s (s.th.marked.pend (.vector r) vals n none) s.nextPc ((s.setTh s.th.present).finishLoad (.vector r) vals n none false) := by
  have h := passed_finishLoad (u := s.th.marked) ((OnlyThread.refl s).setTh s.th.present) (State.file_setTh_same s s.th.present rfl)
    (by rw [State.th_setTh]; exact Thread.kept_refl _) (by rw [State.th_setTh]; rfl) (.vector r) vals n none false none
  unfold State.nextPc at h
  rw [State.th_setTh] at h
  exact h

/-- R138: the number in the four bytes of the own store at an offset in a segment. -/
def State.ownWord (s : State) (seg : Fin 8) (o : Int) : Nat := (s.core s.cur).ls.num (s.vplace seg o % 2 ^ 18) 4

section
variable {s : State} {seg : Fin 8} {act : List Nat} {off : Nat → Int} {data : Nat → BitVec 32}

/-- R138, R198: the elements that a load of the own store reads. -/
theorem State.vload_own (hc : s.vcheck seg false (velems act off data) = none) (hk : kdKind s.th.kd[seg] = 2) (hne : act ≠ [])
    (hl : ∀ e ∈ act, listClosed (s.core s.cur) (s.vplace seg (off e) % 2 ^ 18) 4 = false)
    (hw : ∀ e ∈ act, s.unwatched (velemEa seg ⟨e, off e, data e⟩) 4 false) (d : Field) :
    s.vload seg d (velems act off data) = (s.setTh s.th.present).finishLoad (.vector (vreg d).val)
      (act.map (fun e => (e, BitVec.ofNat 64 (s.ownWord seg (off e))))) 0 none false := by
  have hempty : (velems act off data).isEmpty = false := by simpa [velems] using hne
  have hstep : ∀ v ∈ velems act off data, ∀ l : List (Nat × Word),
      (((s.lsRead (s.vplace seg v.off % 2 ^ 18) 4).1.watch (velemEa seg v) 4 false,
        l ++ [(v.e, BitVec.ofNat 64 (s.lsRead (s.vplace seg v.off % 2 ^ 18) 4).2)]) : State × List (Nat × Word)) =
      (s, l ++ [(v.e, BitVec.ofNat 64 (s.ownWord seg v.off))]) := by
    refine forall_mem_velems.2 fun e he l => ?_
    have hread : s.lsRead (s.vplace seg (off e) % 2 ^ 18) 4 = (s, s.ownWord seg (off e)) :=
      if_neg (ne_true_of_eq_false (hl e he))
    rw [hread, State.watch_of_unwatched (hw e he)]
  simp only [State.vload, hc, hempty, hk, if_true, Bool.false_eq_true, if_false]
  rw [foldl_collect hstep, velems, List.map_map]
  rfl
end

/-! ### Stores to the own store (R138, R198) -/

/-- Words written to a memory one after another, each at its place. -/
def Memory.putWords (m : Memory) (place val : Nat → Nat) (act : List Nat) : Memory := act.foldl (fun m e => m.putNum (place e) 4 (val e)) m

section
variable {place val : Nat → Nat} {act : List Nat}

theorem Memory.read_putWords_outside {y : Nat} (h : ∀ e ∈ act, y < place e ∨ place e + 4 ≤ y) :
    ∀ m : Memory, (m.putWords place val act).read y = m.read y := by
  induction act with
  | nil => exact fun m => rfl
  | cons e r ih =>
    obtain ⟨he, hr⟩ := List.forall_mem_cons.1 h
    exact fun m => (ih hr (m.putNum (place e) 4 (val e))).trans (Memory.read_putNum_outside m (val e) he)

/-- The bytes of a word that overlaps no other one. -/
theorem Memory.read_putWords_inside {e n : Nat} (he : e ∈ act) (hn : n < 4)
    (h : ∀ e' ∈ act, e' ≠ e → place e + 4 ≤ place e' ∨ place e' + 4 ≤ place e) :
    ∀ m : Memory, ((m.putWords place val act).read (place e + n)).toNat = val e / 256 ^ n % 256 := by
  induction act with
  | nil => exact absurd he List.not_mem_nil
  | cons a r ih =>
    obtain ⟨ha, hr⟩ := List.forall_mem_cons.1 h
    intro m
    by_cases hmem : e ∈ r
    · exact ih hmem hr (m.putNum (place a) 4 (val a))
    · obtain rfl : e = a := (List.mem_cons.1 he).resolve_right hmem
      have hout : ∀ e' ∈ r, place e + n < place e' ∨ place e' + 4 ≤ place e + n := fun e' he' => by
        have := hr e' he' fun hee => hmem (hee ▸ he')
        omega
      have hrest := Memory.read_putWords_outside (val := val) hout (m.putNum (place e) 4 (val e))
      exact (congrArg BitVec.toNat hrest).trans (Memory.read_putNum_inside m _ _ hn)
end

/-- A core with its local store replaced, once more. -/
theorem State.withLs_withLs (s : State) (m n : Memory) : (s.withLs m).withLs n = s.withLs n := by
  have hcore : (s.withLs m).core s.cur = { s.core s.cur with ls := m } := State.core_setCore_self ..
  have hcur : (s.withLs m).cur = s.cur := rfl
  rw [State.withLs, hcur, hcore]
  exact State.setCore_setCore ..
theorem State.ls_withLs (s : State) (m : Memory) : ((s.withLs m).core s.cur).ls = m :=
  congrArg CoreState.ls (State.core_setCore_self ..)
theorem State.th_withLs (s : State) (m : Memory) : (s.withLs m).th = s.th := by
  simp [State.th, State.thread, State.threadAt, State.withLs]
theorem State.unwatched_withLs {s : State} {ea : Word} {n : Nat} {write : Bool} (h : s.unwatched ea n write) (m : Memory) :
    (s.withLs m).unwatched ea n write := by
  have hcore : (s.withLs m).core s.cur = { s.core s.cur with ls := m } := State.core_setCore_self ..
  unfold State.unwatched
  rw [show (s.withLs m).cur = s.cur from rfl, hcore]
  exact h

/-- A local store replaced by itself. -/
theorem Passed.withLs_self {s t : State} {u : Thread} {pc : Word} (h : Passed s u pc t) : Passed (s.withLs (s.core s.cur).ls) u pc t := by
  have hcore (c : Nat) : (s.withLs (s.core s.cur).ls).core c = s.core c := by
    by_cases hc : c = s.cur
    · subst hc
      exact State.core_setCore_self ..
    · exact State.core_setCore_ne _ _ hc
  obtain ⟨hthread, hregs, hrest, hothers, hself, hslots⟩ := h
  refine ⟨hthread, fun f => (hregs f).trans ?_, ⟨hrest, fun c hc => (hothers c hc).trans (hcore c).symm, ?_, fun i hi => ?_⟩⟩
  · simp only [written, State.file, State.th_withLs]
    rw [show (s.withLs (s.core s.cur).ls).cur = s.cur from rfl, hcore]
  · rw [show (s.withLs (s.core s.cur).ls).cur = s.cur from rfl, hcore]
    exact hself
  · refine (hslots i hi).trans ?_
    unfold State.threadAt
    rw [show (s.withLs (s.core s.cur).ls).cur = s.cur from rfl, hcore]

section
variable {s : State} {seg : Fin 8} {off : Nat → Int} {data : Nat → BitVec 32}

/-- R138, R198: the own store after a vector store. -/
def State.storedWords (s : State) (seg : Fin 8) (act : List Nat) (off : Nat → Int) (data : Nat → BitVec 32) : Memory :=
  (s.core s.cur).ls.putWords (fun e => s.vplace seg (off e) % 2 ^ 18) (fun e => (data e).toNat) act

/-- One element of a vector store to the own store. -/
def State.putElem (s t : State) (seg : Fin 8) (v : VElem) : State :=
  (t.lsWrite (s.vplace seg v.off % 2 ^ 18) 4 v.data.toNat).watch (velemEa seg v) 4 true

theorem State.lsWrite_eq_withLs (s : State) (o n v : Nat) : s.lsWrite o n v = s.withLs ((s.core s.cur).ls.putNum o n v) := rfl

theorem State.putElem_self {v : VElem} (h : s.unwatched (velemEa seg v) 4 true) :
    s.putElem s seg v = s.withLs ((s.core s.cur).ls.putNum (s.vplace seg v.off % 2 ^ 18) 4 v.data.toNat) :=
  State.watch_of_unwatched (State.unwatched_withLs h _)
theorem State.putElem_withLs {v : VElem} (h : s.unwatched (velemEa seg v) 4 true) (m : Memory) :
    s.putElem (s.withLs m) seg v = s.withLs (m.putNum (s.vplace seg v.off % 2 ^ 18) 4 v.data.toNat) := by
  have hwrite : (s.withLs m).lsWrite (s.vplace seg v.off % 2 ^ 18) 4 v.data.toNat =
      s.withLs (m.putNum (s.vplace seg v.off % 2 ^ 18) 4 v.data.toNat) := by
    rw [State.lsWrite_eq_withLs, State.withLs_withLs, show (s.withLs m).cur = s.cur from rfl, State.ls_withLs]
  rw [State.putElem, hwrite, State.watch_of_unwatched (State.unwatched_withLs h _)]

theorem State.foldl_putElem {act : List Nat} (hw : ∀ e ∈ act, s.unwatched (velemEa seg ⟨e, off e, data e⟩) 4 true) : ∀ m : Memory,
    (velems act off data).foldl (fun t v => s.putElem t seg v) (s.withLs m) =
      s.withLs (m.putWords (fun e => s.vplace seg (off e) % 2 ^ 18) (fun e => (data e).toNat) act) := by
  induction act with
  | nil => exact fun m => rfl
  | cons e r ih =>
    obtain ⟨he, hr⟩ := List.forall_mem_cons.1 hw
    intro m
    rw [velems, List.map_cons, List.foldl_cons, State.putElem_withLs he]
    exact ih hr _

/-- R198: a vector store to the own store: its words in their places, nothing else. -/
theorem passed_vstore_own {act : List Nat} (hc : s.vcheck seg true (velems act off data) = none) (hk : kdKind s.th.kd[seg] = 2)
    (hw : ∀ e ∈ act, s.unwatched (velemEa seg ⟨e, off e, data e⟩) 4 true) :
    Passed (s.withLs (s.storedWords seg act off data)) s.th.marked s.nextPc (s.vstore seg (velems act off data)) := by
  have hstore : s.vstore seg (velems act off data) =
      ((velems act off data).foldl (fun t v => s.putElem t seg v) s).vfinish false [] := by
    simp only [State.vstore, hc, hk, if_true]
    rfl
  rw [hstore]
  cases act with
  | nil => exact (vectorEnded_vfinish s false []).withLs_self
  | cons e r =>
    obtain ⟨he, hr⟩ := List.forall_mem_cons.1 hw
    have hfold : (velems (e :: r) off data).foldl (fun t v => s.putElem t seg v) s = s.withLs (s.storedWords seg (e :: r) off data) := by
      rw [velems, List.map_cons, List.foldl_cons, State.putElem_self he]
      exact State.foldl_putElem hr _
    have h := vectorEnded_vfinish (s.withLs (s.storedWords seg (e :: r) off data)) false []
    unfold VectorEnded State.nextPc at h
    rw [State.th_withLs] at h
    rw [hfold]
    exact h
end

end Sys2Proof.Machine
end

section
/-! Vector loads and stores of device memory (R137, R140, R198). -/

namespace Sys2Proof.Machine

/-! ### Accesses with their numbers -/

/-- Accesses in their order, with rising sequence numbers. -/
def numbered : Nat → List Access → List Access
  | _, [] => []
  | n, a :: as => { a with seq := n } :: numbered (n + 1) as

theorem length_numbered (as : List Access) : ∀ n, (numbered n as).length = as.length := by
  induction as with
  | nil => exact fun n => rfl
  | cons a as ih => exact fun n => congrArg (· + 1) (ih (n + 1))

theorem map_seq_numbered (as : List Access) : ∀ n, (numbered n as).map (·.seq) = (List.range as.length).map (n + ·) := by
  induction as with
  | nil => exact fun n => rfl
  | cons a as ih =>
    intro n
    rw [numbered, List.map_cons, ih, List.length_cons, List.range_succ_eq_map, List.map_cons, List.map_map]
    refine congrArg (n :: ·) (List.map_congr_left fun k _ => ?_)
    simp only [Function.comp_apply]
    omega

/-- What does not depend on the sequence number. -/
theorem map_numbered {β : Type} {f : Access → β} (hf : ∀ (a : Access) n, f { a with seq := n } = f a) (as : List Access) :
    ∀ n, (numbered n as).map f = as.map f := by
  induction as with
  | nil => exact fun n => rfl
  | cons a as ih => exact fun n => congrArg₂ List.cons (hf a n) (ih (n + 1))

theorem map_numbered_map {α β : Type} {f : Access → β} (hf : ∀ (a : Access) n, f { a with seq := n } = f a) (g : α → Access) (l : List α)
    (n : Nat) : (numbered n (l.map g)).map f = l.map (f ∘ g) := (map_numbered hf _ n).trans List.map_map

/-- The state with accesses sent, and free choices made. -/
def State.sentAll (s : State) (as : List Access) (choices : Nat) : State :=
  { s with flight := s.flight ++ numbered s.nextId as, nextId := s.nextId + as.length, free := s.free + choices }

@[simp] theorem State.th_sentAll (s : State) (as : List Access) (j : Nat) : (s.sentAll as j).th = s.th := rfl
theorem State.sentAll_nil (s : State) : s.sentAll [] 0 = s := by simp [State.sentAll, numbered]

theorem State.sentAll_map {α : Type} (s : State) (acc : α → Access) (l : List α) : s.sentAll (l.map acc) 0 =
    { s with flight := s.flight ++ numbered s.nextId (l.map acc), nextId := s.nextId + l.length } := by simp [State.sentAll]

theorem numbered_append (as bs : List Access) : ∀ n, numbered n (as ++ bs) = numbered n as ++ numbered (n + as.length) bs := by
  induction as with
  | nil => exact fun n => rfl
  | cons a as ih =>
    intro n
    rw [List.cons_append, numbered, ih, numbered, List.length_cons, List.cons_append]
    congr 3
    omega

/-- One more access sent, and `k` more choices made. -/
theorem State.sentAll_concat (s : State) (as : List Access) (j k : Nat) (a : Access) :
    ({ s.sentAll as j with free := s.free + (j + k) } : State).send { a with seq := s.nextId + as.length } = s.sentAll (as ++ [a]) (j + k) := by
  simp [State.sentAll, State.send, numbered_append, numbered]
  omega

/-! ### Pages (R198) -/

section
variable {s : State} {seg : Fin 8} {act : List Nat} {off : Nat → Int} {data : Nat → BitVec 32} {write : Bool}

theorem State.needPages_hit {h : Nat → Home}
    (hh : ∀ e ∈ act, s.hit (clusterOf s.cur) s.th.ctx (s.vplace seg (off e)) write = some (h e)) (k : State → State) :
    s.needPages seg write (velems act off data) k = k s := by
  have hnone : (velems act off data).find? (fun v => (s.hit (clusterOf s.cur) s.th.ctx (s.vplace seg v.off) write).isNone) = none := by
    refine List.find?_eq_none.2 (forall_mem_velems.2 fun e he => ?_)
    simp [hh e he]
  unfold State.vplace at hnone
  simp only [State.needPages, hnone]

theorem State.needPages_miss
    (hh : ∃ e ∈ act, s.hit (clusterOf s.cur) s.th.ctx (s.vplace seg (off e)) write = none) (k : State → State) :
    ∃ q, s.needPages seg write (velems act off data) k =
      (s.setTh { s.th with walk := some q, vdata := some (act.map (fun e => (e, off e, data e))) }).park .walk := by
  obtain ⟨e, he, hmiss⟩ := hh
  have hsome : ((velems act off data).find?
      (fun v => (s.hit (clusterOf s.cur) s.th.ctx (s.vplace seg v.off) write).isNone)).isSome = true := by
    rw [List.find?_isSome]
    exact ⟨⟨e, off e, data e⟩, List.mem_map_of_mem he, by simp [hmiss]⟩
  obtain ⟨v, hv⟩ := Option.isSome_iff_exists.1 hsome
  have hdata : (velems act off data).map (fun v => (v.e, v.off, v.data)) = act.map (fun e => (e, off e, data e)) := by
    rw [velems, List.map_map]
    rfl
  unfold State.vplace at hv
  simp only [State.needPages, hv, hdata]
  exact ⟨_, rfl⟩

/-- R198: the home of an element whose page is translated. -/
theorem State.velemHome_of_hit {h : Home} {v : VElem}
    (hh : s.hit (clusterOf s.cur) s.th.ctx (s.vplace seg v.off) write = some h) : s.velemHome seg write v = h := by
  unfold State.vplace at hh
  rw [State.velemHome, hh]
  rfl
end

/-! ### Stores (R198) -/

section
variable {s : State} {seg : Fin 8} {act : List Nat} {off : Nat → Int} {data : Nat → BitVec 32} {h : Nat → Home}

/-- R198: the access of an element of a vector store. -/
def State.velemStore (s : State) (seg : Fin 8) (off : Nat → Int) (data : Nat → BitVec 32) (h : Nat → Home) (e : Nat) : Access :=
  s.storeAccess (h e) (velemEa seg ⟨e, off e, data e⟩) (s.vplace seg (off e)) 4 ((data e).zeroExtend 64)

section
variable {f : State → VElem → State} {acc : Nat → Access}
  (hf : ∀ e ∈ act, ∀ as, f (s.sentAll as 0) ⟨e, off e, data e⟩ = s.sentAll (as ++ [acc e]) 0)
include hf

theorem foldl_send_from : ∀ as, (velems act off data).foldl f (s.sentAll as 0) = s.sentAll (as ++ act.map acc) 0 := by
  induction act with
  | nil => exact fun as => by simp [velems]
  | cons e r ih =>
    obtain ⟨he, hr⟩ := List.forall_mem_cons.1 hf
    intro as
    have hrest := ih hr (as ++ [acc e])
    rw [List.append_assoc, List.singleton_append] at hrest
    rw [velems, List.map_cons, List.foldl_cons, he, List.map_cons]
    exact hrest

/-- A fold that sends one access for each element. -/
theorem foldl_send : (velems act off data).foldl f s = s.sentAll (act.map acc) 0 := by
  have h := foldl_send_from hf []
  rwa [s.sentAll_nil] at h
end

theorem State.vstore_device (hc : s.vcheck seg true (velems act off data) = none) (hk : kdKind s.th.kd[seg] = 1)
    (hh : ∀ e ∈ act, s.hit (clusterOf s.cur) s.th.ctx (s.vplace seg (off e)) true = some (h e))
    (hw : ∀ e ∈ act, s.unwatched (velemEa seg ⟨e, off e, data e⟩) 4 true) :
    s.vstore seg (velems act off data) = (s.sentAll (act.map (s.velemStore seg off data h)) 0).vfinish false [] := by
  have hne : ¬kdKind s.th.kd[seg] = 2 := by omega
  simp only [State.vstore, hc, if_neg hne]
  refine (State.needPages_hit hh _).trans (congrArg (State.vfinish · false []) (foldl_send fun e he as => ?_))
  have hwatch : (s.sentAll as 0).watch (velemEa seg ⟨e, off e, data e⟩) 4 true = s.sentAll as 0 :=
    State.watch_of_unwatched (s := s.sentAll as 0) (hw e he)
  have hhome : s.velemHome seg true ⟨e, off e, data e⟩ = h e := State.velemHome_of_hit (hh e he)
  simp only [hwatch, hhome]
  exact s.sentAll_concat as 0 0 (s.velemStore seg off data h e)
end

/-! ### Loads (R137, R198) -/

/-- R137: how the elements of a load through the constant cache are served: each is a line's number, or an access of its own. -/
inductive ConstServed (line : Nat → Word → Prop) (acc : Nat → Access) : List Nat → List (Nat × Word) → List Access → Prop
  | nil : ConstServed line acc [] [] []
  | hit {e : Nat} {x : Word} {es : List Nat} {vals : List (Nat × Word)} {as : List Access} (h : line e x)
      (r : ConstServed line acc es vals as) : ConstServed line acc (e :: es) ((e, x) :: vals) as
  | miss {e : Nat} {es : List Nat} {vals : List (Nat × Word)} {as : List Access}
      (r : ConstServed line acc es vals as) : ConstServed line acc (e :: es) vals (acc e :: as)

section
variable {line : Nat → Word → Prop} {acc : Nat → Access} {es : List Nat} {vals : List (Nat × Word)} {as : List Access}
  (h : ConstServed line acc es vals as)
include h

theorem ConstServed.line_of_mem : ∀ v ∈ vals, line v.1 v.2 := by
  induction h with
  | nil => exact List.forall_mem_nil _
  | hit hx _ ih => exact List.forall_mem_cons.2 ⟨hx, ih⟩
  | miss _ ih => exact ih

theorem ConstServed.subset : ∀ v ∈ vals, v.1 ∈ es := by
  induction h with
  | nil => exact List.forall_mem_nil _
  | hit _ _ ih => exact List.forall_mem_cons.2 ⟨List.mem_cons_self, fun v hv => List.mem_cons_of_mem _ (ih v hv)⟩
  | miss _ ih => exact fun v hv => List.mem_cons_of_mem _ (ih v hv)

/-- The elements that the cache serves, and those that are sent for, are the two parts of all of them, in their order. -/
theorem ConstServed.parts (hn : es.Nodup) : vals.map (·.1) = es.filter (fun e => vals.any (·.1 == e)) ∧
    as = (es.filter (fun e => !vals.any (·.1 == e))).map acc := by
  induction h with
  | nil => exact ⟨rfl, rfl⟩
  | @hit e x es vals as _ _ ih =>
    obtain ⟨he, hn⟩ := List.nodup_cons.1 hn
    obtain ⟨hvals, has⟩ := ih hn
    have hrest : ∀ a ∈ es, ((e, x) :: vals).any (·.1 == a) = vals.any (·.1 == a) := fun a ha => by
      have hne : e ≠ a := fun hea => he (hea ▸ ha)
      simp [hne]
    constructor
    · rw [List.filter_cons_of_pos (by simp), List.map_cons, hvals, List.filter_congr hrest]
    · rw [List.filter_cons_of_neg (by simp), has, List.filter_congr (fun a ha => congrArg not (hrest a ha))]
  | @miss e es vals as r ih =>
    obtain ⟨he, hn⟩ := List.nodup_cons.1 hn
    obtain ⟨hvals, has⟩ := ih hn
    have hnot : vals.any (·.1 == e) = false := by
      rw [List.any_eq_false]
      intro v hv
      have hne : v.1 ≠ e := fun hve => he (hve ▸ r.subset v hv)
      simp [hne]
    exact ⟨by rw [List.filter_cons_of_neg (by simp [hnot]), hvals],
      by rw [List.filter_cons_of_pos (by simp [hnot]), List.map_cons, has]⟩
end

section
variable {s : State} {seg : Fin 8} {act : List Nat} {off : Nat → Int} {data : Nat → BitVec 32} {h : Nat → Home}

/-- R198: the access of an element of a vector load; the cluster whose constant cache it fills. -/
def State.velemLoad (s : State) (seg : Fin 8) (off : Nat → Int) (data : Nat → BitVec 32) (h : Nat → Home) (cached : Option Nat) (e : Nat) : Access :=
  { s.mkAccess .load (h e) (velemEa seg ⟨e, off e, data e⟩) (s.vplace seg (off e)) 4 with
    ext := 2, result := some s.th.nextSeq, elem := e, cached := cached }

/-- R137, R162: the constant cache of the issuing core's cluster holds a number in the line of an element's home. -/
def State.holdsLine (s : State) (h : Nat → Home) (e : Nat) (x : Word) : Prop :=
  ∃ line, mapGet (s.cluster (clusterOf s.cur)).ccache (lineKey (h e)) = some line ∧
    x = BitVec.ofNat 64 (leNat ((line.drop ((h e).addr % 64)).take 4))

section
variable {f : State × List (Nat × Word) × Nat → VElem → State × List (Nat × Word) × Nat} {acc : Nat → Access}

section
variable (hf : ∀ e ∈ act, ∀ as l n, f (s.sentAll as 0, l, n) ⟨e, off e, data e⟩ = (s.sentAll (as ++ [acc e]) 0, l, n + 1))
include hf

theorem foldl_sendLoads_from :
    ∀ as l n, (velems act off data).foldl f (s.sentAll as 0, l, n) = (s.sentAll (as ++ act.map acc) 0, l, n + act.length) := by
  induction act with
  | nil => exact fun as l n => by simp [velems]
  | cons e r ih =>
    obtain ⟨he, hr⟩ := List.forall_mem_cons.1 hf
    intro as l n
    have hrest := ih hr (as ++ [acc e]) l (n + 1)
    rw [List.append_assoc, List.singleton_append, Nat.add_assoc, Nat.add_comm 1] at hrest
    rw [velems, List.map_cons, List.foldl_cons, he, List.map_cons]
    exact hrest

/-- A fold that sends one access for each element and counts it. -/
theorem foldl_sendLoads : (velems act off data).foldl f (s, [], 0) = (s.sentAll (act.map acc) 0, [], act.length) := by
  have h := foldl_sendLoads_from hf [] [] 0
  rwa [s.sentAll_nil, List.nil_append, Nat.zero_add] at h
end

section
variable {line : Nat → Word → Prop} (hf : ∀ e ∈ act, ∀ as j l n,
  (∃ x, line e x ∧ f (s.sentAll as j, l, n) ⟨e, off e, data e⟩ = (s.sentAll as (j + 1), l ++ [(e, x)], n)) ∨
  f (s.sentAll as j, l, n) ⟨e, off e, data e⟩ = (s.sentAll (as ++ [acc e]) (j + 1), l, n + 1))
include hf

theorem foldl_constLoads_from :
    ∀ as j l n, ∃ vals bs, ConstServed line acc act vals bs ∧
      (velems act off data).foldl f (s.sentAll as j, l, n) = (s.sentAll (as ++ bs) (j + act.length), l ++ vals, n + bs.length) := by
  induction act with
  | nil => exact fun as j l n => ⟨[], [], .nil, by simp [velems]⟩
  | cons e r ih =>
    obtain ⟨he, hr⟩ := List.forall_mem_cons.1 hf
    intro as j l n
    obtain ⟨x, hx, hstep⟩ | hstep := he as j l n
    · obtain ⟨vals, bs, hserved, hfold⟩ := ih hr as (j + 1) (l ++ [(e, x)]) n
      refine ⟨(e, x) :: vals, bs, .hit hx hserved, ?_⟩
      rw [List.append_assoc, List.singleton_append, Nat.add_assoc, Nat.add_comm 1] at hfold
      rw [velems, List.map_cons, List.foldl_cons, hstep]
      exact hfold
    · obtain ⟨vals, bs, hserved, hfold⟩ := ih hr (as ++ [acc e]) (j + 1) l (n + 1)
      refine ⟨vals, acc e :: bs, .miss hserved, ?_⟩
      rw [List.append_assoc, List.singleton_append, Nat.add_assoc, Nat.add_comm 1, Nat.add_assoc, Nat.add_comm 1] at hfold
      rw [velems, List.map_cons, List.foldl_cons, hstep]
      exact hfold

/-- A fold that makes one choice for each element, and takes its value from a line or sends its access. -/
theorem foldl_constLoads :
    ∃ vals as, ConstServed line acc act vals as ∧
      (velems act off data).foldl f (s, [], 0) = (s.sentAll as act.length, vals, as.length) := by
  have h := foldl_constLoads_from hf [] 0 [] 0
  simp only [s.sentAll_nil, List.nil_append, Nat.zero_add] at h
  exact h
end
end

/-- R198: what a vector load leaves once its elements are served or sent for. -/
def State.vloaded (d : Field) (r : State × List (Nat × Word) × Nat) : State :=
  (r.1.setTh r.1.th.present).finishLoad (.vector (vreg d).val) r.2.1 r.2.2 none false

theorem passed_vloaded (d : Field) (r : State × List (Nat × Word) × Nat) :
    Passed r.1 (r.1.th.marked.pend (.vector (vreg d).val) r.2.1 r.2.2 none) r.1.nextPc (State.vloaded d r) :=
  passed_vectorLoad r.1 (vreg d).val r.2.1 r.2.2

theorem State.watch_sentAll {ea : Word} (hw : s.unwatched ea 4 false) (as : List Access) (j : Nat) :
    (s.sentAll as j).watch ea 4 false = s.sentAll as j := State.watch_of_unwatched (s := s.sentAll as j) hw

variable (hc : s.vcheck seg false (velems act off data) = none) (hk : kdKind s.th.kd[seg] = 1) (hne : act ≠ [])
  (hh : ∀ e ∈ act, s.hit (clusterOf s.cur) s.th.ctx (s.vplace seg (off e)) false = some (h e))
  (hw : ∀ e ∈ act, s.unwatched (velemEa seg ⟨e, off e, data e⟩) 4 false)
include hc hk hne hh hw

theorem State.vload_device (hconst : s.th.kd[seg].getLsbD 57 = false) (d : Field) : s.vload seg d (velems act off data) =
    State.vloaded d (s.sentAll (act.map (s.velemLoad seg off data h none)) 0, [], act.length) := by
  have hempty : (velems act off data).isEmpty = false := by simpa [velems] using hne
  have hkd : kdConst s.th.kd[seg] = false := hconst
  have hk2 : ¬kdKind s.th.kd[seg] = 2 := by omega
  simp only [State.vload, hc, hempty, if_neg hk2, Bool.false_eq_true, if_false]
  refine (State.needPages_hit hh _).trans ?_
  simp only [hkd, Bool.false_and, Bool.false_eq_true, if_false]
  refine congrArg (State.vloaded d) (foldl_sendLoads fun e he as l n => ?_ : List.foldl _ (s, [], 0) _ = _)
  have hhome : s.velemHome seg false ⟨e, off e, data e⟩ = h e := State.velemHome_of_hit (hh e he)
  simp only [State.watch_sentAll (hw e he), hhome]
  exact congrArg (·, l, n + 1) (s.sentAll_concat as 0 0 (s.velemLoad seg off data h none e))

/-- R137: a load through the constant cache: some elements are served from its lines, the others sent for to fill it. -/
theorem State.vload_const (hconst : s.th.kd[seg].getLsbD 57 = true) (d : Field) : ∃ vals as,
    ConstServed (s.holdsLine h) (s.velemLoad seg off data h (some (clusterOf s.cur))) act vals as ∧
    s.vload seg d (velems act off data) = State.vloaded d (s.sentAll as act.length, vals, as.length) := by
  have hempty : (velems act off data).isEmpty = false := by simpa [velems] using hne
  have hkd : kdConst s.th.kd[seg] = true := hconst
  have hk2 : ¬kdKind s.th.kd[seg] = 2 := by omega
  simp only [State.vload, hc, hempty, if_neg hk2, Bool.false_eq_true, if_false]
  rw [State.needPages_hit hh]
  simp only [hkd, Bool.true_and, if_true]
  refine Exists.imp (fun vals => Exists.imp fun as => And.imp_right (congrArg (State.vloaded d)))
    (?_ : ∃ vals as, ConstServed (s.holdsLine h) (s.velemLoad seg off data h (some (clusterOf s.cur))) act vals as ∧
      List.foldl _ (s, [], 0) _ = (s.sentAll as act.length, vals, as.length))
  refine foldl_constLoads fun e he as j l n => ?_
  have hhome : s.velemHome seg false ⟨e, off e, data e⟩ = h e := State.velemHome_of_hit (hh e he)
  simp only [State.watch_sentAll (hw e he), hhome]
  split
  · next x hx =>
    split at hx
    · obtain ⟨line, hline, rfl⟩ := State.exists_line_of_constHit hx
      exact .inl ⟨_, ⟨line, hline, rfl⟩, rfl⟩
    · cases hx
  · exact .inr (congrArg (·, l, n + 1) (s.sentAll_concat as j 1 (s.velemLoad seg off data h _ e)))
end

end Sys2Proof.Machine
end

section
/-! Vector loads and stores (R196 to R198): the obligation. -/

namespace Sys2Proof.Machine

theorem State.vclosed_eq_false {s : State} {seg : Fin 8} {write : Bool} {v : VElem} (h : write = true → kdKind s.th.kd[seg] = 2 →
    listClosed (s.core s.cur) (s.vplace seg v.off % 2 ^ 18) 4 = false) : s.vclosed seg write v = false := by
  unfold State.vclosed
  cases write
  · rfl
  · by_cases hk : kdKind s.th.kd[seg] = 2
    · rw [h rfl hk, Bool.and_false]
    · rw [beq_eq_false_iff_ne.2 hk]
      rfl

/-- The local store of a state in which an instruction has ended is that of its base. -/
theorem Passed.ls {s t : State} {u : Thread} {pc : Word} (h : Passed s u pc t) : (t.core s.cur).ls = (s.core s.cur).ls := by
  rw [h.frame.core]

/-- Places of one core's store that are aligned and different lie four bytes apart. -/
theorem apart_of_aligned {p q c : Nat} (hp : p / 2 ^ 18 = c) (hq : q / 2 ^ 18 = c) (hp4 : p % 4 = 0) (hq4 : q % 4 = 0) (hne : p ≠ q) :
    q % 2 ^ 18 + 4 ≤ p % 2 ^ 18 ∨ p % 2 ^ 18 + 4 ≤ q % 2 ^ 18 := by omega

/-- R198: an element whose page is not translated makes the thread wait, with its elements kept. -/
theorem State.vaccess_miss {s : State} {seg : Fin 8} {act : List Nat} {off : Nat → Int} {data : Nat → BitVec 32} {write : Bool}
    (hc : s.vcheck seg write (velems act off data) = none) (hk : kdKind s.th.kd[seg] = 1) (hne : act ≠ [])
    (hh : ∃ e ∈ act, s.hit (clusterOf s.cur) s.th.ctx (s.vplace seg (off e)) write = none) (d : Field) :
    ∃ q, s.vaccess write seg d (velems act off data) =
      (s.setTh { s.th with walk := some q, vdata := some (act.map (fun e => (e, off e, data e))) }).park .walk := by
  have hempty : (velems act off data).isEmpty = false := by simpa [velems] using hne
  have hk2 : ¬kdKind s.th.kd[seg] = 2 := by omega
  cases write with
  | true =>
    obtain ⟨q, hq⟩ := State.needPages_miss hh _
    refine ⟨q, Eq.trans ?_ hq⟩
    simp only [State.vaccess, State.vstore, hc, if_neg hk2, if_true]
    rfl
  | false =>
    obtain ⟨q, hq⟩ := State.needPages_miss hh _
    refine ⟨q, Eq.trans ?_ hq⟩
    simp only [State.vaccess, State.vload, hc, hempty, if_neg hk2, Bool.false_eq_true, if_false]
    rfl

theorem parkedFor_pages {s : State} (hs : s.thread.isSome = true) (q : WalkReq) (l : List (Nat × Int × BitVec 32)) :
    ParkedFor s .walk ((s.setTh { s.th with walk := some q, vdata := some l }).park .walk) :=
  parkedFor_setTh_park hs (u := { s.th with walk := some q, vdata := some l }) rfl rfl rfl rfl .walk

/-- R198: the end of a vector store whose accesses are sent. -/
theorem passed_sentAll_vfinish (s : State) (acc : Nat → Access) (act : List Nat) :
    Passed { s with flight := s.flight ++ numbered s.nextId (act.map acc), nextId := s.nextId + act.length } s.th.marked s.nextPc
      ((s.sentAll (act.map acc) 0).vfinish false []) := by
  have h := vectorEnded_vfinish (s.sentAll (act.map acc) 0) false []
  unfold VectorEnded State.nextPc at h
  rw [State.th_sentAll, State.sentAll_map] at h
  rw [State.sentAll_map]
  exact h
/-- R198: the end of a vector load whose accesses are sent. -/
theorem passed_sentAll_vloaded (d : Field) (s : State) (acc : Nat → Access) (act : List Nat) :
    Passed { s with flight := s.flight ++ numbered s.nextId (act.map acc), nextId := s.nextId + act.length }
      (s.th.marked.pend (.vector (vreg d).val) [] act.length none) s.nextPc
      (State.vloaded d (s.sentAll (act.map acc) 0, [], act.length)) := by
  have h := passed_vloaded d (s.sentAll (act.map acc) 0, [], act.length)
  unfold State.nextPc at h
  rw [State.th_sentAll, State.sentAll_map] at h
  rw [State.sentAll_map]
  exact h

theorem State.nodup_activeX (s : State) (x : BitVec 4) : (s.activeX x).Nodup := List.nodup_range.filter _

/-- Settles O36: the four instructions are one mould; its checks are the first that fails, and its accesses are folds over the elements. -/
theorem vectorMemory : Obligations.VectorMemory := by
  intro s i write x d a b imm off hs hv ea strided indexed hi seg kd kind granted act at_ eaOf fits k loads
  have he : exec i s = issue s (s.vaccess write seg d (velems act off (s.vdatum write d))) := by
    obtain ⟨rfl, rfl, ho⟩ | ⟨rfl, rfl, ho⟩ | ⟨rfl, rfl, ho⟩ | ⟨rfl, rfl, ho⟩ := hi
    all_goals rw [ho]
    · exact (exec_vectorStrided d a b imm hv x).1
    · exact (exec_vectorStrided d a b imm hv x).2
    · exact (exec_vectorIndexed d a b imm hv x).1
    · exact (exec_vectorIndexed d a b imm hv x).2
  have hkind : kdKind s.th.kd[seg] = kind := kdKind_eq _
  have hgrant (hk : kind = 1 ∨ kind = 2) (hg : granted = true) : s.vgranted seg write := ⟨by rwa [hkind], hg⟩
  have traps {n : Nat} {v : VElem} (hc : s.vcheck seg write (velems act off (s.vdatum write d)) = some (n, v)) :
      Completes i s (Trapped s n (velemEa seg v)) :=
    completes_of_issue hs (he.trans (congrArg (issue s) (State.vaccess_trap hc d))) (trapped_trapAt hs _ _ _)
  have passes (hg : granted = true) (hk : kind = 1 ∨ kind = 2) (hfit : ∀ e ∈ act, fits e)
      (hown : ∀ e ∈ act, kind = 2 → at_ e / 2 ^ 18 = s.cur) (halign : ∀ e ∈ act, at_ e % 4 = 0)
      (hopen : ∀ e ∈ act, kind = 2 → listClosed k (at_ e % 2 ^ 18) 4 = false) :
      s.vcheck seg write (velems act off (s.vdatum write d)) = none :=
    State.vcheck_none _ (hgrant hk hg) hfit (fun e he h2 => hown e he (hkind.symm.trans h2)) halign
      (fun e he => State.vclosed_eq_false fun _ h2 => hopen e he (hkind.symm.trans h2))
  have hnot2 (hk : kind = 1) {P : Nat → Prop} : ∀ e ∈ act, kind = 2 → P e := fun _ _ h2 => absurd (hk.symm.trans h2) (by decide)
  refine ⟨fun e r hact hbad => ?_, fun p e r hact hk hg hp hne => ?_, fun p e r hact hk hg hfit hp hne => ?_,
    fun p e r hact hk hg hall hp hne => ?_, fun p e r hact hk hg hw hall hp hcl => ?_, fun hact => ?_, fun hk hg hall => ⟨fun hw hne => ?_, fun hw => ?_⟩,
    fun hk hg hall hne => ⟨fun h hh hplain => ?_, fun h hh hw hconst => ?_, fun hmiss => ?_⟩⟩
  · have hng : ¬s.vgranted seg write := by
      rintro ⟨hk, hg⟩
      rw [hkind] at hk
      obtain h | h | h := hbad
      · omega
      · omega
      · exact Bool.false_ne_true (h.symm.trans hg)
    refine traps (v := ⟨e, off e, s.vdatum write d e⟩) ?_
    rw [hact]
    exact State.vcheck_rights hng _ _
  · exact traps (State.vcheck_limit _ (hgrant hk hg) hact hp hne)
  · exact traps (State.vcheck_remote _ (hgrant (.inr hk) hg) hact hfit hp (hkind.trans hk) hne)
  · exact traps (State.vcheck_misaligned _ (hgrant hk hg) hact (fun e he => (hall e he).1)
      (fun e he h2 => (hall e he).2 (hkind.symm.trans h2)) hp hne)
  · have hvc (e : Nat) : s.vclosed seg write ⟨e, off e, s.vdatum write d e⟩ = listClosed k (at_ e % 2 ^ 18) 4 := by
      rw [State.vclosed, hkind, hk, hw]
      rfl
    exact traps (State.vcheck_closed _ (hgrant (.inr hk) hg) hact (fun e he => (hall e he).1) (fun e he _ => (hall e he).2.1)
      (fun e he => (hall e he).2.2) (fun e he => (hvc e).trans (hp e he)) ((hvc e).trans hcl))
  · refine completes_of_issue hs he ?_
    rw [hact]
    exact s.vaccess_nil write seg d ▸ vectorEnded_vfinish s false []
  · subst hw
    have hc := passes hg (.inr hk) (fun e he => (hall e he).1) (fun e he _ => (hall e he).2.1) (fun e he => (hall e he).2.2.1)
      (fun e he _ => (hall e he).2.2.2.1)
    refine completes_of_issue hs he ?_
    rw [State.vaccess_load, State.vload_own hc (hkind.trans hk) hne (fun e he => (hall e he).2.2.2.1) (fun e he => (hall e he).2.2.2.2)]
    exact passed_vectorLoad s _ _ 0
  · subst hw
    have hc := passes hg (.inr hk) (fun e he => (hall e he).1) (fun e he _ => (hall e he).2.1) (fun e he => (hall e he).2.2.1)
      (fun e he _ => (hall e he).2.2.2.1)
    have hp := passed_vstore_own hc (hkind.trans hk) (fun e he => (hall e he).2.2.2.2)
    have hls : ((s.vaccess true seg d (velems act off (s.vdatum true d))).core s.cur).ls = s.storedWords seg act off (s.vdatum true d) :=
      hp.ls.trans (State.ls_withLs ..)
    refine completes_of_issue hs he ⟨fun y hy => ?_, fun e hmem hsole n hn => ?_, _, hp⟩
    · rw [hls]
      exact Memory.read_putWords_outside hy _
    · rw [hls]
      refine Memory.read_putWords_inside hmem hn (fun e' he' hee => ?_) _
      exact apart_of_aligned (hall e' he').2.1 (hall e hmem).2.1 (hall e' he').2.2.1 (hall e hmem).2.2.1 (hsole e' he' hee)
  · have hc := passes hg (.inl hk) (fun e he => (hall e he).1) (hnot2 hk) (fun e he => (hall e he).2.1) (hnot2 hk)
    refine completes_of_issue hs he ?_
    cases write with
    | true =>
      rw [State.vaccess_store, State.vstore_device hc (hkind.trans hk) hh (fun e he => (hall e he).2.2)]
      refine ⟨numbered s.nextId (act.map (s.velemStore seg off (s.vdatum true d) h)), map_numbered_map (fun _ _ => rfl) _ _ _, ?_,
        fun _ => map_numbered_map (fun _ _ => rfl) _ _ _, fun hf => absurd hf (by decide), ?_⟩
      · rw [map_seq_numbered, List.length_map]
      · exact passed_sentAll_vfinish s _ act
    | false =>
      have hnconst : kd.getLsbD 57 = false := hplain.resolve_left (by decide)
      rw [State.vaccess_load, State.vload_device hc (hkind.trans hk) hne hh (fun e he => (hall e he).2.2) hnconst]
      refine ⟨numbered s.nextId (act.map (s.velemLoad seg off (s.vdatum false d) h none)), map_numbered_map (fun _ _ => rfl) _ _ _, ?_,
        fun hf => absurd hf (by decide), fun _ => map_numbered_map (fun _ _ => rfl) _ _ _, ?_⟩
      · rw [map_seq_numbered, List.length_map]
      · exact passed_sentAll_vloaded d s _ act
  · subst hw
    have hc := passes hg (.inl hk) (fun e he => (hall e he).1) (hnot2 hk) (fun e he => (hall e he).2.1) (hnot2 hk)
    obtain ⟨vals, bs, hserved, hload⟩ := State.vload_const hc (hkind.trans hk) hne hh (fun e he => (hall e he).2.2) hconst d
    obtain ⟨hvals, hbs⟩ := hserved.parts (s.nodup_activeX x)
    refine completes_of_issue hs he ?_
    rw [State.vaccess_load, hload]
    refine ⟨vals, numbered s.nextId bs, hvals, hserved.line_of_mem, ?_, ?_, ?_⟩
    · rw [map_numbered (fun _ _ => rfl), hbs, List.map_map]
      rfl
    · rw [map_seq_numbered, length_numbered]
    · rw [length_numbered]
      exact passed_vloaded d (s.sentAll bs act.length, vals, bs.length)
  · have hc := passes hg (.inl hk) (fun e he => (hall e he).1) (hnot2 hk) (fun e he => (hall e he).2.1) (hnot2 hk)
    obtain ⟨q, hpark⟩ := State.vaccess_miss hc (hkind.trans hk) hne hmiss d
    refine completes_of_issue hs he ?_
    rw [hpark]
    exact ⟨parkedFor_pages hs q _, rfl, _, State.thread_setTh .., by rw [State.th_setTh]; rfl⟩

end Sys2Proof.Machine
end
